-- ==== Sys2Proof/Word.lean ====
section
/-! DEFINITION. Word.lean: the words of the package and nothing else. Registers are 32 bits wide, general registers
and doublewords 64 bits (00_scope.md "Register tables and access codes", R135). -/
namespace Sys2Proof

/-- A byte of any memory. -/
abbrev Byte := BitVec 8
/-- A register word (R8: registers are 32 bits wide). -/
abbrev W32 := BitVec 32
/-- A general register, a doubleword, a DTB count (R39, R135). -/
abbrev Word := BitVec 64
/-- A finite table: pairs of a key and a value, keys rising, no pair equal to what an unlisted key reads as. -/
abbrev Tab (α : Type) := List (Nat × α)

end Sys2Proof
end

