-- ==== Sys2Proof/Operand.lean ====
section
/-! DEFINITION. Operand.lean: the kinds of operand the commands carry: cores, initiators, rails, frames. -/
namespace Sys2Proof

/-- A Quecen core (R131): 0–9 are A0–A7, P0, P1; then the Heel core; then the keepers K0–K3. -/
inductive CoreId where
  | sole (n : Fin 10)
  | heel
  | keeper (d : Fin 4)
deriving DecidableEq, Repr

/-- Who issues a request (R193, R202). -/
inductive Ini where
  /-- A core at the privileged (true) or the user level. -/
  | core (c : CoreId) (priv : Bool)
  /-- The Sole's security block, management port, trace unit and fault manager: guards 10–13. -/
  | soleUnit (u : Fin 4)
  /-- Engine e of die d; sub is the stream unit, or 0x20 + q (R249). -/
  | engine (d : Fin 4) (e : Fin 8) (sub : BitVec 6)
  /-- Fabric region r of die d and its network port. -/
  | region (d : Fin 4) (r : Fin 8) (port : BitVec 6)
  /-- A request of another package p that arrives at die d's Lace ingress. -/
  | package (p : BitVec 8) (d : Fin 4)
  /-- The debug port (R194, R583). -/
  | debug
deriving DecidableEq, Repr

/-- The kind of a request (R195). -/
inductive Kind where
  | read | write | fetch | atomic
deriving DecidableEq, Repr

/-- A supply rail the Heel monitors against a window (R52, R63). VBAT has its own thresholds (R62). -/
inductive Rail where
  | vcc5 | vddioH | vddHeel
  | vio18 | vddSole | vddLpphy | vddqLp
  | vddC (d : Fin 4) | vlaceC (d : Fin 4) | vlacehC (d : Fin 4) | viofC (d : Fin 4)
  | vddL (l : Fin 2) | vppL (l : Fin 2)
deriving DecidableEq, Repr

/-- The four variants of the package (R17). -/
inductive Variant where
  | nx848 | nx524 | nx312 | nx200
deriving DecidableEq, Repr

/-- How a PMBus transaction ends (R67): acknowledged, not acknowledged, a PEC mismatch, or another device drove the bus. -/
inductive PmbEnd where
  | done | nack | pecErr | arbLost
deriving DecidableEq, Repr

/-- The operation of an atomic (R141, R145): add, swap, or compare with a value and swap. -/
inductive AtomOp where
  | add | swap | cas (expect : Word)
deriving DecidableEq, Repr

/-- The register functions of the signal lane that may follow RPT (R174, OP 0x38). -/
inductive LaneReg where
  | cmul | cmac | cmsb | cmacj | cadd | csub | crot | cconj | dot8 | dot8su
deriving DecidableEq, Repr

/-- The memory functions of the signal lane that may follow RPT (R174, OP 0x3B). -/
inductive LaneMem where
  | cldp | cmacm | cmacr | dot8m | dot8msu
deriving DecidableEq, Repr

/-- The instruction in the word after an RPT (R176): a lane instruction with its D, A and B fields and its step bits (bit 0 STEPA, 1 STEPB,
2 STEPD), or any other word. -/
inductive Follower where
  | reg (f : LaneReg) (d a b : BitVec 5) (steps : BitVec 3)
  | mem (f : LaneMem) (d a b : BitVec 5) (steps : BitVec 3)
  | other
deriving DecidableEq, Repr

/-- The integrity state of a 64-byte line (R206): clean (not listed), with a single-bit error, uncorrectable on the first read and clean, or with a
single-bit error, on the second (R207), uncorrectable, or poisoned. -/
inductive LineState where
  | clean
  | single
  | onceBad
  | onceSingle
  | uncorrectable
  | poisoned
deriving DecidableEq, Repr

/-- A packet as an Awl probe sees it (R218, R241). -/
structure Pkt where
  kind : BitVec 4
  cls : BitVec 4
  vc : BitVec 2
  prio : BitVec 2
  early : Bool
  routed : Bool
  demoted : Bool
  ini : BitVec 16
  tag : BitVec 16
  addr : BitVec 48
  len : BitVec 9
deriving DecidableEq, Repr

/-- The fields of a received TS1 or, where ts2 says so, TS2 (R390); phase is 0 for negotiation, else the RATES bit of the rate being trained. -/
structure TrainSet where
  ts2 : Bool
  lane : Fin 4
  link : BitVec 6
  pkg : BitVec 8
  rates : BitVec 4
  phase : BitVec 4
  locked : Bool
  adapted : Bool
  warden : Bool
  felAllow : Bool
deriving DecidableEq, Repr

/-- What the header of every link packet carries (R414, R415). -/
structure LHdr where
  ackv : Bool
  nak : Bool
  ackseq : BitVec 12
  cvc : BitVec 2
  credits : BitVec 8
deriving DecidableEq, Repr

/-- The network packet of a DATA packet (R414): a request, a signal or an answer. -/
inductive LBody where
  | req (k : Kind) (addr : Word) (len : BitVec 9) (posted early : Bool) (data : List Byte) (op : AtomOp) (v : Word)
  | sig (handle add : W32)
  | resp (reason : BitVec 4) (data : List Byte)
deriving DecidableEq, Repr

/-- A DATA packet (R414): destination and source package, links crossed so far, the initiator and the transaction tag at the source package, the label, the body. -/
structure LData where
  dpkg : BitVec 8
  spkg : BitVec 8
  hops : BitVec 4
  ini : BitVec 16
  tag : BitVec 16
  cls : BitVec 4
  body : LBody
deriving DecidableEq, Repr

/-- What a link packet carries (R414, R422, R425, R426): a DATA packet; a MARK with its window and the outcome it announces; a swap request; a retraining request; the credits of a
CREDIT_INIT for REQ, RSP and FWD. -/
inductive LWhat where
  | data (p : LData)
  | mark (w out : Nat)
  | swap
  | retrain
  | creditInit (req rsp fwd : Nat)
deriving DecidableEq, Repr

/-- What goes wrong in a step (R441): the arithmetic effect on an accumulator's update, or on a significand product; the exponent bits that flip; the two results of the
duplicated rounding stage. -/
inductive StepErr where
  | sum (effect : Int)
  | product (effect : Int)
  | exponent (flips : BitVec 16)
  | rounding (a b : W32)
deriving DecidableEq, Repr

/-- A CAN or CAN FD frame as it is on the bus (R503, R508, R512). -/
structure CanFrame where
  id : BitVec 29
  ide : Bool
  rtr : Bool
  fdf : Bool
  brs : Bool
  esi : Bool
  dlc : BitVec 4
  data : List Byte
deriving DecidableEq, Repr

/-- A bus error that ISO 11898-1 names (MBC_STAT.LEC): bit1 and bit0 are the bit sent that read back otherwise. -/
inductive BusErr where
  | stuff | form | ack | bit1 | bit0 | crc
deriving DecidableEq, Repr

/-- How a transmission attempt ends (R509, R514, R515). Of an error: whether it fell in the data phase; whether it is one that leaves TEC unchanged (no dominant bit
seen in the passive error flag after an acknowledgement error; a stuff error in arbitration); how often eight more dominant bits followed its flag. -/
inductive TxEnd where
  | ok
  | lost
  | err (e : BusErr) (data quiet : Bool) (more : Nat)
deriving DecidableEq, Repr

/-- What a receiver meets (R503, R515): an error, with whether a dominant bit followed its error flag at once and how often eight more did; a recessive res bit. -/
inductive RxBad where
  | err (e : BusErr) (data first : Bool) (more : Nat)
  | res
deriving DecidableEq, Repr

/-- A fault of a message bus controller (R528): a corrected word; an uncorrectable word of transmit buffer b, 32 the pass-through element, or of receive element e of the
FIFO or of the pass-through queue, with whether it stays unreadable; a disagreement of the duplicated protocol engine. -/
inductive MbcBad where
  | corrected
  | tx (b : Fin 33) (stays : Bool)
  | rx (fifo : Bool) (e : Fin 48) (stays : Bool)
  | engine
deriving DecidableEq, Repr

/-- What a transceiver in DECODING decodes (R550): a valid classical frame, a frame with a stuff, form or CRC error, an FD frame. -/
inductive SwFrame where
  | valid (f : CanFrame)
  | bad
  | fd
deriving DecidableEq, Repr

end Sys2Proof
end

