-- ==== Sys2Proof/Syntax.lean ====
section
/-! DEFINITION. Syntax.lean: the commands of the package, one constructor per row of spec/opcode_table.json, in the
table's order. A command carries what it names (a register, an index, a value) and, where it is an event, what the outside shows
at that moment (a level, a measured value, a received frame, the verdict of a signature): notes/assumptions/5.md. -/
namespace Sys2Proof

/-- A command (spec/opcode_table.json). -/
inductive Instr where
  /-- REG_WRITE. An aligned 32-bit write to a register that has no row of its own stores or clears its fields by their access codes. (R9) -/
  | regWrite (i : Ini) (a : Word) (n : Nat) (v : W32)
  /-- REFCLK_LOSS. No REFCLK edge for 2 µs: REFCLK is declared lost, the DTB tick and body reference move to the fallback PLL, and SRC and REFLOSS set. (R35) -/
  | refclkLoss
  /-- XTAL32_LOSS. No XTAL32 edge for 4 ms: the RTC is derived from LPRC with the gap ticks added, and RTC_LPRC sets. (R35) -/
  | xtal32Loss (periods : Nat)
  /-- REFLOSS_CLEAR. A W1C clear of TBASE_STATUS.REFLOSS returns the tick to REFCLK if REFCLK is present, and is otherwise ignored. (R35) -/
  | reflossClear (i : Ini) (present : Bool)
  /-- RTC_LPRC_CLEAR. A W1C clear of TBASE_STATUS.RTC_LPRC returns the RTC to XTAL32 if XTAL32 is present, and is otherwise ignored. (R35) -/
  | rtcLprcClear (i : Ini) (present : Bool)
  /-- DTB_SYNC_MESSAGE. Every 65,536 ticks the master sends its count to every copy, and copies that are behind are stepped forward. (R40) -/
  | dtbSyncMessage
  /-- HEEL_PLL_LOCK. The Heel PLL locks, so that the DTB tick and body reference can come from REFCLK. (R33) -/
  | heelPllLock
  /-- DTB_ALIGN. At the first XTAL32 edge after PLL lock, the Heel loads the master by the Thaw, cold-boot or Heel-reset rule and sets ALIGNED. (R45) -/
  | dtbAlign
  /-- TBASE_CAPTURE. At each XTAL32 edge where the RTC is a multiple of 32,768, the Heel writes TBASE_OFFSET and TBASE_MARK to Insole. (R47) -/
  | tbaseCapture
  /-- TBASE_NOW_READ. A read of TBASE_NOW_LO returns the master's low word and latches its high word for the same initiator. (R39) -/
  | tbaseNowRead (i : Ini)
  /-- TBASE_RTC_READ. A read of TBASE_RTC_LO returns the RTC low word and latches bits 47:32 into HI. (R44) -/
  | tbaseRtcRead (i : Ini)
  /-- ALARM_COMMIT. A write to TBASE_ALM_HIn commits the compare value, and the alarm fires at once if that value is already reached. (R49) -/
  | alarmCommit (i : Ini) (n : Fin 8) (v : W32)
  /-- ALARM_FIRE. An enabled alarm reaches its compare value: it sets PEND, raises its interrupt and signal, and in periodic mode re-arms. (R49) -/
  | alarmFire (n : Fin 8)
  /-- RAIL_OUT_OF_WINDOW. A rail that has been outside its window for 10 µs causes a Heel brown-out, a Sole supply reset or a forced Autumn, according to its domain. (R63) -/
  | railOutOfWindow (r : Rail)
  /-- RAIL_IN_WINDOW. A rail that has been continuously inside its window for 100 µs counts as in window, which may release its domain from reset. (R58) -/
  | railInWindow (r : Rail)
  /-- AON_POWER_ON_RESET. VBAT falls below 2.5 V or the device is first powered: everything resets and the device cold-boots. (R70) -/
  | aonPowerOnReset (left : Bool)
  /-- AON_RELEASE. The always-on logic is released after VBAT rises above 2.8 V, and INH is driven high. (R75) -/
  | aonRelease
  /-- HEEL_BROWNOUT. VBAT below 4.5 V resets the Heel main and Sole domains, turns the dies off and stops the full-mode regulator. (R62) -/
  | heelBrownout
  /-- VBAT_LOW_ENTER. VBAT falls below 5.8 V: VBAT_LOW sets and output diagnosis is suspended. (R62) -/
  | vbatLowEnter
  /-- VBAT_LOW_EXIT. VBAT rises above 6.2 V: VBAT_LOW clears and diagnosis resumes. (R62) -/
  | vbatLowExit
  /-- VBAT_OV_ENTER. VBAT rises past 38 V: VBAT_OV sets, all outputs, half-bridges and gates turn off, and running patterns end ABORTED. (R62) -/
  | vbatOvEnter
  /-- VBAT_OV_EXIT. VBAT falls below 36 V: VBAT_OV clears and the 1 ms restore wait starts. (R62) -/
  | vbatOvExit
  /-- VBAT_OV_RESTORE. 1 ms after overvoltage recovery, the commanded output states and keep paths are restored. (R62) -/
  | vbatOvRestore
  /-- RESET_PIN. RST_N low for 10 µs resets the Heel main and Sole domains and cold-boots with Insole kept. (R70) -/
  | resetPin
  /-- RST_REQ_ARM. A first write of 0x0000_A5A5 to PWR_RST_REQ arms a software reset request. (R71) -/
  | rstReqArm (i : Ini)
  /-- SW_SYSTEM_RESET. A timely second write with scope SYSTEM resets the Heel main and Sole domains. (R71) -/
  | swSystemReset (i : Ini)
  /-- SW_SOLE_RESET. A timely second write with scope SOLE resets the Sole domain and turns the dies off. (R71) -/
  | swSoleReset (i : Ini)
  /-- SW_DIE_RESET. A timely second write with scope DIE d resets die d, which passes through STARTING and reboots its keeper. (R71) -/
  | swDieReset (i : Ini) (d : Fin 4)
  /-- WATCHDOG_EXPIRE. Watchdog 0 expiry resets the Heel main domain, and watchdog 1 expiry resets the Sole domain. (R70) -/
  | watchdogExpire (n : Fin 2)
  /-- WDOG_KICK. A write of 0x0000_A55A to PWR_WDOG_KICKn restarts the count; any other value expires the watchdog at once. (R70) -/
  | wdogKick (i : Ini) (n : Fin 2) (v : W32)
  /-- WDOG_CFG_WRITE. A write to PWR_WDOG_CFGn sets the timeout and restarts the count, and EN once set stays set. (R70) -/
  | wdogCfgWrite (i : Ini) (n : Fin 2) (v : W32)
  /-- REGULATOR_IN_WINDOW. The full-mode regulator outputs come into window, which allows the Heel main release. (R75) -/
  | regulatorInWindow
  /-- HEEL_MAIN_RELEASE. The Heel main domain is released: the save list is restored after a Thaw, the summary is read and the boot ROM starts. (R75) -/
  | heelMainRelease (refclk : Bool)
  /-- SOLE_RELEASE. The Sole domain is released: SRAM is initialised, host memory training starts, the wake record is appended and A0 boots. (R75) -/
  | soleRelease (straps : Byte)
  /-- PMB_START. Setting PWR_PMB_CMD.START begins a PMBus transaction, unless one is already running. (R67) -/
  | pmbStart (i : Ini) (v : W32)
  /-- PMB_DONE. A PMBus transaction ends and sets DONE, NACK, PEC_ERR or ARB_LOST. (R67) -/
  | pmbDone (end_ : PmbEnd) (data : BitVec 16)
  /-- PMB_TIMEOUT. SCL held low for 35 ms on the DTB ends the transaction with TIMEOUT. (R67) -/
  | pmbTimeout
  /-- PWR_REQ_AUTUMN. Writing 0x1 to PWR_REQ runs the Autumn entry in Summer or Autumn to Summer. (R85) -/
  | pwrReqAutumn (i : Ini)
  /-- PWR_REQ_SUMMER. Writing 0x2 to PWR_REQ in Autumn raises the EN_ pins of present dies that are not retired and stages the Die image. (R87) -/
  | pwrReqSummer (i : Ini)
  /-- DIE_RESET_RELEASE. A die's power-up reset is released once its rails are in window: its bridges' LIVE_WELT bits set and STARTING begins. (R88) -/
  | dieResetRelease (x : Fin 6)
  /-- DIE_INIT_SCRUB_DONE. Engine memory and powered Larders have been written with zeros and valid tags, and the keeper may boot the Die image. (R87) -/
  | dieInitScrubDone (x : Fin 6)
  /-- DIE_IMAGE_CHECK. A keeper has fetched the staged body and compared its digest and DI, and the die becomes LIVE or UNAGREED. (R117) -/
  | dieImageCheck (d : Fin 4)
  /-- THERMAL_SAMPLE. Every 100 µs the die junction sensors are sampled, and two consecutive readings above 135 °C force Autumn. (R89) -/
  | thermalSample (t : List Int)
  /-- WINTER_REQ_ARM. A first write of 0x0000_C3C3 to PWR_WINTER_REQ arms a Winter request. (R81) -/
  | winterReqArm (i : Ini)
  /-- WINTER_REQ. A timely second write compares WAKE_PEND with WAKE_EN and either refuses, or raises the Winter notice and starts the grace period. (R82) -/
  | winterReq (i : Ini)
  /-- PWR_HEEL_ACK. A write by the Heel core to PWR_HEEL_ACK ends the grace period and commits or refuses the entry. (R83) -/
  | pwrHeelAck (i : Ini) (v : W32)
  /-- WINTER_GRACE_EXPIRE. The grace period ends without an acknowledgement: NOACK sets, and the entry commits or is refused LATE. (R83) -/
  | winterGraceExpire
  /-- WINTER_SAVE. The save-list registers are copied into the Insole save block and the always-on settings are loaded, after which keep paths turn on. (R94) -/
  | winterSave
  /-- WINTER_CAPTURE. At the next XTAL32 edge the RTC and DTB are captured into TBASE_OFFSET, INH goes high impedance and VAON hands over to the Winter regulator. (R44) -/
  | winterCapture
  /-- INSOLE_CHECK_DONE. The whole-Insole check completes; if it fails, Insole is reinitialised and the Thaw becomes a cold boot. (R95) -/
  | insoleCheckDone
  /-- WINTER_BROWNOUT. VAON falls below 0.70 V in Winter: the always-on logic resets and reloads, the brown-out count advances and a Thaw starts. (R104) -/
  | winterBrownout
  /-- RTC_ALARM_WAKE. The RTC equals WAKE_RTC_ALM, which sets WAKE_PEND.RTC. (R99) -/
  | rtcAlarmWake
  /-- WAKE_PIN_CONFIRM. A filtered edge on a WAKEn input sets WAKE_PEND.PIN. (R99) -/
  | wakePinConfirm (n : Fin 4) (rising : Bool)
  /-- ENGINE_GATE. An engine whose gate bit is set becomes idle and is gated. (R105) -/
  | engineGate (g : Fin 32)
  /-- HEEL_BOOT_VERIFY. Verification of the selected Heel image ends: the core enters it, falls back once to the other slot, or stays in ROM. (R115) -/
  | heelBootVerify
  /-- SOLE_BOOT_VERIFY. Verification and loading of the Sole image ends: A0 announces HI and enters it, falls back, or halts with SOLE_FAIL. (R116) -/
  | soleBootVerify
  /-- VER_CHECK. BOOT_VER_CTL START with PURPOSE 0 verifies the object at BOOT_VER_SRC. (R112) -/
  | verCheck (i : Ini)
  /-- VER_STAGE_DIE. BOOT_VER_CTL START with PURPOSE 1 verifies a Die image and stages it. (R117) -/
  | verStageDie (i : Ini)
  /-- VER_STAGE_SOLE. BOOT_VER_CTL START with PURPOSE 2 stages a Sole image, refusing an overlapping range with OVERLAP. (R126) -/
  | verStageSole (i : Ini)
  /-- VER_REGISTER_FAB. BOOT_VER_CTL START with PURPOSE 3 verifies a fabric load and registers it. (R112) -/
  | verRegisterFab (i : Ini)
  /-- VER_APPLY_KEY. BOOT_VER_CTL START with PURPOSE 4 verifies a key record and programs the key slot or image key. (R113) -/
  | verApplyKey (i : Ini)
  /-- VER_JOB_DONE. A verification job ends with its code in BOOT_VER_STAT, and on failure its written bytes are zeroed. (R112) -/
  | verJobDone
  /-- ROLL_COMMIT. A keyed write to BOOT_ROLL_COMMIT raises the named rollback counters to the relevant SVN. (R114) -/
  | rollCommit (i : Ini) (v : W32)
  /-- SWAP_REQUEST. A keyed write to BOOT_SWAP checks the named parts and epochs, and raises the handover interrupt if the Heel is named. (R127) -/
  | swapRequest (i : Ini) (v : W32)
  /-- HEEL_HANDOVER. A write by the Heel core to BOOT_HEEL_HANDOVER acknowledges the handover so that the swap commits. (R127) -/
  | heelHandover (i : Ini) (v : W32)
  /-- HANDOVER_TIMEOUT. No handover within 100 ms aborts the swap with NOACK. (R127) -/
  | handoverTimeout
  /-- SWAP_CORE_ENTER. A Sole core stopped for a swap enters the new image with registers and lane state cleared and WARM set. (R168) -/
  | swapCoreEnter (n : Fin 10)
  /-- STORE_LINE_WRITE. An aligned 64-byte write to an erased line of the image store, with WEN set, begins programming it. (R108) -/
  | storeLineWrite (i : Ini) (a : Word) (data : List Byte)
  /-- STORE_ERASE. BOOT_ST_CTL.ERASE begins erasing SECTOR, unless the sector is refused. (R108) -/
  | storeErase (i : Ini) (sector : BitVec 9)
  /-- STORE_OP_DONE. A line program or sector erase completes and BUSY clears. (R109) -/
  | storeOpDone
  /-- HCMD_PUSH. A word pushed into BOOT_HCMD_TX is queued, and a push into a full queue is refused. (R122) -/
  | hcmdPush (i : Ini) (w : W32)
  /-- HCMD_OUT_SET. The epoch-0 OUT_SET command turns a channel on at full duty, or drives a half-bridge HIGH. (R461) -/
  | hcmdOutSet
  /-- HCMD_OUT_CLEAR. The epoch-0 OUT_CLEAR command turns a channel or half-bridge off. (R461) -/
  | hcmdOutClear
  /-- HCMD_OUT_PWM. The epoch-0 OUT_PWM command runs a channel or half-bridge in PWM with the given DUTY and PERIOD. (R461) -/
  | hcmdOutPwm
  /-- HCMD_IN_READ. The epoch-0 IN_READ command returns the filtered levels of SW00–SW63. (R123) -/
  | hcmdInRead
  /-- HCMD_BUS_TX. The epoch-0 BUS_TX command sends one frame through a controller's pass-through buffer. (R513) -/
  | hcmdBusTx
  /-- HCMD_BUS_RX. The epoch-0 BUS_RX command returns and releases the oldest pass-through received frame. (R513) -/
  | hcmdBusRx
  /-- HCMD_WINTER. The epoch-0 WINTER command acts as the two writes to PWR_WINTER_REQ. (R123) -/
  | hcmdWinter
  /-- HCMD_IMAGE_OPCODE. Opcodes 0x80–0xFF pass to the Heel image while HI agrees, and otherwise return EPOCH. (R124) -/
  | hcmdImageOpcode (status : Byte) (ws : List W32)
  /-- HCMD_UNKNOWN_OPCODE. Opcodes 0x00 and 0x08–0x7F return BAD_ARG. (R124) -/
  | hcmdUnknownOpcode
  /-- HCMD_POP. A read of BOOT_HCMD_RX pops one response word, or reads zero when the queue is empty. (R122) -/
  | hcmdPop (i : Ini)
  /-- ADD. gd = ga + gb. (R141) -/
  | add (c : CoreId) (d : BitVec 5) (a : BitVec 5) (b : BitVec 5)
  /-- SUB. gd = ga − gb. (R141) -/
  | sub (c : CoreId) (d : BitVec 5) (a : BitVec 5) (b : BitVec 5)
  /-- AND. gd = ga AND gb. (R141) -/
  | and (c : CoreId) (d : BitVec 5) (a : BitVec 5) (b : BitVec 5)
  /-- OR. gd = ga OR gb. (R141) -/
  | or (c : CoreId) (d : BitVec 5) (a : BitVec 5) (b : BitVec 5)
  /-- XOR. gd = ga XOR gb. (R141) -/
  | xor (c : CoreId) (d : BitVec 5) (a : BitVec 5) (b : BitVec 5)
  /-- SLL. Shifts ga left by gb[5:0]. (R141) -/
  | sll (c : CoreId) (d : BitVec 5) (a : BitVec 5) (b : BitVec 5)
  /-- SRL. Shifts ga right, logically, by gb[5:0]. (R141) -/
  | srl (c : CoreId) (d : BitVec 5) (a : BitVec 5) (b : BitVec 5)
  /-- SRA. Shifts ga right, arithmetically, by gb[5:0]. (R141) -/
  | sra (c : CoreId) (d : BitVec 5) (a : BitVec 5) (b : BitVec 5)
  /-- SLT. gd = 1 if ga < gb, signed, else 0. (R141) -/
  | slt (c : CoreId) (d : BitVec 5) (a : BitVec 5) (b : BitVec 5)
  /-- SLTU. gd = 1 if ga < gb, unsigned, else 0. (R141) -/
  | sltu (c : CoreId) (d : BitVec 5) (a : BitVec 5) (b : BitVec 5)
  /-- MIN. gd = signed minimum of ga and gb. (R141) -/
  | min (c : CoreId) (d : BitVec 5) (a : BitVec 5) (b : BitVec 5)
  /-- MAX. gd = signed maximum of ga and gb. (R141) -/
  | max (c : CoreId) (d : BitVec 5) (a : BitVec 5) (b : BitVec 5)
  /-- MINU. gd = unsigned minimum of ga and gb. (R141) -/
  | minu (c : CoreId) (d : BitVec 5) (a : BitVec 5) (b : BitVec 5)
  /-- MAXU. gd = unsigned maximum of ga and gb. (R141) -/
  | maxu (c : CoreId) (d : BitVec 5) (a : BitVec 5) (b : BitVec 5)
  /-- MUL. gd = low 64 bits of ga × gb. (R141) -/
  | mul (c : CoreId) (d : BitVec 5) (a : BitVec 5) (b : BitVec 5)
  /-- MULH. gd = high 64 bits of the signed product. (R141) -/
  | mulh (c : CoreId) (d : BitVec 5) (a : BitVec 5) (b : BitVec 5)
  /-- MULHU. gd = high 64 bits of the unsigned product. (R141) -/
  | mulhu (c : CoreId) (d : BitVec 5) (a : BitVec 5) (b : BitVec 5)
  /-- DIV. gd = signed quotient rounded toward zero, with the defined division-by-zero result. (R141) -/
  | div (c : CoreId) (d : BitVec 5) (a : BitVec 5) (b : BitVec 5)
  /-- DIVU. gd = unsigned quotient. (R141) -/
  | divu (c : CoreId) (d : BitVec 5) (a : BitVec 5) (b : BitVec 5)
  /-- REM. gd = signed remainder. (R141) -/
  | rem (c : CoreId) (d : BitVec 5) (a : BitVec 5) (b : BitVec 5)
  /-- REMU. gd = unsigned remainder. (R141) -/
  | remu (c : CoreId) (d : BitVec 5) (a : BitVec 5) (b : BitVec 5)
  /-- CLZ. gd = count of leading zeros of ga. (R141) -/
  | clz (c : CoreId) (d : BitVec 5) (a : BitVec 5)
  /-- CTZ. gd = count of trailing zeros of ga. (R141) -/
  | ctz (c : CoreId) (d : BitVec 5) (a : BitVec 5)
  /-- POPC. gd = count of set bits of ga. (R141) -/
  | popc (c : CoreId) (d : BitVec 5) (a : BitVec 5)
  /-- ADDW. 32-bit add, sign-extended. (R141) -/
  | addw (c : CoreId) (d : BitVec 5) (a : BitVec 5) (b : BitVec 5)
  /-- SUBW. 32-bit subtract, sign-extended. (R141) -/
  | subw (c : CoreId) (d : BitVec 5) (a : BitVec 5) (b : BitVec 5)
  /-- ADDI. gd = ga + IMM. (R140) -/
  | addi (c : CoreId) (d : BitVec 5) (a : BitVec 5) (imm : BitVec 16)
  /-- ANDI. gd = ga AND zext(IMM). (R140) -/
  | andi (c : CoreId) (d : BitVec 5) (a : BitVec 5) (imm : BitVec 16)
  /-- ORI. gd = ga OR zext(IMM). (R140) -/
  | ori (c : CoreId) (d : BitVec 5) (a : BitVec 5) (imm : BitVec 16)
  /-- XORI. gd = ga XOR zext(IMM). (R140) -/
  | xori (c : CoreId) (d : BitVec 5) (a : BitVec 5) (imm : BitVec 16)
  /-- SLLI. Shifts ga left by IMM[5:0]. (R140) -/
  | slli (c : CoreId) (d : BitVec 5) (a : BitVec 5) (sh : BitVec 6)
  /-- SRLI. Shifts ga right, logically, by IMM[5:0]. (R140) -/
  | srli (c : CoreId) (d : BitVec 5) (a : BitVec 5) (sh : BitVec 6)
  /-- SRAI. Shifts ga right, arithmetically, by IMM[5:0]. (R140) -/
  | srai (c : CoreId) (d : BitVec 5) (a : BitVec 5) (sh : BitVec 6)
  /-- SLTI. gd = 1 if ga < IMM, signed. (R140) -/
  | slti (c : CoreId) (d : BitVec 5) (a : BitVec 5) (imm : BitVec 16)
  /-- SLTIU. gd = 1 if ga < sign-extended IMM, unsigned. (R140) -/
  | sltiu (c : CoreId) (d : BitVec 5) (a : BitVec 5) (imm : BitVec 16)
  /-- LUI. gd = IMM << 16, sign-extended. (R140) -/
  | lui (c : CoreId) (d : BitVec 5) (imm : BitVec 16)
  /-- SHORI. gd = (ga << 16) OR zext(IMM). (R140) -/
  | shori (c : CoreId) (d : BitVec 5) (a : BitVec 5) (imm : BitVec 16)
  /-- LB. Loads a sign-extended byte. (R140) -/
  | lb (c : CoreId) (d : BitVec 5) (a : BitVec 5) (imm : BitVec 16)
  /-- LBU. Loads a zero-extended byte. (R140) -/
  | lbu (c : CoreId) (d : BitVec 5) (a : BitVec 5) (imm : BitVec 16)
  /-- LH. Loads a sign-extended halfword. (R140) -/
  | lh (c : CoreId) (d : BitVec 5) (a : BitVec 5) (imm : BitVec 16)
  /-- LHU. Loads a zero-extended halfword. (R140) -/
  | lhu (c : CoreId) (d : BitVec 5) (a : BitVec 5) (imm : BitVec 16)
  /-- LW. Loads a sign-extended word. (R140) -/
  | lw (c : CoreId) (d : BitVec 5) (a : BitVec 5) (imm : BitVec 16)
  /-- LWU. Loads a zero-extended word. (R140) -/
  | lwu (c : CoreId) (d : BitVec 5) (a : BitVec 5) (imm : BitVec 16)
  /-- LD. Loads a doubleword. (R140) -/
  | ld (c : CoreId) (d : BitVec 5) (a : BitVec 5) (imm : BitVec 16)
  /-- SB. Stores a byte, posted or non-posted according to the target's attribute. (R143) -/
  | sb (c : CoreId) (d : BitVec 5) (a : BitVec 5) (imm : BitVec 16)
  /-- SH. Stores a halfword. (R143) -/
  | sh (c : CoreId) (d : BitVec 5) (a : BitVec 5) (imm : BitVec 16)
  /-- SW. Stores a word. (R143) -/
  | sw (c : CoreId) (d : BitVec 5) (a : BitVec 5) (imm : BitVec 16)
  /-- SD. Stores a doubleword. (R143) -/
  | sd (c : CoreId) (d : BitVec 5) (a : BitVec 5) (imm : BitVec 16)
  /-- AMOADD_W. 32-bit atomic add, which returns the old value. (R145) -/
  | amoaddW (c : CoreId) (d : BitVec 5) (a : BitVec 5) (b : BitVec 5)
  /-- AMOADD_D. 64-bit atomic add. (R145) -/
  | amoaddD (c : CoreId) (d : BitVec 5) (a : BitVec 5) (b : BitVec 5)
  /-- AMOSWAP_W. 32-bit atomic swap. (R145) -/
  | amoswapW (c : CoreId) (d : BitVec 5) (a : BitVec 5) (b : BitVec 5)
  /-- AMOSWAP_D. 64-bit atomic swap. (R145) -/
  | amoswapD (c : CoreId) (d : BitVec 5) (a : BitVec 5) (b : BitVec 5)
  /-- CAS_W. 32-bit compare-and-swap against the low word of gd. (R145) -/
  | casW (c : CoreId) (d : BitVec 5) (a : BitVec 5) (b : BitVec 5)
  /-- CAS_D. 64-bit compare-and-swap. (R145) -/
  | casD (c : CoreId) (d : BitVec 5) (a : BitVec 5) (b : BitVec 5)
  /-- BEQ. Branches if ga = gb. (R140) -/
  | beq (c : CoreId) (a : BitVec 5) (b : BitVec 5) (off : BitVec 16)
  /-- BNE. Branches if ga ≠ gb. (R140) -/
  | bne (c : CoreId) (a : BitVec 5) (b : BitVec 5) (off : BitVec 16)
  /-- BLT. Branches if ga < gb, signed. (R140) -/
  | blt (c : CoreId) (a : BitVec 5) (b : BitVec 5) (off : BitVec 16)
  /-- BGE. Branches if ga ≥ gb, signed. (R140) -/
  | bge (c : CoreId) (a : BitVec 5) (b : BitVec 5) (off : BitVec 16)
  /-- BLTU. Branches if ga < gb, unsigned. (R140) -/
  | bltu (c : CoreId) (a : BitVec 5) (b : BitVec 5) (off : BitVec 16)
  /-- BGEU. Branches if ga ≥ gb, unsigned. (R140) -/
  | bgeu (c : CoreId) (a : BitVec 5) (b : BitVec 5) (off : BitVec 16)
  /-- J. Jumps PC-relative. (R140) -/
  | j (c : CoreId) (off : BitVec 26)
  /-- JAL. Writes the link address to g31 and jumps. (R140) -/
  | jal (c : CoreId) (off : BitVec 26)
  /-- JALR. gd = PC + 4 and jumps to ga + IMM. (R140) -/
  | jalr (c : CoreId) (d : BitVec 5) (a : BitVec 5) (imm : BitVec 16)
  /-- FENCE_RW. Orders every earlier access before every later one. (R148) -/
  | fenceRw (c : CoreId)
  /-- FENCE_W. Retires only after every earlier store is acknowledged or refused. (R148) -/
  | fenceW (c : CoreId)
  /-- FENCE_I. Discards the instruction cache and the fetch queue. (R134) -/
  | fenceI (c : CoreId)
  /-- ECALL. Raises ECALL_U or ECALL_P. (R157) -/
  | ecall (c : CoreId)
  /-- BRK. Raises BRK, or halts the core while a debugger is attached. (R584) -/
  | brk (c : CoreId)
  /-- ERET. Returns to CORE_EPC and restores PRIV and IE. (R141) -/
  | eret (c : CoreId)
  /-- WFI. Waits until an enabled interrupt is pending above the threshold. (R141) -/
  | wfi (c : CoreId)
  /-- SRD. Reads a system register. (R140) -/
  | srd (c : CoreId) (d : BitVec 5) (n : BitVec 12)
  /-- SWR. Writes a system register. (R140) -/
  | swr (c : CoreId) (a : BitVec 5) (n : BitVec 12)
  /-- SSET. Returns the old value of a system register and sets bits in it. (R140) -/
  | sset (c : CoreId) (d : BitVec 5) (a : BitVec 5) (n : BitVec 12)
  /-- SCLR. Returns the old value of a system register and clears bits in it. (R140) -/
  | sclr (c : CoreId) (d : BitVec 5) (a : BitVec 5) (n : BitVec 12)
  /-- RDT. Reads the DTB copy of the core's die. (R156) -/
  | rdt (c : CoreId) (d : BitVec 5)
  /-- WAITT. Waits until the DTB reaches ga, setting PASTDL if that deadline is already reached. (R156) -/
  | waitt (c : CoreId) (a : BitVec 5)
  /-- SIG. Adds gb to the counter named by handle ga, as a release. (R149) -/
  | sig (c : CoreId) (a : BitVec 5) (b : BitVec 5)
  /-- WAITGE. Waits for a counter to reach its target, with an optional DTB deadline. (R151) -/
  | waitge (c : CoreId) (d : BitVec 5) (a : BitVec 5) (b : BitVec 5)
  /-- PREG. Registers the core as a producer of a counter. (R153) -/
  | preg (c : CoreId) (d : BitVec 5) (a : BitVec 5)
  /-- PUNREG. Removes the core's producer registration. (R153) -/
  | punreg (c : CoreId) (d : BitVec 5) (a : BitVec 5)
  /-- RDC. Reads a counter's value. (R141) -/
  | rdc (c : CoreId) (d : BitVec 5) (a : BitVec 5)
  /-- RPT. Repeats the follower instruction n + 1 times as one uninterruptible unit. (R176) -/
  | rpt (c : CoreId) (n : BitVec 12) (fw : Follower)
  /-- ILLEGAL_ENCODING. An encoding outside the tables raises ILLEGAL. (R139) -/
  | illegalEncoding (c : CoreId)
  /-- WAITT_END. The DTB reaches a WAITT deadline and the core retires its next instruction. (R48) -/
  | waittEnd (c : CoreId)
  /-- WAITGE_MET. An increment meets a waiting core's target, and WAITGE ends MET with gd set to 0. (R151) -/
  | waitgeMet (c : CoreId)
  /-- WAITGE_DEADLINE. The DTB reaches a WAITGE deadline first, and the wait ends with gd set to 1. (R151) -/
  | waitgeDeadline (c : CoreId)
  /-- INTERRUPT_ENTRY. At an instruction boundary the highest eligible pending line is taken and the core vectors to VBASE + 0x100. (R161) -/
  | interruptEntry (c : CoreId)
  /-- NOTICE_ARRIVE. An imprecise notice enters the core's notice queue, or is discarded and counted when the queue is full. (R204) -/
  | noticeArrive (c : CoreId) (addr : Word) (ini : BitVec 16) (reason : BitVec 4)
  /-- PAIR_MISMATCH. A compare unit finds a mismatch: the instruction is retried, and the mismatch is either transient or retires the pair. (R165) -/
  | pairMismatch (p : Fin 2) (k : Nat) (rpt : Option (BitVec 12 × Follower))
  /-- CORE_START. Setting bit n of CORE_START starts or restarts core n at CORE_ENTRY. (R166) -/
  | coreStart (i : Ini) (v : W32)
  /-- CORE_SWI. A write to CORE_SWI sets SOFT pending on the named cores. (R163) -/
  | coreSwi (i : Ini) (v : W32)
  /-- CMUL. a[D] = c[A] × c[B]. (R174) -/
  | cmul (c : CoreId) (d : BitVec 5) (a : BitVec 5) (b : BitVec 5) (st : BitVec 3)
  /-- CMAC. a[D] += c[A] × c[B]. (R174) -/
  | cmac (c : CoreId) (d : BitVec 5) (a : BitVec 5) (b : BitVec 5) (st : BitVec 3)
  /-- CMSB. a[D] −= c[A] × c[B]. (R174) -/
  | cmsb (c : CoreId) (d : BitVec 5) (a : BitVec 5) (b : BitVec 5) (st : BitVec 3)
  /-- CMACJ. a[D] += c[A] × conj(c[B]). (R174) -/
  | cmacj (c : CoreId) (d : BitVec 5) (a : BitVec 5) (b : BitVec 5) (st : BitVec 3)
  /-- CADD. c[D] = c[A] + c[B], rounded and saturated. (R174) -/
  | cadd (c : CoreId) (d : BitVec 5) (a : BitVec 5) (b : BitVec 5) (st : BitVec 3)
  /-- CSUB. c[D] = c[A] − c[B]. (R174) -/
  | csub (c : CoreId) (d : BitVec 5) (a : BitVec 5) (b : BitVec 5) (st : BitVec 3)
  /-- CROT. c[D] = c[A] × c[B] scaled by 2^−31. (R174) -/
  | crot (c : CoreId) (d : BitVec 5) (a : BitVec 5) (b : BitVec 5) (st : BitVec 3)
  /-- CCONJ. c[D] = conj(c[A]). (R174) -/
  | cconj (c : CoreId) (d : BitVec 5) (a : BitVec 5) (st : BitVec 3)
  /-- DOT8. Adds 8 signed byte products to a[D].RE. (R174) -/
  | dot8 (c : CoreId) (d : BitVec 5) (a : BitVec 5) (b : BitVec 5) (st : BitVec 3)
  /-- DOT8SU. As DOT8, with the bytes of c[B] unsigned. (R174) -/
  | dot8su (c : CoreId) (d : BitVec 5) (a : BitVec 5) (b : BitVec 5) (st : BitVec 3)
  /-- RDCS. Writes an accumulator shifted right by SHIFT into c[D]. (R174) -/
  | rdcs (c : CoreId) (d : BitVec 5) (a : BitVec 5) (sh : BitVec 6)
  /-- ACLR. Clears an accumulator. (R174) -/
  | aclr (c : CoreId) (d : BitVec 5)
  /-- CMOV. c[D] = c[A]. (R174) -/
  | cmov (c : CoreId) (d : BitVec 5) (a : BitVec 5)
  /-- CFROMG. c[D] = g[A]. (R174) -/
  | cfromg (c : CoreId) (d : BitVec 5) (a : BitVec 5)
  /-- GFROMC. g[D] = c[A]. (R174) -/
  | gfromc (c : CoreId) (d : BitVec 5) (a : BitVec 5)
  /-- GACCRL. Reads bits 63:0 of RE. (R174) -/
  | gaccrl (c : CoreId) (d : BitVec 5) (a : BitVec 5)
  /-- GACCRH. Reads bits 79:64 of RE, sign-extended. (R174) -/
  | gaccrh (c : CoreId) (d : BitVec 5) (a : BitVec 5)
  /-- GACCIL. Reads bits 63:0 of IM. (R174) -/
  | gaccil (c : CoreId) (d : BitVec 5) (a : BitVec 5)
  /-- GACCIH. Reads bits 79:64 of IM, sign-extended. (R174) -/
  | gaccih (c : CoreId) (d : BitVec 5) (a : BitVec 5)
  /-- ASETR. Sets RE of an accumulator from two general registers. (R174) -/
  | asetr (c : CoreId) (d : BitVec 5) (a : BitVec 5) (b : BitVec 5)
  /-- ASETI. Sets IM of an accumulator from two general registers. (R174) -/
  | aseti (c : CoreId) (d : BitVec 5) (a : BitVec 5) (b : BitVec 5)
  /-- LFLAGS. g[D] = zext(CORE_LANE). (R174) -/
  | lflags (c : CoreId) (d : BitVec 5)
  /-- LCLRF. Clears SAT and ASAT. (R174) -/
  | lclrf (c : CoreId)
  /-- CLD. Loads c[D] from g[A] + IMM. (R174) -/
  | cld (c : CoreId) (d : BitVec 5) (a : BitVec 5) (imm : BitVec 16)
  /-- CLDP. Loads c[D] and advances the pointer by 8. (R174) -/
  | cldp (c : CoreId) (d : BitVec 5) (a : BitVec 5) (st : BitVec 3)
  /-- CST. Stores c[D] as 8 bytes. (R174) -/
  | cst (c : CoreId) (d : BitVec 5) (a : BitVec 5) (st : BitVec 3)
  /-- CMACM. Multiplies a memory operand by c[B], accumulates, and advances the pointer by 8. (R174) -/
  | cmacm (c : CoreId) (d : BitVec 5) (a : BitVec 5) (b : BitVec 5) (st : BitVec 3)
  /-- CMACR. Accumulates a real sample times the rotor, updates the rotor, and advances the pointer by 4. (R174) -/
  | cmacr (c : CoreId) (d : BitVec 5) (a : BitVec 5) (b : BitVec 5) (st : BitVec 3)
  /-- DOT8M. Byte dot product of memory with c[B] into RE, and advances the pointer. (R174) -/
  | dot8m (c : CoreId) (d : BitVec 5) (a : BitVec 5) (b : BitVec 5) (st : BitVec 3)
  /-- DOT8MSU. As DOT8M, with the bytes of c[B] unsigned. (R174) -/
  | dot8msu (c : CoreId) (d : BitVec 5) (a : BitVec 5) (b : BitVec 5) (st : BitVec 3)
  /-- REQUEST_ENTRY. A request reaches its network entry: its label is checked, it is guarded, counted and possibly demoted, or refused. (R196) -/
  | requestEntry (i : Ini) (k : Kind) (a : Word) (n : Nat) (early : Bool) (cls : BitVec 4) (data : List Byte) (op : AtomOp) (v : Word)
  /-- REQUEST_AT_TARGET. A request is served at its target memory or unit, with the read and write outcomes for tagged lines. (R207) -/
  | requestAtTarget (k : Nat) (found : LineState) (answer : List Byte) (reason : BitVec 4)
  /-- RESPONSE_AT_INITIATOR. A response or error completion reaches its initiator and completes, or reports a fault on, the access. (R203) -/
  | responseAtInitiator (k : Nat)
  /-- HMEM_TRAIN_DONE. Host memory training ends at a grade or fails, after which the fill starts or READY is set with KEPT. (R188) -/
  | hmemTrainDone (density : Fin 5) (ranks2 : Bool) (grade : Fin 4)
  /-- HMEM_FILL_DONE. The host memory fill completes and READY is set. (R211) -/
  | hmemFillDone (mib : Nat)
  /-- SCRUB_LINE. A patrol scrubber reads its next line at its pace, with the actions of R207. (R212) -/
  | scrubLine (m : Fin 8) (found : LineState)
  /-- SCRUB_CFG_WRITE. A write to GRD_SCRUB_CFG pauses or resumes the scrubber, or repaces the rest of the pass. (R212) -/
  | scrubCfgWrite (i : Ini) (x : Fin 5) (v : W32)
  /-- GRD_PERM_WRITE. A write to GRD_PERM that sets EN is refused, with GUARD_OVERLAP, if the region overlaps another enabled region. (R198) -/
  | grdPermWrite (i : Ini) (x : Fin 6) (j : BitVec 5) (n : BitVec 5) (v : W32)
  /-- GRD_BOUNDS_WRITE. A bounds write to an enabled region is ignored and sets LIVEEDIT. (R199) -/
  | grdBoundsWrite (i : Ini) (x : Fin 6) (j : BitVec 5) (n : BitVec 5) (w : Fin 4) (v : W32)
  /-- VIOL_CLEAR. Clearing GRD_VIOL_INFO.VALID also clears GRD_VIOL_COUNT and re-arms the capture. (R205) -/
  | violClear (i : Ini) (x : Fin 6)
  /-- NOTICE_POP. A write to GRD_NOTE_POP removes the reading core's head notice. (R204) -/
  | noticePop (i : Ini) (x : Fin 6)
  /-- NOTE_OVF_CLEAR. Clearing GRD_NOTE_STAT.OVF also clears LOST. (R204) -/
  | noteOvfClear (i : Ini) (x : Fin 6)
  /-- NOC_RT_ENABLE. Setting NOC_RT_DEST.EN checks the route in order and refuses it with a code on failure. (R227) -/
  | nocRtEnable (i : Ini) (d : Fin 4) (j : Fin 17) (n : Fin 8) (dest : BitVec 6)
  /-- NOC_RT_EDIT. A write to the route or DEST of an enabled entry is ignored with LIVEEDIT. (R228) -/
  | nocRtEdit (i : Ini) (d : Fin 4) (j : Fin 17) (n : Fin 8) (route : Bool) (v : W32)
  /-- BWC_WINDOW_BOUNDARY. At each window boundary the counts and demotion state are copied to BWC_LAST and the counts are cleared. (R235) -/
  | bwcWindowBoundary (x : Fin 5)
  /-- BWC_BUDGET_WRITE. A budget write applies to the next request counted and can demote a class at once. (R238) -/
  | bwcBudgetWrite (i : Ini) (x : Fin 5) (cls : Fin 16) (r : Fin 4) (v : W32)
  /-- BWC_WINDOW_WRITE. A new window length takes effect at the next boundary. (R238) -/
  | bwcWindowWrite (i : Ini) (x : Fin 5) (v : W32)
  /-- AWL_MATCH. A packet passing a probed port matches an enabled probe: the counts advance and a trace record may be sent. (R242) -/
  | awlMatch (x : Fin 5) (point : BitVec 6) (port : BitVec 3) (dir : Bool) (k : Pkt)
  /-- AWL_TRIG_WRITE. A write to AWL_TRIGp re-arms the trigger. (R244) -/
  | awlTrigWrite (i : Ini) (x : Fin 5) (p : Fin 16) (v : W32)
  /-- AWL_UNFREEZE. Clearing AWL_STAT.FROZEN resumes counting on the die's probes. (R244) -/
  | awlUnfreeze (i : Ini) (x : Fin 5)
  /-- AWL_CFG_WRITE. Writes to an enabled probe's other registers are ignored with LIVEEDIT, and AWL_CFG changes only TRACE. (R245) -/
  | awlCfgWrite (i : Ini) (x : Fin 5) (p : Fin 16) (w : Fin 12) (v : W32)
  /-- MESH_FLIT_ERROR. A mesh flit fails its code and is resent, and RETRY advances. (R246) -/
  | meshFlitError (d : Fin 4) (router : Fin 36) (k : Nat)
  /-- WELT_FLIT_ERROR. A bridge flit fails its code and is resent from the replay buffer. (R231) -/
  | weltFlitError (b : Fin 12) (k : Nat)
  /-- QUEUE_DOORBELL. A TAIL write to ENG_QDB is accepted or ignored with OVF or BACK, and ungates a gated engine. (R252) -/
  | queueDoorbell (i : Ini) (g : Fin 32) (q : Fin 4) (tail : BitVec 16)
  /-- LIST_START. A list header is fetched and checked, and a bad header stops the queue with HEADER. (R257) -/
  | listStart (g : Fin 32) (q : Fin 4)
  /-- ENT_NOP. NOP completes at once. (R261) -/
  | entNop (g : Fin 32) (q : Fin 4)
  /-- ENT_SIGNAL. SIGNAL adds ADD to a counter, local or remote. (R261) -/
  | entSignal (g : Fin 32) (q : Fin 4)
  /-- ENT_WAIT. WAIT waits for a counter to reach TARGET, with an optional deadline. (R267) -/
  | entWait (g : Fin 32) (q : Fin 4)
  /-- ENT_WAIT_MET. An increment meets a WAIT entry's target and the entry completes. (R267) -/
  | entWaitMet (g : Fin 32) (q : Fin 4)
  /-- ENT_WAIT_TIMEOUT. A WAIT or ACQ deadline passes and the entry ends TIMEOUT. (R261) -/
  | entWaitTimeout (g : Fin 32) (q : Fin 4)
  /-- ENT_WAITT. The WAITT entry waits for a DTB deadline. (R261) -/
  | entWaitt (g : Fin 32) (q : Fin 4)
  /-- ENT_WAITT_END. The DTB reaches a WAITT entry's deadline and the entry completes. (R48) -/
  | entWaittEnd (g : Fin 32) (q : Fin 4)
  /-- ENT_IRQ. IRQ sets ENG_IRQ_PEND.USER for the queue. (R261) -/
  | entIrq (g : Fin 32) (q : Fin 4)
  /-- ENT_JUMP. JUMP ends the current list and continues with the named list. (R261) -/
  | entJump (g : Fin 32) (q : Fin 4)
  /-- ENT_ACQ. ACQ acquires a hold or waits for it in arrival order. (R271) -/
  | entAcq (g : Fin 32) (q : Fin 4)
  /-- ENT_REL. REL frees a hold owned by the queue, passing it to the oldest waiter. (R271) -/
  | entRel (g : Fin 32) (q : Fin 4)
  /-- ENT_PREG. PREG registers the queue as a producer of a counter. (R261) -/
  | entPreg (g : Fin 32) (q : Fin 4)
  /-- ENT_PUNREG. PUNREG removes the queue's registration. (R261) -/
  | entPunreg (g : Fin 32) (q : Fin 4)
  /-- ENT_COPY. COPY moves LEN bytes on a copy channel. (R261) -/
  | entCopy (g : Fin 32) (q : Fin 4)
  /-- ENT_CKPT. CKPT writes a checkpoint piece both locally and to a remote mirror. (R350) -/
  | entCkpt (g : Fin 32) (q : Fin 4)
  /-- ENT_STR_RUN. STR_RUN places a stream program in the unit's NEXT slot, waiting while NEXT is occupied. (R326) -/
  | entStrRun (g : Fin 32) (q : Fin 4)
  /-- ENT_STR_CANCEL. STR_CANCEL cancels the named stream units. (R335) -/
  | entStrCancel (g : Fin 32) (q : Fin 4)
  /-- ENT_MATMUL. MATMUL runs a matrix product on the named quarters. (R292) -/
  | entMatmul (g : Fin 32) (q : Fin 4)
  /-- ENT_CONV. CONV runs a convolution by address generation. (R295) -/
  | entConv (g : Fin 32) (q : Fin 4)
  /-- ENT_DECODE. DECODE gathers a batch from the decode ring and runs it. (R300) -/
  | entDecode (g : Fin 32) (q : Fin 4)
  /-- ENT_FAB_LOAD. FAB_LOAD checks a registered load and waits for the region to be free. (R368) -/
  | entFabLoad (g : Fin 32) (q : Fin 4)
  /-- ENT_FAB_CALL. FAB_CALL checks the region and function and waits for the region. (R370) -/
  | entFabCall (g : Fin 32) (q : Fin 4)
  /-- ENT_PIPE. PIPE reads and checks a descriptor and starts the pipeline sequencer. (R340) -/
  | entPipe (g : Fin 32) (q : Fin 4)
  /-- ENT_UNKNOWN_OPCODE. An unknown opcode ends the entry ILLEGAL. (R261) -/
  | entUnknownOpcode (g : Fin 32) (q : Fin 4)
  /-- ENTRY_COMPLETE. An entry's operation ends and its writes are acknowledged, so DONE and any LDONE are performed or the queue stops on error. (R259) -/
  | entryComplete (g : Fin 32) (q : Fin 4)
  /-- QUEUE_RESUME. RESUME continues a STOPPED queue after the failed entry. (R279) -/
  | queueResume (i : Ini) (g : Fin 32) (q : Fin 4)
  /-- QUEUE_RETRY. RETRY re-executes the failed entry. (R279) -/
  | queueRetry (i : Ini) (g : Fin 32) (q : Fin 4)
  /-- QUEUE_CANCEL. CANCEL stops fetching, ends the running entry, cancels its streams, drops registrations and sets HEAD to TAIL. (R280) -/
  | queueCancel (i : Ini) (g : Fin 32) (q : Fin 4) (relholds : Bool)
  /-- QUEUE_CANCEL_DONE. The cancel completes and the queue reads IDLE. (R281) -/
  | queueCancelDone (g : Fin 32) (q : Fin 4)
  /-- COUNTER_INCREMENT. A SIG packet or entry signal is performed at a counter. (R149) -/
  | counterIncrement (i : Ini) (h : W32) (n : W32)
  /-- CNT_WRITE. A register write to ENG_CNTi sets the counter's value. (R268) -/
  | cntWrite (i : Ini) (x : Fin 5) (n : Fin 4096) (v : W32)
  /-- HOLD_ACQ_READ. A read of ENG_HOLD_ACQn acquires the hold if it is free, delivering any REVOKED flag. (R270) -/
  | holdAcqRead (i : Ini) (x : Fin 5) (n : Fin 256)
  /-- HOLD_REL_WRITE. A write to ENG_HOLD_RELn by the owner frees the hold, and any other write is refused OWNER. (R270) -/
  | holdRelWrite (i : Ini) (x : Fin 5) (n : Fin 256) (v : W32)
  /-- CENSUS_FIRE. A census group has been blocked without an incrementer for 100 µs: it fires FLT_STALL and writes its snapshot. (R276) -/
  | censusFire (k : Fin 8)
  /-- CUBE_STEP. A logical array performs one step of multiply-accumulates. (R284) -/
  | cubeStep (g : Fin 32) (q : Fin 4)
  /-- CUBE_STEP_ERROR. The step checker detects an error, and the step is retried, the spare switched in or the quarter retired. (R309) -/
  | cubeStepError (g : Fin 32) (x : Fin 4) (pos : Fin 17) (e : StepErr) (n : Nat)
  /-- DQ_DOORBELL. A TAIL write to CUBE_DQ_TAIL is accepted with an arrival stamp, or ignored with OVF or BACK. (R298) -/
  | dqDoorbell (i : Ini) (g : Fin 32) (tail : BitVec 16)
  /-- DECODE_BATCH_CLOSE. The batch closes when FILL is reached or MAXWAIT passes after the head request. (R300) -/
  | decodeBatchClose (g : Fin 32) (q : Fin 4)
  /-- DECODE_BATCH_DONE. After SO accepts the last result, each request is signalled and HEAD advances. (R301) -/
  | decodeBatchDone (g : Fin 32) (q : Fin 4)
  /-- CUBE_STEPS_READ. A read of CUBE_STEPS_LO latches HI. (R308) -/
  | cubeStepsRead (i : Ini) (g : Fin 32)
  /-- STR_START. The stream START instruction sets the program's direction and run-ahead distance. (R319) -/
  | strStart (g : Fin 32) (n : Fin 16)
  /-- STR_END. The stream END instruction ends the program. (R319) -/
  | strEnd (g : Fin 32) (n : Fin 16)
  /-- STR_ADDR. Sets an address register. (R319) -/
  | strAddr (g : Fin 32) (n : Fin 16)
  /-- STR_ADD. Adds to an address register. (R319) -/
  | strAdd (g : Fin 32) (n : Fin 16)
  /-- STR_LOOP. Opens a loop and saves the address registers. (R319) -/
  | strLoop (g : Fin 32) (n : Fin 16)
  /-- STR_ENDL. Closes a loop iteration and restores the selected registers on exit. (R319) -/
  | strEndl (g : Fin 32) (n : Fin 16)
  /-- STR_MOVE. Reads or writes LEN bytes from an address register. (R319) -/
  | strMove (g : Fin 32) (n : Fin 16) (ext : List Byte)
  /-- STR_SKIP. Delivers zero bytes or discards bytes without access. (R319) -/
  | strSkip (g : Fin 32) (n : Fin 16) (ext : List Byte)
  /-- STR_SIG. Adds to a local counter after earlier writes are acknowledged. (R321) -/
  | strSig (g : Fin 32) (n : Fin 16)
  /-- STR_TDIM. Sets a tensor stride. (R319) -/
  | strTdim (g : Fin 32) (n : Fin 16)
  /-- STR_TRUN. Runs tensor mode for a CONV SA unit. (R322) -/
  | strTrun (g : Fin 32) (n : Fin 16)
  /-- STR_RROW. Runs row mode for a DECODE SA or SO unit. (R323) -/
  | strRrow (g : Fin 32) (n : Fin 16)
  /-- STREAM_CHAIN. The program in NEXT moves to CURRENT according to CHAIN. (R326) -/
  | streamChain (g : Fin 32) (n : Fin 16)
  /-- STREAM_TAKE_FAULT. The consumer takes a byte of a line with a held fault, and the unit ends REFUSED or POISON. (R331) -/
  | streamTakeFault (g : Fin 32) (n : Fin 16)
  /-- STR_CANCEL_CTL. STR_CTL.CANCEL cancels the unit, emptying its slots and dropping held faults. (R335) -/
  | strCancelCtl (i : Ini) (g : Fin 32) (n : Fin 16)
  /-- STREAM_CANCEL_DONE. In-flight requests finish and the unit reads IDLE. (R336) -/
  | streamCancelDone (g : Fin 32) (n : Fin 16)
  /-- STR_LINES_READ. A read of STR_LINES_LO latches HI. (R325) -/
  | strLinesRead (i : Ini) (g : Fin 32) (n : Fin 16)
  /-- PIPE_FWD_SUBMIT. A forward list is submitted once its predecessor has ended and its slot is free. (R341) -/
  | pipeFwdSubmit (g : Fin 32)
  /-- PIPE_OFFLOAD_START. The offload of a micro-batch starts on copy channel 1. (R341) -/
  | pipeOffloadStart (g : Fin 32)
  /-- PIPE_TRANSFER_DONE. An offload or prefetch completes once its writes are acknowledged. (R344) -/
  | pipeTransferDone (g : Fin 32)
  /-- PIPE_PHASE_END. The forward phase ends, PHASE is signalled and the backward phase starts. (R342) -/
  | pipePhaseEnd (g : Fin 32)
  /-- PIPE_BWD_SUBMIT. A backward list is submitted once its successor has ended and its prefetch is done. (R343) -/
  | pipeBwdSubmit (g : Fin 32)
  /-- PIPE_PREFETCH_START. A prefetch starts when its lead and slot conditions hold. (R343) -/
  | pipePrefetchStart (g : Fin 32)
  /-- PIPE_COMPLETE. Backward list 0 ends and the PIPE completes with DONE. (R346) -/
  | pipeComplete (g : Fin 32)
  /-- TRACKER_OPEN. TRN_CK_CTL.OPEN opens a tracker, or refuses it with DUP. (R351) -/
  | trackerOpen (i : Ini) (n : Fin 4)
  /-- TRACKER_ABORT. TRN_CK_CTL.ABORT aborts an OPEN tracker. (R351) -/
  | trackerAbort (i : Ini) (n : Fin 4)
  /-- SEAL_WRITE_ACK. A seal write is acknowledged, after which the local seal is written or the tracker becomes SEALED. (R353) -/
  | sealWriteAck (n : Fin 4)
  /-- FAB_LOAD_BEGIN. The region enters LOADING, clears its cells and writes its frames. (R368) -/
  | fabLoadBegin (g : Fin 32) (q : Fin 4)
  /-- FAB_LOAD_DONE. The load ends LOADED, or ends EMPTY on a frame, read or digest failure. (R369) -/
  | fabLoadDone (d : Fin 4) (r : Fin 8) (single : Nat) (bad : Option Nat)
  /-- FAB_FUNC_START. A called function starts once the region is free. (R370) -/
  | fabFuncStart (g : Fin 32) (q : Fin 4)
  /-- FAB_FUNC_RETURN. The function returns a code, and the entry completes OK or ends FABRIC. (R371) -/
  | fabFuncReturn (d : Fin 4) (r : Fin 8) (code : W32)
  /-- FAB_MAXTIME. MAXTIME expires first, so the region restarts and the entry ends TIMEOUT. (R371) -/
  | fabMaxtime (d : Fin 4) (r : Fin 8)
  /-- FAB_RESTART. FAB_RCTL.RESTART returns a LOADED region to its load-time values. (R372) -/
  | fabRestart (i : Ini) (d : Fin 4) (r : Fin 8)
  /-- FAB_RESTART_DONE. A restart completes and the region leaves RESTARTING. (R372) -/
  | fabRestartDone (d : Fin 4) (r : Fin 8)
  /-- FAB_EMPTY. FAB_RCTL.EMPTY clears a region to EMPTY and ends any call with EMPTIED. (R380) -/
  | fabEmpty (i : Ini) (d : Fin 4) (r : Fin 8)
  /-- FAB_PATROL. Every 10 ms the frames of a loaded region are checked, correcting errors or emptying the region. (R381) -/
  | fabPatrol (d : Fin 4) (r : Fin 8) (single : Nat) (bad : Bool)
  /-- LACE_TX_WRITE. A tap write is checked and applied at a symbol boundary, or refused with TAPSUM. (R392) -/
  | laceTxWrite (i : Ini) (n : Fin 48) (l : Fin 4) (v : W32)
  /-- LANE_IDLE_ENTER. On a link-layer request a lane sends EIE and enters electrical idle. (R395) -/
  | laneIdleEnter (n : Fin 48)
  /-- LANE_EIE_RECEIVE. A receiver that receives EIE enters idle hold. (R395) -/
  | laneEieReceive (n : Fin 48) (l : Fin 4)
  /-- LANE_EXIT. On an exit request a lane sends the fast-exit burst and then link symbols. (R397) -/
  | laneExit (n : Fin 48)
  /-- LANE_SQUELCH_EXIT. Squelch reports exit in idle hold and the receiver looks for COM. (R400) -/
  | laneSquelchExit (n : Fin 48) (l : Fin 4)
  /-- LANE_EXIT_ALIGNED. The lanes align and deskew after a burst. (R398) -/
  | laneExitAligned (n : Fin 48)
  /-- LANE_EXIT_FAIL. A lane is not aligned in time and ends EXITFAIL. (R399) -/
  | laneExitFail (n : Fin 48) (l : Fin 4)
  /-- LANE_FALSE_EXIT. No COM within 64 symbol times: the receiver returns to idle hold and FALSE advances. (R400) -/
  | laneFalseExit (n : Fin 48) (l : Fin 4)
  /-- LANE_LOCK_LOST. An active lane loses lock, sets LOCKLOST and marks its symbols bad. (R410) -/
  | laneLockLost (n : Fin 48) (l : Fin 4)
  /-- SKIP_SET_SEND. Every 4,096 symbols a SKIP set is sent on all lanes; idle are the symbol slots without a packet since the last set. (R389) -/
  | skipSetSend (n : Fin 48) (idle : Nat)
  /-- SKIP_SET_RECEIVE. A received SKIP set adjusts the elastic buffer and is dropped; groups are those received since the last set. (R386, R389) -/
  | skipSetReceive (n : Fin 48) (l : Fin 4) (groups : List (BitVec 10))
  /-- TRAIN_START. Cold training starts on the link's lanes that are not retired. (R401) -/
  | trainStart (n : Fin 48)
  /-- TS_RECEIVE. A TS1 or TS2 ordered set is received and its fields are taken. (R401) -/
  | tsReceive (n : Fin 48) (l : Fin 4) (ts : TrainSet) (inverted : Bool) (groups : List (BitVec 10))
  /-- TRAIN_NEGOTIATE_DONE. NEGOTIATE completes with polarity, lane order and peer fields recorded. (R402) -/
  | trainNegotiateDone (n : Fin 48)
  /-- TRAIN_RATE_DONE. A TRAIN attempt completes and the lanes become ACTIVE. (R403) -/
  | trainRateDone (n : Fin 48)
  /-- TRAIN_TIMEOUT. A phase or attempt reaches TMO and is abandoned or retried at a lower rate. (R404) -/
  | trainTimeout (n : Fin 48)
  /-- LACE_TEST_START. A non-zero write of LACE_TEST.MODE starts a test mode, or is refused. (R405) -/
  | laceTestStart (i : Ini) (n : Fin 48) (v : W32)
  /-- LACE_TEST_END. A write of MODE 0 ends the test and leaves the lanes OFF. (R405) -/
  | laceTestEnd (i : Ini) (n : Fin 48) (v : W32)
  /-- LACE_TEST_LPB. LACE_TEST.LPB sends one LPB set on the named lanes. (R408) -/
  | laceTestLpb (i : Ini) (n : Fin 48) (v : W32)
  /-- LPB_RECEIVE. A received LPB set enters far-end loopback or is ignored with FEL_IGNORED. (R407) -/
  | lpbReceive (n : Fin 48) (l : Fin 4)
  /-- FEL_END. 1 µs of electrical idle ends a far-end loopback. (R407) -/
  | felEnd (n : Fin 48) (l : Fin 4)
  /-- PRBS_BITS_READ. A read of LACE_PRBS_BITS_LO latches HI. (R409) -/
  | prbsBitsRead (i : Ini) (n : Fin 48) (l : Fin 4)
  /-- LINK_ENABLE. Setting LACE_LCFG.EN starts training, and the link becomes UP or FAILED. (R413) -/
  | linkEnable (i : Ini) (n : Fin 48) (v : W32)
  /-- LINK_DISABLE. Clearing EN takes the link to DISABLED, ending its requests as undelivered. (R434) -/
  | linkDisable (i : Ini) (n : Fin 48) (v : W32)
  /-- LINK_DATA_RECEIVE. A DATA packet, whose symbols came as the groups rx on lanes 0–3, is accepted in order and delivered or forwarded, or discarded with NAK. (R418) -/
  | linkDataReceive (n : Fin 48) (rx : List (List (BitVec 10))) (good : Bool) (seq : BitVec 12) (h : LHdr) (p : LData)
  /-- LINK_ACK_RECEIVE. An acknowledgement frees replay entries and returns credits, and a NAK replays. (R415) -/
  | linkAckReceive (n : Fin 48) (rx : List (List (BitVec 10))) (h : LHdr)
  /-- LINK_CREDIT_INIT_RECEIVE. The peer's CREDIT_INIT sets the credits, after which DATA may flow. (R422) -/
  | linkCreditInitReceive (n : Fin 48) (rx : List (List (BitVec 10))) (h : LHdr) (req : BitVec 8) (rsp : BitVec 8) (fwd : BitVec 8)
  /-- MGMT_MARK_RECEIVE. A MARK opens a management window and announces a swap outcome. (R426) -/
  | mgmtMarkReceive (n : Fin 48) (rx : List (List (BitVec 10))) (seq : BitVec 12) (h : LHdr) (w : BitVec 16) (out : BitVec 2)
  /-- MGMT_SWAP_RECEIVE. A SWAP request joins the current management window. (R426) -/
  | mgmtSwapReceive (n : Fin 48) (rx : List (List (BitVec 10))) (seq : BitVec 12) (h : LHdr)
  /-- MGMT_RETRAIN_RECEIVE. The warden receives RETRAIN and starts cold training. (R425) -/
  | mgmtRetrainReceive (n : Fin 48) (rx : List (List (BitVec 10))) (seq : BitVec 12) (h : LHdr)
  /-- REPLAY_TIMEOUT. The oldest unacknowledged packet waits RTO and everything is replayed, entering RETRAIN past the limit. (R419) -/
  | replayTimeout (n : Fin 48)
  /-- RETRAIN_REQ_TIMEOUT. No training starts within 20 µs of the RETRAIN message, so the non-warden starts it itself. (R425) -/
  | retrainReqTimeout (n : Fin 48)
  /-- WARDEN_MARK. Every 10 µs the warden sends MARK and decides the window two back. (R426) -/
  | wardenMark (n : Fin 48)
  /-- LINK_IDLE_AFTER. A direction idle for IDLE_AFTER requests electrical idle. (R424) -/
  | linkIdleAfter (n : Fin 48)
  /-- LINK_RETRAIN_CMD. LACE_LCTL.RETRAIN retrains the link at the warden, or sends RETRAIN from the non-warden. (R425) -/
  | linkRetrainCmd (i : Ini) (n : Fin 48)
  /-- LINK_SWAP_CMD. LACE_LCTL.SWAP requests a warden swap. (R426) -/
  | linkSwapCmd (i : Ini) (n : Fin 48)
  /-- LINK_RETIRE_CMD. LACE_LCTL.RETIRE retires the link with cause FIRMWARE. (R434) -/
  | linkRetireCmd (i : Ini) (n : Fin 48)
  /-- LINK_READMIT_CMD. LACE_LCTL.READMIT returns a retired link and its lanes to DISABLED. (R450) -/
  | linkReadmitCmd (i : Ini) (n : Fin 48)
  /-- PKG_ID_WRITE. A write to LACE_PKG sets the ID, or is ignored with IDREF. (R427) -/
  | pkgIdWrite (i : Ini) (v : W32)
  /-- ROUTE_WRITE. A route entry write is copied to every LIVE compute die. (R428) -/
  | routeWrite (i : Ini) (p : BitVec 8) (v : W32)
  /-- WINDOW_WRITE. A remote window descriptor write is copied, and base or PKG edits of an enabled descriptor are ignored. (R432) -/
  | windowWrite (i : Ini) (w : Fin 64) (hi : Bool) (v : W32)
  /-- REMOTE_TIMEOUT. A remote request with no answer for RTMO ends undelivered with UNREACH. (R433) -/
  | remoteTimeout (k : Nat) (sig : Bool)
  /-- FAULT_REPORT. A report reaches the fault manager and is classified as transient or permanent, or logged as an event. (R437) -/
  | faultReport (kind : BitVec 8) (u : BitVec 16) (sub : BitVec 16) (k : Nat) (ini : BitVec 16) (addr : Word) (detail : List W32)
  /-- RECUR_WINDOW. At each recurrence window boundary the TRANSIENT counts are cleared. (R443) -/
  | recurWindow
  /-- FLT_RETIRE. FLT_ACT RETIRE retires a unit with cause FIRMWARE. (R450) -/
  | fltRetire (i : Ini) (u : BitVec 16)
  /-- FLT_TEST. FLT_ACT TEST puts a retired unit into TESTING. (R451) -/
  | fltTest (i : Ini) (u : BitVec 16)
  /-- FLT_ADMIT. FLT_ACT ADMIT returns a unit to service and clears its summary bits. (R451) -/
  | fltAdmit (i : Ini) (u : BitVec 16)
  /-- FLT_ABANDON. FLT_ACT ABANDON returns a unit in TESTING to RETIRED. (R450) -/
  | fltAbandon (i : Ini) (u : BitVec 16)
  /-- FLT_REVOKE. FLT_ACT REVOKE revokes every hold owned by a given other package. (R450) -/
  | fltRevoke (i : Ini) (p : BitVec 8)
  /-- FLT_LOG_CFG_WRITE. A write to FLT_LOG_CFG retries the log target and drains held records. (R453) -/
  | fltLogCfgWrite (i : Ini) (v : W32)
  /-- FLT_LOG_TAIL_WRITE. Advancing FLT_LOG_TAIL frees room so that held records are written. (R452) -/
  | fltLogTailWrite (i : Ini) (v : W32)
  /-- SUMMARY_UPDATE. The Heel writes bitmaps, slot, count and NEXT of the Insole fault summary. (R455) -/
  | summaryUpdate
  /-- HSO_CTL_WRITE. A write to HSO_CTLi changes the drive at once, or from the next period start, and hands over any keep path. (R459) -/
  | hsoCtlWrite (i : Ini) (n : Fin 40) (v : W32)
  /-- PWM_PERIOD_START. A PWM period starts on the microsecond count and applies the pending settings. (R458) -/
  | pwmPeriodStart (x : Fin 52)
  /-- STAGE_ON_EDGE. A scheduled on edge closes a switch, spaced by 0.5 µs on its rail. (R460) -/
  | stageOnEdge (x : Fin 52)
  /-- STAGE_OFF_EDGE. The on-phase ends and the switch opens. (R458) -/
  | stageOffEdge (x : Fin 52)
  /-- STAGE_CURRENT_LIMIT. A stage's load current reaches I_LIM and is held there, and PROT reads LIMIT. (R462) -/
  | stageCurrentLimit (x : Fin 48) (reached : Bool)
  /-- STAGE_TRIP. The trip timer reaches TRIP and the stage shuts down with cause OC. (R462) -/
  | stageTrip (x : Fin 48)
  /-- STAGE_OVERTEMP. A junction reaching 170 °C shuts the stage down with cause OT. (R462) -/
  | stageOvertemp (x : Fin 48)
  /-- STAGE_RESTART. After RDLY, and cooling for OT, the stage re-applies its command. (R464) -/
  | stageRestart (x : Fin 52) (cool : Bool)
  /-- RESTART_COUNT_CLEAR. 1 s without a shutdown clears RESTARTS and logs a TRANSIENT record. (R464) -/
  | restartCountClear (x : Fin 52)
  /-- HSO_ON_MEASURE. An on-state measurement 40 µs after the edge, or every 1 ms in ON, reads OPEN or OK. (R466) -/
  | hsoOnMeasure (x : Fin 48) (open_ : Bool) (ma : BitVec 16)
  /-- HSO_OFF_PULLUP. 100 µs after the off edge the 80 µA pull-up is applied. (R466) -/
  | hsoOffPullup (x : Fin 40)
  /-- HSO_OFF_OPEN_MEASURE. At 250 µs the output is compared for OPEN and the pull-up is removed. (R466) -/
  | hsoOffOpenMeasure (x : Fin 40) (high : Bool)
  /-- HSO_OFF_SHORT_MEASURE. At 300 µs the output is compared for SHORT_VBAT. (R466) -/
  | hsoOffShortMeasure (x : Fin 40) (high : Bool)
  /-- HSO_PROBE_PULSE. Every Nth period the on-phase is stretched to 40 µs and measured. (R466) -/
  | hsoProbePulse (x : Fin 40) (open_ : Bool) (ma : BitVec 16)
  /-- DIAG_AGE_OUT. 2 s without a measurement makes the stage read UNTESTED. (R468) -/
  | diagAgeOut (x : Fin 48)
  /-- KEEP_BLINK. A keep path in BLINK turns on or off on its XTAL32-timed schedule. (R473) -/
  | keepBlink (k : Fin 2)
  /-- KEEP_TRIP. A keep path in limit for 10 ms turns off and sets TRIP. (R475) -/
  | keepTrip (k : Fin 2)
  /-- HBR_HCTL_WRITE. A write to HBR_HCTLj changes the half-bridge mode through dead time. (R476) -/
  | hbrHctlWrite (i : Ini) (j : Fin 8) (v : W32)
  /-- DEADTIME_END. Dead time ends and the next switch closes. (R476) -/
  | deadtimeEnd (x : Fin 52)
  /-- HBR_PCTL_WRITE. A write to HBR_PCTLp changes the pre-driver mode through dead time and OFF. (R478) -/
  | hbrPctlWrite (i : Ini) (p : Fin 4) (v : W32)
  /-- PD_VDS_FAULT. A closed FET's VDS above VDS_TH opens every gate as a protection shutdown. (R479) -/
  | pdVdsFault (p : Fin 4) (f : Fin 4)
  /-- PD_OVERCURRENT. A shunt current above OC_LIM opens every gate as a protection shutdown. (R479) -/
  | pdOvercurrent (p : Fin 4)
  /-- PD_PUMP_UNDERVOLTAGE. The charge pump below 8 V opens every gate and the state reads UV. (R479) -/
  | pdPumpUndervoltage (p : Fin 4)
  /-- PD_PUMP_RECOVER. The pump recovers and the command is re-applied, uncounted. (R479) -/
  | pdPumpRecover (p : Fin 4)
  /-- PD_CURRENT_SAMPLE. Every 10 µs the averaged shunt current updates HBR_PCURp. (R480) -/
  | pdCurrentSample (p : Fin 4) (uv : Int)
  /-- PATTERN_START. START takes ownership of the target and runs step 0, or is refused. (R481) -/
  | patternStart (i : Ini) (k : Fin 4)
  /-- PATTERN_ABORT. ABORT ends the pattern ABORTED and sets the target OFF. (R483) -/
  | patternAbort (i : Ini) (k : Fin 4)
  /-- PATTERN_STEP_TIME. DUR passes in a TIME step, or ends a STALL or SWITCH step with TIMEOUT. (R482) -/
  | patternStepTime (k : Fin 4)
  /-- PATTERN_STALL. The current stays above STALL for 5 ms and the step ends. (R482) -/
  | patternStall (k : Fin 4)
  /-- SWI_SAMPLE. Every 1 ms all inputs are sampled, filtered and converted. (R487) -/
  | swiSample (pins : List Int)
  /-- SWI_CYCLIC_SAMPLE. Every period P in Winter each named input is pulsed, compared and confirmed when changed. (R492) -/
  | swiCyclicSample (pins : List Int)
  /-- QDEC_SAMPLE. A decoder samples both pins each SAMP interval, filters them and counts transitions. (R495) -/
  | qdecSample (n : Fin 4) (a : Bool) (b : Bool)
  /-- QDEC_LEARN. LEARN loads REFPOS into POS at the next sample boundary and sets REF_VALID. (R498) -/
  | qdecLearn (i : Ini) (n : Fin 4)
  /-- QDEC_CLRERR. CLRERR clears ERRCNT. (R498) -/
  | qdecClrerr (i : Ini) (n : Fin 4)
  /-- QDEC_POS_WRITE. A POS write sets POS and clears REF_VALID while EN is clear, and is otherwise ignored. (R500) -/
  | qdecPosWrite (i : Ini) (n : Fin 4) (v : W32)
  /-- QDEC_SELF_CHECK. Every 1 s the comparators are checked, and a disagreement is reported as BODY. (R502) -/
  | qdecSelfCheck (n : Fin 4) (bad : Nat)
  /-- MBC_INIT_CLEAR. Clearing INIT starts bus integration, or is refused with CFGERR on bad timing. (R504) -/
  | mbcInitClear (i : Ini) (n : Fin 8) (v : W32)
  /-- MBC_INIT_SET. Setting INIT takes the controller off the bus and ends pending requests ABORTED. (R506) -/
  | mbcInitSet (i : Ini) (n : Fin 8) (v : W32)
  /-- MBC_BUS_INTEGRATED. After 11 recessive bits the controller takes part in the bus. (R506) -/
  | mbcBusIntegrated (n : Fin 8)
  /-- MBC_RECOVER. RECOVER starts recovery from bus-off. (R516) -/
  | mbcRecover (i : Ini) (n : Fin 8)
  /-- MBC_RECOVERED. After 128 idle sequences the controller is ACTIVE with its counters at zero. (R516) -/
  | mbcRecovered (n : Fin 8)
  /-- MBC_TXREQ. Setting a TXREQ bit makes a free buffer pending. (R509) -/
  | mbcTxreq (i : Ini) (n : Fin 8) (v : W32)
  /-- MBC_TXCAN. A TXCAN bit cancels a request at the end of its attempt. (R510) -/
  | mbcTxcan (i : Ini) (n : Fin 8) (v : W32)
  /-- MBC_TX_ATTEMPT_END. A transmission attempt ends in success, retry or a failure report. (R509) -/
  | mbcTxAttemptEnd (n : Fin 8) (b : Fin 33) (sof : Word) (tdcv : Option Nat) (e : TxEnd)
  /-- MBC_FRAME_RECEIVED. A valid frame is filtered into the FIFO or the pass-through queue, or discarded. (R511) -/
  | mbcFrameReceived (n : Fin 8) (f : CanFrame) (stamp : Word)
  /-- MBC_RXF_ACK. A write releases the oldest FIFO element. (R511) -/
  | mbcRxfAck (i : Ini) (n : Fin 8)
  /-- MBC_FAIL_POP. A write removes the oldest failure report. (R514) -/
  | mbcFailPop (i : Ini) (n : Fin 8)
  /-- MBC_RAM_ERROR. A message RAM uncorrectable word or protocol-engine disagreement is reported as BODY. (R528) -/
  | mbcRamError (n : Fin 8) (bad : MbcBad) (k : Nat)
  /-- LAST_RUN. Setting RUN starts the matrix, or refuses it with a code. (R521) -/
  | lastRun (i : Ini) (n : Fin 8) (mode : Fin 4)
  /-- LAST_STOP. Clearing RUN stops the matrix after any frame already started. (R521) -/
  | lastStop (i : Ini) (n : Fin 8)
  /-- LAST_CYCLE_START. A matrix cycle starts at its DTB tick, or at a reference SOF for a follower. (R520) -/
  | lastCycleStart (n : Fin 8)
  /-- LAST_SLOT_START. A slot window opens and its cell's frame may start. (R519) -/
  | lastSlotStart (n : Fin 8)
  /-- LAST_WINDOW_END. A window closes without its frame starting, and MISSED is reported. (R519) -/
  | lastWindowEnd (n : Fin 8) (begun : Bool)
  /-- LAST_REF_TIMEOUT. A follower with no reference for LEN + REFTMO enters WAIT_REF. (R522) -/
  | lastRefTimeout (n : Fin 8)
  /-- LIN_HEADER_SEND. A LIN_HDR write sends a header at the next idle, or sets HDRBUSY. (R535) -/
  | linHeaderSend (i : Ini) (n : Fin 8) (id : BitVec 6)
  /-- LIN_BREAK. A dominant line for 11 bit times is detected as a break. (R536) -/
  | linBreak (n : Fin 8) (start : Word) (stamp : Word)
  /-- LIN_CHAR_RECEIVE. A character is received by majority sampling, with framing and parity marks. (R532) -/
  | linCharReceive (n : Fin 8) (samples : BitVec 192) (cyc : Nat) (idle : Bool)
  /-- LIN_PID_RECEIVE. A valid PID selects the ID's action: publish, subscribe or ignore. (R537) -/
  | linPidReceive (n : Fin 8)
  /-- LIN_RESPONSE_END. A response ends and a queue element is added with its status. (R539) -/
  | linResponseEnd (n : Fin 8) (bit : Bool)
  /-- LIN_FRAME_TIMEOUT. TFRAME_MAX passes and the frame ends NORESP or INCOMPLETE. (R538) -/
  | linFrameTimeout (n : Fin 8)
  /-- LIN_WUTX_SEND. SEND drives a wake-up signal for DUR × 50 µs. (R540) -/
  | linWutxSend (i : Ini) (n : Fin 8) (dur : Byte)
  /-- LIN_WUTX_END. The wake-up signal ends. (R540) -/
  | linWutxEnd (n : Fin 8)
  /-- LIN_BAUD_WRITE. A DIV write below 80 is ignored with CFGERR. (R530) -/
  | linBaudWrite (i : Ini) (n : Fin 8) (v : W32)
  /-- LIN_RQ_POP. A write removes the oldest queue element. (R539) -/
  | linRqPop (i : Ini) (n : Fin 8)
  /-- LIN_UART_TX. A write pushes a character for sending. (R541) -/
  | linUartTx (i : Ini) (n : Fin 8) (c : Byte)
  /-- LIN_UART_RX_POP. A read pops the oldest received character. (R541) -/
  | linUartRxPop (i : Ini) (n : Fin 8)
  /-- LIN_SELF_CHECK_ERROR. A parity error or comparator disagreement ends the frame with BIT and reports BODY. (R556) -/
  | linSelfCheckError (n : Fin 8) (k : Nat)
  /-- XCVR_MODE_WRITE. A MODE write changes the transceiver state. (R543) -/
  | xcvrModeWrite (i : Ini) (x : Fin 8) (v : W32)
  /-- XCVR_DOMINANT_TIMEOUT. TXD dominant past the timeout releases the bus and sets DOMTO. (R545) -/
  | xcvrDominantTimeout (x : Fin 8) (dominant : Bool)
  /-- MB_WAKE_PATTERN. A wake-up pattern confirms a wake, or with SWEN set enters DECODING. (R547) -/
  | mbWakePattern (x : Fin 4) (d1 r d2 : Nat)
  /-- LIN_BUS_WAKE. A dominant phase of LWFILT ticks confirms a LIN wake. (R548) -/
  | linBusWake (x : Fin 4) (ticks : Nat)
  /-- SW_FRAME_DECODE. A frame is decoded in DECODING, updating FEC or matching a selective wake. (R550) -/
  | swFrameDecode (x : Fin 4) (f : SwFrame)
  /-- DECODING_SILENCE. 1 s of recessive bus returns the transceiver to STANDBY. (R552) -/
  | decodingSilence (x : Fin 4)
  /-- ANG_CRANK_EDGE. An active CRK edge updates the period, gap detection, synchronisation state and predictions; rising says which way CRK went, which ANG_CTL.CRKEDGE
  makes the active edge or not. (R558, R561) -/
  | angCrankEdge (rising cam : Bool) (volts : List (BitVec 12))
  /-- ANG_TRAILING_EDGE. A trailing edge before DIRTH judges the tooth forward. (R562) -/
  | angTrailingEdge
  /-- ANG_DIRTH_EXPIRE. DIRTH elapses first, so the tooth is judged reverse and REVERSE is entered. (R562) -/
  | angDirthExpire
  /-- ANG_STALL. No active edge for STALL ms returns the unit to SEARCH. (R561) -/
  | angStall
  /-- ANG_OCCURRENCE_BEGIN. A channel's occurrence begins, driving its output and triggering a sample. (R568) -/
  | angOccurrenceBegin (c : Fin 24) (volts : List (BitVec 12))
  /-- ANG_OCCURRENCE_END. An occurrence ends DONE or SHORT and the channel re-arms or disables. (R568) -/
  | angOccurrenceEnd (c : Fin 24)
  /-- ANG_CHANG_WRITE. New angles or duration apply at the next active edge. (R573) -/
  | angChangWrite (i : Ini) (c : Fin 24) (dur : Bool) (v : W32)
  /-- ANG_CHCFG_WRITE. A write to a busy channel is ignored, except that clearing EN cuts or cancels it. (R573) -/
  | angChcfgWrite (i : Ini) (c : Fin 24) (v : W32)
  /-- ANG_CTL_WRITE. Setting EN starts SEARCH, and clearing it enters OFF and blocks every channel. (R576) -/
  | angCtlWrite (i : Ini) (v : W32)
  /-- ANG_TSTAMP_READ. A read of ANG_TSTAMP_LO latches HI. (R575) -/
  | angTstampRead (i : Ini)
  /-- DBG_ATTACH. The TAP leaving Test-Logic-Reset sets ATTACHED, advances COUNT and logs ATTACH. (R588) -/
  | dbgAttach
  /-- DBG_DETACH. 10 ms in Test-Logic-Reset logs DETACH and sets DETACHED. (R589) -/
  | dbgDetach
  /-- DBG_ATTACHED_CLEAR. Clearing ATTACHED takes effect only in Test-Logic-Reset. (R588) -/
  | dbgAttachedClear (i : Ini)
  /-- DAP_READ. A DAP READ performs one aligned 32-bit read as the debug port. (R582) -/
  | dapRead (addr : BitVec 48)
  /-- DAP_WRITE. A DAP WRITE performs one aligned 32-bit non-posted write. (R582) -/
  | dapWrite (addr : BitVec 48) (data : W32)
  /-- DAP_NOP. A DAP NOP performs no access. (R582) -/
  | dapNop
  /-- DAP_ACCESS_DONE. A DAP access ends and its outcome is ready for capture. (R582) -/
  | dapAccessDone
  /-- JTAG_EXTEST. EXTEST drives the boundary cells. (R579) -/
  | jtagExtest
  /-- JTAG_IDCODE. IDCODE selects the identity register. (R580) -/
  | jtagIdcode
  /-- JTAG_SAMPLE_PRELOAD. SAMPLE/PRELOAD captures or preloads the boundary. (R579) -/
  | jtagSamplePreload (cells : List Bool)
  /-- JTAG_CLAMP. CLAMP holds the boundary and selects BYPASS. (R579) -/
  | jtagClamp
  /-- JTAG_HIGHZ. HIGHZ floats the drivable balls. (R579) -/
  | jtagHighz
  /-- JTAG_BYPASS. BYPASS and unknown codes select the bypass register. (R579) -/
  | jtagBypass (code : Byte)
  /-- JTAG_DAP. DAP selects the debug access register. (R579) -/
  | jtagDap
  /-- DBG_SYSRESET. SYSRESET at Run-Test/Idle logs a record and causes the debug system reset. (R579) -/
  | dbgSysreset
  /-- TAP_RESET. TRST_N low or five TMS-high edges place the TAP in Test-Logic-Reset. (R578) -/
  | tapReset
  /-- DBG_HALT. HALT stops the selected core at its next boundary. (R584) -/
  | dbgHalt (i : Ini)
  /-- DBG_RESUME. RESUME continues the halted core from PC. (R584) -/
  | dbgResume (i : Ini)
  /-- DBG_STEP. STEP executes one instruction or RPT unit and halts again. (R584) -/
  | dbgStep (i : Ini)
  /-- DBG_CREG_ACCESS. A DBG_CREG write reads or writes a register of a halted core, or sets NOTHALTED. (R584) -/
  | dbgCregAccess (i : Ini) (v : W32)
  /-- DEBUG_WAKE. 16 TCK edges in a 1 ms window set WAKE_PEND.DBG. (R593) -/
  | debugWake
  /-- TRACE_RECORD. A probe record is stored at WPTR, wrapping or stopping when full, or is dropped. (R592) -/
  | traceRecord
  /-- HEEL_BROWNOUT_RECOVER. VBAT rising past 5.0 V ends the Heel brown-out condition, sets VBAT_OK and starts the full-mode regulator, releasing a Thaw that waits at its first step. (R62) -/
  | heelBrownoutRecover
  /-- MBC_RX_ERROR. A bus error detected while receiving another node's frame raises REC and may set EWARN or enter PASSIVE. (R515) -/
  | mbcRxError (n : Fin 8) (bad : RxBad)
  /-- LIN_UART_CHAR_SENT. A UART character finishes transmission, the next queued character starts, and UART_TXE sets when the transmit FIFO empties. (R541) -/
  | linUartCharSent (n : Fin 8)
  /-- PRBS_CHECKER_SYNC. The PRBS checker seeds itself from received bits and sets PRBS_SYNC, counts bit errors, and clears PRBS_SYNC and reseeds after 8 errors in 64 bits. (R409) -/
  | prbsCheckerSync (n : Fin 48) (l : Fin 4) (bits : List Bool)
  /-- SW_DECODER_READY. 5–20 µs after a transceiver enters DECODING, its frame decoder becomes ready and frames whose SOF follows are decoded. (R553) -/
  | swDecoderReady (x : Fin 4)
deriving DecidableEq, Repr

end Sys2Proof
end

