-- ==== Sys2Proof/Decode.lean ====
section
/-! DEFINITION. Decode.lean: the command that a word spells. No row of spec/opcode_table.json gives bits, so decodeTableWord answers none; the instructions of the Quecen
cores have encodings of their own in the spec (06_quecen.md R138–R141, R176; 07_signal_lane.md R172–R174): decodeCore reads them and encodeCore writes them. -/
namespace Sys2Proof

/-- The command that a word spells by the bits of the opcode table: none, for every word. -/
def decodeTableWord (_nbits _w : Nat) : Option Instr := none

/-! ### Fields of an instruction word (R138) -/

/-- The four fields of format A after OP. -/
def wordD (w : BitVec 32) : BitVec 5 := w.extractLsb' 21 5
def wordA (w : BitVec 32) : BitVec 5 := w.extractLsb' 16 5
def wordB (w : BitVec 32) : BitVec 5 := w.extractLsb' 11 5
def wordFn (w : BitVec 32) : BitVec 11 := w.extractLsb' 0 11
def wordImm (w : BitVec 32) : BitVec 16 := w.extractLsb' 0 16
def wordOp (w : BitVec 32) : BitVec 6 := w.extractLsb' 26 6

/-- STEPA, STEPB and STEPD in bits 0 to 2, and the function, of a lane word (R173). -/
def wordSteps (w : BitVec 32) : BitVec 3 := w.extractLsb' 5 3
def wordLane (w : BitVec 32) : BitVec 5 := w.extractLsb' 0 5
def wordHigh (w : BitVec 32) : BitVec 3 := w.extractLsb' 8 3

/-- A word of format A, of a lane function with step bits, of format I, and of format J. -/
def formA (op : BitVec 6) (d a b : BitVec 5) (fn : BitVec 11) : BitVec 32 := op ++ d ++ a ++ b ++ fn
def formL (op : BitVec 6) (d a b : BitVec 5) (st : BitVec 3) (fn : BitVec 5) : BitVec 32 := op ++ d ++ a ++ b ++ (0 : BitVec 3) ++ st ++ fn
def formI (op : BitVec 6) (d a : BitVec 5) (imm : BitVec 16) : BitVec 32 := op ++ d ++ a ++ imm
def formJ (op : BitVec 6) (off : BitVec 26) : BitVec 32 := op ++ off

/-- An instruction whose other fields are as its encoding demands. -/
def onlyIf (p : Bool) (i : Instr) : Option Instr := if p then some i else none

/-! ### Decoding -/

/-- The ALU group (R141). -/
def decodeAlu (c : CoreId) (d a b : BitVec 5) (fn : BitVec 11) : Option Instr :=
  match fn.toNat with
  | 0x000 => some (.add c d a b)
  | 0x001 => some (.sub c d a b)
  | 0x002 => some (.and c d a b)
  | 0x003 => some (.or c d a b)
  | 0x004 => some (.xor c d a b)
  | 0x005 => some (.sll c d a b)
  | 0x006 => some (.srl c d a b)
  | 0x007 => some (.sra c d a b)
  | 0x008 => some (.slt c d a b)
  | 0x009 => some (.sltu c d a b)
  | 0x00A => some (.min c d a b)
  | 0x00B => some (.max c d a b)
  | 0x00C => some (.minu c d a b)
  | 0x00D => some (.maxu c d a b)
  | 0x010 => some (.mul c d a b)
  | 0x011 => some (.mulh c d a b)
  | 0x012 => some (.mulhu c d a b)
  | 0x014 => some (.div c d a b)
  | 0x015 => some (.divu c d a b)
  | 0x016 => some (.rem c d a b)
  | 0x017 => some (.remu c d a b)
  | 0x018 => onlyIf (b == 0) (.clz c d a)
  | 0x019 => onlyIf (b == 0) (.ctz c d a)
  | 0x01A => onlyIf (b == 0) (.popc c d a)
  | 0x020 => some (.addw c d a b)
  | 0x021 => some (.subw c d a b)
  | _ => none

/-- The atomic group (R141). -/
def decodeAtomic (c : CoreId) (d a b : BitVec 5) (fn : BitVec 11) : Option Instr :=
  match fn.toNat with
  | 0x000 => some (.amoaddW c d a b)
  | 0x001 => some (.amoswapW c d a b)
  | 0x002 => some (.casW c d a b)
  | 0x004 => some (.amoaddD c d a b)
  | 0x005 => some (.amoswapD c d a b)
  | 0x006 => some (.casD c d a b)
  | _ => none

/-- The system group (R141). -/
def decodeSystem (c : CoreId) (d a b : BitVec 5) (fn : BitVec 11) : Option Instr :=
  let z := d == 0 && a == 0 && b == 0
  match fn.toNat with
  | 0x000 => onlyIf z (.fenceRw c)
  | 0x001 => onlyIf z (.fenceW c)
  | 0x002 => onlyIf z (.fenceI c)
  | 0x008 => onlyIf z (.ecall c)
  | 0x009 => onlyIf z (.brk c)
  | 0x010 => onlyIf z (.eret c)
  | 0x011 => onlyIf z (.wfi c)
  | _ => none

/-- The event group (R141). -/
def decodeEvent (c : CoreId) (d a b : BitVec 5) (fn : BitVec 11) : Option Instr :=
  match fn.toNat with
  | 0x000 => onlyIf (a == 0 && b == 0) (.rdt c d)
  | 0x001 => onlyIf (d == 0 && b == 0) (.waitt c a)
  | 0x002 => onlyIf (d == 0) (.sig c a b)
  | 0x003 => some (.waitge c d a b)
  | 0x004 => onlyIf (b == 0) (.preg c d a)
  | 0x005 => onlyIf (b == 0) (.punreg c d a)
  | 0x006 => onlyIf (b == 0) (.rdc c d a)
  | _ => none

/-- The arithmetic group of the lane (R173, R174): FN[10:8] is zero but for RDCS. Register ranges and step bits are judged by the instruction (R172). -/
def decodeLaneArith (c : CoreId) (w : BitVec 32) : Option Instr :=
  let d := wordD w
  let a := wordA w
  let b := wordB w
  let st := wordSteps w
  let z := wordHigh w == 0
  match (wordLane w).toNat with
  | 0x00 => onlyIf z (.cmul c d a b st)
  | 0x01 => onlyIf z (.cmac c d a b st)
  | 0x02 => onlyIf z (.cmsb c d a b st)
  | 0x03 => onlyIf z (.cmacj c d a b st)
  | 0x04 => onlyIf z (.cadd c d a b st)
  | 0x05 => onlyIf z (.csub c d a b st)
  | 0x06 => onlyIf z (.crot c d a b st)
  | 0x07 => onlyIf (z && b == 0) (.cconj c d a st)
  | 0x08 => onlyIf z (.dot8 c d a b st)
  | 0x09 => onlyIf z (.dot8su c d a b st)
  | 0x0A => onlyIf (b == 0) (.rdcs c d a (w.extractLsb' 5 6))
  | 0x0B => onlyIf (z && a == 0 && b == 0 && st == 0) (.aclr c d)
  | _ => none

/-- The move group of the lane (R173, R174). -/
def decodeLaneMove (c : CoreId) (d a b : BitVec 5) (fn : BitVec 11) : Option Instr :=
  match fn.toNat with
  | 0x000 => onlyIf (b == 0) (.cmov c d a)
  | 0x001 => onlyIf (b == 0) (.cfromg c d a)
  | 0x002 => onlyIf (b == 0) (.gfromc c d a)
  | 0x003 => onlyIf (b == 0) (.gaccrl c d a)
  | 0x004 => onlyIf (b == 0) (.gaccrh c d a)
  | 0x005 => onlyIf (b == 0) (.gaccil c d a)
  | 0x006 => onlyIf (b == 0) (.gaccih c d a)
  | 0x007 => some (.asetr c d a b)
  | 0x008 => some (.aseti c d a b)
  | 0x010 => onlyIf (a == 0 && b == 0) (.lflags c d)
  | 0x011 => onlyIf (d == 0 && a == 0 && b == 0) (.lclrf c)
  | _ => none

/-- The memory group of the lane (R173, R174). -/
def decodeLaneMem (c : CoreId) (w : BitVec 32) : Option Instr :=
  let d := wordD w
  let a := wordA w
  let b := wordB w
  let st := wordSteps w
  let z := wordHigh w == 0
  match (wordLane w).toNat with
  | 0x00 => onlyIf (z && b == 0) (.cldp c d a st)
  | 0x02 => onlyIf (z && b == 0) (.cst c d a st)
  | 0x03 => onlyIf z (.cmacm c d a b st)
  | 0x04 => onlyIf z (.cmacr c d a b st)
  | 0x05 => onlyIf z (.dot8m c d a b st)
  | 0x06 => onlyIf z (.dot8msu c d a b st)
  | _ => none

/-- The lane instruction that the word after an RPT spells, if it is one that may follow (R174, R176). -/
def decodeFollower (w : BitVec 32) : Follower :=
  let d := wordD w
  let a := wordA w
  let b := wordB w
  let st := wordSteps w
  if wordHigh w ≠ 0 then .other
  else if wordOp w = 0x38 then
    match (wordLane w).toNat with
    | 0x00 => .reg .cmul d a b st
    | 0x01 => .reg .cmac d a b st
    | 0x02 => .reg .cmsb d a b st
    | 0x03 => .reg .cmacj d a b st
    | 0x04 => .reg .cadd d a b st
    | 0x05 => .reg .csub d a b st
    | 0x06 => .reg .crot d a b st
    | 0x07 => .reg .cconj d a b st
    | 0x08 => .reg .dot8 d a b st
    | 0x09 => .reg .dot8su d a b st
    | _ => .other
  else if wordOp w = 0x3B then
    match (wordLane w).toNat with
    | 0x00 => .mem .cldp d a b st
    | 0x03 => .mem .cmacm d a b st
    | 0x04 => .mem .cmacr d a b st
    | 0x05 => .mem .dot8m d a b st
    | 0x06 => .mem .dot8msu d a b st
    | _ => .other
  else .other

/-- The formats whose OP alone names the instruction (R140). SRLI and SRAI keep IMM[15:6] zero as SLLI does (notes/assumptions/109.md). -/
def decodeOp (c : CoreId) (w next : BitVec 32) : Option Instr :=
  let d := wordD w
  let a := wordA w
  let imm := wordImm w
  let n : BitVec 12 := w.extractLsb' 0 12
  let sh : BitVec 6 := w.extractLsb' 0 6
  let z6 := w.extractLsb' 6 10 == 0
  let z12 := w.extractLsb' 12 4 == 0
  match (wordOp w).toNat with
  | 0x01 => some (.addi c d a imm)
  | 0x02 => some (.andi c d a imm)
  | 0x03 => some (.ori c d a imm)
  | 0x04 => some (.xori c d a imm)
  | 0x08 => some (.slti c d a imm)
  | 0x09 => some (.sltiu c d a imm)
  | 0x0B => some (.shori c d a imm)
  | 0x10 => some (.lb c d a imm)
  | 0x11 => some (.lbu c d a imm)
  | 0x12 => some (.lh c d a imm)
  | 0x13 => some (.lhu c d a imm)
  | 0x14 => some (.lw c d a imm)
  | 0x15 => some (.lwu c d a imm)
  | 0x16 => some (.ld c d a imm)
  | 0x18 => some (.sb c d a imm)
  | 0x19 => some (.sh c d a imm)
  | 0x1A => some (.sw c d a imm)
  | 0x1B => some (.sd c d a imm)
  | 0x28 => some (.jalr c d a imm)
  | 0x3A => some (.cld c d a imm)
  | 0x05 => onlyIf z6 (.slli c d a sh)
  | 0x06 => onlyIf z6 (.srli c d a sh)
  | 0x07 => onlyIf z6 (.srai c d a sh)
  | 0x20 => some (.beq c d a imm)
  | 0x21 => some (.bne c d a imm)
  | 0x22 => some (.blt c d a imm)
  | 0x23 => some (.bge c d a imm)
  | 0x24 => some (.bltu c d a imm)
  | 0x25 => some (.bgeu c d a imm)
  | 0x0A => onlyIf (a == 0) (.lui c d imm)
  | 0x26 => some (.j c (w.extractLsb' 0 26))
  | 0x27 => some (.jal c (w.extractLsb' 0 26))
  | 0x31 => onlyIf (a == 0 && z12) (.srd c d n)
  | 0x32 => onlyIf (d == 0 && z12) (.swr c a n)
  | 0x33 => onlyIf z12 (.sset c d a n)
  | 0x34 => onlyIf z12 (.sclr c d a n)
  | 0x37 => onlyIf (d == 0 && a == 0 && z12) (.rpt c n (decodeFollower next))
  | _ => none

/-- The command that the word at a core's PC spells, with the word after it (R138–R141, R172–R174, R176): ILLEGAL_ENCODING where the tables hold none. -/
def decodeCore (c : CoreId) (w next : BitVec 32) : Instr :=
  let d := wordD w
  let a := wordA w
  let b := wordB w
  let fn := wordFn w
  (match (wordOp w).toNat with
   | 0x00 => decodeAlu c d a b fn
   | 0x1C => decodeAtomic c d a b fn
   | 0x30 => decodeSystem c d a b fn
   | 0x36 => decodeEvent c d a b fn
   | 0x38 => decodeLaneArith c w
   | 0x39 => decodeLaneMove c d a b fn
   | 0x3B => decodeLaneMem c w
   | _ => decodeOp c w next).getD (.illegalEncoding c)

/-! ### Encoding -/

/-- The word of a follower; the zero word, which may not follow, for any other. -/
def encodeFollower : Follower → BitVec 32
  | .reg .cmul d a b st => formL 0x38 d a b st 0x00
  | .reg .cmac d a b st => formL 0x38 d a b st 0x01
  | .reg .cmsb d a b st => formL 0x38 d a b st 0x02
  | .reg .cmacj d a b st => formL 0x38 d a b st 0x03
  | .reg .cadd d a b st => formL 0x38 d a b st 0x04
  | .reg .csub d a b st => formL 0x38 d a b st 0x05
  | .reg .crot d a b st => formL 0x38 d a b st 0x06
  | .reg .cconj d a b st => formL 0x38 d a b st 0x07
  | .reg .dot8 d a b st => formL 0x38 d a b st 0x08
  | .reg .dot8su d a b st => formL 0x38 d a b st 0x09
  | .mem .cldp d a b st => formL 0x3B d a b st 0x00
  | .mem .cmacm d a b st => formL 0x3B d a b st 0x03
  | .mem .cmacr d a b st => formL 0x3B d a b st 0x04
  | .mem .dot8m d a b st => formL 0x3B d a b st 0x05
  | .mem .dot8msu d a b st => formL 0x3B d a b st 0x06
  | .other => 0

/-- The words of an instruction of a core: its own, and for RPT the follower's; none for any other command. -/
def encodeCore : Instr → Option (CoreId × BitVec 32 × BitVec 32)
  | .add c d a b => some (c, formA 0x00 d a b 0x000, 0)
  | .sub c d a b => some (c, formA 0x00 d a b 0x001, 0)
  | .and c d a b => some (c, formA 0x00 d a b 0x002, 0)
  | .or c d a b => some (c, formA 0x00 d a b 0x003, 0)
  | .xor c d a b => some (c, formA 0x00 d a b 0x004, 0)
  | .sll c d a b => some (c, formA 0x00 d a b 0x005, 0)
  | .srl c d a b => some (c, formA 0x00 d a b 0x006, 0)
  | .sra c d a b => some (c, formA 0x00 d a b 0x007, 0)
  | .slt c d a b => some (c, formA 0x00 d a b 0x008, 0)
  | .sltu c d a b => some (c, formA 0x00 d a b 0x009, 0)
  | .min c d a b => some (c, formA 0x00 d a b 0x00A, 0)
  | .max c d a b => some (c, formA 0x00 d a b 0x00B, 0)
  | .minu c d a b => some (c, formA 0x00 d a b 0x00C, 0)
  | .maxu c d a b => some (c, formA 0x00 d a b 0x00D, 0)
  | .mul c d a b => some (c, formA 0x00 d a b 0x010, 0)
  | .mulh c d a b => some (c, formA 0x00 d a b 0x011, 0)
  | .mulhu c d a b => some (c, formA 0x00 d a b 0x012, 0)
  | .div c d a b => some (c, formA 0x00 d a b 0x014, 0)
  | .divu c d a b => some (c, formA 0x00 d a b 0x015, 0)
  | .rem c d a b => some (c, formA 0x00 d a b 0x016, 0)
  | .remu c d a b => some (c, formA 0x00 d a b 0x017, 0)
  | .addw c d a b => some (c, formA 0x00 d a b 0x020, 0)
  | .subw c d a b => some (c, formA 0x00 d a b 0x021, 0)
  | .clz c d a => some (c, formA 0x00 d a 0 0x018, 0)
  | .ctz c d a => some (c, formA 0x00 d a 0 0x019, 0)
  | .popc c d a => some (c, formA 0x00 d a 0 0x01A, 0)
  | .amoaddW c d a b => some (c, formA 0x1C d a b 0x000, 0)
  | .amoswapW c d a b => some (c, formA 0x1C d a b 0x001, 0)
  | .casW c d a b => some (c, formA 0x1C d a b 0x002, 0)
  | .amoaddD c d a b => some (c, formA 0x1C d a b 0x004, 0)
  | .amoswapD c d a b => some (c, formA 0x1C d a b 0x005, 0)
  | .casD c d a b => some (c, formA 0x1C d a b 0x006, 0)
  | .fenceRw c => some (c, formA 0x30 0 0 0 0x000, 0)
  | .fenceW c => some (c, formA 0x30 0 0 0 0x001, 0)
  | .fenceI c => some (c, formA 0x30 0 0 0 0x002, 0)
  | .ecall c => some (c, formA 0x30 0 0 0 0x008, 0)
  | .brk c => some (c, formA 0x30 0 0 0 0x009, 0)
  | .eret c => some (c, formA 0x30 0 0 0 0x010, 0)
  | .wfi c => some (c, formA 0x30 0 0 0 0x011, 0)
  | .rdt c d => some (c, formA 0x36 d 0 0 0x000, 0)
  | .waitt c a => some (c, formA 0x36 0 a 0 0x001, 0)
  | .sig c a b => some (c, formA 0x36 0 a b 0x002, 0)
  | .waitge c d a b => some (c, formA 0x36 d a b 0x003, 0)
  | .preg c d a => some (c, formA 0x36 d a 0 0x004, 0)
  | .punreg c d a => some (c, formA 0x36 d a 0 0x005, 0)
  | .rdc c d a => some (c, formA 0x36 d a 0 0x006, 0)
  | .addi c d a imm => some (c, formI 0x01 d a imm, 0)
  | .andi c d a imm => some (c, formI 0x02 d a imm, 0)
  | .ori c d a imm => some (c, formI 0x03 d a imm, 0)
  | .xori c d a imm => some (c, formI 0x04 d a imm, 0)
  | .slti c d a imm => some (c, formI 0x08 d a imm, 0)
  | .sltiu c d a imm => some (c, formI 0x09 d a imm, 0)
  | .shori c d a imm => some (c, formI 0x0B d a imm, 0)
  | .lb c d a imm => some (c, formI 0x10 d a imm, 0)
  | .lbu c d a imm => some (c, formI 0x11 d a imm, 0)
  | .lh c d a imm => some (c, formI 0x12 d a imm, 0)
  | .lhu c d a imm => some (c, formI 0x13 d a imm, 0)
  | .lw c d a imm => some (c, formI 0x14 d a imm, 0)
  | .lwu c d a imm => some (c, formI 0x15 d a imm, 0)
  | .ld c d a imm => some (c, formI 0x16 d a imm, 0)
  | .sb c d a imm => some (c, formI 0x18 d a imm, 0)
  | .sh c d a imm => some (c, formI 0x19 d a imm, 0)
  | .sw c d a imm => some (c, formI 0x1A d a imm, 0)
  | .sd c d a imm => some (c, formI 0x1B d a imm, 0)
  | .jalr c d a imm => some (c, formI 0x28 d a imm, 0)
  | .cld c d a imm => some (c, formI 0x3A d a imm, 0)
  | .slli c d a sh => some (c, formI 0x05 d a ((0 : BitVec 10) ++ sh), 0)
  | .srli c d a sh => some (c, formI 0x06 d a ((0 : BitVec 10) ++ sh), 0)
  | .srai c d a sh => some (c, formI 0x07 d a ((0 : BitVec 10) ++ sh), 0)
  | .beq c a b off => some (c, formI 0x20 a b off, 0)
  | .bne c a b off => some (c, formI 0x21 a b off, 0)
  | .blt c a b off => some (c, formI 0x22 a b off, 0)
  | .bge c a b off => some (c, formI 0x23 a b off, 0)
  | .bltu c a b off => some (c, formI 0x24 a b off, 0)
  | .bgeu c a b off => some (c, formI 0x25 a b off, 0)
  | .lui c d imm => some (c, formI 0x0A d 0 imm, 0)
  | .j c off => some (c, formJ 0x26 off, 0)
  | .jal c off => some (c, formJ 0x27 off, 0)
  | .srd c d n => some (c, formI 0x31 d 0 ((0 : BitVec 4) ++ n), 0)
  | .swr c a n => some (c, formI 0x32 0 a ((0 : BitVec 4) ++ n), 0)
  | .sset c d a n => some (c, formI 0x33 d a ((0 : BitVec 4) ++ n), 0)
  | .sclr c d a n => some (c, formI 0x34 d a ((0 : BitVec 4) ++ n), 0)
  | .rpt c n fw => some (c, formI 0x37 0 0 ((0 : BitVec 4) ++ n), encodeFollower fw)
  | .cmul c d a b st => some (c, formL 0x38 d a b st 0x00, 0)
  | .cmac c d a b st => some (c, formL 0x38 d a b st 0x01, 0)
  | .cmsb c d a b st => some (c, formL 0x38 d a b st 0x02, 0)
  | .cmacj c d a b st => some (c, formL 0x38 d a b st 0x03, 0)
  | .cadd c d a b st => some (c, formL 0x38 d a b st 0x04, 0)
  | .csub c d a b st => some (c, formL 0x38 d a b st 0x05, 0)
  | .crot c d a b st => some (c, formL 0x38 d a b st 0x06, 0)
  | .dot8 c d a b st => some (c, formL 0x38 d a b st 0x08, 0)
  | .dot8su c d a b st => some (c, formL 0x38 d a b st 0x09, 0)
  | .cconj c d a st => some (c, formL 0x38 d a 0 st 0x07, 0)
  | .rdcs c d a sh => some (c, formA 0x38 d a 0 (sh ++ (0x0A : BitVec 5)), 0)
  | .aclr c d => some (c, formL 0x38 d 0 0 0 0x0B, 0)
  | .cmov c d a => some (c, formA 0x39 d a 0 0x000, 0)
  | .cfromg c d a => some (c, formA 0x39 d a 0 0x001, 0)
  | .gfromc c d a => some (c, formA 0x39 d a 0 0x002, 0)
  | .gaccrl c d a => some (c, formA 0x39 d a 0 0x003, 0)
  | .gaccrh c d a => some (c, formA 0x39 d a 0 0x004, 0)
  | .gaccil c d a => some (c, formA 0x39 d a 0 0x005, 0)
  | .gaccih c d a => some (c, formA 0x39 d a 0 0x006, 0)
  | .asetr c d a b => some (c, formA 0x39 d a b 0x007, 0)
  | .aseti c d a b => some (c, formA 0x39 d a b 0x008, 0)
  | .lflags c d => some (c, formA 0x39 d 0 0 0x010, 0)
  | .lclrf c => some (c, formA 0x39 0 0 0 0x011, 0)
  | .cldp c d a st => some (c, formL 0x3B d a 0 st 0x00, 0)
  | .cst c d a st => some (c, formL 0x3B d a 0 st 0x02, 0)
  | .cmacm c d a b st => some (c, formL 0x3B d a b st 0x03, 0)
  | .cmacr c d a b st => some (c, formL 0x3B d a b st 0x04, 0)
  | .dot8m c d a b st => some (c, formL 0x3B d a b st 0x05, 0)
  | .dot8msu c d a b st => some (c, formL 0x3B d a b st 0x06, 0)
  | _ => none

end Sys2Proof
end

