-- ==== Sys2Proof/Config.lean ====
section
/-! DEFINITION. Config.lean: what the manual leaves open and the model leaves free. None of these has a body, so no
proof can learn a value of them (notes/assumptions/1.md, 2.md). -/
namespace Sys2Proof

/-- The free value: what the manual calls undefined or does not state, drawn afresh by a counter of State
(notes/assumptions/1.md). -/
opaque Config.freeValue : Nat → Word

/-- The byte of the boot ROM at an offset: "its contents are not defined by this manual" (R623,
notes/assumptions/2.md). -/
opaque Config.bootRom : Nat → Byte

/-- The transaction tag of the n-th request that enters the network: R218 does not say how tags are chosen
(notes/assumptions/106.md). -/
opaque Config.tag : Nat → BitVec 16

/-- Word 2 of a MGMT packet's header, CODE and ARG, and what a signal's or an atomic's packet carries beside its header: the manual numbers no code and lays none of them
out (R414, notes/assumptions/55.md). -/
opaque Config.mgmtWord : LWhat → W32
opaque Config.packetBody : LData → List Byte

end Sys2Proof
end

