-- ==== Sys2Proof/Machine/RegMap.lean ====
section
/-! DEFINITION. Machine/RegMap.lean: every register of the register tables of spec/ (the headings "NAME — purpose (offset
0x…)" and their tables Bits | Field | Access | Reset), block by block: its offset and strides, its reset value (R12), and the
bits of each access code (R9). Fld names the field of a table; the address functions R.… give a register's physical
address under the block bases the chapters state. -/
namespace Sys2Proof.Machine

/-- A field of a 32-bit register: its lowest bit and its width. -/
structure Fld where
  lo : Nat
  w : Nat
deriving DecidableEq, Repr

/-- The domain whose reset gives a register its reset value (R12, R70). -/
inductive Domain where
  | aon | retention | insole | otp | heel | sole | die
deriving DecidableEq, Repr

/-- One row of the register map: offset in its block, (count, stride) pairs with strides falling, the reset value and the
masks of the bits whose access code is RW, W1C, W1S, RO, WO, and the mask of the bits marked (kept). -/
structure RegRow where
  off : Nat
  dims : List (Nat × Nat)
  reset : Nat
  rw : Nat
  w1c : Nat
  w1s : Nat
  ro : Nat
  wo : Nat
  kept : Nat
  dom : Option Domain
deriving DecidableEq, Repr

/-- A register block: base, (count, stride) pairs of its instances, size, domain, rows, and the resets that differ at an
offset. -/
structure RegBlock where
  base : Nat
  dims : List (Nat × Nat)
  size : Nat
  dom : Domain
  rows : List RegRow
  alt : List (Nat × Nat)
deriving DecidableEq, Repr

/-- Block CAP at 0x10000000. -/
def regBlockCAP : RegBlock := ⟨0x10000000, [], 0x1000, .sole, [
    ⟨0, [], 0, 0, 0, 0, 0xfff0fff, 0, 0, none⟩,
    ⟨4, [], 0, 0, 0, 0, 0xffffffff, 0, 0, none⟩,
    ⟨8, [], 0, 0, 0, 0, 0xffffffff, 0, 0, none⟩,
    ⟨0xc, [], 0, 0, 0, 0, 0xffff, 0, 0, none⟩,
    ⟨0x10, [], 0, 0, 0, 0, 0xff03, 0, 0, none⟩,
    ⟨0x14, [], 0, 0, 0, 0, 0xffffff, 0, 0, none⟩,
    ⟨0x18, [], 0xc4481228, 0, 0, 0, 0xffffffff, 0, 0, none⟩,
    ⟨0x40, [], 3, 0, 0, 0, 0xff, 0, 0, none⟩,
    ⟨0x44, [], 0, 0, 0, 0, 0xffffffff, 0, 0, none⟩,
    ⟨0x48, [], 0, 0, 0, 0, 0xffffffff, 0, 0, none⟩,
    ⟨0x4c, [], 0, 0, 0, 0, 0xffff, 0, 0, none⟩,
    ⟨0x50, [], 0, 0, 0, 0, 3, 0, 0, none⟩,
    ⟨0x54, [], 0, 0, 0, 0, 0xffffffff, 0, 0, none⟩,
    ⟨0x58, [], 0xffffffff, 0, 0, 0, 0xffffffff, 0, 0xffffffff, none⟩,
    ⟨0x5c, [], 0xffffffff, 0, 0, 0, 0xffffffff, 0, 0xffffffff, none⟩,
    ⟨0x60, [], 0xff, 0, 0, 0, 0xff, 0, 0xff, none⟩,
    ⟨0x64, [], 0x111111, 0, 0, 0, 0xffffff, 0, 0, none⟩,
    ⟨0x68, [], 0, 0, 0, 0, 0xffffffff, 0, 0, none⟩,
    ⟨0x6c, [], 0x10000, 0, 0, 0, 0x10fff, 0, 0, none⟩,
    ⟨0x80, [(16, 4)], 0, 0, 0, 0, 0xffffffff, 0, 0, none⟩,
    ⟨0xc0, [(4, 4)], 0, 0, 0, 0, 0xffffffff, 0, 0, none⟩],
  []⟩

/-- Block TBASE at 0x10003000. -/
def regBlockTBASE : RegBlock := ⟨0x10003000, [], 0x1000, .sole, [
    ⟨0, [], 0, 0, 0, 0, 0xffffffff, 0, 0, none⟩,
    ⟨4, [], 0, 0, 0, 0, 0xffffffff, 0, 0, none⟩,
    ⟨8, [], 0, 0, 0, 0, 0xffffffff, 0, 0xffffffff, some .insole⟩,
    ⟨0xc, [], 0, 0, 0, 0, 0xffffffff, 0, 0xffffffff, some .insole⟩,
    ⟨0x10, [], 0, 0, 0x38, 0, 0x47, 0, 0, some .heel⟩,
    ⟨0x14, [], 0, 0, 0, 0, 0xffffffff, 0, 0, none⟩,
    ⟨0x24, [], 0, 0, 0, 0, 0xff, 0, 0, none⟩,
    ⟨0x18, [], 0, 0, 0, 0, 0xffffffff, 0, 0, some .aon⟩,
    ⟨0x1c, [], 0, 0, 0, 0, 0xffff, 0, 0, some .aon⟩,
    ⟨0x20, [], 0, 0, 0xffff, 0, 0, 0, 0, none⟩,
    ⟨0x40, [(8, 16)], 0, 0xffffffff, 0, 0, 0, 0, 0, none⟩,
    ⟨0x44, [(8, 16)], 0, 0xffffffff, 0, 0, 0, 0, 0, none⟩,
    ⟨0x48, [(8, 16)], 0, 0xffffffff, 0, 0, 0, 0, 0, none⟩,
    ⟨0x4c, [(8, 16)], 0, 0xffffffff, 0, 0, 0, 0, 0, none⟩],
  []⟩

/-- Block PMB at 0x10004000. -/
def regBlockPMB : RegBlock := ⟨0x10004000, [], 0x1000, .sole, [
    ⟨0, [], 8, 0xf, 0, 0, 0, 0, 0, none⟩,
    ⟨4, [], 0, 0x3ffff, 0, 0x80000000, 0, 0, 0, none⟩,
    ⟨8, [], 0, 0xffff, 0, 0, 0, 0, 0, none⟩,
    ⟨0xc, [], 0, 0, 0x3e, 0, 0x101, 0, 0, none⟩],
  []⟩

/-- Block BOOT at 0x10005000. -/
def regBlockBOOT : RegBlock := ⟨0x10005000, [], 0x1000, .sole, [
    ⟨0, [], 0, 0, 0, 0, 0x7f, 0, 0, none⟩,
    ⟨4, [], 0, 0, 0x10000, 0, 0xff000ff3, 0, 0, none⟩,
    ⟨8, [], 0, 0, 0, 0, 0xffffffff, 0, 0, none⟩,
    ⟨0xc, [], 0, 0, 0, 0, 0xffff, 0, 0, none⟩,
    ⟨0x10, [(4, 4)], 0, 0, 0, 0, 0xffffffff, 0, 0, none⟩,
    ⟨0x20, [], 0, 0xffffffff, 0, 0, 0, 0, 0, none⟩,
    ⟨0x24, [], 0, 0xffff, 0, 0, 0, 0, 0, none⟩,
    ⟨0x28, [], 0, 7, 0, 0x80000000, 0, 0, 0, none⟩,
    ⟨0x2c, [], 0, 0, 2, 0, 0x3ff1, 0, 0, none⟩,
    ⟨0x30, [], 0, 0, 0, 0, 0, 0xffff01f3, 0, none⟩,
    ⟨0x34, [], 0, 0, 2, 0, 0xf71, 0, 0, none⟩,
    ⟨0x38, [], 0, 0, 0, 0, 0xffffffff, 0, 0, some .otp⟩,
    ⟨0x3c, [], 0, 0, 0, 0, 0, 0xffff000f, 0, none⟩,
    ⟨0x40, [], 0, 0, 0, 0, 0, 0xffffffff, 0, none⟩,
    ⟨0x44, [], 0, 0, 0, 0, 0xffffffff, 0, 0, none⟩,
    ⟨0x48, [], 0x20, 0, 0x10000, 0, 0x3f3f, 0, 0, none⟩],
  []⟩

/-- Block CORE at 0x10006000. -/
def regBlockCORE : RegBlock := ⟨0x10006000, [], 0x1000, .sole, [
    ⟨0, [], 0, 0, 0, 0x3ff, 0, 0, 0, none⟩,
    ⟨4, [], 1, 0, 0, 0, 0xfffff, 0, 0, none⟩,
    ⟨8, [], 0, 0, 0, 0, 0, 0x3ff, 0, none⟩,
    ⟨0xc, [], 0, 0, 0, 0, 0x3ffff, 0, 0x3ffff, some .insole⟩,
    ⟨0x40, [(10, 8)], 0, 0xfffffffc, 0, 0, 0, 0, 0, none⟩,
    ⟨0x44, [(10, 8)], 0, 0xffff, 0, 0, 0, 0, 0, none⟩],
  []⟩

/-- Block GRDS at 0x10007000. -/
def regBlockGRDS : RegBlock := ⟨0x10007000, [], 0x1000, .sole, [
    ⟨0, [], 0, 0x3fff, 0, 0, 0, 0, 0, none⟩,
    ⟨4, [], 0, 0, 3, 0, 0x1f1f00, 0, 0, none⟩,
    ⟨8, [], 0, 0, 0, 0, 0xffffffff, 0, 0, none⟩,
    ⟨0xc, [], 0, 0, 0, 0, 0xffff, 0, 0, none⟩,
    ⟨0x10, [], 0, 0, 0x80000000, 0, 0x1f7fffff, 0, 0, none⟩,
    ⟨0x14, [], 0, 0, 0, 0, 0xffffffff, 0, 0, none⟩,
    ⟨0x20, [], 0, 0, 0, 0, 0xffffffff, 0, 0, none⟩,
    ⟨0x24, [], 0, 0, 0, 0, 0xffff, 0, 0, none⟩,
    ⟨0x28, [], 0, 0, 0, 0, 0x800fffff, 0, 0, none⟩,
    ⟨0x2c, [], 0, 0, 0, 0, 0, 0xffffffff, 0, none⟩,
    ⟨0x30, [], 0, 0, 0x100, 0, 0xff001f, 0, 0, none⟩,
    ⟨0x40, [], 0x1801, 0xff01, 0, 0, 0x10000, 0, 0, none⟩,
    ⟨0x44, [], 0, 0, 0, 0, 0xffff, 0, 0, none⟩,
    ⟨0x48, [], 0, 0, 0x80000000, 0, 0xfffff, 0, 0, none⟩,
    ⟨0x4c, [], 0, 0, 0, 0, 0xffffffff, 0, 0, none⟩,
    ⟨0x50, [], 0, 0, 0, 0, 0xffff, 0, 0, none⟩,
    ⟨0x60, [], 0, 0, 0, 0, 0xff3, 0, 0, none⟩,
    ⟨0x64, [], 0, 0, 0, 0, 0xffffffff, 0, 0, none⟩],
  []⟩

/-- Block GRDTS at 0x10010000. -/
def regBlockGRDTS : RegBlock := ⟨0x10010000, [], 0x4000, .sole, [
    ⟨0, [(16, 1024), (32, 32)], 0, 0xffffffc0, 0, 0, 0, 0, 0, none⟩,
    ⟨4, [(16, 1024), (32, 32)], 0, 0xffff, 0, 0, 0, 0, 0, none⟩,
    ⟨8, [(16, 1024), (32, 32)], 0x3f, 0xffffffc0, 0, 0, 0, 0, 0, none⟩,
    ⟨0xc, [(16, 1024), (32, 32)], 0, 0xffff, 0, 0, 0, 0, 0, none⟩,
    ⟨0x10, [(16, 1024), (32, 32)], 0, 0xff, 0, 0, 0, 0, 0, none⟩],
  []⟩

/-- Block GRDH at 0x20006000. -/
def regBlockGRDH : RegBlock := ⟨0x20006000, [], 0x1000, .heel, [
    ⟨0, [], 0, 1, 0, 0, 0, 0, 0, none⟩,
    ⟨4, [], 0, 0, 3, 0, 0x1f1f00, 0, 0, none⟩,
    ⟨8, [], 0, 0, 0, 0, 0xffffffff, 0, 0, none⟩,
    ⟨0xc, [], 0, 0, 0, 0, 0xffff, 0, 0, none⟩,
    ⟨0x10, [], 0, 0, 0x80000000, 0, 0x1f7fffff, 0, 0, none⟩,
    ⟨0x14, [], 0, 0, 0, 0, 0xffffffff, 0, 0, none⟩,
    ⟨0x20, [], 0, 0, 0, 0, 0xffffffff, 0, 0, none⟩,
    ⟨0x24, [], 0, 0, 0, 0, 0xffff, 0, 0, none⟩,
    ⟨0x28, [], 0, 0, 0, 0, 0x800fffff, 0, 0, none⟩,
    ⟨0x2c, [], 0, 0, 0, 0, 0, 0xffffffff, 0, none⟩,
    ⟨0x30, [], 0, 0, 0x100, 0, 0xff001f, 0, 0, none⟩],
  []⟩

/-- Block GRDTH at 0x20008000. -/
def regBlockGRDTH : RegBlock := ⟨0x20008000, [], 0x400, .heel, [
    ⟨0, [(1, 1024), (32, 32)], 0, 0xffffffc0, 0, 0, 0, 0, 0, none⟩,
    ⟨4, [(1, 1024), (32, 32)], 0, 0xffff, 0, 0, 0, 0, 0, none⟩,
    ⟨8, [(1, 1024), (32, 32)], 0x3f, 0xffffffc0, 0, 0, 0, 0, 0, none⟩,
    ⟨0xc, [(1, 1024), (32, 32)], 0, 0xffff, 0, 0, 0, 0, 0, none⟩,
    ⟨0x10, [(1, 1024), (32, 32)], 0, 0xff, 0, 0, 0, 0, 0, none⟩],
  []⟩

/-- Block GRDD at 0x80000007000. -/
def regBlockGRDD : RegBlock := ⟨0x80000007000, [(4, 268435456)], 0x1000, .die, [
    ⟨0, [], 0, 0x3ffff, 0, 0, 0, 0, 0, none⟩,
    ⟨4, [], 0, 0, 3, 0, 0x1f1f00, 0, 0, none⟩,
    ⟨8, [], 0, 0, 0, 0, 0xffffffff, 0, 0, none⟩,
    ⟨0xc, [], 0, 0, 0, 0, 0xffff, 0, 0, none⟩,
    ⟨0x10, [], 0, 0, 0x80000000, 0, 0x1f7fffff, 0, 0, none⟩,
    ⟨0x14, [], 0, 0, 0, 0, 0xffffffff, 0, 0, none⟩,
    ⟨0x20, [], 0, 0, 0, 0, 0xffffffff, 0, 0, none⟩,
    ⟨0x24, [], 0, 0, 0, 0, 0xffff, 0, 0, none⟩,
    ⟨0x28, [], 0, 0, 0, 0, 0x800fffff, 0, 0, none⟩,
    ⟨0x2c, [], 0, 0, 0, 0, 0, 0xffffffff, 0, none⟩,
    ⟨0x30, [], 0, 0, 0x100, 0, 0xff001f, 0, 0, none⟩,
    ⟨0x40, [], 0x401, 0xff01, 0, 0, 0x10000, 0, 0, none⟩,
    ⟨0x44, [], 0, 0, 0, 0, 0xffff, 0, 0, none⟩,
    ⟨0x48, [], 0, 0, 0x80000000, 0, 0xfffff, 0, 0, none⟩,
    ⟨0x4c, [], 0, 0, 0, 0, 0xffffffff, 0, 0, none⟩,
    ⟨0x50, [], 0, 0, 0, 0, 0xffff, 0, 0, none⟩],
  []⟩

/-- Block GRDTD at 0x80000010000. -/
def regBlockGRDTD : RegBlock := ⟨0x80000010000, [(4, 268435456)], 0x4800, .die, [
    ⟨0, [(18, 1024), (32, 32)], 0, 0xffffffc0, 0, 0, 0, 0, 0, none⟩,
    ⟨4, [(18, 1024), (32, 32)], 0, 0xffff, 0, 0, 0, 0, 0, none⟩,
    ⟨8, [(18, 1024), (32, 32)], 0x3f, 0xffffffc0, 0, 0, 0, 0, 0, none⟩,
    ⟨0xc, [(18, 1024), (32, 32)], 0, 0xffff, 0, 0, 0, 0, 0, none⟩,
    ⟨0x10, [(18, 1024), (32, 32)], 0, 0xff, 0, 0, 0, 0, 0, none⟩],
  []⟩

/-- Block NOCS at 0x10008000. -/
def regBlockNOCS : RegBlock := ⟨0x10008000, [], 0x1000, .sole, [
    ⟨0, [], 0, 0, 0, 0, 0x1fffffff, 0, 0, none⟩,
    ⟨4, [], 0, 0, 0x80000000, 0, 0xff7, 0, 0, none⟩,
    ⟨8, [], 0, 0, 0, 0, 0xffffffff, 0, 0, none⟩,
    ⟨0x100, [(14, 4)], 0xfffff, 0xfffff, 0, 0, 0, 0, 0, none⟩],
  [(0x100, 0x7fff), (0x104, 0x7fff), (0x108, 0x7fff), (0x10c, 0x7fff), (0x110, 0x7fff), (0x114, 0x7fff), (0x118, 0x7fff), (0x11c, 0x7fff), (0x120, 0x7fff), (0x124, 0x7fff)]⟩

/-- Block NOCD at 0x80000008000. -/
def regBlockNOCD : RegBlock := ⟨0x80000008000, [(4, 268435456)], 0x1000, .die, [
    ⟨0, [], 0, 0, 0, 0, 0x1fffffff, 0, 0, none⟩,
    ⟨4, [], 0, 0, 0x80000000, 0, 0xff7, 0, 0, none⟩,
    ⟨8, [], 0, 0, 0, 0, 0xffffffff, 0, 0, none⟩,
    ⟨0x100, [(18, 4)], 0xfffff, 0xfffff, 0, 0, 0, 0, 0, none⟩],
  [(0x100, 0x7fff), (0x104, 0x7fff), (0x108, 0x7fff), (0x10c, 0x7fff), (0x110, 0x7fff), (0x114, 0x7fff), (0x118, 0x7fff), (0x11c, 0x7fff), (0x120, 0x7fff), (0x124, 0x7fff), (0x128, 0x7fff), (0x12c, 0x7fff), (0x130, 0x7fff), (0x134, 0x7fff), (0x138, 0x7fff), (0x13c, 0x7fff), (0x144, 0x7fff)]⟩

/-- Block NOCRT at 0x80000020000. -/
def regBlockNOCRT : RegBlock := ⟨0x80000020000, [(4, 268435456)], 0x2000, .die, [
    ⟨0, [(17, 256), (8, 16)], 0, 0x8000003f, 0, 0, 0, 0, 0, none⟩,
    ⟨4, [(17, 256), (8, 16)], 0, 0xffffffff, 0, 0, 0, 0, 0, none⟩],
  []⟩

/-- Block AWLS at 0x10009000. -/
def regBlockAWLS : RegBlock := ⟨0x10009000, [], 0x1000, .sole, [
    ⟨0, [], 0, 0, 0x3ffff, 0, 0xff000000, 0, 0, none⟩,
    ⟨4, [], 0x100, 0x1ff, 0, 0, 0, 0, 0, none⟩,
    ⟨8, [], 0, 1, 0, 0, 0, 0, 0, none⟩,
    ⟨0x100, [(8, 64)], 0x3c0000, 0x3f1fff, 0, 0, 0, 0, 0, none⟩,
    ⟨0x104, [(8, 64)], 0xffffffff, 0xffffffff, 0, 0, 0, 0, 0, none⟩,
    ⟨0x108, [(8, 64)], 0, 0xffffffff, 0, 0, 0, 0, 0, none⟩,
    ⟨0x10c, [(8, 64)], 0, 0xffffffff, 0, 0, 0, 0, 0, none⟩,
    ⟨0x110, [(8, 64)], 0, 0xffff, 0, 0, 0, 0, 0, none⟩,
    ⟨0x114, [(8, 64)], 0, 0xffffffff, 0, 0, 0, 0, 0, none⟩,
    ⟨0x118, [(8, 64)], 0, 0xffff, 0, 0, 0, 0, 0, none⟩,
    ⟨0x11c, [(8, 64)], 0, 0xffffffff, 0, 0, 0, 0, 0, none⟩,
    ⟨0x120, [(8, 64)], 0, 0xffffffff, 0, 0, 0, 0, 0, none⟩,
    ⟨0x124, [(8, 64)], 0, 0xffff, 0x80000000, 0, 0, 0, 0, none⟩,
    ⟨0x128, [(8, 64)], 0, 0x8fffffff, 0, 0, 0, 0, 0, none⟩,
    ⟨0x12c, [(8, 64)], 0, 0xffff, 0, 0, 0, 0, 0, none⟩],
  []⟩

/-- Block AWLD at 0x80000009000. -/
def regBlockAWLD : RegBlock := ⟨0x80000009000, [(4, 268435456)], 0x1000, .die, [
    ⟨0, [], 0, 0, 0x3ffff, 0, 0xff000000, 0, 0, none⟩,
    ⟨4, [], 0x100, 0x1ff, 0, 0, 0, 0, 0, none⟩,
    ⟨8, [], 0, 1, 0, 0, 0, 0, 0, none⟩,
    ⟨0x100, [(16, 64)], 0x3c0000, 0x3f1fff, 0, 0, 0, 0, 0, none⟩,
    ⟨0x104, [(16, 64)], 0xffffffff, 0xffffffff, 0, 0, 0, 0, 0, none⟩,
    ⟨0x108, [(16, 64)], 0, 0xffffffff, 0, 0, 0, 0, 0, none⟩,
    ⟨0x10c, [(16, 64)], 0, 0xffffffff, 0, 0, 0, 0, 0, none⟩,
    ⟨0x110, [(16, 64)], 0, 0xffff, 0, 0, 0, 0, 0, none⟩,
    ⟨0x114, [(16, 64)], 0, 0xffffffff, 0, 0, 0, 0, 0, none⟩,
    ⟨0x118, [(16, 64)], 0, 0xffff, 0, 0, 0, 0, 0, none⟩,
    ⟨0x11c, [(16, 64)], 0, 0xffffffff, 0, 0, 0, 0, 0, none⟩,
    ⟨0x120, [(16, 64)], 0, 0xffffffff, 0, 0, 0, 0, 0, none⟩,
    ⟨0x124, [(16, 64)], 0, 0xffff, 0x80000000, 0, 0, 0, 0, none⟩,
    ⟨0x128, [(16, 64)], 0, 0x8fffffff, 0, 0, 0, 0, 0, none⟩,
    ⟨0x12c, [(16, 64)], 0, 0xffff, 0, 0, 0, 0, 0, none⟩],
  []⟩

/-- Block BWCS at 0x1000a000. -/
def regBlockBWCS : RegBlock := ⟨0x1000a000, [], 0x1000, .sole, [
    ⟨0, [], 0x64, 0xffff, 0, 0, 0, 0, 0, none⟩,
    ⟨4, [], 0, 0, 0, 0, 0xffffffff, 0, 0, none⟩,
    ⟨8, [], 0, 0, 0, 0, 0xffffffff, 0, 0, none⟩,
    ⟨0x7c, [], 3, 0, 0, 0, 3, 0, 0, none⟩,
    ⟨0x40, [(16, 4)], 1, 3, 0, 0, 0, 0, 0, none⟩,
    ⟨0x100, [(16, 16), (4, 4)], 0xfffff, 0xfffff, 0, 0, 0, 0, 0, none⟩,
    ⟨0x200, [(16, 16), (4, 4)], 0, 0, 0, 0, 0xffffff, 0, 0, none⟩,
    ⟨0x300, [(16, 16), (4, 4)], 0, 0, 0, 0, 0x80ffffff, 0, 0, none⟩],
  [(0x7c, 3)]⟩

/-- Block BWCD at 0x8000000a000. -/
def regBlockBWCD : RegBlock := ⟨0x8000000a000, [(4, 268435456)], 0x1000, .die, [
    ⟨0, [], 0x64, 0xffff, 0, 0, 0, 0, 0, none⟩,
    ⟨4, [], 0, 0, 0, 0, 0xffffffff, 0, 0, none⟩,
    ⟨8, [], 0, 0, 0, 0, 0xffffffff, 0, 0, none⟩,
    ⟨0x7c, [], 3, 0, 0, 0, 3, 0, 0, none⟩,
    ⟨0x40, [(16, 4)], 1, 3, 0, 0, 0, 0, 0, none⟩,
    ⟨0x100, [(16, 16), (4, 4)], 0xfffff, 0xfffff, 0, 0, 0, 0, 0, none⟩,
    ⟨0x200, [(16, 16), (4, 4)], 0, 0, 0, 0, 0xffffff, 0, 0, none⟩,
    ⟨0x300, [(16, 16), (4, 4)], 0, 0, 0, 0, 0x80ffffff, 0, 0, none⟩],
  [(0x7c, 3)]⟩

/-- Block CNTS at 0x1000b000. -/
def regBlockCNTS : RegBlock := ⟨0x1000b000, [], 0x1000, .sole, [
    ⟨0, [(1024, 4)], 0, 0xffffffff, 0, 0, 0, 0, 0, none⟩],
  []⟩

/-- Block CNTD at 0x80000040000. -/
def regBlockCNTD : RegBlock := ⟨0x80000040000, [(4, 268435456)], 0x4000, .die, [
    ⟨0, [(4096, 4)], 0, 0xffffffff, 0, 0, 0, 0, 0, none⟩],
  []⟩

/-- Block CNTXS at 0x1000c000. -/
def regBlockCNTXS : RegBlock := ⟨0x1000c000, [], 0x1000, .sole, [
    ⟨0, [(32, 4)], 0, 0xffffffff, 0, 0, 0, 0, 0, none⟩],
  []⟩

/-- Block CNTXD at 0x80000044000. -/
def regBlockCNTXD : RegBlock := ⟨0x80000044000, [(4, 268435456)], 0x1000, .die, [
    ⟨0, [(128, 4)], 0, 0xffffffff, 0, 0, 0, 0, 0, none⟩],
  []⟩

/-- Block CEN at 0x1000d000. -/
def regBlockCEN : RegBlock := ⟨0x1000d000, [], 0x1000, .sole, [
    ⟨0, [], 0, 0xff, 0, 0, 0, 0, 0, none⟩,
    ⟨4, [], 0, 0, 0xffff, 0, 0, 0, 0, none⟩,
    ⟨0x100, [(8, 64), (4, 4)], 0, 0xffffffff, 0, 0, 0, 0, 0, none⟩,
    ⟨0x110, [(8, 64)], 0, 0x3fff, 0, 0, 0, 0, 0, none⟩,
    ⟨0x114, [(8, 64)], 0, 0xffffffc0, 0, 0, 0, 0, 0, none⟩,
    ⟨0x118, [(8, 64)], 0, 0xffff, 0, 0, 0, 0, 0, none⟩],
  []⟩

/-- Block HOLDS at 0x1000e000. -/
def regBlockHOLDS : RegBlock := ⟨0x1000e000, [], 0x1000, .sole, [
    ⟨0, [(256, 4)], 0, 0, 0, 0, 0xffff0007, 0, 0, none⟩,
    ⟨0x400, [(256, 4)], 0, 0, 0, 0, 0xffff0007, 0, 0, none⟩,
    ⟨0x800, [(256, 4)], 0, 0, 0, 0, 0, 0xffffffff, 0, none⟩],
  []⟩

/-- Block HOLDD at 0x80000050000. -/
def regBlockHOLDD : RegBlock := ⟨0x80000050000, [(4, 268435456)], 0x1000, .die, [
    ⟨0, [(256, 4)], 0, 0, 0, 0, 0xffff0007, 0, 0, none⟩,
    ⟨0x400, [(256, 4)], 0, 0, 0, 0, 0xffff0007, 0, 0, none⟩,
    ⟨0x800, [(256, 4)], 0, 0, 0, 0, 0, 0xffffffff, 0, none⟩],
  []⟩

/-- Block TRK at 0x1000f000. -/
def regBlockTRK : RegBlock := ⟨0x1000f000, [], 0x1000, .sole, [
    ⟨0, [], 0, 0, 0, 0xff, 0, 0, 0, none⟩,
    ⟨4, [], 0x10f, 0x1ff, 0, 0, 0, 0, 0, none⟩,
    ⟨8, [], 0, 0, 0xff, 0, 0, 0, 0, none⟩,
    ⟨0xc, [], 0, 0, 0, 0, 0xffffffff, 0, 0, none⟩,
    ⟨0x10, [], 0, 0, 0, 0, 0xffffffff, 0, 0, none⟩,
    ⟨0x100, [(4, 64)], 0, 0xffffffff, 0, 0, 0, 0, 0, none⟩,
    ⟨0x104, [(4, 64)], 0, 0xffffffff, 0, 0, 0, 0, 0, none⟩,
    ⟨0x108, [(4, 64)], 0, 0xffff, 0, 0, 0xffff0000, 0, 0, none⟩,
    ⟨0x10c, [(4, 64)], 0, 0, 8, 0, 0x77, 0, 0, none⟩,
    ⟨0x110, [(4, 64)], 0, 0xffffffc0, 0, 0, 0, 0, 0, none⟩,
    ⟨0x114, [(4, 64)], 0, 0xffff, 0, 0, 0, 0, 0, none⟩,
    ⟨0x118, [(4, 64)], 0, 0xffffffc0, 0, 0, 0, 0, 0, none⟩,
    ⟨0x11c, [(4, 64)], 0, 0xffff, 0, 0, 0, 0, 0, none⟩,
    ⟨0x120, [(4, 64)], 0, 0, 0, 0, 0xffffffff, 0, 0, none⟩,
    ⟨0x124, [(4, 64)], 0, 0, 0, 0, 0xffffffff, 0, 0, none⟩],
  []⟩

/-- Block CLUS at 0x10014000. -/
def regBlockCLUS : RegBlock := ⟨0x10014000, [], 0x1000, .sole, [
    ⟨0, [], 0, 0xff, 0x200, 0, 0x100, 0, 0, none⟩,
    ⟨4, [], 0x140004, 0xffff000f, 0, 0, 0, 0, 0, none⟩,
    ⟨8, [], 0, 0, 0, 0, 0xffffffff, 0, 0, none⟩,
    ⟨0x100, [(64, 8)], 0, 0xfffff000, 0, 0, 0, 0, 0, none⟩,
    ⟨0x104, [(64, 8)], 0, 0xc0ffffff, 0, 0, 0, 0, 0, none⟩,
    ⟨0x400, [(256, 4)], 0x3f3f3f, 0x803f3f3f, 0, 0, 0, 0, 0, none⟩],
  []⟩

/-- Block FLT at 0x10015000. -/
def regBlockFLT : RegBlock := ⟨0x10015000, [], 0x1000, .sole, [
    ⟨0, [], 0, 0, 1, 0, 0x702, 0, 0, none⟩,
    ⟨4, [], 0, 0, 0x3f, 0, 0, 0, 0, none⟩,
    ⟨8, [], 6, 0x3f, 0, 0, 0, 0, 0, none⟩,
    ⟨0xc, [], 0, 0xffffffc0, 0, 0, 0, 0, 0, none⟩,
    ⟨0x10, [], 0, 0xffff, 0, 0, 0, 0, 0, none⟩,
    ⟨0x14, [], 0, 0x1f, 0, 0, 0, 0, 0, none⟩,
    ⟨0x18, [], 0, 0, 0, 0, 0x1ffff, 0, 0, none⟩,
    ⟨0x1c, [], 0, 0x1ffff, 0, 0, 0, 0, 0, none⟩,
    ⟨0x20, [], 0, 0, 0, 0, 0xffffffff, 0, 0, none⟩,
    ⟨0x24, [], 0, 0, 0, 0, 0xffffffff, 0, 0, none⟩,
    ⟨0x28, [], 0x33333333, 0xffffffff, 0, 0, 0, 0, 0, none⟩,
    ⟨0x2c, [], 3, 0xf, 0, 0, 0, 0, 0, none⟩,
    ⟨0x30, [], 0x3c1002, 0xffff0f, 0, 0, 0, 0, 0, none⟩,
    ⟨0x34, [], 0, 0, 0xffe, 0, 0, 0, 0, none⟩,
    ⟨0x40, [], 0, 0, 0, 0, 0, 0xff0fffff, 0, none⟩,
    ⟨0x44, [], 0, 0, 0, 0, 7, 0, 0, none⟩,
    ⟨0x50, [(4, 4)], 0, 0, 0, 0, 0x8000ffff, 0, 0, none⟩],
  []⟩

/-- Block FLTK at 0x8000000d000. -/
def regBlockFLTK : RegBlock := ⟨0x8000000d000, [(4, 268435456)], 0x1000, .die, [
    ⟨0, [], 0, 0, 1, 0, 2, 0, 0, none⟩],
  []⟩

/-- Block FLTH at 0x20007000. -/
def regBlockFLTH : RegBlock := ⟨0x20007000, [], 0x1000, .heel, [
    ⟨0, [], 0, 0, 1, 0, 2, 0, 0, none⟩],
  []⟩

/-- Block TRC at 0x10016000. -/
def regBlockTRC : RegBlock := ⟨0x10016000, [], 0x1000, .sole, [
    ⟨0, [], 0, 3, 0, 0, 0, 0, 0, none⟩,
    ⟨4, [], 0, 0, 0, 0, 0x1ffff, 0, 0, none⟩,
    ⟨8, [], 0, 0, 2, 0, 1, 0, 0, none⟩],
  []⟩

/-- Block SUP at 0x20001000. -/
def regBlockSUP : RegBlock := ⟨0x20001000, [], 0x1000, .heel, [
    ⟨0, [], 0, 0, 0, 0, 0x3ff1f, 0, 0, none⟩,
    ⟨4, [], 0, 0, 0x3ff16, 0, 0, 0, 0, none⟩,
    ⟨8, [], 0, 0x3ffff, 0, 0, 0, 0, 0, none⟩,
    ⟨0xc, [], 1, 0, 0, 0, 0xfd, 0, 0, none⟩,
    ⟨0x10, [], 1, 0, 0xf3ff, 0, 0, 0, 0, some .retention⟩,
    ⟨0x14, [], 0, 0, 0, 0, 0, 0xffffffff, 0, none⟩,
    ⟨0x20, [(2, 8)], 0x1f40001, 0xffff0000, 0, 1, 0, 0, 0, none⟩,
    ⟨0x24, [(2, 8)], 0, 0, 0, 0, 0, 0xffffffff, 0, none⟩,
    ⟨0x30, [], 0, 0, 0, 0, 0xffff, 0, 0, none⟩],
  [(0x28, 0x3e80000)]⟩

/-- Block PST at 0x20002000. -/
def regBlockPST : RegBlock := ⟨0x20002000, [], 0x1000, .heel, [
    ⟨0, [], 1, 0, 0, 0, 7, 0, 0, none⟩,
    ⟨4, [], 0, 0, 0, 0, 0, 0xffffffff, 0, none⟩,
    ⟨8, [], 0, 0, 0, 0, 0, 0xffffffff, 0, none⟩,
    ⟨0xc, [], 0, 0, 0xf, 0, 0xffff0000, 0, 0, none⟩,
    ⟨0x10, [], 0, 0, 0x7f, 0, 0xff0000, 0, 0, none⟩,
    ⟨0x14, [], 0xa, 0xff, 0, 0, 0, 0, 0, none⟩,
    ⟨0x18, [], 0, 0, 0, 0, 0, 0xffffffff, 0, none⟩,
    ⟨0x20, [], 0, 0xffffffff, 0, 0, 0, 0, 0, none⟩,
    ⟨0x24, [], 0, 0, 0, 0, 0xffffffff, 0, 0, none⟩,
    ⟨0x28, [], 0x80808080, 0, 0, 0, 0xffffffff, 0, 0, none⟩,
    ⟨0x2c, [], 0x8080, 0, 0, 0, 0xffffffff, 0, 0, none⟩],
  []⟩

/-- Block WAKE at 0x20003000. -/
def regBlockWAKE : RegBlock := ⟨0x20003000, [], 0x1000, .aon, [
    ⟨0, [], 0x5e00, 0x3fff, 0, 0, 0x4000, 0, 0x3fff, none⟩,
    ⟨4, [], 0, 0, 0xffff, 0, 0, 0, 0, none⟩,
    ⟨8, [], 0x10000, 0, 0, 0, 0xf1ffff, 0, 0, none⟩,
    ⟨0xc, [], 0, 0, 0, 0, 0xffffffff, 0, 0, none⟩,
    ⟨0x10, [], 0x3333, 0xffff, 0, 0, 0, 0, 0xffff, none⟩,
    ⟨0x14, [], 0, 0xffffffff, 0, 0, 0, 0, 0xffffffff, none⟩,
    ⟨0x18, [], 0, 0xffff, 0, 0, 0, 0, 0xffff, none⟩,
    ⟨0x1c, [], 0, 0, 0, 0, 0xffff003f, 0, 0xffff003f, none⟩],
  []⟩

/-- Block INS at 0x20004000. -/
def regBlockINS : RegBlock := ⟨0x20004000, [], 0x1000, .aon, [
    ⟨0, [], 0, 0, 2, 0, 0xffff01, 0, 0, some .insole⟩,
    ⟨4, [], 0, 0, 0, 0, 0xffffffff, 0, 0, none⟩,
    ⟨8, [], 0, 0, 0, 0, 0xffff, 0, 0, none⟩],
  []⟩

/-- Block HBOOT at 0x20005000. -/
def regBlockHBOOT : RegBlock := ⟨0x20005000, [], 0x1000, .heel, [
    ⟨0, [], 0, 7, 0, 0, 0, 0, 7, none⟩,
    ⟨4, [], 0, 0x1ff0001, 0, 0x80000000, 2, 0, 0, none⟩,
    ⟨8, [], 0, 0, 0, 0, 0, 0xffffffff, 0, none⟩],
  []⟩

/-- Block DBG at 0x20009000. -/
def regBlockDBG : RegBlock := ⟨0x20009000, [], 0x1000, .heel, [
    ⟨0, [], 4, 0, 3, 0, 4, 0, 0, none⟩,
    ⟨4, [], 0, 0, 0, 0, 0xffffffff, 0, 0, none⟩,
    ⟨8, [], 0, 1, 0, 0, 0, 0, 0, none⟩,
    ⟨0x10, [], 0, 0xf, 0, 0, 0, 0, 0, none⟩,
    ⟨0x14, [], 0, 0, 0, 7, 0, 0, 0, none⟩,
    ⟨0x18, [], 0, 0, 0x10, 0, 0xf, 0, 0, none⟩,
    ⟨0x1c, [], 0, 0x80001fff, 0, 0, 0, 0, 0, none⟩,
    ⟨0x20, [], 0, 0xffffffff, 0, 0, 0, 0, 0, none⟩,
    ⟨0x24, [], 0, 0xffffffff, 0, 0, 0, 0, 0, none⟩],
  []⟩

/-- Block HSO at 0x2000a000. -/
def regBlockHSO : RegBlock := ⟨0x2000a000, [], 0x1000, .heel, [
    ⟨0, [], 0, 0, 0xffffffff, 0, 0, 0, 0, none⟩,
    ⟨4, [], 0, 0, 0xff, 0, 0, 0, 0, none⟩,
    ⟨8, [], 0, 0xffffffff, 0, 0, 0, 0, 0, none⟩,
    ⟨0xc, [], 0, 0xff, 0, 0, 0, 0, 0, none⟩,
    ⟨0x10, [], 3, 0xf, 0, 0, 0, 0, 0, none⟩,
    ⟨0x20, [], 0x40100, 0xfff0f, 0, 0, 0, 0, 0xfff0f, none⟩,
    ⟨0x24, [], 0, 0, 3, 0, 0x300, 0, 0, some .aon⟩,
    ⟨0x100, [(40, 32)], 0, 0x3ff7ff3, 0, 0, 0, 0, 0, none⟩,
    ⟨0x104, [(40, 32)], 0x3e8, 0xffff, 0, 0, 0, 0, 0, none⟩,
    ⟨0x108, [(40, 32)], 0xa310001, 0xfff37ff3, 0, 0, 0, 0, 0, none⟩,
    ⟨0x10c, [(40, 32)], 0xffff0000, 0, 0, 0, 0xffff3f77, 0, 0, none⟩,
    ⟨0x110, [(40, 32)], 0, 0, 0, 0, 0x8000ffff, 0, 0, none⟩],
  []⟩

/-- Block HBR at 0x2000b000. -/
def regBlockHBR : RegBlock := ⟨0x2000b000, [], 0x1000, .heel, [
    ⟨0, [], 0, 0, 0xffff, 0, 0, 0, 0, none⟩,
    ⟨4, [], 0, 0xffff, 0, 0, 0, 0, 0, none⟩,
    ⟨0x100, [(8, 32)], 0x4000000, 0x3fff7ff7, 0, 0, 0, 0, 0, none⟩,
    ⟨0x104, [(8, 32)], 0x530a03e8, 0x7fffffff, 0, 0, 0, 0, 0, none⟩,
    ⟨0x108, [(8, 32)], 0xffff0000, 0, 0, 0, 0xffff1f77, 0, 0, none⟩,
    ⟨0x10c, [(8, 32)], 0, 0, 0, 0, 0x8000ffff, 0, 0, none⟩,
    ⟨0x400, [(4, 64)], 0, 0x7ff7, 0, 0, 0, 0, 0, none⟩,
    ⟨0x404, [(4, 64)], 0x14a, 0xffff03ff, 0, 0, 0, 0, 0, none⟩,
    ⟨0x408, [(4, 64)], 0x30a01f4, 0xfffffff, 0, 0, 0, 0, 0, none⟩,
    ⟨0x40c, [(4, 64)], 0, 0, 0, 0, 0x1ff7, 0, 0, none⟩,
    ⟨0x410, [(4, 64)], 0, 0, 0, 0, 0x8000ffff, 0, 0, none⟩,
    ⟨0x800, [(4, 64)], 0, 0xfff337f, 0, 0, 0, 0, 0, none⟩,
    ⟨0x804, [(4, 64), (4, 4)], 0, 0xfff0fdf, 0, 0, 0, 0, 0, none⟩,
    ⟨0x814, [(4, 64)], 0, 0, 0, 3, 0, 0, 0, none⟩,
    ⟨0x818, [(4, 64)], 0, 0, 0, 0, 0xffff0037, 0, 0, none⟩],
  []⟩

/-- Block SWI at 0x2000c000. -/
def regBlockSWI : RegBlock := ⟨0x2000c000, [], 0x1000, .heel, [
    ⟨0, [], 0, 0, 0, 0, 0xffffffff, 0, 0, none⟩,
    ⟨4, [], 0, 0, 0, 0, 0xffffffff, 0, 0, none⟩,
    ⟨8, [], 0, 0, 0xffffffff, 0, 0, 0, 0, none⟩,
    ⟨0xc, [], 0, 0, 0xffffffff, 0, 0, 0, 0, none⟩,
    ⟨0x10, [], 0, 0xffffffff, 0, 0, 0, 0, 0, none⟩,
    ⟨0x14, [], 0, 0xffffffff, 0, 0, 0, 0, 0, none⟩,
    ⟨0x18, [], 0, 0xffffffff, 0, 0, 0, 0, 0xffffffff, none⟩,
    ⟨0x1c, [], 0, 0xffffffff, 0, 0, 0, 0, 0xffffffff, none⟩,
    ⟨0x20, [], 0x12, 0x37, 0, 0, 0, 0, 0x37, none⟩,
    ⟨0x24, [], 0, 0, 0, 0, 0xffffffff, 0, 0, some .aon⟩,
    ⟨0x28, [], 0, 0, 0, 0, 0xffffffff, 0, 0, some .aon⟩,
    ⟨0x2c, [], 0, 0, 0, 0, 0xffffffff, 0, 0, some .aon⟩,
    ⟨0x30, [], 0, 0, 0, 0, 0xffffffff, 0, 0, some .aon⟩,
    ⟨0x100, [(64, 4)], 0x100, 0x7ff7, 0, 0, 0, 0, 0xc1, none⟩,
    ⟨0x200, [(64, 4)], 0, 0, 0, 0, 0x80000fff, 0, 0, none⟩],
  []⟩

/-- Block QDEC at 0x2000d000. -/
def regBlockQDEC : RegBlock := ⟨0x2000d000, [], 0x1000, .heel, [
    ⟨0, [], 0, 0, 0xff, 0, 0, 0, 0, none⟩,
    ⟨4, [], 0, 0xff, 0, 0, 0, 0, 0, none⟩,
    ⟨0x100, [(4, 64)], 0x10, 0x3f7, 0, 0, 0, 0, 0, none⟩,
    ⟨0x104, [(4, 64)], 0, 0xffffffff, 0, 0, 0, 0, 0, none⟩,
    ⟨0x108, [(4, 64)], 2, 0, 0, 0, 0xff0f, 0, 0, none⟩,
    ⟨0x10c, [(4, 64)], 0xffffffff, 0, 0, 0, 0xffffffff, 0, 0, none⟩,
    ⟨0x110, [(4, 64)], 0, 0xffffffff, 0, 0, 0, 0, 0, none⟩,
    ⟨0x114, [(4, 64)], 0, 0, 0, 3, 0, 0, 0, none⟩],
  []⟩

/-- Block MBC at 0x20010000. -/
def regBlockMBC : RegBlock := ⟨0x20010000, [(8, 4096)], 0x1000, .heel, [
    ⟨0, [], 1, 0x3f, 0, 0x100, 0, 0, 0, none⟩,
    ⟨4, [], 0, 0x7ffffff, 0, 0, 0, 0, 0, none⟩,
    ⟨8, [], 0, 0x3ffffff, 0, 0, 0, 0, 0, none⟩,
    ⟨0xc, [], 0, 0, 0, 0, 0x7f7f773f, 0, 0, none⟩,
    ⟨0x10, [], 0, 0, 0, 0, 0xff01ff, 0, 0, none⟩,
    ⟨0x14, [], 0, 0, 0x1fff, 0, 0, 0, 0, none⟩,
    ⟨0x18, [], 0, 0x1fff, 0, 0, 0, 0, 0, none⟩,
    ⟨0x20, [], 0, 0, 0, 0xffffffff, 0, 0, 0, none⟩,
    ⟨0x24, [], 0, 0, 0, 0xffffffff, 0, 0, 0, none⟩,
    ⟨0x28, [], 0, 0, 0xffffffff, 0, 0, 0, 0, none⟩,
    ⟨0x30, [], 0, 0, 0, 0, 0x807fff3f, 0, 0, none⟩,
    ⟨0x34, [], 0, 0, 0, 0, 0xffffffff, 0, 0, none⟩,
    ⟨0x38, [], 0, 0, 0, 0, 0xffffffff, 0, 0, none⟩,
    ⟨0x3c, [], 0, 0, 0, 0, 0, 0xffffffff, 0, none⟩,
    ⟨0x40, [], 0, 0, 0, 0, 0xff1f, 0, 0, none⟩,
    ⟨0x44, [], 0, 0, 0, 0, 0xff3f3f, 0, 0, none⟩,
    ⟨0x48, [], 0, 0, 0, 0, 0, 0xffffffff, 0, none⟩,
    ⟨0x4c, [], 0, 0, 0, 0, 0xff1f1f, 0, 0, none⟩,
    ⟨0x50, [], 0, 0, 0, 0, 0xffffffff, 0, 0, none⟩,
    ⟨0x54, [], 0, 0, 0, 0, 0xffffffff, 0, 0, none⟩,
    ⟨0x58, [], 1, 1, 0, 0, 0, 0, 0, none⟩,
    ⟨0x100, [(32, 8)], 0, 0xffffffff, 0, 0, 0, 0, 0, none⟩,
    ⟨0x104, [(32, 8)], 0, 0x1fffffff, 0, 0, 0, 0, 0, none⟩],
  []⟩

/-- Block LAST at 0x20030000. -/
def regBlockLAST : RegBlock := ⟨0x20030000, [(8, 8192)], 0x2000, .heel, [
    ⟨0, [], 0, 7, 0, 0, 0, 0, 0, none⟩,
    ⟨4, [], 0xa000000, 0xff1f1f3f, 0, 0, 0, 0, 0, none⟩,
    ⟨8, [], 0, 0xffff, 0, 0, 0, 0, 0, none⟩,
    ⟨0xc, [], 0, 0xffffffff, 0, 0, 0, 0, 0, none⟩,
    ⟨0x10, [], 0, 0xffffffff, 0, 0, 0, 0, 0, none⟩,
    ⟨0x14, [], 0, 0x3fffffff, 0, 0, 0, 0, 0, none⟩,
    ⟨0x18, [], 0, 0, 0, 0, 0xf1f3f07, 0, 0, none⟩,
    ⟨0x1c, [], 0, 0, 0x3e, 0, 0, 0, 0, none⟩,
    ⟨0x20, [], 0, 0, 0, 0, 0xffffffff, 0, 0, none⟩,
    ⟨0x100, [(32, 4)], 0, 0xffffffff, 0, 0, 0, 0, 0, none⟩,
    ⟨0x1000, [(64, 64), (16, 4)], 0, 0xff00ff, 0, 0, 0, 0, 0, none⟩],
  []⟩

/-- Block LIN at 0x20040000. -/
def regBlockLIN : RegBlock := ⟨0x20040000, [(8, 4096)], 0x1000, .heel, [
    ⟨0, [], 8, 0x1fff, 0, 0, 0, 0, 0, none⟩,
    ⟨4, [], 0x1047, 0xffff, 0, 0, 0, 0, 0, none⟩,
    ⟨8, [], 0, 0, 0, 0, 0xffff000f, 0, 0, none⟩,
    ⟨0xc, [], 0, 0, 0x1ff, 0, 0, 0, 0, none⟩,
    ⟨0x10, [], 0, 0x1ff, 0, 0, 0, 0, 0, none⟩,
    ⟨0x14, [], 0, 0, 0, 0, 0, 0x3f, 0, none⟩,
    ⟨0x18, [], 0x1400, 0xff00, 0, 1, 0, 0, 0, none⟩,
    ⟨0x20, [], 0, 0, 0, 0, 0x800f0fff, 0, 0, none⟩,
    ⟨0x24, [], 0, 0, 0, 0, 0xffffffff, 0, 0, none⟩,
    ⟨0x28, [], 0, 0, 0, 0, 0xffffffff, 0, 0, none⟩,
    ⟨0x2c, [], 0, 0, 0, 0, 0xffffffff, 0, 0, none⟩,
    ⟨0x30, [], 0, 0, 0, 0, 0xffffffff, 0, 0, none⟩,
    ⟨0x34, [], 0, 0, 0, 0, 0, 0xffffffff, 0, none⟩,
    ⟨0x38, [], 0, 0, 0, 0, 0xff1f, 0, 0, none⟩,
    ⟨0x3c, [], 0, 0, 0, 0, 0xffffffff, 0, 0, none⟩,
    ⟨0x48, [], 0, 0, 0, 0, 0, 0xff, 0, none⟩,
    ⟨0x4c, [], 0, 0, 0, 0, 0x800003ff, 0, 0, none⟩,
    ⟨0x50, [], 0x10, 0, 0x10000, 0, 0x1f1f, 0, 0, none⟩,
    ⟨0x54, [], 0x11, 0x1f, 0, 0, 0, 0, 0, none⟩,
    ⟨0x58, [], 0, 0, 0, 0, 0xff0f, 0, 0, none⟩,
    ⟨0x400, [(64, 4)], 0x80, 0x1ff, 0, 0, 0, 0, 0, none⟩,
    ⟨0x600, [(64, 8)], 0, 0xffffffff, 0, 0, 0, 0, 0, none⟩,
    ⟨0x604, [(64, 8)], 0, 0xffffffff, 0, 0, 0, 0, 0, none⟩],
  []⟩

/-- Block XWAKE at 0x2000e000. -/
def regBlockXWAKE : RegBlock := ⟨0x2000e000, [], 0x1000, .heel, [
    ⟨0, [(4, 4)], 0xa1, 0xf3f3, 0, 0, 0, 0, 0xf3f0, none⟩,
    ⟨0x10, [(4, 4)], 0, 0x3fffffff, 0, 0, 0, 0, 0x3fffffff, none⟩,
    ⟨0x20, [(4, 4)], 0, 0x1fffffff, 0, 0, 0, 0, 0x1fffffff, none⟩,
    ⟨0x30, [(4, 8)], 0, 0xffffffff, 0, 0, 0, 0, 0xffffffff, none⟩,
    ⟨0x34, [(4, 8)], 0, 0xffffffff, 0, 0, 0, 0, 0xffffffff, none⟩,
    ⟨0x50, [(4, 4)], 1, 0, 0, 0, 0x73f0f, 0, 0, some .aon⟩,
    ⟨0x60, [(4, 4)], 0, 0, 0, 0, 0xffffffff, 0, 0, some .aon⟩,
    ⟨0x70, [(4, 4)], 0, 0, 0, 0, 0xffffffff, 0, 0, some .aon⟩,
    ⟨0x80, [(4, 16)], 0, 0, 0, 0, 0xbfffffff, 0, 0, some .aon⟩,
    ⟨0x84, [(4, 16)], 0, 0, 0, 0, 0xffffffff, 0, 0, some .aon⟩,
    ⟨0x88, [(4, 16)], 0, 0, 0, 0, 0xffffffff, 0, 0, some .aon⟩,
    ⟨0x8c, [(4, 16)], 0, 0, 0, 0, 0xf, 0, 0, some .aon⟩,
    ⟨0xc0, [], 0xff, 0xff, 0, 0, 0, 0, 0xff, none⟩],
  []⟩

/-- Block ANG at 0x2000f000. -/
def regBlockANG : RegBlock := ⟨0x2000f000, [], 0x1000, .heel, [
    ⟨0, [], 0xa00, 0xff3f, 0, 0, 0, 0, 0, none⟩,
    ⟨4, [], 0x2010023c, 0xffff037f, 0, 0, 0, 0, 0, none⟩,
    ⟨8, [], 0x648708, 0xffff7f, 0, 0, 0, 0, 0, none⟩,
    ⟨0xc, [], 0xfff, 0xfff, 0, 0, 0, 0, 0, none⟩,
    ⟨0x10, [], 0, 0, 0, 0, 0x7f7f1f, 0, 0, none⟩,
    ⟨0x14, [], 0, 0, 0, 0, 0x80003fff, 0, 0, none⟩,
    ⟨0x18, [], 0, 0, 0, 0, 0xffffffff, 0, 0, none⟩,
    ⟨0x1c, [], 0, 0, 0, 0, 0xffffffff, 0, 0, none⟩,
    ⟨0x20, [], 0, 0, 0, 0, 0xffffffff, 0, 0, none⟩,
    ⟨0x24, [], 0, 0, 0x1ff, 0, 0, 0, 0, none⟩,
    ⟨0x28, [], 0, 0x1ff, 0, 0, 0, 0, 0, none⟩,
    ⟨0x2c, [], 0, 0, 0xffffff, 0, 0, 0, 0, none⟩,
    ⟨0x30, [], 0, 0, 0xffffff, 0, 0, 0, 0, none⟩,
    ⟨0x34, [], 0, 0, 0, 0, 0xffff07, 0, 0, none⟩,
    ⟨0x38, [], 0, 0, 0, 0, 0xfff, 0, 0, none⟩,
    ⟨0x100, [(24, 32)], 0xf0, 0xff7fff, 0, 0, 0, 0, 0, none⟩,
    ⟨0x104, [(24, 32)], 0, 0xffffffff, 0, 0, 0, 0, 0, none⟩,
    ⟨0x108, [(24, 32)], 1, 0xffffff, 0, 0, 0, 0, 0, none⟩,
    ⟨0x10c, [(24, 32)], 0, 0, 0, 0, 0x773, 0, 0, none⟩,
    ⟨0x110, [(24, 32)], 0, 0, 0, 0, 0xffffffff, 0, 0, none⟩,
    ⟨0x114, [(24, 32)], 0, 0, 0, 0, 0xffffffff, 0, 0, none⟩,
    ⟨0x118, [(24, 32)], 0, 0, 0, 0, 0x80000fff, 0, 0, none⟩],
  []⟩

/-- Block ENG at 0x80000100000. -/
def regBlockENG : RegBlock := ⟨0x80000100000, [(4, 268435456)], 0x8000, .die, [
    ⟨8, [(8, 4096)], 0x10f, 0x1ff, 0, 0, 0, 0, 0, none⟩,
    ⟨0xc, [(8, 4096)], 0, 0, 0xff, 0, 0, 0, 0, none⟩,
    ⟨0x100, [(8, 4096), (4, 64)], 0, 0xffffffc0, 0, 0, 0, 0, 0, none⟩,
    ⟨0x104, [(8, 4096), (4, 64)], 0, 0xffff, 0, 0, 0, 0, 0, none⟩,
    ⟨0x108, [(8, 4096), (4, 64)], 0, 0xf3f, 0, 0, 0, 0, 0, none⟩,
    ⟨0x10c, [(8, 4096), (4, 64)], 0, 0, 0, 0, 0, 0xffff, 0, none⟩,
    ⟨0x110, [(8, 4096), (4, 64)], 0, 0, 0, 0, 0xffffffff, 0, 0, none⟩,
    ⟨0x114, [(8, 4096), (4, 64)], 0, 0, 0xf00, 0, 0xfff007, 0, 0, none⟩,
    ⟨0x118, [(8, 4096), (4, 64)], 0, 8, 0, 7, 0, 0, 0, none⟩,
    ⟨0x11c, [(8, 4096), (4, 64)], 0, 0, 0, 0, 0x80ff0fff, 0, 0, none⟩,
    ⟨0x120, [(8, 4096), (4, 64)], 0, 0, 0, 0, 0xffffffff, 0, 0, none⟩,
    ⟨0x124, [(8, 4096), (4, 64)], 0, 0, 0, 0, 0xffffffff, 0, 0, none⟩,
    ⟨0x128, [(8, 4096), (4, 64)], 0, 0, 0, 0, 0xffffffff, 0, 0, none⟩,
    ⟨0x12c, [(8, 4096), (4, 64)], 0, 0, 0, 0, 0xffff, 0, 0, none⟩,
    ⟨0x400, [(8, 4096)], 0xf, 0, 0, 0, 0xff0fff, 0, 0, none⟩,
    ⟨0x404, [(8, 4096)], 0, 0, 0xf, 0, 0, 0, 0, none⟩,
    ⟨0x408, [(8, 4096)], 0, 0, 0, 0, 0xffffffff, 0, 0, none⟩,
    ⟨0x40c, [(8, 4096)], 0, 0, 0, 0, 0xffffffff, 0, 0, none⟩,
    ⟨0x410, [(8, 4096)], 0, 0, 0, 0, 0xffffffff, 0, 0, none⟩,
    ⟨0x420, [(8, 4096)], 0, 0xffffffc0, 0, 0, 0, 0, 0, none⟩,
    ⟨0x424, [(8, 4096)], 0, 0xffff, 0, 0, 0, 0, 0, none⟩,
    ⟨0x428, [(8, 4096)], 0, 0xf, 0, 0, 0, 0, 0, none⟩,
    ⟨0x42c, [(8, 4096)], 0, 0, 0, 0, 0, 0xffff, 0, none⟩,
    ⟨0x430, [(8, 4096)], 0, 0, 0, 0, 0xffffffff, 0, 0, none⟩,
    ⟨0x434, [(8, 4096)], 0, 0, 7, 0, 0xff7f00, 0, 0, none⟩,
    ⟨0x800, [(8, 4096), (16, 64)], 0, 3, 0, 0, 0, 0, 0, none⟩,
    ⟨0x804, [(8, 4096), (16, 64)], 0, 0, 0, 0, 0xffff, 0, 0, none⟩,
    ⟨0x808, [(8, 4096), (16, 64)], 0, 0, 0, 1, 0, 0, 0, none⟩,
    ⟨0x80c, [(8, 4096), (16, 64)], 0, 0, 0, 0, 0xffffffff, 0, 0, none⟩,
    ⟨0x810, [(8, 4096), (16, 64)], 0, 0, 0, 0, 0xffff, 0, 0, none⟩,
    ⟨0x814, [(8, 4096), (16, 64)], 0, 0, 0, 0, 0xffffffff, 0, 0, none⟩,
    ⟨0x818, [(8, 4096), (16, 64)], 0, 0, 0, 0, 0xffff, 0, 0, none⟩,
    ⟨0x81c, [(8, 4096), (16, 64)], 0, 0, 0, 0, 0xffff, 0, 0, none⟩,
    ⟨0x820, [(8, 4096), (16, 64)], 0, 0, 0, 0, 0xffffffff, 0, 0, none⟩,
    ⟨0x824, [(8, 4096), (16, 64)], 0, 0, 0, 0, 0xffffffff, 0, 0, none⟩,
    ⟨0xc00, [(8, 4096)], 0, 0, 0, 0, 0x3ffff37, 0, 0, none⟩,
    ⟨0xc04, [(8, 4096)], 0, 0, 0, 0, 0xffffffff, 0, 0, none⟩,
    ⟨0xc08, [(8, 4096)], 0, 0, 0, 0, 0xffffffff, 0, 0, none⟩,
    ⟨0xc0c, [(8, 4096)], 0, 0, 0, 0, 0xffffffff, 0, 0, none⟩],
  []⟩

/-- Block CUBEL at 0x8000000b000. -/
def regBlockCUBEL : RegBlock := ⟨0x8000000b000, [(4, 268435456)], 0x1000, .die, [
    ⟨0, [], 0, 0, 0, 0, 0xffffffff, 0, 0, none⟩],
  []⟩

/-- Block FAB at 0x8000000c000. -/
def regBlockFAB : RegBlock := ⟨0x8000000c000, [(4, 268435456)], 0x1000, .die, [
    ⟨0, [], 0, 0, 0, 0, 0xffffff, 0, 0, none⟩,
    ⟨4, [], 0, 0, 0xffffff, 0, 0, 0, 0, none⟩,
    ⟨0x10, [(4, 4)], 0xffffffff, 0, 0, 0, 0xffffffff, 0, 0, none⟩,
    ⟨0x20, [], 0, 0, 0, 0, 0xffffffff, 0, 0, none⟩,
    ⟨0x100, [(8, 64)], 0, 0, 0, 0, 0xffff00bf, 0, 0, none⟩,
    ⟨0x104, [(8, 64)], 0, 0, 0, 0, 0x3fff0f, 0, 0, none⟩,
    ⟨0x108, [(8, 64)], 0, 0, 0, 0, 0xffffffff, 0, 0, none⟩,
    ⟨0x10c, [(8, 64)], 0, 0, 0, 3, 0, 0, 0, none⟩,
    ⟨0x110, [(8, 64)], 0, 0, 0, 0, 0xffff, 0, 0, none⟩],
  []⟩

/-- Block LACE at 0x80000060000. -/
def regBlockLACE : RegBlock := ⟨0x80000060000, [(4, 268435456)], 0xc000, .die, [
    ⟨0, [(12, 4096)], 0xa020f, 0xff030f, 0, 0, 0, 0, 0, none⟩,
    ⟨4, [(12, 4096)], 0, 0, 0, 0, 0xfff, 0, 0, none⟩,
    ⟨8, [(12, 4096)], 0, 0, 0xcffff, 0, 0x30000, 0, 0, none⟩,
    ⟨0xc, [(12, 4096)], 0, 0, 0, 0, 0x803f3fff, 0, 0, none⟩,
    ⟨0x10, [(12, 4096)], 0, 0x3f77, 0, 0x80, 0, 0, 0, none⟩,
    ⟨0x14, [(12, 4096)], 0x3ff, 0xfffff, 0, 0, 0, 0, 0, none⟩,
    ⟨0x18, [(12, 4096)], 0, 0, 0, 0, 0xffffffff, 0, 0, none⟩,
    ⟨0x100, [(12, 4096), (4, 64)], 0x82800, 0x31f3f0f, 0, 0, 0, 0, 0, none⟩,
    ⟨0x104, [(12, 4096), (4, 64)], 0, 0x1f, 0, 0, 0, 0, 0, none⟩,
    ⟨0x108, [(12, 4096), (4, 64)], 0, 0, 0, 0, 0x3fffffff, 0, 0, none⟩,
    ⟨0x10c, [(12, 4096), (4, 64)], 0, 0, 0, 0, 0x1ff, 0, 0, none⟩,
    ⟨0x110, [(12, 4096), (4, 64)], 0, 0, 0, 0, 0xffffffff, 0, 0, none⟩,
    ⟨0x114, [(12, 4096), (4, 64)], 0, 0, 0, 0, 0xffffffff, 0, 0, none⟩,
    ⟨0x118, [(12, 4096), (4, 64)], 0, 0, 0, 0, 0xffffffff, 0, 0, none⟩,
    ⟨0x11c, [(12, 4096), (4, 64)], 0, 0, 0, 0, 0xffffffff, 0, 0, none⟩,
    ⟨0x800, [(12, 4096)], 0x4140010, 0xffffff77, 0, 0, 0, 0, 0, none⟩,
    ⟨0x804, [(12, 4096)], 0, 0, 0, 0xf, 0, 0, 0, none⟩,
    ⟨0x808, [(12, 4096)], 0, 0, 0, 0, 0xf037f, 0, 0, none⟩,
    ⟨0x80c, [(12, 4096)], 0, 0, 0xf, 0, 0, 0, 0, none⟩,
    ⟨0x810, [(12, 4096)], 0, 0, 0, 0, 0xffffff, 0, 0, none⟩],
  []⟩

/-- Every register block. -/
def regBlocks : List RegBlock :=
  [regBlockCAP, regBlockTBASE, regBlockPMB, regBlockBOOT, regBlockCORE, regBlockGRDS, regBlockGRDTS, regBlockGRDH, regBlockGRDTH, regBlockGRDD] ++
  [regBlockGRDTD, regBlockNOCS, regBlockNOCD, regBlockNOCRT, regBlockAWLS, regBlockAWLD, regBlockBWCS, regBlockBWCD, regBlockCNTS, regBlockCNTD] ++
  [regBlockCNTXS, regBlockCNTXD, regBlockCEN, regBlockHOLDS, regBlockHOLDD, regBlockTRK, regBlockCLUS, regBlockFLT, regBlockFLTK, regBlockFLTH] ++
  [regBlockTRC, regBlockSUP, regBlockPST, regBlockWAKE, regBlockINS, regBlockHBOOT, regBlockDBG, regBlockHSO, regBlockHBR, regBlockSWI] ++
  [regBlockQDEC, regBlockMBC, regBlockLAST, regBlockLIN, regBlockXWAKE, regBlockANG, regBlockENG, regBlockCUBEL, regBlockFAB, regBlockLACE]

/-- What is left of an offset after the indices of the given (count, stride) pairs, if each index is within its count. -/
def dimsRest : Nat → List (Nat × Nat) → Option Nat
  | a, [] => some a
  | a, e :: ds => if a / e.2 < e.1 then dimsRest (a % e.2) ds else none

/-- The offset of an address in a block, if it lies in one of its instances. -/
def blockOff (b : RegBlock) (a : Nat) : Option Nat :=
  if a < b.base then none
  else match dimsRest (a - b.base) b.dims with
    | some o => if o < b.size then some o else none
    | none => none

/-- Whether an offset of a block is the row's register. -/
def rowHit (r : RegRow) (o : Nat) : Bool :=
  if o < r.off then false
  else match dimsRest (o - r.off) r.dims with
    | some 0 => true
    | _ => false

/-- The block and the offset in it of an address of a named register block. -/
def findBlock : List RegBlock → Nat → Option (RegBlock × Nat)
  | [], _ => none
  | b :: bs, a => match blockOff b a with
    | some o => some (b, o)
    | none => findBlock bs a

/-- The row of an offset. -/
def findRow : List RegRow → Nat → Option RegRow
  | [], _ => none
  | r :: rs, o => if rowHit r o then some r else findRow rs o

/-- The reset value of an address of the register map; 0 where no register is listed (R11, R12). -/
def regReset (a : Nat) : W32 :=
  match findBlock regBlocks a with
  | none => 0
  | some (b, o) =>
    match b.alt.find? (fun e => e.1 == o) with
    | some e => BitVec.ofNat 32 e.2
    | none => match findRow b.rows o with
      | some r => BitVec.ofNat 32 r.reset
      | none => 0

/-- The row of an address, if a register is listed there. -/
def regRow (a : Nat) : Option RegRow :=
  match findBlock regBlocks a with
  | none => none
  | some (b, o) => findRow b.rows o

/-- The domain whose reset clears an address of the register map. -/
def regDomain (a : Nat) : Option Domain :=
  match findBlock regBlocks a with
  | none => none
  | some (b, o) => match findRow b.rows o with
    | some r => some (r.dom.getD b.dom)
    | none => some b.dom

end Sys2Proof.Machine
end

