-- ==== Sys2Proof/Machine/RegName.lean ====
section
/-! DEFINITION. Machine/RegName.lean: the addresses (R.…) and the fields (F.…) of the register tables of spec/, by the names
the manual gives them. Address functions take the block base b where a block has one instance per die (see the
base functions below), the die d, and the index or indices of the register. -/
namespace Sys2Proof.Machine


def R.CAP_DIES : Nat := 0x10000000
def R.CAP_ENGINES : Nat := 0x10000004
def R.CAP_LACE_LO : Nat := 0x10000008
def R.CAP_LACE_HI : Nat := 0x1000000c
def R.CAP_LARDER : Nat := 0x10000010
def R.CAP_FABRIC : Nat := 0x10000014
def R.CAP_HEEL : Nat := 0x10000018
def R.LIVE_DIES : Nat := 0x10000040
def R.LIVE_ENGINES : Nat := 0x10000044
def R.LIVE_LACE_LO : Nat := 0x10000048
def R.LIVE_LACE_HI : Nat := 0x1000004c
def R.LIVE_LARDER : Nat := 0x10000050
def R.LIVE_FABRIC : Nat := 0x10000054
def R.LIVE_HEEL : Nat := 0x10000058
def R.LIVE_HSO_LO : Nat := 0x1000005c
def R.LIVE_HSO_HI : Nat := 0x10000060
def R.LIVE_DIE_STATE : Nat := 0x10000064
def R.LIVE_SEQ : Nat := 0x10000068
def R.LIVE_WELT : Nat := 0x1000006c
def R.LIVE_EBANK (i : Nat) : Nat := 0x10000080 + 4 * i
def R.LIVE_LBANK (i : Nat) : Nat := 0x100000c0 + 4 * i
def R.TBASE_NOW_LO : Nat := 0x10003000
def R.TBASE_NOW_HI : Nat := 0x10003004
def R.TBASE_OFFSET_LO : Nat := 0x10003008
def R.TBASE_OFFSET_HI : Nat := 0x1000300c
def R.TBASE_STATUS : Nat := 0x10003010
def R.TBASE_SYNC_ERR : Nat := 0x10003014
def R.TBASE_SYNC_HEEL : Nat := 0x10003024
def R.TBASE_RTC_LO : Nat := 0x10003018
def R.TBASE_RTC_HI : Nat := 0x1000301c
def R.TBASE_ALM_PEND : Nat := 0x10003020
def R.TBASE_ALM_LO (i : Nat) : Nat := 0x10003040 + 0x10 * i
def R.TBASE_ALM_HI (i : Nat) : Nat := 0x10003044 + 0x10 * i
def R.TBASE_ALM_CFG (i : Nat) : Nat := 0x10003048 + 0x10 * i
def R.TBASE_ALM_SIG (i : Nat) : Nat := 0x1000304c + 0x10 * i
def R.PWR_PMB_CFG : Nat := 0x10004000
def R.PWR_PMB_CMD : Nat := 0x10004004
def R.PWR_PMB_DATA : Nat := 0x10004008
def R.PWR_PMB_STAT : Nat := 0x1000400c
def R.BOOT_STATUS : Nat := 0x10005000
def R.BOOT_AGREE : Nat := 0x10005004
def R.BOOT_EPOCH_SOLE : Nat := 0x10005008
def R.BOOT_EPOCH_HEEL : Nat := 0x1000500c
def R.BOOT_EPOCH_DIE (i : Nat) : Nat := 0x10005010 + 4 * i
def R.BOOT_VER_SRC_LO : Nat := 0x10005020
def R.BOOT_VER_SRC_HI : Nat := 0x10005024
def R.BOOT_VER_CTL : Nat := 0x10005028
def R.BOOT_VER_STAT : Nat := 0x1000502c
def R.BOOT_SWAP : Nat := 0x10005030
def R.BOOT_SWAP_STAT : Nat := 0x10005034
def R.BOOT_ROLL : Nat := 0x10005038
def R.BOOT_ROLL_COMMIT : Nat := 0x1000503c
def R.BOOT_HCMD_TX : Nat := 0x10005040
def R.BOOT_HCMD_RX : Nat := 0x10005044
def R.BOOT_HCMD_STAT : Nat := 0x10005048
def R.CORE_START : Nat := 0x10006000
def R.CORE_STATE : Nat := 0x10006004
def R.CORE_SWI : Nat := 0x10006008
def R.CORE_PAIR_STAT : Nat := 0x1000600c
def R.CORE_ENTRY_LO (i : Nat) : Nat := 0x10006040 + 8 * i
def R.CORE_ENTRY_HI (i : Nat) : Nat := 0x10006044 + 8 * i
def R.GRD_CTL (b : Nat) : Nat := b
def R.GRD_CFG_STAT (b : Nat) : Nat := b + 4
def R.GRD_VIOL_ADDR_LO (b : Nat) : Nat := b + 8
def R.GRD_VIOL_ADDR_HI (b : Nat) : Nat := b + 0xc
def R.GRD_VIOL_INFO (b : Nat) : Nat := b + 0x10
def R.GRD_VIOL_COUNT (b : Nat) : Nat := b + 0x14
def R.GRD_NOTE_ADDR_LO (b : Nat) : Nat := b + 0x20
def R.GRD_NOTE_ADDR_HI (b : Nat) : Nat := b + 0x24
def R.GRD_NOTE_INFO (b : Nat) : Nat := b + 0x28
def R.GRD_NOTE_POP (b : Nat) : Nat := b + 0x2c
def R.GRD_NOTE_STAT (b : Nat) : Nat := b + 0x30
def R.GRD_SCRUB_CFG (b : Nat) : Nat := b + 0x40
def R.GRD_LINE_CE (b : Nat) : Nat := b + 0x44
def R.GRD_LINE_UE (b : Nat) : Nat := b + 0x48
def R.GRD_LINE_ADDR_LO (b : Nat) : Nat := b + 0x4c
def R.GRD_LINE_ADDR_HI (b : Nat) : Nat := b + 0x50
def R.GRD_HMEM_STAT : Nat := 0x10007060
def R.GRD_HMEM_FILL : Nat := 0x10007064
def R.GRD_BASE_LO (b i j : Nat) : Nat := b + 0x400 * i + 0x20 * j
def R.GRD_BASE_HI (b i j : Nat) : Nat := b + 4 + 0x400 * i + 0x20 * j
def R.GRD_LIMIT_LO (b i j : Nat) : Nat := b + 8 + 0x400 * i + 0x20 * j
def R.GRD_LIMIT_HI (b i j : Nat) : Nat := b + 0xc + 0x400 * i + 0x20 * j
def R.GRD_PERM (b i j : Nat) : Nat := b + 0x10 + 0x400 * i + 0x20 * j
def R.NOC_STAT (b : Nat) : Nat := b
def R.NOC_RT_STAT (b : Nat) : Nat := b + 4
def R.NOC_WELT_RETRY (b : Nat) : Nat := b + 8
def R.NOC_ENTRY_CLASS (b i : Nat) : Nat := b + 0x100 + 4 * i
def R.NOC_RT_DEST (d i j : Nat) : Nat := 0x80000020000 + 0x10000000 * d + 0x100 * i + 0x10 * j
def R.NOC_RT_ROUTE (d i j : Nat) : Nat := 0x80000020004 + 0x10000000 * d + 0x100 * i + 0x10 * j
def R.AWL_STAT (b : Nat) : Nat := b
def R.AWL_IRQ (b : Nat) : Nat := b + 4
def R.AWL_TRACE (b : Nat) : Nat := b + 8
def R.AWL_CFG (b i : Nat) : Nat := b + 0x100 + 0x40 * i
def R.AWL_KIND (b i : Nat) : Nat := b + 0x104 + 0x40 * i
def R.AWL_INIT (b i : Nat) : Nat := b + 0x108 + 0x40 * i
def R.AWL_ALO_LO (b i : Nat) : Nat := b + 0x10c + 0x40 * i
def R.AWL_ALO_HI (b i : Nat) : Nat := b + 0x110 + 0x40 * i
def R.AWL_AHI_LO (b i : Nat) : Nat := b + 0x114 + 0x40 * i
def R.AWL_AHI_HI (b i : Nat) : Nat := b + 0x118 + 0x40 * i
def R.AWL_PKT (b i : Nat) : Nat := b + 0x11c + 0x40 * i
def R.AWL_BYTES_LO (b i : Nat) : Nat := b + 0x120 + 0x40 * i
def R.AWL_BYTES_HI (b i : Nat) : Nat := b + 0x124 + 0x40 * i
def R.AWL_TRIG (b i : Nat) : Nat := b + 0x128 + 0x40 * i
def R.AWL_ARM (b i : Nat) : Nat := b + 0x12c + 0x40 * i
def R.BWC_WINDOW (b : Nat) : Nat := b
def R.BWC_OVER_LO (b : Nat) : Nat := b + 4
def R.BWC_OVER_HI (b : Nat) : Nat := b + 8
def R.BWC_CFG (b i : Nat) : Nat := b + 0x40 + 4 * i
def R.BWC_BUDGET (b i j : Nat) : Nat := b + 0x100 + 0x10 * i + 4 * j
def R.BWC_COUNT (b i j : Nat) : Nat := b + 0x200 + 0x10 * i + 4 * j
def R.BWC_LAST (b i j : Nat) : Nat := b + 0x300 + 0x10 * i + 4 * j
def R.ENG_CNT (b i : Nat) : Nat := b + 4 * i
def R.ENG_CNT_EXT (b i : Nat) : Nat := b + 4 * i
def R.ENG_CEN_CTL : Nat := 0x1000d000
def R.ENG_CEN_STAT : Nat := 0x1000d004
def R.ENG_CEN_QMASK (i j : Nat) : Nat := 0x1000d100 + 0x40 * i + 4 * j
def R.ENG_CEN_CMASK (i : Nat) : Nat := 0x1000d110 + 0x40 * i
def R.ENG_CEN_SNAP_LO (i : Nat) : Nat := 0x1000d114 + 0x40 * i
def R.ENG_CEN_SNAP_HI (i : Nat) : Nat := 0x1000d118 + 0x40 * i
def R.ENG_HOLD (b i : Nat) : Nat := b + 4 * i
def R.ENG_HOLD_ACQ (b i : Nat) : Nat := b + 0x400 + 4 * i
def R.ENG_HOLD_REL (b i : Nat) : Nat := b + 0x800 + 4 * i
def R.TRN_CK_CTL : Nat := 0x1000f000
def R.TRN_CK_ROUTE : Nat := 0x1000f004
def R.TRN_CK_EVT : Nat := 0x1000f008
def R.TRN_LAST_ID : Nat := 0x1000f00c
def R.TRN_LAST_STEP : Nat := 0x1000f010
def R.TRN_CK_ID (i : Nat) : Nat := 0x1000f100 + 0x40 * i
def R.TRN_CK_STEP (i : Nat) : Nat := 0x1000f104 + 0x40 * i
def R.TRN_CK_PIECES (i : Nat) : Nat := 0x1000f108 + 0x40 * i
def R.TRN_CK_STAT (i : Nat) : Nat := 0x1000f10c + 0x40 * i
def R.TRN_CK_SEAL_LO (i : Nat) : Nat := 0x1000f110 + 0x40 * i
def R.TRN_CK_SEAL_HI (i : Nat) : Nat := 0x1000f114 + 0x40 * i
def R.TRN_CK_MSEAL_LO (i : Nat) : Nat := 0x1000f118 + 0x40 * i
def R.TRN_CK_MSEAL_HI (i : Nat) : Nat := 0x1000f11c + 0x40 * i
def R.TRN_CK_BYTES_LO (i : Nat) : Nat := 0x1000f120 + 0x40 * i
def R.TRN_CK_BYTES_HI (i : Nat) : Nat := 0x1000f124 + 0x40 * i
def R.LACE_PKG : Nat := 0x10014000
def R.LACE_CL_CFG : Nat := 0x10014004
def R.LACE_CL_STAT : Nat := 0x10014008
def R.LACE_WIN_LO (i : Nat) : Nat := 0x10014100 + 8 * i
def R.LACE_WIN_HI (i : Nat) : Nat := 0x10014104 + 8 * i
def R.LACE_RT (i : Nat) : Nat := 0x10014400 + 4 * i
def R.FLT_STAT : Nat := 0x10015000
def R.FLT_EVT : Nat := 0x10015004
def R.FLT_IRQ_EN : Nat := 0x10015008
def R.FLT_LOG_BASE_LO : Nat := 0x1001500c
def R.FLT_LOG_BASE_HI : Nat := 0x10015010
def R.FLT_LOG_CFG : Nat := 0x10015014
def R.FLT_LOG_HEAD : Nat := 0x10015018
def R.FLT_LOG_TAIL : Nat := 0x1001501c
def R.FLT_SEQ : Nat := 0x10015020
def R.FLT_DROP : Nat := 0x10015024
def R.FLT_RETRY_LO : Nat := 0x10015028
def R.FLT_RETRY_HI : Nat := 0x1001502c
def R.FLT_CFG : Nat := 0x10015030
def R.FLT_RECUR : Nat := 0x10015034
def R.FLT_ACT : Nat := 0x10015040
def R.FLT_ACT_STAT : Nat := 0x10015044
def R.FLT_TEST (i : Nat) : Nat := 0x10015050 + 4 * i
def R.FLT_KEVT (d : Nat) : Nat := 0x8000000d000 + 0x10000000 * d
def R.FLT_HEVT : Nat := 0x20007000
def R.DBG_TRC_CTL : Nat := 0x10016000
def R.DBG_TRC_WPTR : Nat := 0x10016004
def R.DBG_TRC_STAT : Nat := 0x10016008
def R.PWR_SUP_STAT : Nat := 0x20001000
def R.PWR_SUP_EVT : Nat := 0x20001004
def R.PWR_SUP_IRQ : Nat := 0x20001008
def R.PWR_EN : Nat := 0x2000100c
def R.PWR_RST_CAUSE : Nat := 0x20001010
def R.PWR_RST_REQ : Nat := 0x20001014
def R.PWR_WDOG_CFG (i : Nat) : Nat := 0x20001020 + 8 * i
def R.PWR_WDOG_KICK (i : Nat) : Nat := 0x20001024 + 8 * i
def R.PWR_VBAT : Nat := 0x20001030
def R.PWR_STATE : Nat := 0x20002000
def R.PWR_REQ : Nat := 0x20002004
def R.PWR_WINTER_REQ : Nat := 0x20002008
def R.PWR_REQ_STAT : Nat := 0x2000200c
def R.PWR_FORCE : Nat := 0x20002010
def R.PWR_WINTER_CFG : Nat := 0x20002014
def R.PWR_HEEL_ACK : Nat := 0x20002018
def R.PWR_GATE_ENG : Nat := 0x20002020
def R.PWR_GATE_STAT : Nat := 0x20002024
def R.PWR_TEMP_C : Nat := 0x20002028
def R.PWR_TEMP_X : Nat := 0x2000202c
def R.WAKE_EN : Nat := 0x20003000
def R.WAKE_PEND : Nat := 0x20003004
def R.WAKE_SRC : Nat := 0x20003008
def R.WAKE_DETAIL : Nat := 0x2000300c
def R.WAKE_PIN_CFG : Nat := 0x20003010
def R.WAKE_RTC_ALM_LO : Nat := 0x20003014
def R.WAKE_RTC_ALM_HI : Nat := 0x20003018
def R.WAKE_REC_NEXT : Nat := 0x2000301c
def R.INS_STATUS : Nat := 0x20004000
def R.INS_GEN : Nat := 0x20004004
def R.INS_ECC_ADDR : Nat := 0x20004008
def R.BOOT_SEL : Nat := 0x20005000
def R.BOOT_ST_CTL : Nat := 0x20005004
def R.BOOT_HEEL_HANDOVER : Nat := 0x20005008
def R.DBG_STAT : Nat := 0x20009000
def R.DBG_ATTACH_CNT : Nat := 0x20009004
def R.DBG_CTL : Nat := 0x20009008
def R.DBG_CSEL : Nat := 0x20009010
def R.DBG_CCTL : Nat := 0x20009014
def R.DBG_CSTAT : Nat := 0x20009018
def R.DBG_CREG : Nat := 0x2000901c
def R.DBG_CDATA_LO : Nat := 0x20009020
def R.DBG_CDATA_HI : Nat := 0x20009024
def R.HSO_EVT_LO : Nat := 0x2000a000
def R.HSO_EVT_HI : Nat := 0x2000a004
def R.HSO_IRQ_EN_LO : Nat := 0x2000a008
def R.HSO_IRQ_EN_HI : Nat := 0x2000a00c
def R.HSO_CFG : Nat := 0x2000a010
def R.HSO_KEEP : Nat := 0x2000a020
def R.HSO_KEEP_STAT : Nat := 0x2000a024
def R.HSO_CTL (i : Nat) : Nat := 0x2000a100 + 0x20 * i
def R.HSO_PER (i : Nat) : Nat := 0x2000a104 + 0x20 * i
def R.HSO_DCFG (i : Nat) : Nat := 0x2000a108 + 0x20 * i
def R.HSO_DIAG (i : Nat) : Nat := 0x2000a10c + 0x20 * i
def R.HSO_CUR (i : Nat) : Nat := 0x2000a110 + 0x20 * i
def R.HBR_EVT : Nat := 0x2000b000
def R.HBR_IRQ_EN : Nat := 0x2000b004
def R.HBR_HCTL (i : Nat) : Nat := 0x2000b100 + 0x20 * i
def R.HBR_HPER (i : Nat) : Nat := 0x2000b104 + 0x20 * i
def R.HBR_HDIAG (i : Nat) : Nat := 0x2000b108 + 0x20 * i
def R.HBR_HCUR (i : Nat) : Nat := 0x2000b10c + 0x20 * i
def R.HBR_PCTL (i : Nat) : Nat := 0x2000b400 + 0x40 * i
def R.HBR_PCFG (i : Nat) : Nat := 0x2000b404 + 0x40 * i
def R.HBR_PPER (i : Nat) : Nat := 0x2000b408 + 0x40 * i
def R.HBR_PSTAT (i : Nat) : Nat := 0x2000b40c + 0x40 * i
def R.HBR_PCUR (i : Nat) : Nat := 0x2000b410 + 0x40 * i
def R.HBR_PATCFG (i : Nat) : Nat := 0x2000b800 + 0x40 * i
def R.HBR_PATSTEP (i j : Nat) : Nat := 0x2000b804 + 0x40 * i + 4 * j
def R.HBR_PATCTL (i : Nat) : Nat := 0x2000b814 + 0x40 * i
def R.HBR_PATSTAT (i : Nat) : Nat := 0x2000b818 + 0x40 * i
def R.SWI_LVL_LO : Nat := 0x2000c000
def R.SWI_LVL_HI : Nat := 0x2000c004
def R.SWI_EVT_LO : Nat := 0x2000c008
def R.SWI_EVT_HI : Nat := 0x2000c00c
def R.SWI_IRQ_EN_LO : Nat := 0x2000c010
def R.SWI_IRQ_EN_HI : Nat := 0x2000c014
def R.SWI_CYC_LO : Nat := 0x2000c018
def R.SWI_CYC_HI : Nat := 0x2000c01c
def R.SWI_CYC_CFG : Nat := 0x2000c020
def R.SWI_CYC_REF_LO : Nat := 0x2000c024
def R.SWI_CYC_REF_HI : Nat := 0x2000c028
def R.SWI_WCHG_LO : Nat := 0x2000c02c
def R.SWI_WCHG_HI : Nat := 0x2000c030
def R.SWI_CFG (i : Nat) : Nat := 0x2000c100 + 4 * i
def R.SWI_ADC (i : Nat) : Nat := 0x2000c200 + 4 * i
def R.QDEC_EVT : Nat := 0x2000d000
def R.QDEC_IRQ_EN : Nat := 0x2000d004
def R.QDEC_CFG (i : Nat) : Nat := 0x2000d100 + 0x40 * i
def R.QDEC_POS (i : Nat) : Nat := 0x2000d104 + 0x40 * i
def R.QDEC_STAT (i : Nat) : Nat := 0x2000d108 + 0x40 * i
def R.QDEC_PERIOD (i : Nat) : Nat := 0x2000d10c + 0x40 * i
def R.QDEC_REFPOS (i : Nat) : Nat := 0x2000d110 + 0x40 * i
def R.QDEC_CTL (i : Nat) : Nat := 0x2000d114 + 0x40 * i
def R.MBC_CTL (i : Nat) : Nat := 0x20010000 + 0x1000 * i
def R.MBC_NBT (i : Nat) : Nat := 0x20010004 + 0x1000 * i
def R.MBC_DBT (i : Nat) : Nat := 0x20010008 + 0x1000 * i
def R.MBC_STAT (i : Nat) : Nat := 0x2001000c + 0x1000 * i
def R.MBC_ECNT (i : Nat) : Nat := 0x20010010 + 0x1000 * i
def R.MBC_EVT (i : Nat) : Nat := 0x20010014 + 0x1000 * i
def R.MBC_IRQ_EN (i : Nat) : Nat := 0x20010018 + 0x1000 * i
def R.MBC_TXREQ (i : Nat) : Nat := 0x20010020 + 0x1000 * i
def R.MBC_TXCAN (i : Nat) : Nat := 0x20010024 + 0x1000 * i
def R.MBC_TXDONE (i : Nat) : Nat := 0x20010028 + 0x1000 * i
def R.MBC_FAIL_INFO (i : Nat) : Nat := 0x20010030 + 0x1000 * i
def R.MBC_FAIL_STAMP_LO (i : Nat) : Nat := 0x20010034 + 0x1000 * i
def R.MBC_FAIL_STAMP_HI (i : Nat) : Nat := 0x20010038 + 0x1000 * i
def R.MBC_FAIL_POP (i : Nat) : Nat := 0x2001003c + 0x1000 * i
def R.MBC_FAIL_STAT (i : Nat) : Nat := 0x20010040 + 0x1000 * i
def R.MBC_RXF_STAT (i : Nat) : Nat := 0x20010044 + 0x1000 * i
def R.MBC_RXF_ACK (i : Nat) : Nat := 0x20010048 + 0x1000 * i
def R.MBC_PT_STAT (i : Nat) : Nat := 0x2001004c + 0x1000 * i
def R.MBC_RXCNT (i : Nat) : Nat := 0x20010050 + 0x1000 * i
def R.MBC_TXCNT (i : Nat) : Nat := 0x20010054 + 0x1000 * i
def R.MBC_XCVR (i : Nat) : Nat := 0x20010058 + 0x1000 * i
def R.MBC_FLT_ID (i j : Nat) : Nat := 0x20010100 + 0x1000 * i + 8 * j
def R.MBC_FLT_MASK (i j : Nat) : Nat := 0x20010104 + 0x1000 * i + 8 * j
def R.LAST_CTL (i : Nat) : Nat := 0x20030000 + 0x2000 * i
def R.LAST_CFG (i : Nat) : Nat := 0x20030004 + 0x2000 * i
def R.LAST_LEN (i : Nat) : Nat := 0x20030008 + 0x2000 * i
def R.LAST_START_LO (i : Nat) : Nat := 0x2003000c + 0x2000 * i
def R.LAST_START_HI (i : Nat) : Nat := 0x20030010 + 0x2000 * i
def R.LAST_REF (i : Nat) : Nat := 0x20030014 + 0x2000 * i
def R.LAST_STAT (i : Nat) : Nat := 0x20030018 + 0x2000 * i
def R.LAST_EVT (i : Nat) : Nat := 0x2003001c + 0x2000 * i
def R.LAST_CNT (i : Nat) : Nat := 0x20030020 + 0x2000 * i
def R.LAST_SLOT (i j : Nat) : Nat := 0x20030100 + 0x2000 * i + 4 * j
def R.LAST_CELL (i j k : Nat) : Nat := 0x20031000 + 0x2000 * i + 0x40 * j + 4 * k
def R.LIN_CTL (i : Nat) : Nat := 0x20040000 + 0x1000 * i
def R.LIN_BAUD (i : Nat) : Nat := 0x20040004 + 0x1000 * i
def R.LIN_STAT (i : Nat) : Nat := 0x20040008 + 0x1000 * i
def R.LIN_EVT (i : Nat) : Nat := 0x2004000c + 0x1000 * i
def R.LIN_IRQ_EN (i : Nat) : Nat := 0x20040010 + 0x1000 * i
def R.LIN_HDR (i : Nat) : Nat := 0x20040014 + 0x1000 * i
def R.LIN_WUTX (i : Nat) : Nat := 0x20040018 + 0x1000 * i
def R.LIN_RQ_INFO (i : Nat) : Nat := 0x20040020 + 0x1000 * i
def R.LIN_RQ_DATA_LO (i : Nat) : Nat := 0x20040024 + 0x1000 * i
def R.LIN_RQ_DATA_HI (i : Nat) : Nat := 0x20040028 + 0x1000 * i
def R.LIN_RQ_STAMP_LO (i : Nat) : Nat := 0x2004002c + 0x1000 * i
def R.LIN_RQ_STAMP_HI (i : Nat) : Nat := 0x20040030 + 0x1000 * i
def R.LIN_RQ_POP (i : Nat) : Nat := 0x20040034 + 0x1000 * i
def R.LIN_RQ_STAT (i : Nat) : Nat := 0x20040038 + 0x1000 * i
def R.LIN_CNT (i : Nat) : Nat := 0x2004003c + 0x1000 * i
def R.LIN_UART_TX (i : Nat) : Nat := 0x20040048 + 0x1000 * i
def R.LIN_UART_RX (i : Nat) : Nat := 0x2004004c + 0x1000 * i
def R.LIN_UART_STAT (i : Nat) : Nat := 0x20040050 + 0x1000 * i
def R.LIN_XCVR (i : Nat) : Nat := 0x20040054 + 0x1000 * i
def R.LIN_PT_STAT (i : Nat) : Nat := 0x20040058 + 0x1000 * i
def R.LIN_RESP (i j : Nat) : Nat := 0x20040400 + 0x1000 * i + 4 * j
def R.LIN_DATA_LO (i j : Nat) : Nat := 0x20040600 + 0x1000 * i + 8 * j
def R.LIN_DATA_HI (i j : Nat) : Nat := 0x20040604 + 0x1000 * i + 8 * j
def R.WAKE_XCFG (i : Nat) : Nat := 0x2000e000 + 4 * i
def R.WAKE_SWID (i : Nat) : Nat := 0x2000e010 + 4 * i
def R.WAKE_SWMASK (i : Nat) : Nat := 0x2000e020 + 4 * i
def R.WAKE_SWDATA_LO (i : Nat) : Nat := 0x2000e030 + 8 * i
def R.WAKE_SWDATA_HI (i : Nat) : Nat := 0x2000e034 + 8 * i
def R.WAKE_XSTAT (i : Nat) : Nat := 0x2000e050 + 4 * i
def R.WAKE_SWCNT (i : Nat) : Nat := 0x2000e060 + 4 * i
def R.WAKE_SWTIME (i : Nat) : Nat := 0x2000e070 + 4 * i
def R.WAKE_SWCAP_ID (i : Nat) : Nat := 0x2000e080 + 0x10 * i
def R.WAKE_SWCAP_LO (i : Nat) : Nat := 0x2000e084 + 0x10 * i
def R.WAKE_SWCAP_HI (i : Nat) : Nat := 0x2000e088 + 0x10 * i
def R.WAKE_SWCAP_DLC (i : Nat) : Nat := 0x2000e08c + 0x10 * i
def R.WAKE_LCFG : Nat := 0x2000e0c0
def R.ANG_CTL : Nat := 0x2000f000
def R.ANG_WHEEL : Nat := 0x2000f004
def R.ANG_CONF : Nat := 0x2000f008
def R.ANG_OUTPOL : Nat := 0x2000f00c
def R.ANG_STAT : Nat := 0x2000f010
def R.ANG_ANGLE : Nat := 0x2000f014
def R.ANG_PERIOD : Nat := 0x2000f018
def R.ANG_TSTAMP_LO : Nat := 0x2000f01c
def R.ANG_TSTAMP_HI : Nat := 0x2000f020
def R.ANG_EVT : Nat := 0x2000f024
def R.ANG_IRQ_EN : Nat := 0x2000f028
def R.ANG_DONE : Nat := 0x2000f02c
def R.ANG_CANCEL : Nat := 0x2000f030
def R.ANG_BLOCK : Nat := 0x2000f034
def R.ANG_OUT : Nat := 0x2000f038
def R.ANG_CHCFG (i : Nat) : Nat := 0x2000f100 + 0x20 * i
def R.ANG_CHANG (i : Nat) : Nat := 0x2000f104 + 0x20 * i
def R.ANG_CHDUR (i : Nat) : Nat := 0x2000f108 + 0x20 * i
def R.ANG_CHSTAT (i : Nat) : Nat := 0x2000f10c + 0x20 * i
def R.ANG_CHPRED (i : Nat) : Nat := 0x2000f110 + 0x20 * i
def R.ANG_CHSTAMP (i : Nat) : Nat := 0x2000f114 + 0x20 * i
def R.ANG_CHSAMP (i : Nat) : Nat := 0x2000f118 + 0x20 * i
def R.ENG_IRQ_ROUTE (d i : Nat) : Nat := 0x80000100008 + 0x10000000 * d + 0x1000 * i
def R.ENG_IRQ_PEND (d i : Nat) : Nat := 0x8000010000c + 0x10000000 * d + 0x1000 * i
def R.ENG_QRING_LO (d i j : Nat) : Nat := 0x80000100100 + 0x10000000 * d + 0x1000 * i + 0x40 * j
def R.ENG_QRING_HI (d i j : Nat) : Nat := 0x80000100104 + 0x10000000 * d + 0x1000 * i + 0x40 * j
def R.ENG_QCFG (d i j : Nat) : Nat := 0x80000100108 + 0x10000000 * d + 0x1000 * i + 0x40 * j
def R.ENG_QDB (d i j : Nat) : Nat := 0x8000010010c + 0x10000000 * d + 0x1000 * i + 0x40 * j
def R.ENG_QPTR (d i j : Nat) : Nat := 0x80000100110 + 0x10000000 * d + 0x1000 * i + 0x40 * j
def R.ENG_QSTAT (d i j : Nat) : Nat := 0x80000100114 + 0x10000000 * d + 0x1000 * i + 0x40 * j
def R.ENG_QCTL (d i j : Nat) : Nat := 0x80000100118 + 0x10000000 * d + 0x1000 * i + 0x40 * j
def R.ENG_QERR (d i j : Nat) : Nat := 0x8000010011c + 0x10000000 * d + 0x1000 * i + 0x40 * j
def R.ENG_QERR_ADDR_LO (d i j : Nat) : Nat := 0x80000100120 + 0x10000000 * d + 0x1000 * i + 0x40 * j
def R.ENG_QERR_ADDR_HI (d i j : Nat) : Nat := 0x80000100124 + 0x10000000 * d + 0x1000 * i + 0x40 * j
def R.ENG_QCUR_LO (d i j : Nat) : Nat := 0x80000100128 + 0x10000000 * d + 0x1000 * i + 0x40 * j
def R.ENG_QCUR_HI (d i j : Nat) : Nat := 0x8000010012c + 0x10000000 * d + 0x1000 * i + 0x40 * j
def R.CUBE_QSTAT (d i : Nat) : Nat := 0x80000100400 + 0x10000000 * d + 0x1000 * i
def R.CUBE_STAT (d i : Nat) : Nat := 0x80000100404 + 0x10000000 * d + 0x1000 * i
def R.CUBE_RETRY (d i : Nat) : Nat := 0x80000100408 + 0x10000000 * d + 0x1000 * i
def R.CUBE_STEPS_LO (d i : Nat) : Nat := 0x8000010040c + 0x10000000 * d + 0x1000 * i
def R.CUBE_STEPS_HI (d i : Nat) : Nat := 0x80000100410 + 0x10000000 * d + 0x1000 * i
def R.CUBE_DQ_BASE_LO (d i : Nat) : Nat := 0x80000100420 + 0x10000000 * d + 0x1000 * i
def R.CUBE_DQ_BASE_HI (d i : Nat) : Nat := 0x80000100424 + 0x10000000 * d + 0x1000 * i
def R.CUBE_DQ_CFG (d i : Nat) : Nat := 0x80000100428 + 0x10000000 * d + 0x1000 * i
def R.CUBE_DQ_TAIL (d i : Nat) : Nat := 0x8000010042c + 0x10000000 * d + 0x1000 * i
def R.CUBE_DQ_PTR (d i : Nat) : Nat := 0x80000100430 + 0x10000000 * d + 0x1000 * i
def R.CUBE_DQ_STAT (d i : Nat) : Nat := 0x80000100434 + 0x10000000 * d + 0x1000 * i
def R.STR_CFG (d i j : Nat) : Nat := 0x80000100800 + 0x10000000 * d + 0x1000 * i + 0x40 * j
def R.STR_STAT (d i j : Nat) : Nat := 0x80000100804 + 0x10000000 * d + 0x1000 * i + 0x40 * j
def R.STR_CTL (d i j : Nat) : Nat := 0x80000100808 + 0x10000000 * d + 0x1000 * i + 0x40 * j
def R.STR_PC_LO (d i j : Nat) : Nat := 0x8000010080c + 0x10000000 * d + 0x1000 * i + 0x40 * j
def R.STR_PC_HI (d i j : Nat) : Nat := 0x80000100810 + 0x10000000 * d + 0x1000 * i + 0x40 * j
def R.STR_ERR_ADDR_LO (d i j : Nat) : Nat := 0x80000100814 + 0x10000000 * d + 0x1000 * i + 0x40 * j
def R.STR_ERR_ADDR_HI (d i j : Nat) : Nat := 0x80000100818 + 0x10000000 * d + 0x1000 * i + 0x40 * j
def R.STR_DROPPED (d i j : Nat) : Nat := 0x8000010081c + 0x10000000 * d + 0x1000 * i + 0x40 * j
def R.STR_LINES_LO (d i j : Nat) : Nat := 0x80000100820 + 0x10000000 * d + 0x1000 * i + 0x40 * j
def R.STR_LINES_HI (d i j : Nat) : Nat := 0x80000100824 + 0x10000000 * d + 0x1000 * i + 0x40 * j
def R.TRN_PSTAT (d i : Nat) : Nat := 0x80000100c00 + 0x10000000 * d + 0x1000 * i
def R.TRN_PCOUNT (d i : Nat) : Nat := 0x80000100c04 + 0x10000000 * d + 0x1000 * i
def R.TRN_PWAIT_SLOT (d i : Nat) : Nat := 0x80000100c08 + 0x10000000 * d + 0x1000 * i
def R.TRN_PWAIT_PF (d i : Nat) : Nat := 0x80000100c0c + 0x10000000 * d + 0x1000 * i
def R.CUBE_LIVE (d : Nat) : Nat := 0x8000000b000 + 0x10000000 * d
def R.FAB_STAT (d : Nat) : Nat := 0x8000000c000 + 0x10000000 * d
def R.FAB_EVT (d : Nat) : Nat := 0x8000000c004 + 0x10000000 * d
def R.FAB_IO_OWN (d i : Nat) : Nat := 0x8000000c010 + 0x10000000 * d + 4 * i
def R.FAB_IO_IN (d : Nat) : Nat := 0x8000000c020 + 0x10000000 * d
def R.FAB_RINFO (d i : Nat) : Nat := 0x8000000c100 + 0x10000000 * d + 0x40 * i
def R.FAB_RSTAT (d i : Nat) : Nat := 0x8000000c104 + 0x10000000 * d + 0x40 * i
def R.FAB_FCODE (d i : Nat) : Nat := 0x8000000c108 + 0x10000000 * d + 0x40 * i
def R.FAB_RCTL (d i : Nat) : Nat := 0x8000000c10c + 0x10000000 * d + 0x40 * i
def R.FAB_CFG_CE (d i : Nat) : Nat := 0x8000000c110 + 0x10000000 * d + 0x40 * i
def R.LACE_PHY_CFG (d i : Nat) : Nat := 0x80000060000 + 0x10000000 * d + 0x1000 * i
def R.LACE_PHY_STAT (d i : Nat) : Nat := 0x80000060004 + 0x10000000 * d + 0x1000 * i
def R.LACE_PHY_EVT (d i : Nat) : Nat := 0x80000060008 + 0x10000000 * d + 0x1000 * i
def R.LACE_PEER (d i : Nat) : Nat := 0x8000006000c + 0x10000000 * d + 0x1000 * i
def R.LACE_TEST (d i : Nat) : Nat := 0x80000060010 + 0x10000000 * d + 0x1000 * i
def R.LACE_TEST_PAT (d i : Nat) : Nat := 0x80000060014 + 0x10000000 * d + 0x1000 * i
def R.LACE_EXITS (d i : Nat) : Nat := 0x80000060018 + 0x10000000 * d + 0x1000 * i
def R.LACE_TX (d i j : Nat) : Nat := 0x80000060100 + 0x10000000 * d + 0x1000 * i + 0x40 * j
def R.LACE_RX (d i j : Nat) : Nat := 0x80000060104 + 0x10000000 * d + 0x1000 * i + 0x40 * j
def R.LACE_DFE (d i j : Nat) : Nat := 0x80000060108 + 0x10000000 * d + 0x1000 * i + 0x40 * j
def R.LACE_LNSTAT (d i j : Nat) : Nat := 0x8000006010c + 0x10000000 * d + 0x1000 * i + 0x40 * j
def R.LACE_SYMERR (d i j : Nat) : Nat := 0x80000060110 + 0x10000000 * d + 0x1000 * i + 0x40 * j
def R.LACE_PRBS_ERR (d i j : Nat) : Nat := 0x80000060114 + 0x10000000 * d + 0x1000 * i + 0x40 * j
def R.LACE_PRBS_BITS_LO (d i j : Nat) : Nat := 0x80000060118 + 0x10000000 * d + 0x1000 * i + 0x40 * j
def R.LACE_PRBS_BITS_HI (d i j : Nat) : Nat := 0x8000006011c + 0x10000000 * d + 0x1000 * i + 0x40 * j
def R.LACE_LCFG (d i : Nat) : Nat := 0x80000060800 + 0x10000000 * d + 0x1000 * i
def R.LACE_LCTL (d i : Nat) : Nat := 0x80000060804 + 0x10000000 * d + 0x1000 * i
def R.LACE_LSTAT (d i : Nat) : Nat := 0x80000060808 + 0x10000000 * d + 0x1000 * i
def R.LACE_LEVT (d i : Nat) : Nat := 0x8000006080c + 0x10000000 * d + 0x1000 * i
def R.LACE_LCNT (d i : Nat) : Nat := 0x80000060810 + 0x10000000 * d + 0x1000 * i

def F.CAP_DIES.HEEL : Fld := ⟨0, 1⟩
def F.CAP_DIES.SOLE : Fld := ⟨1, 1⟩
def F.CAP_DIES.COMPUTE : Fld := ⟨2, 4⟩
def F.CAP_DIES.LARDER : Fld := ⟨6, 2⟩
def F.CAP_DIES.PKG : Fld := ⟨8, 4⟩
def F.CAP_DIES.PART : Fld := ⟨16, 12⟩
def F.CAP_ENGINES.ENGINE : Fld := ⟨0, 32⟩
def F.CAP_LACE_LO.LINK : Fld := ⟨0, 32⟩
def F.CAP_LACE_HI.LINK : Fld := ⟨0, 16⟩
def F.CAP_LARDER.PRESENT : Fld := ⟨0, 2⟩
def F.CAP_LARDER.SIZE_GIB : Fld := ⟨8, 8⟩
def F.CAP_FABRIC.PRESENT : Fld := ⟨0, 4⟩
def F.CAP_FABRIC.REGIONS : Fld := ⟨4, 4⟩
def F.CAP_FABRIC.VSLICES : Fld := ⟨8, 8⟩
def F.CAP_FABRIC.KCELLS : Fld := ⟨16, 8⟩
def F.CAP_HEEL.HSO : Fld := ⟨0, 6⟩
def F.CAP_HEEL.HB : Fld := ⟨6, 4⟩
def F.CAP_HEEL.HPD : Fld := ⟨10, 3⟩
def F.CAP_HEEL.SW : Fld := ⟨13, 7⟩
def F.CAP_HEEL.QD : Fld := ⟨20, 3⟩
def F.CAP_HEEL.MB : Fld := ⟨23, 4⟩
def F.CAP_HEEL.LIN : Fld := ⟨27, 4⟩
def F.CAP_HEEL.ANG : Fld := ⟨31, 1⟩
def F.LIVE_DIES.HEEL : Fld := ⟨0, 1⟩
def F.LIVE_DIES.SOLE : Fld := ⟨1, 1⟩
def F.LIVE_DIES.COMPUTE : Fld := ⟨2, 4⟩
def F.LIVE_DIES.LARDER : Fld := ⟨6, 2⟩
def F.LIVE_ENGINES.ENGINE : Fld := ⟨0, 32⟩
def F.LIVE_LACE_LO.LINK : Fld := ⟨0, 32⟩
def F.LIVE_LACE_HI.LINK : Fld := ⟨0, 16⟩
def F.LIVE_LARDER.LARDER : Fld := ⟨0, 2⟩
def F.LIVE_FABRIC.REGION : Fld := ⟨0, 32⟩
def F.LIVE_HEEL.MBC : Fld := ⟨0, 8⟩
def F.LIVE_HEEL.LIN : Fld := ⟨8, 8⟩
def F.LIVE_HEEL.QDEC : Fld := ⟨16, 4⟩
def F.LIVE_HEEL.HB : Fld := ⟨20, 8⟩
def F.LIVE_HEEL.HPD : Fld := ⟨28, 4⟩
def F.LIVE_HSO_LO.HSO : Fld := ⟨0, 32⟩
def F.LIVE_HSO_HI.HSO : Fld := ⟨0, 8⟩
def F.LIVE_DIE_STATE.CSTATE : Fld := ⟨0, 16⟩
def F.LIVE_DIE_STATE.LSTATE : Fld := ⟨16, 8⟩
def F.LIVE_SEQ.SEQ : Fld := ⟨0, 32⟩
def F.LIVE_WELT.SOLE_C : Fld := ⟨0, 4⟩
def F.LIVE_WELT.RING : Fld := ⟨4, 4⟩
def F.LIVE_WELT.LARD : Fld := ⟨8, 4⟩
def F.LIVE_WELT.HEEL : Fld := ⟨16, 1⟩
def F.LIVE_EBANK.EVEN : Fld := ⟨0, 16⟩
def F.LIVE_EBANK.ODD : Fld := ⟨16, 16⟩
def F.LIVE_LBANK.BANK : Fld := ⟨0, 32⟩
def F.TBASE_NOW_LO.NOW : Fld := ⟨0, 32⟩
def F.TBASE_NOW_HI.NOW : Fld := ⟨0, 32⟩
def F.TBASE_OFFSET_LO.OFFSET : Fld := ⟨0, 32⟩
def F.TBASE_OFFSET_HI.OFFSET : Fld := ⟨0, 32⟩
def F.TBASE_STATUS.ALIGNED : Fld := ⟨0, 1⟩
def F.TBASE_STATUS.COLD : Fld := ⟨1, 1⟩
def F.TBASE_STATUS.SRC : Fld := ⟨2, 1⟩
def F.TBASE_STATUS.REFLOSS : Fld := ⟨3, 1⟩
def F.TBASE_STATUS.RTC_LPRC : Fld := ⟨4, 1⟩
def F.TBASE_STATUS.SYNC_FAULT : Fld := ⟨5, 1⟩
def F.TBASE_STATUS.KEPT : Fld := ⟨6, 1⟩
def F.TBASE_SYNC_ERR.C0 : Fld := ⟨0, 8⟩
def F.TBASE_SYNC_ERR.C1 : Fld := ⟨8, 8⟩
def F.TBASE_SYNC_ERR.C2 : Fld := ⟨16, 8⟩
def F.TBASE_SYNC_ERR.C3 : Fld := ⟨24, 8⟩
def F.TBASE_SYNC_HEEL.HEEL : Fld := ⟨0, 8⟩
def F.TBASE_RTC_LO.RTC : Fld := ⟨0, 32⟩
def F.TBASE_RTC_HI.RTC : Fld := ⟨0, 16⟩
def F.TBASE_ALM_PEND.PEND : Fld := ⟨0, 8⟩
def F.TBASE_ALM_PEND.MISSED : Fld := ⟨8, 8⟩
def F.TBASE_ALM_LO.CMP : Fld := ⟨0, 32⟩
def F.TBASE_ALM_HI.CMP : Fld := ⟨0, 32⟩
def F.TBASE_ALM_CFG.EN : Fld := ⟨0, 1⟩
def F.TBASE_ALM_CFG.IRQ : Fld := ⟨1, 1⟩
def F.TBASE_ALM_CFG.SIG : Fld := ⟨2, 1⟩
def F.TBASE_ALM_CFG.PERIODIC : Fld := ⟨3, 1⟩
def F.TBASE_ALM_CFG.TARGET : Fld := ⟨4, 4⟩
def F.TBASE_ALM_CFG.PERIOD : Fld := ⟨8, 24⟩
def F.TBASE_ALM_SIG.HANDLE : Fld := ⟨0, 32⟩
def F.PWR_PMB_CFG.RATE : Fld := ⟨0, 2⟩
def F.PWR_PMB_CFG.PEC : Fld := ⟨2, 1⟩
def F.PWR_PMB_CFG.TMO : Fld := ⟨3, 1⟩
def F.PWR_PMB_CMD.ADDR : Fld := ⟨0, 7⟩
def F.PWR_PMB_CMD.RD : Fld := ⟨7, 1⟩
def F.PWR_PMB_CMD.CODE : Fld := ⟨8, 8⟩
def F.PWR_PMB_CMD.LEN : Fld := ⟨16, 2⟩
def F.PWR_PMB_CMD.START : Fld := ⟨31, 1⟩
def F.PWR_PMB_DATA.DATA : Fld := ⟨0, 16⟩
def F.PWR_PMB_STAT.BUSY : Fld := ⟨0, 1⟩
def F.PWR_PMB_STAT.DONE : Fld := ⟨1, 1⟩
def F.PWR_PMB_STAT.NACK : Fld := ⟨2, 1⟩
def F.PWR_PMB_STAT.PEC_ERR : Fld := ⟨3, 1⟩
def F.PWR_PMB_STAT.TIMEOUT : Fld := ⟨4, 1⟩
def F.PWR_PMB_STAT.ARB_LOST : Fld := ⟨5, 1⟩
def F.PWR_PMB_STAT.ALERT : Fld := ⟨8, 1⟩
def F.BOOT_STATUS.HEEL_SLOT : Fld := ⟨0, 1⟩
def F.BOOT_STATUS.SOLE_SLOT : Fld := ⟨1, 1⟩
def F.BOOT_STATUS.HEEL_FB : Fld := ⟨2, 1⟩
def F.BOOT_STATUS.SOLE_FB : Fld := ⟨3, 1⟩
def F.BOOT_STATUS.SOLE_FAIL : Fld := ⟨4, 1⟩
def F.BOOT_STATUS.OPEN : Fld := ⟨5, 1⟩
def F.BOOT_STATUS.WARM : Fld := ⟨6, 1⟩
def F.BOOT_AGREE.HEEL : Fld := ⟨0, 2⟩
def F.BOOT_AGREE.C0_C3 : Fld := ⟨4, 8⟩
def F.BOOT_AGREE.MISSEEN : Fld := ⟨16, 1⟩
def F.BOOT_AGREE.FAB_REF : Fld := ⟨24, 8⟩
def F.BOOT_EPOCH_SOLE.HI : Fld := ⟨0, 16⟩
def F.BOOT_EPOCH_SOLE.DI : Fld := ⟨16, 16⟩
def F.BOOT_EPOCH_HEEL.HI : Fld := ⟨0, 16⟩
def F.BOOT_EPOCH_DIE.DI : Fld := ⟨0, 16⟩
def F.BOOT_EPOCH_DIE.FI : Fld := ⟨16, 16⟩
def F.BOOT_VER_SRC_LO.ADDR : Fld := ⟨0, 32⟩
def F.BOOT_VER_SRC_HI.ADDR : Fld := ⟨0, 16⟩
def F.BOOT_VER_CTL.PURPOSE : Fld := ⟨0, 3⟩
def F.BOOT_VER_CTL.START : Fld := ⟨31, 1⟩
def F.BOOT_VER_STAT.BUSY : Fld := ⟨0, 1⟩
def F.BOOT_VER_STAT.DONE : Fld := ⟨1, 1⟩
def F.BOOT_VER_STAT.CODE : Fld := ⟨4, 4⟩
def F.BOOT_VER_STAT.INDEX : Fld := ⟨8, 6⟩
def F.BOOT_SWAP.HEEL : Fld := ⟨0, 1⟩
def F.BOOT_SWAP.SOLE : Fld := ⟨1, 1⟩
def F.BOOT_SWAP.DIE : Fld := ⟨4, 4⟩
def F.BOOT_SWAP.FORCE : Fld := ⟨8, 1⟩
def F.BOOT_SWAP.KEY : Fld := ⟨16, 16⟩
def F.BOOT_SWAP_STAT.BUSY : Fld := ⟨0, 1⟩
def F.BOOT_SWAP_STAT.DONE : Fld := ⟨1, 1⟩
def F.BOOT_SWAP_STAT.CODE : Fld := ⟨4, 3⟩
def F.BOOT_SWAP_STAT.DROPPED : Fld := ⟨8, 4⟩
def F.BOOT_ROLL.HEEL : Fld := ⟨0, 8⟩
def F.BOOT_ROLL.SOLE : Fld := ⟨8, 8⟩
def F.BOOT_ROLL.DIE : Fld := ⟨16, 8⟩
def F.BOOT_ROLL.FAB : Fld := ⟨24, 8⟩
def F.BOOT_ROLL_COMMIT.KINDS : Fld := ⟨0, 4⟩
def F.BOOT_ROLL_COMMIT.KEY : Fld := ⟨16, 16⟩
def F.BOOT_HCMD_TX.WORD : Fld := ⟨0, 32⟩
def F.BOOT_HCMD_RX.WORD : Fld := ⟨0, 32⟩
def F.BOOT_HCMD_STAT.TX_FREE : Fld := ⟨0, 6⟩
def F.BOOT_HCMD_STAT.RX_COUNT : Fld := ⟨8, 6⟩
def F.BOOT_HCMD_STAT.OVF : Fld := ⟨16, 1⟩
def F.CORE_START.START : Fld := ⟨0, 10⟩
def F.CORE_STATE.STATE : Fld := ⟨0, 20⟩
def F.CORE_SWI.SET : Fld := ⟨0, 10⟩
def F.CORE_PAIR_STAT.P0_TRANS : Fld := ⟨0, 8⟩
def F.CORE_PAIR_STAT.P1_TRANS : Fld := ⟨8, 8⟩
def F.CORE_PAIR_STAT.P0_PERM : Fld := ⟨16, 1⟩
def F.CORE_PAIR_STAT.P1_PERM : Fld := ⟨17, 1⟩
def F.CORE_ENTRY_LO.ENTRY : Fld := ⟨0, 32⟩
def F.CORE_ENTRY_HI.ENTRY : Fld := ⟨0, 16⟩
def F.GRD_CTL.EN : Fld := ⟨0, 18⟩
def F.GRD_CFG_STAT.GUARD_OVERLAP : Fld := ⟨0, 1⟩
def F.GRD_CFG_STAT.LIVEEDIT : Fld := ⟨1, 1⟩
def F.GRD_CFG_STAT.REGION : Fld := ⟨8, 5⟩
def F.GRD_CFG_STAT.GUARD : Fld := ⟨16, 5⟩
def F.GRD_VIOL_ADDR_LO.ADDR : Fld := ⟨0, 32⟩
def F.GRD_VIOL_ADDR_HI.ADDR : Fld := ⟨0, 16⟩
def F.GRD_VIOL_INFO.INITIATOR : Fld := ⟨0, 16⟩
def F.GRD_VIOL_INFO.REASON : Fld := ⟨16, 4⟩
def F.GRD_VIOL_INFO.KIND : Fld := ⟨20, 2⟩
def F.GRD_VIOL_INFO.POSTED : Fld := ⟨22, 1⟩
def F.GRD_VIOL_INFO.GUARD : Fld := ⟨24, 5⟩
def F.GRD_VIOL_INFO.VALID : Fld := ⟨31, 1⟩
def F.GRD_VIOL_COUNT.COUNT : Fld := ⟨0, 32⟩
def F.GRD_NOTE_ADDR_LO.ADDR : Fld := ⟨0, 32⟩
def F.GRD_NOTE_ADDR_HI.ADDR : Fld := ⟨0, 16⟩
def F.GRD_NOTE_INFO.INITIATOR : Fld := ⟨0, 16⟩
def F.GRD_NOTE_INFO.REASON : Fld := ⟨16, 4⟩
def F.GRD_NOTE_INFO.VALID : Fld := ⟨31, 1⟩
def F.GRD_NOTE_POP.POP : Fld := ⟨0, 32⟩
def F.GRD_NOTE_STAT.COUNT : Fld := ⟨0, 5⟩
def F.GRD_NOTE_STAT.OVF : Fld := ⟨8, 1⟩
def F.GRD_NOTE_STAT.LOST : Fld := ⟨16, 8⟩
def F.GRD_SCRUB_CFG.EN : Fld := ⟨0, 1⟩
def F.GRD_SCRUB_CFG.PASS_H : Fld := ⟨8, 8⟩
def F.GRD_SCRUB_CFG.ACTIVE : Fld := ⟨16, 1⟩
def F.GRD_LINE_CE.COUNT : Fld := ⟨0, 16⟩
def F.GRD_LINE_UE.COUNT : Fld := ⟨0, 16⟩
def F.GRD_LINE_UE.MEM : Fld := ⟨16, 4⟩
def F.GRD_LINE_UE.NEW : Fld := ⟨31, 1⟩
def F.GRD_LINE_ADDR_LO.ADDR : Fld := ⟨0, 32⟩
def F.GRD_LINE_ADDR_HI.ADDR : Fld := ⟨0, 16⟩
def F.GRD_HMEM_STAT.GRADE : Fld := ⟨0, 2⟩
def F.GRD_HMEM_STAT.DENSITY : Fld := ⟨4, 3⟩
def F.GRD_HMEM_STAT.RANKS2 : Fld := ⟨7, 1⟩
def F.GRD_HMEM_STAT.KEPT : Fld := ⟨8, 1⟩
def F.GRD_HMEM_STAT.FILLING : Fld := ⟨9, 1⟩
def F.GRD_HMEM_STAT.READY : Fld := ⟨10, 1⟩
def F.GRD_HMEM_STAT.FAIL : Fld := ⟨11, 1⟩
def F.GRD_HMEM_FILL.MIB : Fld := ⟨0, 32⟩
def F.GRD_BASE_LO.BASE : Fld := ⟨0, 32⟩
def F.GRD_BASE_HI.BASE : Fld := ⟨0, 16⟩
def F.GRD_LIMIT_LO.LIMIT : Fld := ⟨0, 32⟩
def F.GRD_LIMIT_HI.LIMIT : Fld := ⟨0, 16⟩
def F.GRD_PERM.EN : Fld := ⟨0, 1⟩
def F.GRD_PERM.R : Fld := ⟨1, 1⟩
def F.GRD_PERM.W : Fld := ⟨2, 1⟩
def F.GRD_PERM.X : Fld := ⟨3, 1⟩
def F.GRD_PERM.UR : Fld := ⟨4, 1⟩
def F.GRD_PERM.UW : Fld := ⟨5, 1⟩
def F.GRD_PERM.UX : Fld := ⟨6, 1⟩
def F.GRD_PERM.NOPF : Fld := ⟨7, 1⟩
def F.NOC_STAT.RETRY : Fld := ⟨0, 16⟩
def F.NOC_STAT.SUBST : Fld := ⟨16, 8⟩
def F.NOC_STAT.SUBST_J : Fld := ⟨24, 5⟩
def F.NOC_RT_STAT.CODE : Fld := ⟨0, 3⟩
def F.NOC_RT_STAT.NI : Fld := ⟨4, 5⟩
def F.NOC_RT_STAT.ENTRY : Fld := ⟨9, 3⟩
def F.NOC_RT_STAT.NEW : Fld := ⟨31, 1⟩
def F.NOC_WELT_RETRY.COUNT : Fld := ⟨0, 32⟩
def F.NOC_ENTRY_CLASS.MASK : Fld := ⟨0, 16⟩
def F.NOC_ENTRY_CLASS.DEFAULT : Fld := ⟨16, 4⟩
def F.NOC_RT_DEST.DEST : Fld := ⟨0, 6⟩
def F.NOC_RT_DEST.EN : Fld := ⟨31, 1⟩
def F.NOC_RT_ROUTE.LEN : Fld := ⟨0, 4⟩
def F.NOC_RT_ROUTE.HOPS : Fld := ⟨4, 28⟩
def F.AWL_STAT.FIRED : Fld := ⟨0, 16⟩
def F.AWL_STAT.FROZEN : Fld := ⟨16, 1⟩
def F.AWL_STAT.LIVEEDIT : Fld := ⟨17, 1⟩
def F.AWL_STAT.DROP : Fld := ⟨24, 8⟩
def F.AWL_IRQ.CORE : Fld := ⟨0, 4⟩
def F.AWL_IRQ.LINE : Fld := ⟨4, 5⟩
def F.AWL_TRACE.ON : Fld := ⟨0, 1⟩
def F.AWL_CFG.EN : Fld := ⟨0, 1⟩
def F.AWL_CFG.TRACE : Fld := ⟨1, 1⟩
def F.AWL_CFG.DIR : Fld := ⟨2, 1⟩
def F.AWL_CFG.ADDREN : Fld := ⟨3, 1⟩
def F.AWL_CFG.POINT : Fld := ⟨4, 6⟩
def F.AWL_CFG.PORT : Fld := ⟨10, 3⟩
def F.AWL_CFG.EARLY : Fld := ⟨16, 2⟩
def F.AWL_CFG.VCS : Fld := ⟨18, 4⟩
def F.AWL_KIND.KINDS : Fld := ⟨0, 16⟩
def F.AWL_KIND.CLASSES : Fld := ⟨16, 16⟩
def F.AWL_INIT.VALUE : Fld := ⟨0, 16⟩
def F.AWL_INIT.MASK : Fld := ⟨16, 16⟩
def F.AWL_ALO_LO.ADDR : Fld := ⟨0, 32⟩
def F.AWL_ALO_HI.ADDR : Fld := ⟨0, 16⟩
def F.AWL_AHI_LO.ADDR : Fld := ⟨0, 32⟩
def F.AWL_AHI_HI.ADDR : Fld := ⟨0, 16⟩
def F.AWL_PKT.COUNT : Fld := ⟨0, 32⟩
def F.AWL_BYTES_LO.BYTES : Fld := ⟨0, 32⟩
def F.AWL_BYTES_HI.BYTES : Fld := ⟨0, 16⟩
def F.AWL_BYTES_HI.OVF : Fld := ⟨31, 1⟩
def F.AWL_TRIG.THRESH : Fld := ⟨0, 24⟩
def F.AWL_TRIG.IRQ : Fld := ⟨24, 1⟩
def F.AWL_TRIG.TRACE_ON : Fld := ⟨25, 1⟩
def F.AWL_TRIG.TRACE_OFF : Fld := ⟨26, 1⟩
def F.AWL_TRIG.FREEZE : Fld := ⟨27, 1⟩
def F.AWL_TRIG.TEN : Fld := ⟨31, 1⟩
def F.AWL_ARM.PROBES : Fld := ⟨0, 16⟩
def F.BWC_WINDOW.LEN : Fld := ⟨0, 16⟩
def F.BWC_OVER_LO.OVER : Fld := ⟨0, 32⟩
def F.BWC_OVER_HI.OVER : Fld := ⟨0, 32⟩
def F.BWC_CFG.PRIO : Fld := ⟨0, 2⟩
def F.BWC_BUDGET.LINES : Fld := ⟨0, 20⟩
def F.BWC_COUNT.LINES : Fld := ⟨0, 24⟩
def F.BWC_LAST.LINES : Fld := ⟨0, 24⟩
def F.BWC_LAST.OVER : Fld := ⟨31, 1⟩
def F.ENG_CNT.VALUE : Fld := ⟨0, 32⟩
def F.ENG_CNT_EXT.EXT : Fld := ⟨0, 32⟩
def F.ENG_CEN_CTL.EN : Fld := ⟨0, 8⟩
def F.ENG_CEN_STAT.FIRED : Fld := ⟨0, 8⟩
def F.ENG_CEN_STAT.SNAPFAIL : Fld := ⟨8, 8⟩
def F.ENG_CEN_QMASK.QUEUES : Fld := ⟨0, 32⟩
def F.ENG_CEN_CMASK.CORES : Fld := ⟨0, 14⟩
def F.ENG_CEN_SNAP_LO.ADDR : Fld := ⟨0, 32⟩
def F.ENG_CEN_SNAP_HI.ADDR : Fld := ⟨0, 16⟩
def F.ENG_HOLD.HELD : Fld := ⟨0, 1⟩
def F.ENG_HOLD.REVOKED : Fld := ⟨1, 1⟩
def F.ENG_HOLD.WAITERS : Fld := ⟨2, 1⟩
def F.ENG_HOLD.OWNER : Fld := ⟨16, 16⟩
def F.ENG_HOLD_ACQ.GOT : Fld := ⟨0, 1⟩
def F.ENG_HOLD_ACQ.REVOKED : Fld := ⟨1, 1⟩
def F.ENG_HOLD_ACQ.ALREADY : Fld := ⟨2, 1⟩
def F.ENG_HOLD_ACQ.OWNER : Fld := ⟨16, 16⟩
def F.ENG_HOLD_REL.REL : Fld := ⟨0, 32⟩
def F.TRN_CK_CTL.OPEN : Fld := ⟨0, 4⟩
def F.TRN_CK_CTL.ABORT : Fld := ⟨4, 4⟩
def F.TRN_CK_ROUTE.CORE : Fld := ⟨0, 4⟩
def F.TRN_CK_ROUTE.LINE : Fld := ⟨4, 5⟩
def F.TRN_CK_EVT.SEALED : Fld := ⟨0, 4⟩
def F.TRN_CK_EVT.FAILED : Fld := ⟨4, 4⟩
def F.TRN_LAST_ID.VALUE : Fld := ⟨0, 32⟩
def F.TRN_LAST_STEP.VALUE : Fld := ⟨0, 32⟩
def F.TRN_CK_ID.VALUE : Fld := ⟨0, 32⟩
def F.TRN_CK_STEP.VALUE : Fld := ⟨0, 32⟩
def F.TRN_CK_PIECES.PIECES : Fld := ⟨0, 16⟩
def F.TRN_CK_PIECES.DONE : Fld := ⟨16, 16⟩
def F.TRN_CK_STAT.STATE : Fld := ⟨0, 3⟩
def F.TRN_CK_STAT.DUP : Fld := ⟨3, 1⟩
def F.TRN_CK_STAT.CAUSE : Fld := ⟨4, 3⟩
def F.TRN_CK_SEAL_LO.ADDR : Fld := ⟨0, 32⟩
def F.TRN_CK_SEAL_HI.ADDR : Fld := ⟨0, 16⟩
def F.TRN_CK_MSEAL_LO.ADDR : Fld := ⟨0, 32⟩
def F.TRN_CK_MSEAL_HI.ADDR : Fld := ⟨0, 16⟩
def F.TRN_CK_BYTES_LO.BYTES : Fld := ⟨0, 32⟩
def F.TRN_CK_BYTES_HI.BYTES : Fld := ⟨0, 32⟩
def F.LACE_PKG.ID : Fld := ⟨0, 8⟩
def F.LACE_PKG.SRC : Fld := ⟨8, 1⟩
def F.LACE_PKG.IDREF : Fld := ⟨9, 1⟩
def F.LACE_CL_CFG.MAXHOP : Fld := ⟨0, 4⟩
def F.LACE_CL_CFG.RTMO : Fld := ⟨16, 16⟩
def F.LACE_CL_STAT.UNREACH : Fld := ⟨0, 16⟩
def F.LACE_CL_STAT.LATE : Fld := ⟨16, 8⟩
def F.LACE_CL_STAT.HOPDROP : Fld := ⟨24, 8⟩
def F.LACE_WIN_LO.BASE : Fld := ⟨0, 32⟩
def F.LACE_WIN_HI.BASE : Fld := ⟨0, 16⟩
def F.LACE_WIN_HI.PKG : Fld := ⟨16, 8⟩
def F.LACE_WIN_HI.DEV : Fld := ⟨30, 1⟩
def F.LACE_WIN_HI.EN : Fld := ⟨31, 1⟩
def F.LACE_RT.L0 : Fld := ⟨0, 6⟩
def F.LACE_RT.L1 : Fld := ⟨8, 6⟩
def F.LACE_RT.L2 : Fld := ⟨16, 6⟩
def F.LACE_RT.EN : Fld := ⟨31, 1⟩
def F.FLT_STAT.LOGERR : Fld := ⟨0, 1⟩
def F.FLT_STAT.SUMPEND : Fld := ⟨1, 1⟩
def F.FLT_STAT.TESTS : Fld := ⟨8, 3⟩
def F.FLT_EVT.REC : Fld := ⟨0, 1⟩
def F.FLT_EVT.PERM : Fld := ⟨1, 1⟩
def F.FLT_EVT.STALL : Fld := ⟨2, 1⟩
def F.FLT_EVT.RECUR : Fld := ⟨3, 1⟩
def F.FLT_EVT.DROP : Fld := ⟨4, 1⟩
def F.FLT_EVT.ACTDONE : Fld := ⟨5, 1⟩
def F.FLT_IRQ_EN.EN : Fld := ⟨0, 6⟩
def F.FLT_LOG_BASE_LO.ADDR : Fld := ⟨0, 32⟩
def F.FLT_LOG_BASE_HI.ADDR : Fld := ⟨0, 16⟩
def F.FLT_LOG_CFG.SIZE : Fld := ⟨0, 5⟩
def F.FLT_LOG_HEAD.INDEX : Fld := ⟨0, 17⟩
def F.FLT_LOG_TAIL.INDEX : Fld := ⟨0, 17⟩
def F.FLT_SEQ.SEQ : Fld := ⟨0, 32⟩
def F.FLT_DROP.DROP : Fld := ⟨0, 32⟩
def F.FLT_RETRY_LO.COUNT : Fld := ⟨0, 32⟩
def F.FLT_RETRY_HI.BODY : Fld := ⟨0, 4⟩
def F.FLT_CFG.BANKUE : Fld := ⟨0, 4⟩
def F.FLT_CFG.RECUR_THR : Fld := ⟨8, 8⟩
def F.FLT_CFG.RECUR_WIN : Fld := ⟨16, 8⟩
def F.FLT_RECUR.KIND : Fld := ⟨1, 11⟩
def F.FLT_ACT.UNIT : Fld := ⟨0, 16⟩
def F.FLT_ACT.ACTION : Fld := ⟨16, 4⟩
def F.FLT_ACT.KEY : Fld := ⟨24, 8⟩
def F.FLT_ACT_STAT.CODE : Fld := ⟨0, 3⟩
def F.FLT_TEST.UNIT : Fld := ⟨0, 16⟩
def F.FLT_TEST.VALID : Fld := ⟨31, 1⟩
def F.FLT_KEVT.UNIT : Fld := ⟨0, 1⟩
def F.FLT_KEVT.SUMPEND : Fld := ⟨1, 1⟩
def F.FLT_HEVT.UNIT : Fld := ⟨0, 1⟩
def F.FLT_HEVT.SUMPEND : Fld := ⟨1, 1⟩
def F.DBG_TRC_CTL.EN : Fld := ⟨0, 1⟩
def F.DBG_TRC_CTL.STOP : Fld := ⟨1, 1⟩
def F.DBG_TRC_WPTR.INDEX : Fld := ⟨0, 17⟩
def F.DBG_TRC_STAT.FULL : Fld := ⟨0, 1⟩
def F.DBG_TRC_STAT.WRAPPED : Fld := ⟨1, 1⟩
def F.PWR_SUP_STAT.VBAT_OK : Fld := ⟨0, 1⟩
def F.PWR_SUP_STAT.VBAT_LOW : Fld := ⟨1, 1⟩
def F.PWR_SUP_STAT.VBAT_OV : Fld := ⟨2, 1⟩
def F.PWR_SUP_STAT.HEEL : Fld := ⟨3, 1⟩
def F.PWR_SUP_STAT.SOLE : Fld := ⟨4, 1⟩
def F.PWR_SUP_STAT.CORE_C : Fld := ⟨8, 4⟩
def F.PWR_SUP_STAT.PHY_C : Fld := ⟨12, 4⟩
def F.PWR_SUP_STAT.LARD : Fld := ⟨16, 2⟩
def F.PWR_SUP_EVT.VBAT_LOW : Fld := ⟨1, 1⟩
def F.PWR_SUP_EVT.VBAT_OV : Fld := ⟨2, 1⟩
def F.PWR_SUP_EVT.SOLE : Fld := ⟨4, 1⟩
def F.PWR_SUP_EVT.CORE_C_PHY_C_LARD : Fld := ⟨8, 10⟩
def F.PWR_SUP_IRQ.EN : Fld := ⟨0, 18⟩
def F.PWR_EN.INH : Fld := ⟨0, 1⟩
def F.PWR_EN.EN_C : Fld := ⟨2, 4⟩
def F.PWR_EN.EN_L : Fld := ⟨6, 2⟩
def F.PWR_RST_CAUSE.AON_POR : Fld := ⟨0, 1⟩
def F.PWR_RST_CAUSE.WINTER_BO : Fld := ⟨1, 1⟩
def F.PWR_RST_CAUSE.HEEL_BO : Fld := ⟨2, 1⟩
def F.PWR_RST_CAUSE.RST_PIN : Fld := ⟨3, 1⟩
def F.PWR_RST_CAUSE.DBG : Fld := ⟨4, 1⟩
def F.PWR_RST_CAUSE.HEEL_WDOG : Fld := ⟨5, 1⟩
def F.PWR_RST_CAUSE.SW_SYSTEM : Fld := ⟨6, 1⟩
def F.PWR_RST_CAUSE.SOLE_SUPPLY : Fld := ⟨7, 1⟩
def F.PWR_RST_CAUSE.SOLE_WDOG : Fld := ⟨8, 1⟩
def F.PWR_RST_CAUSE.SW_SOLE : Fld := ⟨9, 1⟩
def F.PWR_RST_CAUSE.SW_DIE : Fld := ⟨12, 4⟩
def F.PWR_RST_REQ.REQ : Fld := ⟨0, 32⟩
def F.PWR_WDOG_CFG.EN : Fld := ⟨0, 1⟩
def F.PWR_WDOG_CFG.TIMEOUT : Fld := ⟨16, 16⟩
def F.PWR_WDOG_KICK.KICK : Fld := ⟨0, 32⟩
def F.PWR_VBAT.MV : Fld := ⟨0, 16⟩
def F.PWR_STATE.STATE : Fld := ⟨0, 3⟩
def F.PWR_REQ.REQ : Fld := ⟨0, 32⟩
def F.PWR_WINTER_REQ.REQ : Fld := ⟨0, 32⟩
def F.PWR_REQ_STAT.REFUSED : Fld := ⟨0, 1⟩
def F.PWR_REQ_STAT.LATE : Fld := ⟨1, 1⟩
def F.PWR_REQ_STAT.BAD : Fld := ⟨2, 1⟩
def F.PWR_REQ_STAT.NOACK : Fld := ⟨3, 1⟩
def F.PWR_REQ_STAT.SNAP : Fld := ⟨16, 16⟩
def F.PWR_FORCE.SUPPLY : Fld := ⟨0, 1⟩
def F.PWR_FORCE.THERM_C : Fld := ⟨1, 4⟩
def F.PWR_FORCE.THERM_L : Fld := ⟨5, 2⟩
def F.PWR_FORCE.COUNT : Fld := ⟨16, 8⟩
def F.PWR_WINTER_CFG.GRACE : Fld := ⟨0, 8⟩
def F.PWR_HEEL_ACK.ACK : Fld := ⟨0, 32⟩
def F.PWR_GATE_ENG.GATE : Fld := ⟨0, 32⟩
def F.PWR_GATE_STAT.GATED : Fld := ⟨0, 32⟩
def F.PWR_TEMP_C.TEMP : Fld := ⟨0, 32⟩
def F.PWR_TEMP_X.LARD : Fld := ⟨0, 16⟩
def F.PWR_TEMP_X.SOLE : Fld := ⟨16, 8⟩
def F.PWR_TEMP_X.HEEL : Fld := ⟨24, 8⟩
def F.WAKE_EN.MB : Fld := ⟨0, 4⟩
def F.WAKE_EN.LIN : Fld := ⟨4, 4⟩
def F.WAKE_EN.SWI : Fld := ⟨8, 1⟩
def F.WAKE_EN.PIN : Fld := ⟨9, 4⟩
def F.WAKE_EN.RTC : Fld := ⟨13, 1⟩
def F.WAKE_EN.DBG : Fld := ⟨14, 1⟩
def F.WAKE_PEND.SRC : Fld := ⟨0, 15⟩
def F.WAKE_PEND.BROWNOUT : Fld := ⟨15, 1⟩
def F.WAKE_SRC.SRC : Fld := ⟨0, 16⟩
def F.WAKE_SRC.COLD : Fld := ⟨16, 1⟩
def F.WAKE_SRC.MBF : Fld := ⟨20, 4⟩
def F.WAKE_DETAIL.ID : Fld := ⟨0, 29⟩
def F.WAKE_DETAIL.IDE : Fld := ⟨29, 1⟩
def F.WAKE_DETAIL.KIND : Fld := ⟨30, 2⟩
def F.WAKE_PIN_CFG.PINn : Fld := ⟨0, 16⟩
def F.WAKE_RTC_ALM_LO.ALM : Fld := ⟨0, 32⟩
def F.WAKE_RTC_ALM_HI.ALM : Fld := ⟨0, 16⟩
def F.WAKE_REC_NEXT.IDX : Fld := ⟨0, 6⟩
def F.WAKE_REC_NEXT.COUNT : Fld := ⟨16, 16⟩
def F.INS_STATUS.CHECK_OK : Fld := ⟨0, 1⟩
def F.INS_STATUS.INIT : Fld := ⟨1, 1⟩
def F.INS_STATUS.CE_COUNT : Fld := ⟨8, 8⟩
def F.INS_STATUS.BO_COUNT : Fld := ⟨16, 8⟩
def F.INS_GEN.GEN : Fld := ⟨0, 32⟩
def F.INS_ECC_ADDR.OFFSET : Fld := ⟨0, 16⟩
def F.BOOT_SEL.HEEL : Fld := ⟨0, 1⟩
def F.BOOT_SEL.SOLE : Fld := ⟨1, 1⟩
def F.BOOT_SEL.DIE : Fld := ⟨2, 1⟩
def F.BOOT_ST_CTL.WEN : Fld := ⟨0, 1⟩
def F.BOOT_ST_CTL.BUSY : Fld := ⟨1, 1⟩
def F.BOOT_ST_CTL.SECTOR : Fld := ⟨16, 9⟩
def F.BOOT_ST_CTL.ERASE : Fld := ⟨31, 1⟩
def F.BOOT_HEEL_HANDOVER.ACK : Fld := ⟨0, 32⟩
def F.DBG_STAT.ATTACHED : Fld := ⟨0, 1⟩
def F.DBG_STAT.DETACHED : Fld := ⟨1, 1⟩
def F.DBG_STAT.TAPRST : Fld := ⟨2, 1⟩
def F.DBG_ATTACH_CNT.COUNT : Fld := ⟨0, 32⟩
def F.DBG_CTL.WDHOLD : Fld := ⟨0, 1⟩
def F.DBG_CSEL.CORE : Fld := ⟨0, 4⟩
def F.DBG_CCTL.HALT : Fld := ⟨0, 1⟩
def F.DBG_CCTL.RESUME : Fld := ⟨1, 1⟩
def F.DBG_CCTL.STEP : Fld := ⟨2, 1⟩
def F.DBG_CSTAT.DHALT : Fld := ⟨0, 1⟩
def F.DBG_CSTAT.CAUSE : Fld := ⟨1, 3⟩
def F.DBG_CSTAT.NOTHALTED : Fld := ⟨4, 1⟩
def F.DBG_CREG.NUM : Fld := ⟨0, 13⟩
def F.DBG_CREG.WR : Fld := ⟨31, 1⟩
def F.DBG_CDATA_LO.DATA : Fld := ⟨0, 32⟩
def F.DBG_CDATA_HI.DATA : Fld := ⟨0, 32⟩
def F.HSO_EVT_LO.CH : Fld := ⟨0, 32⟩
def F.HSO_EVT_HI.CH : Fld := ⟨0, 8⟩
def F.HSO_IRQ_EN_LO.EN : Fld := ⟨0, 32⟩
def F.HSO_IRQ_EN_HI.EN : Fld := ⟨0, 8⟩
def F.HSO_CFG.OL_FILT : Fld := ⟨0, 4⟩
def F.HSO_KEEP.K24 : Fld := ⟨0, 2⟩
def F.HSO_KEEP.K25 : Fld := ⟨2, 2⟩
def F.HSO_KEEP.BON : Fld := ⟨8, 8⟩
def F.HSO_KEEP.BPER : Fld := ⟨16, 4⟩
def F.HSO_KEEP_STAT.TRIP : Fld := ⟨0, 2⟩
def F.HSO_KEEP_STAT.ACTIVE : Fld := ⟨8, 2⟩
def F.HSO_CTL.MODE : Fld := ⟨0, 2⟩
def F.HSO_CTL.DUTY : Fld := ⟨4, 11⟩
def F.HSO_CTL.PHASE : Fld := ⟨16, 10⟩
def F.HSO_PER.PERIOD : Fld := ⟨0, 16⟩
def F.HSO_DCFG.ONDIAG : Fld := ⟨0, 1⟩
def F.HSO_DCFG.OFFDIAG : Fld := ⟨1, 1⟩
def F.HSO_DCFG.PROBE_N : Fld := ⟨4, 11⟩
def F.HSO_DCFG.TRIP : Fld := ⟨16, 2⟩
def F.HSO_DCFG.RESTART : Fld := ⟨20, 4⟩
def F.HSO_DCFG.RDLY : Fld := ⟨24, 8⟩
def F.HSO_DIAG.STATE : Fld := ⟨0, 3⟩
def F.HSO_DIAG.PROT : Fld := ⟨4, 3⟩
def F.HSO_DIAG.RESTARTS : Fld := ⟨8, 4⟩
def F.HSO_DIAG.SRC : Fld := ⟨12, 2⟩
def F.HSO_DIAG.AGE : Fld := ⟨16, 16⟩
def F.HSO_CUR.CUR : Fld := ⟨0, 16⟩
def F.HSO_CUR.VALID : Fld := ⟨31, 1⟩
def F.HBR_EVT.HB : Fld := ⟨0, 8⟩
def F.HBR_EVT.PD : Fld := ⟨8, 4⟩
def F.HBR_EVT.PAT : Fld := ⟨12, 4⟩
def F.HBR_IRQ_EN.HB : Fld := ⟨0, 8⟩
def F.HBR_IRQ_EN.PD : Fld := ⟨8, 4⟩
def F.HBR_IRQ_EN.PAT : Fld := ⟨12, 4⟩
def F.HBR_HCTL.MODE : Fld := ⟨0, 3⟩
def F.HBR_HCTL.DUTY : Fld := ⟨4, 11⟩
def F.HBR_HCTL.PHASE : Fld := ⟨16, 10⟩
def F.HBR_HCTL.DT : Fld := ⟨26, 4⟩
def F.HBR_HPER.PERIOD : Fld := ⟨0, 16⟩
def F.HBR_HPER.RDLY : Fld := ⟨16, 8⟩
def F.HBR_HPER.RESTART : Fld := ⟨24, 4⟩
def F.HBR_HPER.TRIP : Fld := ⟨28, 2⟩
def F.HBR_HPER.ONDIAG : Fld := ⟨30, 1⟩
def F.HBR_HDIAG.STATE : Fld := ⟨0, 3⟩
def F.HBR_HDIAG.PROT : Fld := ⟨4, 3⟩
def F.HBR_HDIAG.RESTARTS : Fld := ⟨8, 4⟩
def F.HBR_HDIAG.OWNED : Fld := ⟨12, 1⟩
def F.HBR_HDIAG.AGE : Fld := ⟨16, 16⟩
def F.HBR_HCUR.CUR : Fld := ⟨0, 16⟩
def F.HBR_HCUR.VALID : Fld := ⟨31, 1⟩
def F.HBR_PCTL.MODE : Fld := ⟨0, 3⟩
def F.HBR_PCTL.DUTY : Fld := ⟨4, 11⟩
def F.HBR_PCFG.DT : Fld := ⟨0, 6⟩
def F.HBR_PCFG.IGATE : Fld := ⟨6, 2⟩
def F.HBR_PCFG.VDS_TH : Fld := ⟨8, 2⟩
def F.HBR_PCFG.SHUNT : Fld := ⟨16, 8⟩
def F.HBR_PCFG.OC_LIM : Fld := ⟨24, 8⟩
def F.HBR_PPER.PERIOD : Fld := ⟨0, 16⟩
def F.HBR_PPER.RDLY : Fld := ⟨16, 8⟩
def F.HBR_PPER.RESTART : Fld := ⟨24, 4⟩
def F.HBR_PSTAT.STATE : Fld := ⟨0, 3⟩
def F.HBR_PSTAT.VDS_FET : Fld := ⟨4, 4⟩
def F.HBR_PSTAT.RESTARTS : Fld := ⟨8, 4⟩
def F.HBR_PSTAT.OWNED : Fld := ⟨12, 1⟩
def F.HBR_PCUR.CUR : Fld := ⟨0, 16⟩
def F.HBR_PCUR.VALID : Fld := ⟨31, 1⟩
def F.HBR_PATCFG.KIND : Fld := ⟨0, 1⟩
def F.HBR_PATCFG.A : Fld := ⟨1, 3⟩
def F.HBR_PATCFG.B : Fld := ⟨4, 3⟩
def F.HBR_PATCFG.P : Fld := ⟨8, 2⟩
def F.HBR_PATCFG.NSTEPS : Fld := ⟨12, 2⟩
def F.HBR_PATCFG.STALL : Fld := ⟨16, 12⟩
def F.HBR_PATSTEP.DRIVE : Fld := ⟨0, 2⟩
def F.HBR_PATSTEP.END : Fld := ⟨2, 2⟩
def F.HBR_PATSTEP.LEVEL : Fld := ⟨4, 1⟩
def F.HBR_PATSTEP.SW : Fld := ⟨6, 6⟩
def F.HBR_PATSTEP.DUR : Fld := ⟨16, 12⟩
def F.HBR_PATCTL.START : Fld := ⟨0, 1⟩
def F.HBR_PATCTL.ABORT : Fld := ⟨1, 1⟩
def F.HBR_PATSTAT.STATE : Fld := ⟨0, 3⟩
def F.HBR_PATSTAT.STEP : Fld := ⟨4, 2⟩
def F.HBR_PATSTAT.ELAPSED : Fld := ⟨16, 16⟩
def F.SWI_LVL_LO.LVL : Fld := ⟨0, 32⟩
def F.SWI_LVL_HI.LVL : Fld := ⟨0, 32⟩
def F.SWI_EVT_LO.EVT : Fld := ⟨0, 32⟩
def F.SWI_EVT_HI.EVT : Fld := ⟨0, 32⟩
def F.SWI_IRQ_EN_LO.EN : Fld := ⟨0, 32⟩
def F.SWI_IRQ_EN_HI.EN : Fld := ⟨0, 32⟩
def F.SWI_CYC_LO.CYC : Fld := ⟨0, 32⟩
def F.SWI_CYC_HI.CYC : Fld := ⟨0, 32⟩
def F.SWI_CYC_CFG.PER : Fld := ⟨0, 3⟩
def F.SWI_CYC_CFG.CFILT : Fld := ⟨4, 2⟩
def F.SWI_CYC_REF_LO.REF : Fld := ⟨0, 32⟩
def F.SWI_CYC_REF_HI.REF : Fld := ⟨0, 32⟩
def F.SWI_WCHG_LO.CHG : Fld := ⟨0, 32⟩
def F.SWI_WCHG_HI.CHG : Fld := ⟨0, 32⟩
def F.SWI_CFG.POL : Fld := ⟨0, 1⟩
def F.SWI_CFG.WMODE : Fld := ⟨1, 2⟩
def F.SWI_CFG.WET : Fld := ⟨4, 2⟩
def F.SWI_CFG.THR : Fld := ⟨6, 2⟩
def F.SWI_CFG.FILT : Fld := ⟨8, 4⟩
def F.SWI_CFG.ANA : Fld := ⟨12, 1⟩
def F.SWI_CFG.IRQEDGE : Fld := ⟨13, 2⟩
def F.SWI_ADC.V : Fld := ⟨0, 12⟩
def F.SWI_ADC.VALID : Fld := ⟨31, 1⟩
def F.QDEC_EVT.ERR : Fld := ⟨0, 4⟩
def F.QDEC_EVT.LIVEEDIT : Fld := ⟨4, 4⟩
def F.QDEC_IRQ_EN.ERR : Fld := ⟨0, 4⟩
def F.QDEC_IRQ_EN.LIVEEDIT : Fld := ⟨4, 4⟩
def F.QDEC_CFG.EN : Fld := ⟨0, 1⟩
def F.QDEC_CFG.SAMP : Fld := ⟨1, 2⟩
def F.QDEC_CFG.FILT : Fld := ⟨4, 4⟩
def F.QDEC_CFG.SWAP : Fld := ⟨8, 1⟩
def F.QDEC_CFG.PULL : Fld := ⟨9, 1⟩
def F.QDEC_POS.POS : Fld := ⟨0, 32⟩
def F.QDEC_STAT.DIR : Fld := ⟨0, 1⟩
def F.QDEC_STAT.UNCERTAIN : Fld := ⟨1, 1⟩
def F.QDEC_STAT.REF_VALID : Fld := ⟨2, 1⟩
def F.QDEC_STAT.RETIRED : Fld := ⟨3, 1⟩
def F.QDEC_STAT.ERRCNT : Fld := ⟨8, 8⟩
def F.QDEC_PERIOD.TICKS : Fld := ⟨0, 32⟩
def F.QDEC_REFPOS.REF : Fld := ⟨0, 32⟩
def F.QDEC_CTL.LEARN : Fld := ⟨0, 1⟩
def F.QDEC_CTL.CLRERR : Fld := ⟨1, 1⟩
def F.MBC_CTL.INIT : Fld := ⟨0, 1⟩
def F.MBC_CTL.MODE : Fld := ⟨1, 2⟩
def F.MBC_CTL.DAR : Fld := ⟨3, 1⟩
def F.MBC_CTL.PXHD : Fld := ⟨4, 1⟩
def F.MBC_CTL.ACCNM : Fld := ⟨5, 1⟩
def F.MBC_CTL.RECOVER : Fld := ⟨8, 1⟩
def F.MBC_NBT.BRP : Fld := ⟨0, 5⟩
def F.MBC_NBT.TSEG1 : Fld := ⟨5, 8⟩
def F.MBC_NBT.TSEG2 : Fld := ⟨13, 7⟩
def F.MBC_NBT.SJW : Fld := ⟨20, 7⟩
def F.MBC_DBT.BRP : Fld := ⟨0, 5⟩
def F.MBC_DBT.TSEG1 : Fld := ⟨5, 5⟩
def F.MBC_DBT.TSEG2 : Fld := ⟨10, 4⟩
def F.MBC_DBT.SJW : Fld := ⟨14, 4⟩
def F.MBC_DBT.TDC : Fld := ⟨18, 1⟩
def F.MBC_DBT.TDCO : Fld := ⟨19, 7⟩
def F.MBC_STAT.STATE : Fld := ⟨0, 2⟩
def F.MBC_STAT.ACT : Fld := ⟨2, 2⟩
def F.MBC_STAT.ALONE : Fld := ⟨4, 1⟩
def F.MBC_STAT.RETIRED : Fld := ⟨5, 1⟩
def F.MBC_STAT.LEC : Fld := ⟨8, 3⟩
def F.MBC_STAT.DLEC : Fld := ⟨12, 3⟩
def F.MBC_STAT.TDCV : Fld := ⟨16, 7⟩
def F.MBC_STAT.ACKRUN : Fld := ⟨24, 5⟩
def F.MBC_STAT.PXE : Fld := ⟨29, 1⟩
def F.MBC_STAT.RAMCE : Fld := ⟨30, 1⟩
def F.MBC_ECNT.TEC : Fld := ⟨0, 9⟩
def F.MBC_ECNT.REC : Fld := ⟨16, 8⟩
def F.MBC_EVT.RXF : Fld := ⟨0, 1⟩
def F.MBC_EVT.RXLOST : Fld := ⟨1, 1⟩
def F.MBC_EVT.PTRX : Fld := ⟨2, 1⟩
def F.MBC_EVT.TXDONE : Fld := ⟨3, 1⟩
def F.MBC_EVT.TXFAIL : Fld := ⟨4, 1⟩
def F.MBC_EVT.EWARN : Fld := ⟨5, 1⟩
def F.MBC_EVT.EPASS : Fld := ⟨6, 1⟩
def F.MBC_EVT.BUSOFF : Fld := ⟨7, 1⟩
def F.MBC_EVT.RECOVERED : Fld := ⟨8, 1⟩
def F.MBC_EVT.ALONE : Fld := ⟨9, 1⟩
def F.MBC_EVT.LAST : Fld := ⟨10, 1⟩
def F.MBC_EVT.CFGERR : Fld := ⟨11, 1⟩
def F.MBC_EVT.LIVEEDIT : Fld := ⟨12, 1⟩
def F.MBC_IRQ_EN.RXF : Fld := ⟨0, 1⟩
def F.MBC_IRQ_EN.RXLOST : Fld := ⟨1, 1⟩
def F.MBC_IRQ_EN.PTRX : Fld := ⟨2, 1⟩
def F.MBC_IRQ_EN.TXDONE : Fld := ⟨3, 1⟩
def F.MBC_IRQ_EN.TXFAIL : Fld := ⟨4, 1⟩
def F.MBC_IRQ_EN.EWARN : Fld := ⟨5, 1⟩
def F.MBC_IRQ_EN.EPASS : Fld := ⟨6, 1⟩
def F.MBC_IRQ_EN.BUSOFF : Fld := ⟨7, 1⟩
def F.MBC_IRQ_EN.RECOVERED : Fld := ⟨8, 1⟩
def F.MBC_IRQ_EN.ALONE : Fld := ⟨9, 1⟩
def F.MBC_IRQ_EN.LAST : Fld := ⟨10, 1⟩
def F.MBC_IRQ_EN.CFGERR : Fld := ⟨11, 1⟩
def F.MBC_IRQ_EN.LIVEEDIT : Fld := ⟨12, 1⟩
def F.MBC_TXREQ.REQ : Fld := ⟨0, 32⟩
def F.MBC_TXCAN.CAN : Fld := ⟨0, 32⟩
def F.MBC_TXDONE.DONE : Fld := ⟨0, 32⟩
def F.MBC_FAIL_INFO.BUF : Fld := ⟨0, 6⟩
def F.MBC_FAIL_INFO.CAUSE : Fld := ⟨8, 4⟩
def F.MBC_FAIL_INFO.ROW : Fld := ⟨12, 6⟩
def F.MBC_FAIL_INFO.SLOT : Fld := ⟨18, 5⟩
def F.MBC_FAIL_INFO.VALID : Fld := ⟨31, 1⟩
def F.MBC_FAIL_STAMP_LO.DTB : Fld := ⟨0, 32⟩
def F.MBC_FAIL_STAMP_HI.DTB : Fld := ⟨0, 32⟩
def F.MBC_FAIL_POP.POP : Fld := ⟨0, 32⟩
def F.MBC_FAIL_STAT.COUNT : Fld := ⟨0, 5⟩
def F.MBC_FAIL_STAT.LOST : Fld := ⟨8, 8⟩
def F.MBC_RXF_STAT.FILL : Fld := ⟨0, 6⟩
def F.MBC_RXF_STAT.GET : Fld := ⟨8, 6⟩
def F.MBC_RXF_STAT.LOST : Fld := ⟨16, 8⟩
def F.MBC_RXF_ACK.ACK : Fld := ⟨0, 32⟩
def F.MBC_PT_STAT.PTX_BUSY : Fld := ⟨0, 1⟩
def F.MBC_PT_STAT.PTX_RES : Fld := ⟨1, 4⟩
def F.MBC_PT_STAT.PTRX_FILL : Fld := ⟨8, 5⟩
def F.MBC_PT_STAT.PTRX_LOST : Fld := ⟨16, 8⟩
def F.MBC_RXCNT.COUNT : Fld := ⟨0, 32⟩
def F.MBC_TXCNT.COUNT : Fld := ⟨0, 32⟩
def F.MBC_XCVR.STB : Fld := ⟨0, 1⟩
def F.MBC_FLT_ID.ID : Fld := ⟨0, 29⟩
def F.MBC_FLT_ID.IDE : Fld := ⟨29, 1⟩
def F.MBC_FLT_ID.ACT : Fld := ⟨30, 2⟩
def F.MBC_FLT_MASK.MASK : Fld := ⟨0, 29⟩
def F.LAST_CTL.RUN : Fld := ⟨0, 1⟩
def F.LAST_CTL.MODE : Fld := ⟨1, 2⟩
def F.LAST_CFG.CYCLES : Fld := ⟨0, 6⟩
def F.LAST_CFG.SLOTS : Fld := ⟨8, 5⟩
def F.LAST_CFG.REF_BUF : Fld := ⟨16, 5⟩
def F.LAST_CFG.REFTMO : Fld := ⟨24, 8⟩
def F.LAST_LEN.LEN : Fld := ⟨0, 16⟩
def F.LAST_START_LO.START : Fld := ⟨0, 32⟩
def F.LAST_START_HI.START : Fld := ⟨0, 32⟩
def F.LAST_REF.ID : Fld := ⟨0, 29⟩
def F.LAST_REF.IDE : Fld := ⟨29, 1⟩
def F.LAST_STAT.STATE : Fld := ⟨0, 3⟩
def F.LAST_STAT.ROW : Fld := ⟨8, 6⟩
def F.LAST_STAT.SLOT : Fld := ⟨16, 5⟩
def F.LAST_STAT.CODE : Fld := ⟨24, 4⟩
def F.LAST_EVT.MISSED : Fld := ⟨1, 1⟩
def F.LAST_EVT.REFLOST : Fld := ⟨2, 1⟩
def F.LAST_EVT.REFOK : Fld := ⟨3, 1⟩
def F.LAST_EVT.REFUSED : Fld := ⟨4, 1⟩
def F.LAST_EVT.LIVEEDIT : Fld := ⟨5, 1⟩
def F.LAST_CNT.CYC : Fld := ⟨0, 16⟩
def F.LAST_CNT.MISSED : Fld := ⟨16, 8⟩
def F.LAST_CNT.SKIP : Fld := ⟨24, 8⟩
def F.LAST_SLOT.OFFSET : Fld := ⟨0, 16⟩
def F.LAST_SLOT.WIN : Fld := ⟨16, 16⟩
def F.LAST_CELL.TYPE0 : Fld := ⟨0, 2⟩
def F.LAST_CELL.BUF0 : Fld := ⟨2, 5⟩
def F.LAST_CELL.NAMED0 : Fld := ⟨7, 1⟩
def F.LAST_CELL.TYPE1 : Fld := ⟨16, 2⟩
def F.LAST_CELL.BUF1 : Fld := ⟨18, 5⟩
def F.LAST_CELL.NAMED1 : Fld := ⟨23, 1⟩
def F.LIN_CTL.EN : Fld := ⟨0, 1⟩
def F.LIN_CTL.MODE : Fld := ⟨1, 2⟩
def F.LIN_CTL.AUTOSYNC : Fld := ⟨3, 1⟩
def F.LIN_CTL.BRKLEN : Fld := ⟨4, 4⟩
def F.LIN_CTL.DELIM : Fld := ⟨8, 2⟩
def F.LIN_CTL.PAR : Fld := ⟨10, 2⟩
def F.LIN_CTL.STOP2 : Fld := ⟨12, 1⟩
def F.LIN_BAUD.DIV : Fld := ⟨0, 16⟩
def F.LIN_STAT.STATE : Fld := ⟨0, 3⟩
def F.LIN_STAT.RETIRED : Fld := ⟨3, 1⟩
def F.LIN_STAT.MDIV : Fld := ⟨16, 16⟩
def F.LIN_EVT.RXF : Fld := ⟨0, 1⟩
def F.LIN_EVT.RXLOST : Fld := ⟨1, 1⟩
def F.LIN_EVT.TXDONE : Fld := ⟨2, 1⟩
def F.LIN_EVT.ERR : Fld := ⟨3, 1⟩
def F.LIN_EVT.UART_RX : Fld := ⟨4, 1⟩
def F.LIN_EVT.UART_TXE : Fld := ⟨5, 1⟩
def F.LIN_EVT.DOMTO : Fld := ⟨6, 1⟩
def F.LIN_EVT.HDRBUSY : Fld := ⟨7, 1⟩
def F.LIN_EVT.CFGERR : Fld := ⟨8, 1⟩
def F.LIN_IRQ_EN.RXF : Fld := ⟨0, 1⟩
def F.LIN_IRQ_EN.RXLOST : Fld := ⟨1, 1⟩
def F.LIN_IRQ_EN.TXDONE : Fld := ⟨2, 1⟩
def F.LIN_IRQ_EN.ERR : Fld := ⟨3, 1⟩
def F.LIN_IRQ_EN.UART_RX : Fld := ⟨4, 1⟩
def F.LIN_IRQ_EN.UART_TXE : Fld := ⟨5, 1⟩
def F.LIN_IRQ_EN.DOMTO : Fld := ⟨6, 1⟩
def F.LIN_IRQ_EN.HDRBUSY : Fld := ⟨7, 1⟩
def F.LIN_IRQ_EN.CFGERR : Fld := ⟨8, 1⟩
def F.LIN_HDR.ID : Fld := ⟨0, 6⟩
def F.LIN_WUTX.SEND : Fld := ⟨0, 1⟩
def F.LIN_WUTX.DUR : Fld := ⟨8, 8⟩
def F.LIN_RQ_INFO.PID : Fld := ⟨0, 8⟩
def F.LIN_RQ_INFO.LEN : Fld := ⟨8, 4⟩
def F.LIN_RQ_INFO.STATUS : Fld := ⟨16, 4⟩
def F.LIN_RQ_INFO.VALID : Fld := ⟨31, 1⟩
def F.LIN_RQ_DATA_LO.DATA : Fld := ⟨0, 32⟩
def F.LIN_RQ_DATA_HI.DATA : Fld := ⟨0, 32⟩
def F.LIN_RQ_STAMP_LO.DTB : Fld := ⟨0, 32⟩
def F.LIN_RQ_STAMP_HI.DTB : Fld := ⟨0, 32⟩
def F.LIN_RQ_POP.POP : Fld := ⟨0, 32⟩
def F.LIN_RQ_STAT.COUNT : Fld := ⟨0, 5⟩
def F.LIN_RQ_STAT.LOST : Fld := ⟨8, 8⟩
def F.LIN_CNT.OK : Fld := ⟨0, 16⟩
def F.LIN_CNT.ERR : Fld := ⟨16, 16⟩
def F.LIN_UART_TX.DATA : Fld := ⟨0, 8⟩
def F.LIN_UART_RX.DATA : Fld := ⟨0, 8⟩
def F.LIN_UART_RX.FE : Fld := ⟨8, 1⟩
def F.LIN_UART_RX.PE : Fld := ⟨9, 1⟩
def F.LIN_UART_RX.VALID : Fld := ⟨31, 1⟩
def F.LIN_UART_STAT.TXFREE : Fld := ⟨0, 5⟩
def F.LIN_UART_STAT.RXCOUNT : Fld := ⟨8, 5⟩
def F.LIN_UART_STAT.OVR : Fld := ⟨16, 1⟩
def F.LIN_XCVR.MODE : Fld := ⟨0, 2⟩
def F.LIN_XCVR.SLOPE : Fld := ⟨2, 2⟩
def F.LIN_XCVR.SLP : Fld := ⟨4, 1⟩
def F.LIN_PT_STAT.FILL : Fld := ⟨0, 4⟩
def F.LIN_PT_STAT.LOST : Fld := ⟨8, 8⟩
def F.LIN_RESP.ACT : Fld := ⟨0, 2⟩
def F.LIN_RESP.CSUM : Fld := ⟨2, 1⟩
def F.LIN_RESP.PT : Fld := ⟨3, 1⟩
def F.LIN_RESP.LEN : Fld := ⟨4, 4⟩
def F.LIN_RESP.ONCE : Fld := ⟨8, 1⟩
def F.LIN_DATA_LO.DATA : Fld := ⟨0, 32⟩
def F.LIN_DATA_HI.DATA : Fld := ⟨0, 32⟩
def F.WAKE_XCFG.MODE : Fld := ⟨0, 2⟩
def F.WAKE_XCFG.SWEN : Fld := ⟨4, 1⟩
def F.WAKE_XCFG.FDTOL : Fld := ⟨5, 1⟩
def F.WAKE_XCFG.RATE : Fld := ⟨6, 2⟩
def F.WAKE_XCFG.TWAKE : Fld := ⟨8, 1⟩
def F.WAKE_XCFG.DMATCH : Fld := ⟨9, 1⟩
def F.WAKE_XCFG.DLC : Fld := ⟨12, 4⟩
def F.WAKE_SWID.ID : Fld := ⟨0, 29⟩
def F.WAKE_SWID.IDE : Fld := ⟨29, 1⟩
def F.WAKE_SWMASK.MASK : Fld := ⟨0, 29⟩
def F.WAKE_SWDATA_LO.DMASK : Fld := ⟨0, 32⟩
def F.WAKE_SWDATA_HI.DMASK : Fld := ⟨0, 32⟩
def F.WAKE_XSTAT.STATE : Fld := ⟨0, 3⟩
def F.WAKE_XSTAT.DOMTO : Fld := ⟨3, 1⟩
def F.WAKE_XSTAT.FEC : Fld := ⟨8, 6⟩
def F.WAKE_XSTAT.LASTWK : Fld := ⟨16, 2⟩
def F.WAKE_XSTAT.FDSEEN : Fld := ⟨18, 1⟩
def F.WAKE_SWCNT.FRAMES : Fld := ⟨0, 16⟩
def F.WAKE_SWCNT.ERRORS : Fld := ⟨16, 8⟩
def F.WAKE_SWCNT.ENTRIES : Fld := ⟨24, 8⟩
def F.WAKE_SWTIME.TICKS : Fld := ⟨0, 32⟩
def F.WAKE_SWCAP_ID.ID : Fld := ⟨0, 29⟩
def F.WAKE_SWCAP_ID.IDE : Fld := ⟨29, 1⟩
def F.WAKE_SWCAP_ID.VALID : Fld := ⟨31, 1⟩
def F.WAKE_SWCAP_LO.DATA : Fld := ⟨0, 32⟩
def F.WAKE_SWCAP_HI.DATA : Fld := ⟨0, 32⟩
def F.WAKE_SWCAP_DLC.DLC : Fld := ⟨0, 4⟩
def F.WAKE_LCFG.LWFILT : Fld := ⟨0, 8⟩
def F.ANG_CTL.EN : Fld := ⟨0, 1⟩
def F.ANG_CTL.CYCLE : Fld := ⟨1, 1⟩
def F.ANG_CTL.DIRMODE : Fld := ⟨2, 1⟩
def F.ANG_CTL.PRED : Fld := ⟨3, 1⟩
def F.ANG_CTL.CRKEDGE : Fld := ⟨4, 1⟩
def F.ANG_CTL.CAMPOL : Fld := ⟨5, 1⟩
def F.ANG_CTL.FILT : Fld := ⟨8, 8⟩
def F.ANG_WHEEL.TEETH : Fld := ⟨0, 7⟩
def F.ANG_WHEEL.GAP : Fld := ⟨8, 2⟩
def F.ANG_WHEEL.GLO : Fld := ⟨16, 8⟩
def F.ANG_WHEEL.GHI : Fld := ⟨24, 8⟩
def F.ANG_CONF.FWDN : Fld := ⟨0, 7⟩
def F.ANG_CONF.DIRTH : Fld := ⟨8, 8⟩
def F.ANG_CONF.STALL : Fld := ⟨16, 8⟩
def F.ANG_OUTPOL.POL : Fld := ⟨0, 12⟩
def F.ANG_STAT.STATE : Fld := ⟨0, 3⟩
def F.ANG_STAT.REV : Fld := ⟨3, 1⟩
def F.ANG_STAT.DIR : Fld := ⟨4, 1⟩
def F.ANG_STAT.TOOTH : Fld := ⟨8, 7⟩
def F.ANG_STAT.FWDCNT : Fld := ⟨16, 7⟩
def F.ANG_ANGLE.ANGLE : Fld := ⟨0, 14⟩
def F.ANG_ANGLE.VALID : Fld := ⟨31, 1⟩
def F.ANG_PERIOD.T : Fld := ⟨0, 32⟩
def F.ANG_TSTAMP_LO.DTB : Fld := ⟨0, 32⟩
def F.ANG_TSTAMP_HI.DTB : Fld := ⟨0, 32⟩
def F.ANG_EVT.SYNC : Fld := ⟨0, 1⟩
def F.ANG_EVT.LEFT : Fld := ⟨1, 1⟩
def F.ANG_EVT.REVERSE : Fld := ⟨2, 1⟩
def F.ANG_EVT.CONFIRMED : Fld := ⟨3, 1⟩
def F.ANG_EVT.STALL : Fld := ⟨4, 1⟩
def F.ANG_EVT.GAPERR : Fld := ⟨5, 1⟩
def F.ANG_EVT.CAMERR : Fld := ⟨6, 1⟩
def F.ANG_EVT.CHAN : Fld := ⟨7, 1⟩
def F.ANG_EVT.LIVEEDIT : Fld := ⟨8, 1⟩
def F.ANG_IRQ_EN.SYNC : Fld := ⟨0, 1⟩
def F.ANG_IRQ_EN.LEFT : Fld := ⟨1, 1⟩
def F.ANG_IRQ_EN.REVERSE : Fld := ⟨2, 1⟩
def F.ANG_IRQ_EN.CONFIRMED : Fld := ⟨3, 1⟩
def F.ANG_IRQ_EN.STALL : Fld := ⟨4, 1⟩
def F.ANG_IRQ_EN.GAPERR : Fld := ⟨5, 1⟩
def F.ANG_IRQ_EN.CAMERR : Fld := ⟨6, 1⟩
def F.ANG_IRQ_EN.CHAN : Fld := ⟨7, 1⟩
def F.ANG_IRQ_EN.LIVEEDIT : Fld := ⟨8, 1⟩
def F.ANG_DONE.CH : Fld := ⟨0, 24⟩
def F.ANG_CANCEL.CH : Fld := ⟨0, 24⟩
def F.ANG_BLOCK.CAUSE : Fld := ⟨0, 3⟩
def F.ANG_BLOCK.COUNT : Fld := ⟨8, 8⟩
def F.ANG_BLOCK.REVCNT : Fld := ⟨16, 8⟩
def F.ANG_OUT.LEVEL : Fld := ⟨0, 12⟩
def F.ANG_CHCFG.EN : Fld := ⟨0, 1⟩
def F.ANG_CHCFG.MODE : Fld := ⟨1, 2⟩
def F.ANG_CHCFG.REPEAT : Fld := ⟨3, 1⟩
def F.ANG_CHCFG.ROUTE : Fld := ⟨4, 4⟩
def F.ANG_CHCFG.SAMP : Fld := ⟨8, 1⟩
def F.ANG_CHCFG.SW : Fld := ⟨9, 6⟩
def F.ANG_CHCFG.MINON : Fld := ⟨16, 8⟩
def F.ANG_CHANG.START : Fld := ⟨0, 16⟩
def F.ANG_CHANG.END : Fld := ⟨16, 16⟩
def F.ANG_CHDUR.DUR : Fld := ⟨0, 24⟩
def F.ANG_CHSTAT.STATE : Fld := ⟨0, 2⟩
def F.ANG_CHSTAT.LAST : Fld := ⟨4, 3⟩
def F.ANG_CHSTAT.CAUSE : Fld := ⟨8, 3⟩
def F.ANG_CHPRED.DTB : Fld := ⟨0, 32⟩
def F.ANG_CHSTAMP.DTB : Fld := ⟨0, 32⟩
def F.ANG_CHSAMP.V : Fld := ⟨0, 12⟩
def F.ANG_CHSAMP.VALID : Fld := ⟨31, 1⟩
def F.ENG_IRQ_ROUTE.CORE : Fld := ⟨0, 4⟩
def F.ENG_IRQ_ROUTE.LINE : Fld := ⟨4, 5⟩
def F.ENG_IRQ_PEND.ERR : Fld := ⟨0, 4⟩
def F.ENG_IRQ_PEND.USER : Fld := ⟨4, 4⟩
def F.ENG_QRING_LO.BASE : Fld := ⟨0, 32⟩
def F.ENG_QRING_HI.BASE : Fld := ⟨0, 16⟩
def F.ENG_QCFG.SIZE : Fld := ⟨0, 4⟩
def F.ENG_QCFG.PRIO : Fld := ⟨4, 2⟩
def F.ENG_QCFG.HCLASS : Fld := ⟨8, 4⟩
def F.ENG_QDB.TAIL : Fld := ⟨0, 16⟩
def F.ENG_QPTR.HEAD : Fld := ⟨0, 16⟩
def F.ENG_QPTR.TAIL : Fld := ⟨16, 16⟩
def F.ENG_QSTAT.STATE : Fld := ⟨0, 3⟩
def F.ENG_QSTAT.OVF : Fld := ⟨8, 1⟩
def F.ENG_QSTAT.REVSEEN : Fld := ⟨9, 1⟩
def F.ENG_QSTAT.LIVEEDIT : Fld := ⟨10, 1⟩
def F.ENG_QSTAT.BACK : Fld := ⟨11, 1⟩
def F.ENG_QSTAT.PRODUCERS : Fld := ⟨12, 4⟩
def F.ENG_QSTAT.SOFTERR : Fld := ⟨16, 8⟩
def F.ENG_QCTL.RESUME : Fld := ⟨0, 1⟩
def F.ENG_QCTL.RETRY : Fld := ⟨1, 1⟩
def F.ENG_QCTL.CANCEL : Fld := ⟨2, 1⟩
def F.ENG_QCTL.RELHOLDS : Fld := ⟨3, 1⟩
def F.ENG_QERR.STATUS : Fld := ⟨0, 8⟩
def F.ENG_QERR.REASON : Fld := ⟨8, 4⟩
def F.ENG_QERR.OPCODE : Fld := ⟨16, 8⟩
def F.ENG_QERR.VALID : Fld := ⟨31, 1⟩
def F.ENG_QERR_ADDR_LO.ADDR : Fld := ⟨0, 32⟩
def F.ENG_QERR_ADDR_HI.ADDR : Fld := ⟨0, 16⟩
def F.ENG_QERR_ADDR_HI.TAG : Fld := ⟨16, 16⟩
def F.ENG_QCUR_LO.ADDR : Fld := ⟨0, 32⟩
def F.ENG_QCUR_HI.ADDR : Fld := ⟨0, 16⟩
def F.CUBE_QSTAT.LIVE : Fld := ⟨0, 4⟩
def F.CUBE_QSTAT.SPARE : Fld := ⟨4, 4⟩
def F.CUBE_QSTAT.BUSY : Fld := ⟨8, 4⟩
def F.CUBE_QSTAT.OWNER : Fld := ⟨16, 8⟩
def F.CUBE_STAT.ISAT : Fld := ⟨0, 1⟩
def F.CUBE_STAT.OSAT : Fld := ⟨1, 1⟩
def F.CUBE_STAT.FOVF : Fld := ⟨2, 1⟩
def F.CUBE_STAT.NAN : Fld := ⟨3, 1⟩
def F.CUBE_RETRY.COUNT : Fld := ⟨0, 32⟩
def F.CUBE_STEPS_LO.STEPS : Fld := ⟨0, 32⟩
def F.CUBE_STEPS_HI.STEPS : Fld := ⟨0, 32⟩
def F.CUBE_DQ_BASE_LO.BASE : Fld := ⟨0, 32⟩
def F.CUBE_DQ_BASE_HI.BASE : Fld := ⟨0, 16⟩
def F.CUBE_DQ_CFG.SIZE : Fld := ⟨0, 4⟩
def F.CUBE_DQ_TAIL.TAIL : Fld := ⟨0, 16⟩
def F.CUBE_DQ_PTR.HEAD : Fld := ⟨0, 16⟩
def F.CUBE_DQ_PTR.TAIL : Fld := ⟨16, 16⟩
def F.CUBE_DQ_STAT.OVF : Fld := ⟨0, 1⟩
def F.CUBE_DQ_STAT.LIVEEDIT : Fld := ⟨1, 1⟩
def F.CUBE_DQ_STAT.BACK : Fld := ⟨2, 1⟩
def F.CUBE_DQ_STAT.LAST_COUNT : Fld := ⟨8, 7⟩
def F.CUBE_DQ_STAT.BADH : Fld := ⟨16, 8⟩
def F.STR_CFG.CHAIN : Fld := ⟨0, 1⟩
def F.STR_CFG.ERRIRQ : Fld := ⟨1, 1⟩
def F.STR_STAT.STATE : Fld := ⟨0, 3⟩
def F.STR_STAT.NEXT : Fld := ⟨3, 1⟩
def F.STR_STAT.STATUS : Fld := ⟨4, 4⟩
def F.STR_STAT.REASON : Fld := ⟨8, 4⟩
def F.STR_STAT.QUEUE : Fld := ⟨12, 2⟩
def F.STR_STAT.TENSOR : Fld := ⟨14, 1⟩
def F.STR_STAT.ROW : Fld := ⟨15, 1⟩
def F.STR_CTL.CANCEL : Fld := ⟨0, 1⟩
def F.STR_PC_LO.ADDR : Fld := ⟨0, 32⟩
def F.STR_PC_HI.ADDR : Fld := ⟨0, 16⟩
def F.STR_ERR_ADDR_LO.ADDR : Fld := ⟨0, 32⟩
def F.STR_ERR_ADDR_HI.ADDR : Fld := ⟨0, 16⟩
def F.STR_DROPPED.COUNT : Fld := ⟨0, 16⟩
def F.STR_LINES_LO.LINES : Fld := ⟨0, 32⟩
def F.STR_LINES_HI.LINES : Fld := ⟨0, 32⟩
def F.TRN_PSTAT.STATE : Fld := ⟨0, 3⟩
def F.TRN_PSTAT.QUEUE : Fld := ⟨4, 2⟩
def F.TRN_PSTAT.MBI : Fld := ⟨8, 8⟩
def F.TRN_PSTAT.XFER : Fld := ⟨16, 8⟩
def F.TRN_PSTAT.XBUSY : Fld := ⟨24, 1⟩
def F.TRN_PSTAT.XDIR : Fld := ⟨25, 1⟩
def F.TRN_PCOUNT.FWD : Fld := ⟨0, 8⟩
def F.TRN_PCOUNT.BWD : Fld := ⟨8, 8⟩
def F.TRN_PCOUNT.OFF : Fld := ⟨16, 8⟩
def F.TRN_PCOUNT.PF : Fld := ⟨24, 8⟩
def F.TRN_PWAIT_SLOT.TICKS : Fld := ⟨0, 32⟩
def F.TRN_PWAIT_PF.TICKS : Fld := ⟨0, 32⟩
def F.CUBE_LIVE.QUARTER : Fld := ⟨0, 32⟩
def F.FAB_STAT.STATE : Fld := ⟨0, 24⟩
def F.FAB_EVT.LOADED : Fld := ⟨0, 8⟩
def F.FAB_EVT.FAILED : Fld := ⟨8, 8⟩
def F.FAB_EVT.CONFIG : Fld := ⟨16, 8⟩
def F.FAB_IO_OWN.OWNER : Fld := ⟨0, 32⟩
def F.FAB_IO_IN.LEVEL : Fld := ⟨0, 32⟩
def F.FAB_RINFO.INDEX : Fld := ⟨0, 6⟩
def F.FAB_RINFO.VALID : Fld := ⟨7, 1⟩
def F.FAB_RINFO.FI : Fld := ⟨16, 16⟩
def F.FAB_RSTAT.CAUSE : Fld := ⟨0, 4⟩
def F.FAB_RSTAT.FUNC : Fld := ⟨8, 8⟩
def F.FAB_RSTAT.BUSY : Fld := ⟨16, 1⟩
def F.FAB_RSTAT.ENGINE : Fld := ⟨17, 3⟩
def F.FAB_RSTAT.QUEUE : Fld := ⟨20, 2⟩
def F.FAB_FCODE.CODE : Fld := ⟨0, 32⟩
def F.FAB_RCTL.RESTART : Fld := ⟨0, 1⟩
def F.FAB_RCTL.EMPTY : Fld := ⟨1, 1⟩
def F.FAB_CFG_CE.COUNT : Fld := ⟨0, 16⟩
def F.LACE_PHY_CFG.RATES : Fld := ⟨0, 4⟩
def F.LACE_PHY_CFG.FEL_ALLOW : Fld := ⟨8, 1⟩
def F.LACE_PHY_CFG.CONT : Fld := ⟨9, 1⟩
def F.LACE_PHY_CFG.TMO : Fld := ⟨16, 8⟩
def F.LACE_PHY_STAT.RATE : Fld := ⟨0, 3⟩
def F.LACE_PHY_STAT.REVERSED : Fld := ⟨3, 1⟩
def F.LACE_PHY_STAT.LOCKED : Fld := ⟨4, 4⟩
def F.LACE_PHY_STAT.ACTIVE : Fld := ⟨8, 4⟩
def F.LACE_PHY_EVT.LOCKLOST : Fld := ⟨0, 4⟩
def F.LACE_PHY_EVT.EXIT_FAIL : Fld := ⟨4, 4⟩
def F.LACE_PHY_EVT.TRAIN_FAIL : Fld := ⟨8, 4⟩
def F.LACE_PHY_EVT.TRAIN_DONE : Fld := ⟨12, 1⟩
def F.LACE_PHY_EVT.MISWIRE : Fld := ⟨13, 1⟩
def F.LACE_PHY_EVT.NORATE : Fld := ⟨14, 1⟩
def F.LACE_PHY_EVT.TAPSUM : Fld := ⟨15, 1⟩
def F.LACE_PHY_EVT.TAPSUM_LANE : Fld := ⟨16, 2⟩
def F.LACE_PHY_EVT.TEST_REFUSED : Fld := ⟨18, 1⟩
def F.LACE_PHY_EVT.FEL_IGNORED : Fld := ⟨19, 1⟩
def F.LACE_PEER.PKG : Fld := ⟨0, 8⟩
def F.LACE_PEER.LINK : Fld := ⟨8, 6⟩
def F.LACE_PEER.RATES : Fld := ⟨16, 4⟩
def F.LACE_PEER.WARDEN : Fld := ⟨20, 1⟩
def F.LACE_PEER.FEL_ALLOW : Fld := ⟨21, 1⟩
def F.LACE_PEER.VALID : Fld := ⟨31, 1⟩
def F.LACE_TEST.MODE : Fld := ⟨0, 3⟩
def F.LACE_TEST.PATTERN : Fld := ⟨4, 3⟩
def F.LACE_TEST.LPB : Fld := ⟨7, 1⟩
def F.LACE_TEST.LANES : Fld := ⟨8, 4⟩
def F.LACE_TEST.RATE : Fld := ⟨12, 2⟩
def F.LACE_TEST_PAT.PAT : Fld := ⟨0, 20⟩
def F.LACE_EXITS.FAST : Fld := ⟨0, 24⟩
def F.LACE_EXITS.FALSE : Fld := ⟨24, 8⟩
def F.LACE_TX.PRE : Fld := ⟨0, 4⟩
def F.LACE_TX.MAIN : Fld := ⟨8, 6⟩
def F.LACE_TX.POST : Fld := ⟨16, 5⟩
def F.LACE_TX.SWING : Fld := ⟨24, 2⟩
def F.LACE_RX.CTLE : Fld := ⟨0, 4⟩
def F.LACE_RX.FIXED : Fld := ⟨4, 1⟩
def F.LACE_DFE.TAPS : Fld := ⟨0, 30⟩
def F.LACE_LNSTAT.STATE : Fld := ⟨0, 4⟩
def F.LACE_LNSTAT.LOGICAL : Fld := ⟨4, 2⟩
def F.LACE_LNSTAT.LOCK : Fld := ⟨6, 1⟩
def F.LACE_LNSTAT.POLINV : Fld := ⟨7, 1⟩
def F.LACE_LNSTAT.PRBS_SYNC : Fld := ⟨8, 1⟩
def F.LACE_SYMERR.CV : Fld := ⟨0, 16⟩
def F.LACE_SYMERR.DISP : Fld := ⟨16, 16⟩
def F.LACE_PRBS_ERR.ERRORS : Fld := ⟨0, 32⟩
def F.LACE_PRBS_BITS_LO.BITS : Fld := ⟨0, 32⟩
def F.LACE_PRBS_BITS_HI.BITS : Fld := ⟨0, 32⟩
def F.LACE_LCFG.EN : Fld := ⟨0, 1⟩
def F.LACE_LCFG.WARDEN_PREF : Fld := ⟨1, 1⟩
def F.LACE_LCFG.EXPECT_EN : Fld := ⟨2, 1⟩
def F.LACE_LCFG.MINW : Fld := ⟨4, 3⟩
def F.LACE_LCFG.EXPECT : Fld := ⟨8, 8⟩
def F.LACE_LCFG.IDLE_AFTER : Fld := ⟨16, 8⟩
def F.LACE_LCFG.RTO : Fld := ⟨24, 8⟩
def F.LACE_LCTL.RETRAIN : Fld := ⟨0, 1⟩
def F.LACE_LCTL.SWAP : Fld := ⟨1, 1⟩
def F.LACE_LCTL.RETIRE : Fld := ⟨2, 1⟩
def F.LACE_LCTL.READMIT : Fld := ⟨3, 1⟩
def F.LACE_LSTAT.STATE : Fld := ⟨0, 3⟩
def F.LACE_LSTAT.WARDEN : Fld := ⟨3, 1⟩
def F.LACE_LSTAT.WIDTH : Fld := ⟨4, 3⟩
def F.LACE_LSTAT.SWAP : Fld := ⟨8, 2⟩
def F.LACE_LSTAT.CAUSE : Fld := ⟨16, 4⟩
def F.LACE_LEVT.UP : Fld := ⟨0, 1⟩
def F.LACE_LEVT.DOWN : Fld := ⟨1, 1⟩
def F.LACE_LEVT.SWAP_DONE : Fld := ⟨2, 1⟩
def F.LACE_LEVT.RETRAINED : Fld := ⟨3, 1⟩
def F.LACE_LCNT.REPLAYS : Fld := ⟨0, 16⟩
def F.LACE_LCNT.RETRAINS : Fld := ⟨16, 8⟩

/-- Guard control block of die code c: 0 Sole, 1 Heel, 8 + d compute die d (08_memory.md "Registers"). -/
def grdBase (c : Nat) : Nat := if c = 0 then 0x10007000 else if c = 1 then 0x20006000 else 0x080000007000 + 0x10000000 * (c - 8)
/-- Guard region tables of die code c. -/
def grdTable (c : Nat) : Nat := if c = 0 then 0x10010000 else if c = 1 then 0x20008000 else 0x080000010000 + 0x10000000 * (c - 8)
/-- NOC block of die code c (09_network.md "Registers"). -/
def nocBase (c : Nat) : Nat := if c = 0 then 0x10008000 else 0x080000008000 + 0x10000000 * (c - 8)
/-- Awl block of die code c. -/
def awlBase (c : Nat) : Nat := if c = 0 then 0x10009000 else 0x080000009000 + 0x10000000 * (c - 8)
/-- BWC block of die code c. -/
def bwcBase (c : Nat) : Nat := if c = 0 then 0x1000A000 else 0x08000000A000 + 0x10000000 * (c - 8)
/-- Counter block of die code c (10_engines.md "Registers"). -/
def cntBase (c : Nat) : Nat := if c = 0 then 0x1000B000 else 0x080000040000 + 0x10000000 * (c - 8)
/-- ENG_CNT_EXT block of die code c. -/
def cntExtBase (c : Nat) : Nat := if c = 0 then 0x1000C000 else 0x080000044000 + 0x10000000 * (c - 8)
/-- Holds block of die code c. -/
def holdBase (c : Nat) : Nat := if c = 0 then 0x1000E000 else 0x080000050000 + 0x10000000 * (c - 8)

end Sys2Proof.Machine
end

