-- ==== Sys2Proof/Machine/State.lean ====
section
/-! DEFINITION. Machine/State.lean: everything the manual gives the package, as plain data; the reasons a step can stop; and
the state after reset. Registers are in regs (one home for each), what the chapters give beside their registers is in the
record of its unit. INVENTORY.md lists every piece with its rule. -/
namespace Sys2Proof.Machine

/-! ### The time base (02_handshake_timing.md) -/

/-- What the time base holds beside its registers. -/
structure TimeBase where
  /-- The Sole master count (R40). -/
  master : Word
  /-- Ticks the master has counted since it last sent a sync message (R40). -/
  sync : Nat
  /-- The free-running count of the body reference, in periods of 10 ns (R33, R458). -/
  body : Nat
  /-- The local copies (R40): 0 the Heel's, 1 + d compute die d's, 5 + d keeper Kd's. -/
  copy : Tab Word
  /-- Copies found ahead of the master by a sync message, which hold until the master reaches them (R40). -/
  hold : List Nat
  /-- Whether copy k has been loaded since its die's power-up (R43). -/
  loaded : Tab Bool
  /-- The DTB tick is forwarded: the Heel PLL, or the fallback PLL, drives it (R33, R620). -/
  ticking : Bool
  /-- The Heel PLL is locked (R33). -/
  locked : Bool
  /-- REFCLK and XTAL32 edges are seen by their monitors (R35). -/
  refclk : Bool
  xtal : Bool
  /-- DTB ticks since XTAL32's last edge, where its edges have ceased and the loss is not yet declared (R35). -/
  quiet : Option Nat
  /-- DTB ticks since LPRC's last period, where the RTC is derived from LPRC (R35). -/
  lprc : Option Nat
  /-- The RTC, and the fraction of an RTC tick, in 1/390,625 of one (R35, R44). -/
  rtc : BitVec 48
  rtcFrac : Nat
  /-- TBASE_NOW_HI as each initiator ID last latched it. -/
  hiLatch : Tab W32
  /-- TBASE_RTC_HI as last latched. -/
  rtcHi : W32
  /-- The committed compare values of the alarms (R49), and whether alarm n has yet to reach the one it holds; the
  master at its last firing. -/
  almCmp : Tab Word
  almArm : Tab Bool
  almAt : Tab (Option Word)
deriving DecidableEq, Repr

def TimeBase.init : TimeBase :=
  ⟨0, 0, 0, [], [], [], true, true, true, true, none, none, 0, 0, [], 0, [], [], []⟩

/-! ### Supplies and reset (03_supplies_reset.md) -/

/-- How far a Winter request, a Winter entry or a Thaw has gone (R83, R91, R97): the grace period; committed, with the save still to
come; saved, with the capture still to come; Winter; Thaw, with the Insole check running and then passed. -/
inductive Winter where
  | none
  | grace
  | committed
  | saved
  | winter
  | thawCheck
  | thaw
deriving DecidableEq, Repr

/-- A fault-log record (R452): the first 32 bytes' fields and the DETAIL words. -/
structure Rec where
  dtb : Word
  seq : W32
  kind : Nat
  cls : Nat
  retries : Nat
  cause : Nat
  unit : BitVec 16
  sub : BitVec 16
  ini : BitVec 16
  addr : Word
  detail : List W32
deriving DecidableEq, Repr

/-- What the fault manager does with a report (R437, R440, R444): an event and a transient fault are logged, a permanent one retires its unit; a counted one is classified by
its kind's count of retries. -/
inductive ReportAs where
  | event
  | transient
  | permanent
  | counted
deriving DecidableEq, Repr

/-- A report of the Heel that waits for the fault manager (R76, R437): what it makes of it, its content, and the DTB stamp of an event, none until the DTB has a value after
the Heel main release. -/
structure HeelReport where
  how : ReportAs
  item : Rec
  stamp : Option Word
deriving DecidableEq, Repr

/-- What the supply and reset logic holds beside its registers. -/
structure Supply where
  /-- Rails counted as in window (R58), by railKey. -/
  railIn : Tab Bool
  /-- The VBAT conditions of R62 that PWR_SUP_STAT reports or that gate the regulator. -/
  brownout : Bool
  vbatLow : Bool
  vbatOv : Bool
  /-- The body count at which overvoltage has ended: the 1 ms restore wait runs (R62). -/
  ovWait : Option Nat
  /-- Outputs are off for an overvoltage, from its entry until the restore (R62, R463). -/
  ovOff : Bool
  /-- The full-mode regulator's outputs are in window (R59, R75). -/
  fullModeIn : Bool
  /-- Domains held in reset (R58, R70). -/
  aonHeld : Bool
  heelHeld : Bool
  soleHeld : Bool
  /-- SMBALERT_N was low when PWR_PMB_STAT was last read (R67). -/
  alert : Bool
  /-- A first PWR_RST_REQ write armed a request at this DTB count (R71). -/
  rstArm : Option Word
  /-- DTB counts from which the two watchdogs run (R70). -/
  wdogStart0 : Word
  wdogStart1 : Word
  /-- A first PWR_WINTER_REQ write armed a request at this DTB count (R81). -/
  winArm : Option Word
  winter : Winter
  /-- DTB count at which the grace period ends (R83). -/
  grace : Word
  /-- The always-on domain's copies of the settings of R94, by register address, as loaded at Winter entry. -/
  aon : Tab W32
  /-- The RTC at the confirmed wake that started the Thaw, and whether one has been confirmed since the commit (R100, R101). -/
  wakeRtc : BitVec 48
  woken : Bool
  /-- Dies whose last thermal sample read above 135 °C: d, or 4 + l (R89). -/
  hot : List Nat
  /-- The committed RTC alarm (WAKE_RTC_ALM). -/
  rtcAlm : BitVec 48
  /-- A whole-Insole check runs (R95). -/
  checking : Bool
  /-- The Heel main release to come, or the last one, is part of a Thaw; of a restart of the Heel alone (R70, R620). -/
  thaw : Bool
  heelAlone : Bool
  /-- The cold boot is after an always-on power-on or a reinitialised Insole (R46). -/
  freshInsole : Bool
  /-- Host memory stays in self-refresh through this Sole reset (R211). -/
  hmemKept : Bool
  /-- ID0–ID7 as the board straps them (R74, R427). -/
  idStraps : Byte
  /-- Reports of the Heel that could not cross the Sole ↔ Heel link, oldest first: they wait for the releases, or for the link's re-admission (R76, R96, R437, R621). -/
  late : List HeelReport
  /-- Dies held in power-up reset with their EN_ pin high, and dies whose memories are being scrubbed: d, or 4 + l (R87, R88). -/
  dieRst : List Nat
  scrub : List Nat
  /-- The PMBus transaction that runs, as PWR_PMB_CMD and PWR_PMB_DATA started it (R67). -/
  pmbCmd : W32
  pmbData : W32
  /-- The DTB at its START: SCL has been low for no longer than since then (R67). -/
  pmbAt : Word
  /-- Causes of PWR_FORCE recorded since the Winter request was accepted (R89). -/
  forced : W32
deriving DecidableEq, Repr

def Supply.init : Supply :=
  { railIn := [], brownout := false, vbatLow := false, vbatOv := false, ovWait := none, ovOff := false, fullModeIn := true,
    aonHeld := false, heelHeld := false, soleHeld := false, alert := false, rstArm := none, wdogStart0 := 0, wdogStart1 := 0,
    winArm := none, winter := .none, grace := 0, aon := [], wakeRtc := 0, woken := false, hot := [], rtcAlm := 0, checking := false,
    thaw := false, heelAlone := false, freshInsole := false, hmemKept := false, idStraps := 0, late := [],
    dieRst := [], scrub := [], pmbCmd := 0, pmbData := 0, pmbAt := 0, forced := 0 }

/-! ### Quecen cores (06_quecen.md) and the signal lane (07_signal_lane.md) -/

/-- CORE_STATE codes (register table of CORE_STATE). The Heel core and the keepers use the same. -/
inductive CoreRun where
  | held | running | halted | retired
deriving DecidableEq, Repr

/-- How a core's access to memory ends in its registers: a load of n bytes into gd, sign-extended or not; a store; an atomic; a lane load
(R140, R141, R174). -/
inductive MemOp where
  | load (d : BitVec 5) (n : Nat) (sx : Bool)
  | store
  | atom (d : BitVec 5) (n : Nat)
  | cld (d : BitVec 5)
  | lane (f : LaneMem) (d a b : BitVec 5)
deriving DecidableEq, Repr

/-- An instruction that waits until this core's earlier posted stores are acknowledged (R145, R148, R149). -/
inductive Deferred where
  | fence
  | sig (handle amount : W32)
  | atom (d : BitVec 5) (addr : Word) (n : Nat) (op : AtomOp) (v : Word)
deriving DecidableEq, Repr

/-- A wait in progress (R48, R151, R141), a response that the core waits for, or earlier stores to be acknowledged. -/
inductive Wait where
  | wfi
  | waitt (deadline : Word)
  /-- d is the register that receives the outcome; watching clears when the counter's die leaves LIVE (R152); met is set by
  the increment that meets the target. -/
  | waitge (d : BitVec 5) (handle target : W32) (deadline : Option Word) (watching met : Bool)
  | access (op : MemOp)
  | drain (what : Deferred)
deriving DecidableEq, Repr

/-- An imprecise notice (R203): the address, the initiator ID and the reason. -/
structure Notice where
  addr : Word
  ini : BitVec 16
  reason : Nat
deriving DecidableEq, Repr

/-- One core (R135). Tables: g by register number, sys by system register number, laneC by c register, laneA by
2·accumulator + (0 RE, 1 IM). -/
structure Core where
  g : Tab Word
  pc : Word
  sys : Tab W32
  laneC : Tab Word
  laneA : Tab (BitVec 80)
  run : CoreRun
  wait : Option Wait
  /-- Counter handles this core is a registered producer of, at most 8 (R153). -/
  producers : List W32
  /-- The notice queue, oldest first, at most 16 (R204), its overflow flag and the count of discarded notices. -/
  notices : List Notice
  noteOvf : Bool
  noteLost : Nat
  /-- SOFT is pending (R163). -/
  soft : Bool
  /-- Halted by the debugger, with the cause code of DBG_CSTAT (R584). -/
  dhalt : Option Nat
  /-- The core halts at its next boundary, with this cause: a single step runs, or a halt waits for an access in progress (R584). -/
  stepping : Option Nat
  /-- Stopped at its boundary for a swap (R168). -/
  swapStop : Bool
deriving DecidableEq, Repr

/-- Reset value of a system register: CORE_STATUS.PRIV reads 1, the rest 0 (register tables of 06, 07). -/
def sysReset (n : Nat) : W32 := if n = 1 then 2 else 0

def Core.init (run : CoreRun) : Core :=
  ⟨[], 0, [], [], [], run, none, [], [], false, 0, false, none, none, false⟩

/-- The key of a core in the table of cores; the numbering of DBG_CSEL (R584): 0–9, 10 Heel, 12 + d. -/
def coreKey : CoreId → Nat
  | .sole n => n.val
  | .heel => 10
  | .keeper d => 12 + d.val

/-- A core after the reset of its domain: A0 and the Heel core run, the others are HELD (R131, R166, R167). -/
def coreReset (k : Nat) : Core := Core.init (if k = 0 || k = 10 then .running else .held)

/-! ### Memory (08_memory.md) -/

/-- A request (R195, R196, R202). -/
structure Req where
  ini : Ini
  kind : Kind
  addr : Word
  len : Nat
  posted : Bool
  early : Bool
  /-- The bandwidth class label (R232). -/
  cls : Nat
  /-- The Lace link of its die at which a request from another package came in (R215, R422); 1 for a request of a PIPE's transfer, and for one of the debug access
  register. -/
  via : Nat := 0
deriving DecidableEq, Repr

/-- A packet header (R218): destination, virtual channel, label, priority, KIND code, initiator, tag, address, length, source route, and an error response's REASON and
POISON. -/
structure Hdr where
  ddie : Nat
  drouter : Nat
  dport : Nat
  vc : Nat
  cls : Nat
  prio : Nat
  early : Bool
  routed : Bool
  demoted : Bool
  kind : Nat
  ini : BitVec 16
  tag : BitVec 16
  addr : BitVec 48
  len : Nat
  route : W32
  reason : Nat
  poison : Bool
deriving DecidableEq, Repr

def Hdr.zero : Hdr := ⟨0, 0, 0, 0, 0, 0, false, false, false, 0, 0, 0, 0, 0, 0, 0, false⟩

/-- A port a packet passes (R239): x 0 for the Sole, 1 + d for compute die d; the router, or the hub port; the port as AWL_CFG.PORT codes it; the direction as AWL_CFG.DIR
codes it; the virtual channel the packet is on there (R220). -/
structure PortPass where
  die : Nat
  point : Nat
  port : Nat
  dir : Bool
  vc : Nat
deriving DecidableEq, Repr

/-- A packet that has entered the network, and the ports on its way. -/
structure Transit where
  hdr : Hdr
  ports : List PortPass
deriving DecidableEq, Repr

/-- How a remote request or signal stands (R417, R429, R433): its tag, the DTB at which it was handed to the cluster, the link it takes, the sequence number once sent,
whether the peer has acknowledged it. -/
structure LaceTag where
  tag : BitVec 16
  since : Word
  link : Option Nat
  seq : Option Nat
  acked : Bool
deriving DecidableEq, Repr

/-- A request that has passed its entry, on its way to its target: its data, and the operation and operand of an atomic. -/
structure NetReq where
  req : Req
  data : List Byte
  atom : Option (AtomOp × Word)
  /-- The package and the address there that the remote window gave it as it entered (R186, R201), and how it stands on its way there. -/
  abroad : Option (Nat × Nat) := none
  lace : Option LaceTag := none
  /-- ORIG_INIT and ORIG_TAG of a request that came from another package, as word 2 of its link header (R414, R431). -/
  orig : W32 := 0
  /-- Its header, and the Welt bridges on its way (R218, R229). -/
  hdr : Hdr := Hdr.zero
  bridges : List Nat := []
  /-- It waits in its target's queue, and the grants there that have passed it over (R221). -/
  arrived : Bool := false
  passed : Nat := 0
  /-- The engine that made it has left LIVE since: what answers it is discarded (R282, R337). -/
  orphan : Bool := false
deriving DecidableEq, Repr

/-- What the package's networks hold beside their registers: packets that have entered and have still to pass their ports; the virtual channel last granted at each target's
queue (R221); probes whose firing asserts AWL_IRQ's line until FIRED clears, as awlSpent numbers them (R244); how many requests have entered. -/
structure Noc where
  passing : List Transit
  last : Tab Nat
  irq : List Nat
  seq : Nat
deriving DecidableEq, Repr

def Noc.init : Noc := ⟨[], [], [], 0⟩

/-- A response, an error completion (reason, R196) or an acknowledgement on its way to its initiator. -/
structure NetResp where
  req : Req
  reason : Nat
  data : List Byte
  orig : W32 := 0
  /-- It has come back to the engine or the security block that asked, which has still to take it. -/
  here : Bool := false
deriving DecidableEq, Repr

/-! ### Engines, counters and holds (10_engines.md) -/

/-- An owner of a hold waits or holds: hold state of R269–R273. waiters are queue keys 4·g + q in arrival order. -/
structure Hold where
  held : Bool
  revoked : Bool
  owner : BitVec 16
  waiters : List Nat
deriving DecidableEq, Repr

def Hold.init : Hold := ⟨false, false, 0, []⟩

/-! ### The fault manager (17_faults.md) -/

/-- A write of the Insole fault summary that the Heel has still to make (R455): the unit, whether its bit sets, the spare position for a
spare switch-in, and the record for the slot. -/
structure SumUpd where
  unit : BitVec 16
  lane : Option Nat
  set : Bool
  spare : Option Nat
  cause : Nat
  record : Option Rec
deriving DecidableEq, Repr

/-- What the fault manager holds beside its registers. -/
structure Flt where
  /-- Unit codes now retired (R438, R445), and the lanes retired, keyed 4·n + i. -/
  retired : List (BitVec 16)
  lanesRetired : List Nat
  /-- CAUSE code of each retired unit code (R446). -/
  causes : Tab Nat
  /-- Records held because the log is disabled, full or refused (R453). -/
  held : List Rec
  /-- Confirmed uncorrectable lines per bank unit code (R442). -/
  bankUe : Tab Nat
  /-- TRANSIENT records per kind in this window, and the DTB at which it ends (R443). -/
  recur : Tab Nat
  recurEnd : Nat
  /-- Summary writes to be made, oldest first (R455, R456). -/
  summary : List SumUpd
  /-- The log's target has refused a record, and FLT_LOG_CFG has not been written since (R453). -/
  refused : Bool
deriving DecidableEq, Repr

def Flt.init : Flt := ⟨[], [], [], [], [], [], 360000000000, [], false⟩

/-- What a running queue waits for (R261, R267, R271). met is set by the increment that meets a WAIT's target; watching clears
when the counter's die leaves LIVE. -/
inductive QWait where
  | counter (handle target : W32) (deadline : Option Word) (watching met : Bool)
  | time (deadline : Word)
  | hold (ref : W32) (deadline : Option Word)
deriving DecidableEq, Repr

/-- How an entry's operation has ended (R260): status code, REASON, and the failing data or fetch address. -/
structure EntryEnd where
  status : Nat
  reason : Nat
  addr : Word
deriving DecidableEq, Repr

/-- The list a queue executes (R256); skip says that RESUME passed over its last entry, so that LDONE is not performed (R279). -/
structure ListHdr where
  addr : Word
  cls : Nat
  ldone : Option (W32 × W32)
  count : Nat
  skip : Bool
deriving DecidableEq, Repr

/-- One command queue beside its registers (R248–R261). -/
structure Queue where
  list : Option ListHdr
  /-- A header to open next without a slot: a JUMP's, or one that RETRY reads again. -/
  next : Option Word
  /-- Index in the list of the entry that runs or comes next. -/
  idx : Nat
  /-- The sixteen words of the running entry. -/
  entry : Option (List W32)
  /-- The words of an entry that waits for resources (R254): fetched already, and not yet started. -/
  await : Option (List W32)
  wait : Option QWait
  fin : Option EntryEnd
  /-- Where a STOPPED queue failed: 0 a slot, 1 a header at the address, 2 an entry (R279). -/
  fail : Option (Nat × Word)
  /-- Resources the entry at the head waits for: 0 a copy channel, 1 the fabric call port, 2 + q quarter q (R254). -/
  wants : List Nat
  /-- Counter handles the queue is a registered producer of, at most 8 (R261 PREG). -/
  producers : List W32
  /-- Stream units this queue's STR_RUN entries started (R280). -/
  streams : List Nat
  /-- The entry that a pending CANCEL has ended, while it has not failed: its words and its address (R280). -/
  dying : Option (List W32 × Word) := none
  /-- Bytes that the running copy has read and written; the pins that the running load's preamble asks for (R259, R366). -/
  copied : Nat := 0
  pins : Nat := 0
deriving DecidableEq, Repr

def Queue.init : Queue := ⟨none, none, 0, none, none, none, none, none, [], [], [], none, 0, 0⟩

/-- A counter signal on its way to another package (R266): the remote handle and the amount. -/
structure RemoteSig where
  handle : W32
  add : W32
  /-- Who signals, and its label. -/
  ini : Ini
  cls : Nat
  lace : Option LaceTag
deriving DecidableEq, Repr
/-! ### Boot and images (05_images.md) -/

/-- The header fields of a verified object that the device goes on using (R110), with the slot it came from. -/
structure Img where
  slot : Nat
  kind : Nat
  hi : BitVec 16
  di : BitVec 16
  fi : BitVec 16
  svn : W32
  len : W32
  load : W32
  entry : W32
deriving DecidableEq, Repr

/-- A swap in progress (R127): its parts, FORCE, the verified Heel image of the other slot, and the DTB count at which the wait for
the handover ends, where the Heel is named. -/
structure Swap where
  heel : Bool
  sole : Bool
  dies : List Nat
  force : Bool
  newHeel : Option Img
  deadline : Option Word
deriving DecidableEq, Repr

/-- A registered fabric load (R112, R367): its header address and what its header says. -/
structure FabReg where
  addr : Nat
  img : Img
  /-- SHA-384 of the plain-text body. -/
  digest : List Byte
deriving DecidableEq, Repr

/-- What boot, the security block and the Heel command port hold beside their registers. -/
structure Boot where
  /-- The digests enrolled in the four key slots, the slots revoked, and the image key (R113). -/
  keys : Tab (List Byte)
  revoked : List Nat
  imageKey : Option (List Byte)
  /-- The running Heel and Sole images, and the staged Die and Sole images. -/
  heel : Option Img
  heelFb : Bool
  sole : Option Img
  stagedDie : Option Img
  stagedSole : Option Img
  /-- The plain-text body of the staged Die image, as staged (R117). -/
  stagedBody : List Byte
  /-- The Die image each keeper last booted (R117, R120). -/
  die : Tab (Option Img)
  /-- Registered fabric loads by index (at most 64). -/
  fabs : List FabReg
  /-- The verification job that runs: its purpose and header address. -/
  job : Option (Nat × Nat)
  /-- The Heel and the Sole boot ROM have an image to verify. -/
  heelRom : Bool
  soleRom : Bool
  /-- Dies whose keeper has an image check to make. -/
  dieRom : List Nat
  swap : Option Swap
  /-- Sole cores stopped for a swap that have still to enter it, with the entry address. -/
  swapEntry : Word
  /-- Line programs and sector erases of the image store that have not completed (R108, R109). -/
  storeOps : Nat
  /-- The command and response queues of the Heel command port (R122). -/
  tx : List W32
  rx : List W32
  /-- A command has been executed since the Heel core last took HCMD_SEEN. -/
  cmdSeen : Bool
deriving DecidableEq, Repr

def Boot.init : Boot :=
  { keys := [], revoked := [], imageKey := none, heel := none, heelFb := false, sole := none, stagedDie := none, stagedSole := none, stagedBody := [],
    die := [], fabs := [], job := none, heelRom := true, soleRom := true, dieRom := [], swap := none, swapEntry := 0, storeOps := 0,
    tx := [], rx := [], cmdSeen := false }


/-! ### Streams (12_streams.md) -/

/-- A stream program in a slot (R313, R316): its address, its list's label, the queue 0–3 that placed it. -/
structure StrProg where
  addr : Word
  cls : Nat
  queue : Nat
deriving DecidableEq, Repr

/-- How a buffered line was read (R331): its data, or a fault held with it, a STR_STAT status and a reason. -/
inductive ChunkSt where
  | ok
  | held (status reason : Nat)
deriving DecidableEq, Repr

/-- Bytes a read unit is to deliver, in order (R314, R325): len bytes from off in a line, with the line's 64 bytes as read; or len zeros of a SKIP. -/
structure Chunk where
  line : Option Word
  off : Nat
  len : Nat
  data : List Byte
  st : ChunkSt
deriving DecidableEq, Repr

/-- An open loop of a program (R319): its body, the iterations left, AR0–AR3 at its entry. -/
structure StrLoop where
  body : Word
  left : Nat
  saved : List Word
deriving DecidableEq, Repr

/-- One stream unit beside STR_CFG and STR_CTL. -/
structure Stream where
  cur : Option StrProg
  next : Option StrProg
  /-- Address of the instruction the generator executes. -/
  pc : Word
  /-- START has been executed; its direction and distance. -/
  begun : Bool
  write : Bool
  dist : Nat
  ar : Tab Word
  loops : List StrLoop
  /-- The tensor strides that TDIM has set since START: 0 x, 1 y, 2 batch. -/
  stride : Tab (Option W32)
  /-- Bytes left of the MOVE in progress. -/
  left : Option Nat
  /-- The generator has reached END, and STR_CFG.CHAIN as it was then (R326). -/
  ended : Bool
  chain : Bool
  /-- A read unit's window, and the line last taken, which stays in the buffer. -/
  chunks : List Chunk
  last : Option (Word × List Byte)
  /-- A write unit's bytes accepted and not yet placed; an invalid one is none (R317). -/
  buf : List (Option Byte)
  /-- The run of consecutive bytes that is not yet a request (R316): its address and bytes. -/
  run : Option (Word × List Byte)
  /-- Entries that bind the unit, in the order they started: the queue key and the port: 0 SA, 1 SB, 2 SC, 3 SO, 4 SIN, 5 SOUT (R313). -/
  bound : List (Nat × Nat)
  error : Bool
  cancelling : Bool
  status : Nat
  reason : Nat
  errAddr : Word
  dropped : Nat
  lines : Word
  /-- In TRUN, and in RROW. -/
  tensor : Bool
  row : Bool
  /-- Larders that lines were read from or written to for the entry it serves, a bit each (R260). -/
  used : Nat
  /-- Lines of the program that have been fetched, by their number in it (R318). -/
  code : Tab (List Byte)
  /-- The line that the guard returned with reason EARLY: early reads stop at it (R330). -/
  shy : Option Word
deriving DecidableEq, Repr

def Stream.init : Stream :=
  { cur := none, next := none, pc := 0, begun := false, write := false, dist := 0, ar := [], loops := [], stride := [], left := none, ended := false,
    chain := false, chunks := [], last := none, buf := [], run := none, bound := [], error := false, cancelling := false, status := 0, reason := 0,
    errAddr := 0, dropped := 0, lines := 0, tensor := false, row := false, used := 0, code := [], shy := none }

/-! ### Cubes and the decode batcher (11_cubes.md) -/

/-- A request of a decode batch (R299): its A row, its output row, its counter handle and amount. -/
structure DqReq where
  a : Word
  o : Word
  handle : W32
  add : W32
deriving DecidableEq, Repr

/-- A MATMUL, CONV or DECODE entry that runs, beside its words: where its loops stand, and what the array's stores hold (R285, R292). -/
structure Mat where
  /-- M of a DECODE, once its batch has closed, and the batch. -/
  batch : Option Nat
  reqs : List DqReq
  /-- Group and block and step indices. -/
  grp : Nat
  i : Nat
  j : Nat
  s : Nat
  /-- Accumulators of the block being computed, row-major, and whether SC has delivered their initial values. -/
  acc : List W32
  accIn : Bool
  /-- Operand bytes latched for the next step. -/
  la : List Byte
  lb : List Byte
  lc : List Byte
  /-- The stationary block in use, and the one being loaded. -/
  stat : Option (List Byte)
  load : List Byte
  /-- The block being emitted, not yet accepted by SO. -/
  emit : List (Option Byte)
  /-- Every step has been made. -/
  finished : Bool
  /-- Bytes of A that TRUN or RROW has generated; output bytes that RROW has placed. -/
  aGen : Nat
  oGen : Nat
  /-- The DTB at which the entry began: a DECODE gathers from then on (R300). -/
  since : Word
deriving DecidableEq, Repr

def Mat.init : Mat := ⟨none, [], 0, 0, 0, 0, [], false, [], [], [], none, [], [], false, 0, 0, 0⟩

/-! ### The pipeline sequencer and the checkpoint trackers (13_training.md) -/

/-- A PIPE that runs on an engine: its queue, list and entry, which the queue resumes at its end; its descriptor; its progress. -/
structure Pipe where
  key : Nat
  list : ListHdr
  idx : Nat
  entry : List W32
  desc : List W32
  /-- 1 FORWARD, 2 DRAIN, 3 BACKWARD. -/
  phase : Nat
  /-- Lists submitted and ended in each phase. -/
  fwdSub : Nat
  fwdEnd : Nat
  bwdSub : Nat
  bwdEnd : Nat
  offDone : Nat
  pfDone : Nat
  /-- The running transfer: true for a prefetch. -/
  xfer : Option Bool
  /-- How the running transfer has failed. -/
  xfail : Option EntryEnd
  /-- The queue has stopped for a transfer (R347). -/
  xstop : Bool
  /-- Bytes that the running transfer has read and written. -/
  copied : Nat := 0
deriving DecidableEq, Repr

/-! ### The fabric (14_fabric.md) -/

/-- A storage element of a fabric region: its value, and whether its consumer has acknowledged it (R363). -/
structure Cell where
  val : Bool
  acked : Bool
deriving DecidableEq, Repr

/-- One fabric region beside its registers. -/
structure Rgn where
  /-- The body of its load: preamble and frames. -/
  body : List Byte
  /-- The queues whose FAB_LOAD or FAB_CALL waits for it, in start order. -/
  waiting : List Nat
  /-- The queue whose call holds it; the DTB at which the call started, once its function has. -/
  call : Option Nat
  started : Option Word
  /-- The queue whose load is under way. -/
  loading : Option Nat
  /-- The entry that ends when the restart is complete, with its status. -/
  ending : Option (Nat × Nat)
  /-- Storage elements that differ from their load-time value, by 16·t + c (R363, R367), and the accumulators of slices 0–7 (R364). -/
  cells : Tab Cell
  accs : Tab W32
  /-- Pins it drives, and their levels (R377). -/
  oe : W32
  drive : W32
  /-- Ring channels, 0 DN and 1 UP: the word its logic offers, and the word that has come and is not yet taken (R378). -/
  send : Tab (Option Word)
  recv : Tab (Option Word)
  /-- What its running function was handed: FUNC, ARG0 to ARG10, the owner ID of the calling queue, the list label; and the bytes of SIN that make no whole 64-byte unit
  yet (R371). -/
  handed : List W32
  part : List Byte
  /-- Bit l: its ports have used Larder l for that call (R260). -/
  used : Nat
deriving DecidableEq, Repr

def Rgn.init : Rgn := ⟨[], [], none, none, none, none, [], [], 0, 0, [], [], [], [], 0⟩

/-- Every storage element at its load-time value, no pin driven, nothing on its channels (R369, R372). A load writes no value into its elements, so theirs is what clearing
leaves (notes/assumptions/112.md). -/
def Rgn.rest (r : Rgn) : Rgn := { r with cells := [], accs := [], oe := 0, drive := 0, send := [], recv := [], handed := [], part := [], used := 0 }

/-- A seal record (R353): its bytes as they were at sealing, and the request that carries it to the mirror. -/
structure Seal where
  bytes : List Byte
  mirror : Option Req
deriving DecidableEq, Repr

/-- A blocked member of a census group: its ID, the handle it waits for, the target, and what the counter holds (R276). -/
structure CenWait where
  id : BitVec 16
  handle : W32
  target : W32
  value : W32
deriving DecidableEq, Repr

/-- A census group whose conditions hold: since when without a break, and its members as they have been since (R276). -/
structure CenRun where
  since : Word
  seen : List CenWait
deriving DecidableEq, Repr

/-- What the engines and the fabric hold beside their registers and queues. -/
structure Eng where
  /-- Stream units, by 16·g + s. -/
  streams : Tab Stream
  /-- Running matrix entries, by queue key. -/
  mats : Tab (Option Mat)
  /-- Arrival stamps of the decode requests from HEAD on, by engine (R298). -/
  stamps : Tab (List Word)
  /-- Quarter-steps, by engine (CUBE_STEPS). -/
  steps : Tab Word
  /-- 1 + the cube position that the spare of quarter 4·g + q has taken; 0 for none (R310). -/
  spares : Tab Nat
  /-- Running PIPEs, by engine. -/
  pipes : Tab (Option Pipe)
  /-- Fabric regions, by 8·d + r. -/
  rgns : Tab Rgn
  /-- Trackers whose mirror seal has been written and whose local seal is under way (R353). -/
  sealLocal : List Nat
  /-- The records of trackers 0–3 that are being sealed, or were last. -/
  seals : Tab Seal
  /-- Intervals of the census groups 0–7 that are under way (R276). -/
  cen : Tab (Option CenRun)
deriving DecidableEq, Repr

def Eng.init : Eng := ⟨[], [], [], [], [], [], [], [], [], []⟩


/-! ### Lace (15_lace_lanes.md, 16_lace_links.md) -/

/-- A packet in a link's replay buffer (R417): its sequence number, its VC (3 for MGMT), the credits it cost, how often it has been replayed, the DTB at which it was last
sent, what it carries. -/
structure LPkt where
  seq : Nat
  vc : Nat
  units : Nat
  count : Nat
  sentAt : Word
  what : LWhat
deriving DecidableEq, Repr

/-- A link packet as it has been sent (R414, R415): its SEQ, none for ACK and CREDIT_INIT; what its header acknowledges and returns; what it carries. -/
structure LSent where
  seq : Option Nat
  hdr : LHdr
  what : Option LWhat
deriving DecidableEq, Repr

/-- A response or a forwarded packet that waits to leave (R429, R430): its VC, what chooses its link, the link chosen, the packet, and the receive buffer that a forwarded one lies
in, by link and VC (R421). -/
structure LOut where
  vc : Nat
  x : Nat
  link : Option Nat
  pkt : LData
  src : Option (Nat × Nat) := none
deriving DecidableEq, Repr

/-- One Lace link beside its registers. -/
structure Link where
  /-- Unacknowledged packets, oldest first: the replay buffer, which the link owns (R417). -/
  replay : List LPkt
  /-- The next sequence number to send, and the next one expected; a NAK is outstanding. -/
  nextSeq : Nat
  expect : Nat
  nakked : Bool
  /-- A packet has been received in order; an acknowledgement is owed, and it says NAK; 64-byte units whose credits are owed, by VC (R415, R418, R421). -/
  taken : Bool
  oweAck : Bool
  oweNak : Bool
  oweCr : Tab Nat
  /-- The packet sent last. -/
  sent : Option LSent
  /-- MGMT packets that wait, oldest first, for the link to be UP and for room in the replay buffer. -/
  mgmt : List LWhat
  /-- Units of the receive buffers that forwarded packets occupy, by VC (R421). -/
  buf : Tab Nat
  /-- Credits held: REQ, RSP, FWD; the peer's CREDIT_INIT has come, and this end's has gone, since the last training. -/
  crReq : Nat
  crRsp : Nat
  crFwd : Nat
  crIn : Bool
  crOut : Bool
  /-- Retrainings in a row without an acknowledged packet (R436). -/
  retrains : Nat
  /-- The DTB until which the direction had something to send or unacknowledged; the link layer has requested electrical idle (R424); the transmitter is in it. -/
  quiet : Word
  idleReq : Bool
  tx : Bool
  /-- Lanes' receivers: 0 active, 1 idle hold, 2 looking for COM. -/
  rx : Tab Nat
  /-- Training: 0 none, 1 NEGOTIATE, 2 TRAIN; the DTB at which the phase or attempt began; lanes that take part; rates tried, as RATES bits. -/
  phase : Nat
  began : Word
  part : Nat
  tried : Nat
  /-- 1 + the lane number that each physical lane has heard; consecutive retrainings in which a lane has failed TRAIN. -/
  heard : Tab Nat
  fails : Tab Nat
  /-- The TS2 that each lane received last in this phase or attempt, and how many in a row agree with it (R401). -/
  agree : Tab (Option TrainSet × Nat)
  /-- The DTB at which each lane's receiver reached the goal of the phase or attempt: it sends TS2 from then on (R401). -/
  goal : Tab (Option Word)
  /-- The DTB at which this end asked for retraining (R425). -/
  asked : Option Word
  /-- The management window of the last MARK sent or received, and the swap requests not decided: window, own (R426). -/
  mark : Nat
  swaps : List (Nat × Bool)
  /-- The DTB of that MARK. -/
  markAt : Option Word
  /-- Lanes in far-end loopback (R407), and those that have sent an LPB set and fill with D10.2 (R408). -/
  fel : Nat
  lpb : Nat
  /-- Lanes that carry the stream, in ascending logical order (R416); symbol slots since the last SKIP set, and whether one has gone since training or the last fast exit (R389). -/
  order : List Nat
  slots : Nat
  skipped : Bool
  /-- The DTB of each lane's last DFE steps while it is ACTIVE (R393). -/
  dfeAt : Tab Word
  /-- Running disparity of the lanes' transmitters and receivers, true for positive, and the last group each lane sent (R386). -/
  txRd : Tab Bool
  rxRd : Tab Bool
  wire : Tab (BitVec 10)
deriving DecidableEq, Repr

def Link.init : Link :=
  { replay := [], nextSeq := 0, expect := 0, nakked := false, taken := false, oweAck := false, oweNak := false, oweCr := [], sent := none, mgmt := [], buf := [], crReq := 0, crRsp := 0, crFwd := 0, crIn := false, crOut := false, retrains := 0,
    quiet := 0, idleReq := false, tx := false, rx := [], phase := 0, began := 0, part := 0, tried := 0, heard := [], fails := [], agree := [], goal := [], asked := none, mark := 0, swaps := [],
    markAt := none, fel := 0, lpb := 0, order := [], slots := 0, skipped := false, dfeAt := [], txRd := [], rxRd := [], wire := [] }

/-- A lane's PRBS checker (R409): the bits last received or generated, newest first; whether it is synchronised; the outcomes of the last 64 checks. -/
structure Prbs where
  reg : List Bool
  errs : List Bool
deriving DecidableEq, Repr

/-- What the links and the cluster hold beside their registers. -/
structure Lace where
  links : Tab Link
  /-- Checkers, and bits checked, by 4·n + i. -/
  prbs : Tab Prbs
  bits : Tab Word
  /-- Pattern generators, by 4·n + i: what each has sent last, newest first; of a fixed pattern, what it sends next. -/
  gens : Tab (List Bool)
  /-- CTLE peaking in use, in dB, by 4·n + i (R393). -/
  ctle : Tab Nat
  /-- Responses and forwarded packets that wait. -/
  out : List LOut
  /-- The next transaction tag. -/
  nextTag : BitVec 16
deriving DecidableEq, Repr

def Lace.init : Lace := ⟨[], [], [], [], [], [], 0⟩

/-! ### Outputs (18_outputs.md) and inputs (19_inputs.md) -/

/-- The drive of an output stage (R458, R476, R478): its mode code, duty, phase and period. -/
structure Drive where
  mode : Nat
  duty : Nat
  phase : Nat
  period : Nat
deriving DecidableEq, Repr

/-- An output stage beside its registers: 0–39 HS00–HS39, 40–47 HB0–HB7, 48–51 HBA–HBD. closed is the set of closed switches: bit 0 a channel's switch; bits 0, 1 a
half-bridge's high and low side; bits 0–3 a pre-driver's H0, L0, H1, L1. -/
structure Stage where
  /-- The drive in force, and the PWM drives that wait for a period start, each from a DTB on, oldest first. -/
  cur : Drive
  pend : List (Drive × Word)
  closed : Nat
  /-- Switches to close when the dead time ends. -/
  after : Option Nat
  /-- When each switch last closed or opened, on the body count; the start of this period, or when a static drive's on edge fell due (R460); the last on edge, and how long its on-phase lasts, in 1/1,024 of 10 ns (R458,
  R476, R479). -/
  swAt : Tab (Option Nat)
  start : Nat
  onAt : Nat
  onFor : Nat
  /-- The on edge is still to come; the on-phase is a probe pulse; when its last on-state measurement was taken, on the body count; the number of this period and of
  the next (R466). -/
  fresh : Bool
  probe : Bool
  mark : Option Nat
  num : Nat
  next : Nat
  /-- In current limit since; the trip timer in ticks; the on-phase has been in limit; it is the first after a restart (R462, R466). -/
  since : Option Word
  trip : Nat
  limited : Bool
  first : Bool
  /-- The DTB at which it restarts, and of the last shutdown (R464); the charge pump is low (R479). -/
  due : Option Word
  shutAt : Option Word
  uv : Bool
  /-- RESTARTS has exceeded RESTART: it stays off, and the fault manager is to retire it (R464). -/
  dead : Bool
  /-- When the last measurement and the last current sample were taken, on the diagnosis clock (R467, R471). -/
  meas : Option Nat
  sampled : Option Nat
  /-- The value last measured and how often in a row (R467). -/
  val : Nat
  cnt : Nat
  /-- Off-state measurement: 0 none, 1 the pull-up is on, 2 low or 3 high at 250 µs; the body count from which the next is timed (R466). -/
  off : Nat
  offAt : Option Nat
deriving DecidableEq, Repr

def Stage.init : Stage :=
  { cur := ⟨0, 0, 0, 0⟩, pend := [], closed := 0, after := none, swAt := [], start := 0, onAt := 0, onFor := 0, fresh := false, probe := false, mark := none, num := 0, next := 0, since := none, trip := 0, limited := false, first := false,
    due := none, shutAt := none, uv := false, dead := false, meas := none, sampled := none, val := 0, cnt := 0, off := 0, offAt := some 0 }

/-- A keep path (R473–R475): in service, its blink phase, tripped; the RTC at which it came into service. -/
structure Keep where
  armed : Bool
  lit : Bool
  tripped : Bool
  from_ : BitVec 48
deriving DecidableEq, Repr

/-- The output stages; the running pattern engines with the DTB at which their step began; the keep paths of HS24 and HS25; the last on edge on each VPWR rail (R460);
the diagnosis clock, which stops while VBAT_LOW or VBAT_OV is set: ticks it has lost, and the DTB at which it stopped (R469). -/
structure Outs where
  stages : Tab Stage
  pats : Tab (Option Word)
  keeps : Tab Keep
  edges : Tab (Option Nat)
  lost : Nat
  stopped : Option Word
deriving DecidableEq, Repr

def Outs.init : Outs := ⟨[], [], [], [], 0, none⟩

/-- The switch inputs: samples in a row that disagree with the filtered level, and the body count of the last sample (R487, R488); cyclic sensing runs, its samples in a row
that differ from the reference, and the RTC of the last (R492). -/
structure Swi where
  cand : Tab Nat
  last : Option Nat
  cyclic : Bool
  diff : Tab Nat
  cycAt : Option (BitVec 48)
  /-- The level each input was last sampled at, which its threshold hangs on (R486, R487). -/
  raw : BitVec 64
deriving DecidableEq, Repr

def Swi.init : Swi := ⟨[], none, false, [], none, 0⟩

/-- A quadrature decoder (R495–R498): the filtered lines, the samples in a row that disagree with each, the counts made since EN was set (up to 2) and the DTB of the last,
LEARN pending; the body count of the last sample. -/
structure Qdec where
  a : Bool
  b : Bool
  ca : Nat
  cb : Nat
  counts : Nat
  last : Word
  learn : Bool
  samp : Option Nat
deriving DecidableEq, Repr

def Qdec.init : Qdec := ⟨false, false, 0, 0, 0, 0, false, none⟩

/-! ### Message bus controllers and the Last matrix (20_message_bus.md) -/

/-- A failure report (R514): the buffer, 32 the pass-through element; the cause; the matrix cell; the DTB. -/
structure FailRep where
  buf : Nat
  cause : Nat
  row : Nat
  slot : Nat
  dtb : Word
deriving DecidableEq, Repr

/-- The frame of a Last cell that its window lets start: its buffer, its cell, the buffer's contents at the slot start (R518, R519). -/
structure CellTx where
  buf : Nat
  row : Nat
  slot : Nat
  bytes : List Byte
  /-- The number of its cycle (R520). -/
  cycle : Nat
deriving DecidableEq, Repr

/-- A message bus controller beside its registers and message RAM, and its Last matrix. -/
structure Mbc where
  /-- It takes part in the bus (R506). -/
  joined : Bool
  /-- The buffer whose frame is on the bus, 32 the pass-through element, its contents as sent, and the cell it starts in, if it is a cell's. -/
  tx : Option Nat
  snap : List Byte
  txCell : Option CellTx
  /-- The cause that frame's request ends with unless the attempt succeeds, ABORTED or RAMERR (R506, R510, R528); it has been replaced (R513). -/
  abort : Option Nat
  orphan : Bool
  /-- The DTBs between which its SOF may lie, while a matrix bounds them (R518, R519). -/
  win : Option (Nat × Nat)
  /-- The DTB at which each free request, 32 the pass-through element's, was made. -/
  since : List (Nat × Word)
  /-- The oldest pass-through receive element; the failure reports, oldest first. -/
  ptGet : Nat
  fails : List FailRep
  /-- The matrix: the number of the next cycle (R520), the DTB at which the current one began, its next slot, the open window's slot, the cell frame that has
  yet to start. -/
  k : Nat
  start : Word
  nextSlot : Nat
  openSlot : Option Nat
  cell : Option CellTx
  /-- A reference message received: the row it names, none for the previous row plus one, and its SOF stamp; the DTB from which the reference timeout runs (R520, R522). -/
  ref : Option (Option Nat × Word)
  refAt : Word
deriving DecidableEq, Repr

def Mbc.init : Mbc :=
  { joined := false, tx := none, snap := [], txCell := none, abort := none, orphan := false, win := none, since := [], ptGet := 0, fails := [], k := 0, start := 0, nextSlot := 0, openSlot := none, cell := none,
    ref := none, refAt := 0 }

/-! ### LIN channels and the on-die transceivers (21_lin_wake.md) -/

/-- How far a LIN frame has come (R535–R538): a header to be sent at the next bus idle; a break seen; a valid sync byte; the PID received; the response. -/
inductive LinPhase where
  | header | break_ | sync | pid | response
deriving DecidableEq, Repr

/-- A LIN frame in progress: its PID, the LIN_RESPn entry it follows, the bytes sent or received, the marks of a framing error, the DTB of its start and of its break
delimiter, the bit time in force. -/
structure LinFrame where
  phase : LinPhase
  pid : Byte
  publish : Bool
  len : Nat
  classic : Bool
  pt : Bool
  once : Bool
  data : List Byte
  fe : Bool
  start : Word
  stamp : Word
  div : Nat
deriving DecidableEq, Repr

/-- An element of the receive queue (R539). -/
structure LinElem where
  pid : Byte
  status : Nat
  data : List Byte
  dtb : Word
deriving DecidableEq, Repr

/-- A LIN controller beside its registers: the frame in progress, a wake-up signal, the receive queue and the pass-through queue (ID and bytes), oldest first, the UART
FIFOs; a character received has its FE and PE marks. -/
structure Lin where
  frame : Option LinFrame
  /-- A wake-up signal is being sent, since a body count (R540). -/
  waking : Bool
  wakeAt : Nat
  /-- The DTB from which a header may start after a wake-up signal (R540); the line was dominant at the last stop sample of the last character (R534). -/
  quiet : Word
  low : Bool
  rq : List LinElem
  pass : List (Nat × List Byte)
  utx : List Byte
  urx : List (Byte × Bool × Bool)
deriving DecidableEq, Repr

def Lin.init : Lin := ⟨none, false, 0, 0, false, [], [], [], []⟩

/-- An on-die transceiver beside WAKE_XSTAT: the state of LN0–LN3's (0 OFF, 1 STANDBY, 2 NORMAL); TXD has been dominant too long and the bus is released (R545); the RTC at
which MB0–MB3's entered DECODING, and its decoder is ready (R550). -/
structure Xcv where
  st : Nat
  released : Bool
  dec : Option (BitVec 48)
  ready : Bool
deriving DecidableEq, Repr

def Xcv.init : Xcv := ⟨1, false, none, false⟩

/-! ### The angle unit (22_angle.md) -/

/-- An event channel: the angles and the duration in force (R573); the angle ticks from the last edge to the passage its begin waits for, and to its end; the DTB of its begin
(ARMED) or end (ACTIVE); the angle at which it began; its end is fixed in time; it is a SHORT one; the cycle of its last begin (R568–R572). -/
structure AngCh where
  ang : W32
  dur : Nat
  ahead : Nat
  at_ : Word
  startAngle : Nat
  timed : Bool
  short : Bool
  cycle : Option Nat
deriving DecidableEq, Repr

def AngCh.init : AngCh := ⟨0, 1, 0, 0, 0, false, false, none⟩

/-- The angle unit beside its registers: the stamp of the last active edge; the last period, and the last two as R559 counts them; edges since the last gap, the CAM level
there, and the gaps found in CONFIRM; the last edge's angle and the predicted period (R566); the tooth has still to be judged (R562); the DTB from which STALL runs; the
number of the running cycle. -/
structure Ang where
  last : Option Word
  per : Option Nat
  tk : Nat
  tk1 : Nat
  since : Nat
  gapCam : Bool
  gaps : Nat
  a : Nat
  p : Nat
  judge : Bool
  stallFrom : Option Word
  cyc : Nat
  chs : Tab AngCh
deriving DecidableEq, Repr

def Ang.init : Ang := ⟨none, none, 0, 0, 0, false, 0, 0, 1, false, none, 0, []⟩

/-! ### The debug port (23_debug.md) -/

/-- The outcome of a DAP access (R582): STATUS, data, reason code. -/
structure DapOut where
  status : Nat
  data : W32
  reason : Nat
deriving DecidableEq, Repr

/-- The debug port beside its registers: the Heel DTB since which the TAP is in Test-Logic-Reset; an attach whose detach has still to come; the instruction; an access in
progress, with its outcome where that does not come from outside; the last outcome; a request was discarded; the boundary register's update latches. -/
structure Dbg where
  tlrAt : Option Word
  live : Bool
  ir : Byte
  busy : Option (Option DapOut)
  out : DapOut
  dropped : Bool
  cells : List Bool
deriving DecidableEq, Repr

def Dbg.init : Dbg := ⟨some 0, false, 1, none, ⟨0, 0, 0⟩, false, []⟩

/-- What the links and the Heel's units hold beside their registers. -/
structure Io where
  lace : Lace
  outs : Outs
  swi : Swi
  qdec : Tab Qdec
  mbc : Tab Mbc
  lin : Tab Lin
  xcv : Tab Xcv
  ang : Ang
  dbg : Dbg
deriving DecidableEq, Repr

def Io.init : Io := ⟨Lace.init, Outs.init, Swi.init, [], [], [], [], Ang.init, Dbg.init⟩

/-- Why the machine stops with a fault. Closed. -/
inductive Fault where
  /-- Raised by no command: the manual gives every command an effect, and an access to an address that does not exist is
  refused with reason UNMAPPED (R185, R196), which is modelled. Safe. -/
  | noSuchState
deriving DecidableEq, Repr

/-- Why the model gives a command no meaning. Closed. -/
inductive Refusal where
  /-- The command has no meaning yet; raised by exec's arms alone. Safe: nothing is claimed of it. -/
  | notModelled (mnemonic : String)
deriving DecidableEq, Repr

/-- The state of one package. -/
structure State where
  /-- The package record's variant (R17, R19); NX848 in State.reset (notes/assumptions/4.md). -/
  variant : Variant
  /-- Every memory-mapped register, by physical address; an unlisted address reads its reset value. -/
  regs : Tab W32
  /-- Every byte of addressed memory; an unlisted address reads memDefault. -/
  mem : List Host.Cell
  /-- Integrity state of tagged lines and Insole words, by first byte (R206, R93). -/
  lines : Tab LineState
  /-- Time base. -/
  tb : TimeBase
  /-- Supplies and reset. -/
  sup : Supply
  /-- Cores, by coreKey; an unlisted core reads coreReset. -/
  cores : Tab Core
  /-- Boot, images and the Heel command port. -/
  boot : Boot
  /-- Holds, by 256·die code + number (R269). -/
  holds : Tab Hold
  /-- Engine queues, by 4·g + q. -/
  queues : Tab Queue
  /-- The queue of each engine that was last given a contended resource (R254). -/
  rot : Tab Nat
  /-- The engines' streams, cubes and pipelines, and the fabric. -/
  eng : Eng
  /-- The Lace links and the cluster, and the Heel's units. -/
  io : Io
  /-- Fault manager. -/
  flt : Flt
  /-- Requests on their way to their targets, oldest first (R195, R219). -/
  net : List NetReq
  /-- Responses on their way to their initiators, oldest first (R203). -/
  resp : List NetResp
  /-- The packet networks. -/
  noc : Noc
  /-- The next line of each patrol scrubber (R212): 0 Sole SRAM, 1 host memory, 2 + d engine memory of die d, 6 + l Larder l. -/
  scrubPos : Tab Nat
  /-- The window length in force in the BWC block of die code c, in units of 100 ns (R235, R238); unlisted 100. -/
  bwcLen : Tab W32
  /-- Probes whose trigger has fired since AWL_TRIGp was last written, by 16·x + p: x 0 Sole, 1 + d compute die d (R244). -/
  awlSpent : List Nat
  /-- Probe records on their way to the trace unit, oldest first (R243). -/
  traceQ : List (List Byte)
  /-- Remote signals handed to the cluster routing, oldest first (R266). -/
  sigOut : List RemoteSig
  /-- The data the last read command returned to its initiator (the model's own; notes/assumptions/7.md). -/
  ret : Word
  /-- How many free values have been drawn (the model's own; notes/assumptions/1.md). -/
  free : Nat
  /-- The commands that wait, oldest first (the block's queue). -/
  pending : List Instr
deriving DecidableEq, Repr

/-- The state right after reset: an always-on power-on reset has taken place and the always-on, Heel main and Sole domains
are out of reset, every register at its Reset column, but for TBASE_STATUS, where ALIGNED and COLD stand as R45 and R46 have them set before the
Sole is released, and INS_STATUS, where INIT stands as R96 sets it for the Insole of a first power-up; nothing in memory, no command waiting
(notes/assumptions/3.md). -/
def State.reset : State :=
  { variant := .nx848,
    regs := [(R.TBASE_STATUS, 3), (R.INS_STATUS, 2)],
    mem := [],
    lines := [],
    tb := TimeBase.init,
    sup := Supply.init,
    cores := [],
    boot := Boot.init,
    holds := [],
    queues := [],
    rot := [],
    eng := Eng.init,
    io := Io.init,
    flt := Flt.init,
    net := [],
    resp := [],
    noc := Noc.init,
    scrubPos := [],
    bwcLen := [],
    awlSpent := [],
    traceQ := [],
    sigOut := [],
    ret := 0,
    free := 0,
    pending := [] }

/-- s with variant replaced. -/
def State.withVariant (s : State) (x : Variant) : State := { s with variant := x }
/-- s with regs replaced. -/
def State.withRegs (s : State) (x : Tab W32) : State := { s with regs := x }
/-- s with mem replaced. -/
def State.withMem (s : State) (x : List Host.Cell) : State := { s with mem := x }
/-- s with lines replaced. -/
def State.withLines (s : State) (x : Tab LineState) : State := { s with lines := x }
/-- s with tb replaced. -/
def State.withTb (s : State) (x : TimeBase) : State := { s with tb := x }
/-- s with sup replaced. -/
def State.withSup (s : State) (x : Supply) : State := { s with sup := x }
/-- s with cores replaced. -/
def State.withCores (s : State) (x : Tab Core) : State := { s with cores := x }
/-- s with boot replaced. -/
def State.withBoot (s : State) (x : Boot) : State := { s with boot := x }
/-- s with holds replaced. -/
def State.withHolds (s : State) (x : Tab Hold) : State := { s with holds := x }
/-- s with queues replaced. -/
def State.withQueues (s : State) (x : Tab Queue) : State := { s with queues := x }
/-- s with rot replaced. -/
def State.withRot (s : State) (x : Tab Nat) : State := { s with rot := x }
/-- s with eng replaced. -/
def State.withEng (s : State) (x : Eng) : State := { s with eng := x }
/-- s with io replaced. -/
def State.withIo (s : State) (x : Io) : State := { s with io := x }
/-- s with flt replaced. -/
def State.withFlt (s : State) (x : Flt) : State := { s with flt := x }
/-- s with net replaced. -/
def State.withNet (s : State) (x : List NetReq) : State := { s with net := x }
/-- s with resp replaced. -/
def State.withResp (s : State) (x : List NetResp) : State := { s with resp := x }
/-- s with noc replaced. -/
def State.withNoc (s : State) (x : Noc) : State := { s with noc := x }
/-- s with scrubPos replaced. -/
def State.withScrubPos (s : State) (x : Tab Nat) : State := { s with scrubPos := x }
/-- s with bwcLen replaced. -/
def State.withBwcLen (s : State) (x : Tab W32) : State := { s with bwcLen := x }
/-- s with awlSpent replaced. -/
def State.withAwlSpent (s : State) (x : List Nat) : State := { s with awlSpent := x }
/-- s with traceQ replaced. -/
def State.withTraceQ (s : State) (x : List (List Byte)) : State := { s with traceQ := x }
/-- s with sigOut replaced. -/
def State.withSigOut (s : State) (x : List RemoteSig) : State := { s with sigOut := x }
/-- s with ret replaced. -/
def State.withRet (s : State) (x : Word) : State := { s with ret := x }
/-- s with free replaced. -/
def State.withFree (s : State) (x : Nat) : State := { s with free := x }
/-- s with pending replaced. -/
def State.withPending (s : State) (x : List Instr) : State := { s with pending := x }

end Sys2Proof.Machine
end

