-- ==== Sys2Proof/Machine/Tab.lean ====
section
/-! DEFINITION. Machine/Tab.lean: reading and writing a finite table (Tab). A table holds only what differs from what
an unlisted key reads as, its keys rise, so equal contents are equal data. -/
namespace Sys2Proof.Machine

/-- What table t holds at key k, where d says what an unlisted key reads as. -/
def tabGet {α : Type} (d : Nat → α) : Tab α → Nat → α
  | [], k => d k
  | e :: t, k => if e.1 = k then e.2 else tabGet d t k

/-- Insert a pair before the first key above it. -/
def tabIns {α : Type} (k : Nat) (v : α) : Tab α → Tab α
  | [] => [(k, v)]
  | e :: t => if k < e.1 then (k, v) :: e :: t else e :: tabIns k v t

/-- The table without key k. -/
def tabDel {α : Type} (k : Nat) : Tab α → Tab α
  | [] => []
  | e :: t => if e.1 = k then tabDel k t else e :: tabDel k t

/-- Write v at key k: the pair is listed only where v is not what an unlisted k reads as. -/
def tabPut {α : Type} [DecidableEq α] (d : Nat → α) (k : Nat) (v : α) (t : Tab α) : Tab α :=
  if v = d k then tabDel k t else tabIns k v (tabDel k t)

/-- Keep the pairs whose key satisfies p. -/
def tabKeep {α : Type} (p : Nat → Bool) : Tab α → Tab α
  | [] => []
  | e :: t => if p e.1 then e :: tabKeep p t else tabKeep p t

/-- The canonical form above a bound: keys rise, all at least lo, no pair equal to the unlisted reading. -/
def tabWfFrom {α : Type} [DecidableEq α] (d : Nat → α) : Nat → Tab α → Bool
  | _, [] => true
  | lo, e :: t => decide (lo ≤ e.1) && !decide (e.2 = d e.1) && tabWfFrom d (e.1 + 1) t

/-- The canonical form of a table. -/
def tabWf {α : Type} [DecidableEq α] (d : Nat → α) (t : Tab α) : Bool := tabWfFrom d 0 t

end Sys2Proof.Machine
end

