-- ==== Sys2Proof/Machine/Ops.lean ====
section
/-! DEFINITION. Machine/Ops.lean: the named operations over registers, fields and bytes, which every meaning is written with. -/
namespace Sys2Proof.Machine

/-! ### Fields of a register word -/

/-- The bits of a field. -/
def Fld.mask (f : Fld) : W32 := BitVec.ofNat 32 ((2 ^ f.w - 1) <<< f.lo)

/-- The value of a field in a word. -/
def fget (v : W32) (f : Fld) : Nat := (v >>> f.lo).toNat % 2 ^ f.w

/-- A word with a field replaced; every other bit stays. -/
def fput (v : W32) (f : Fld) (x : Nat) : W32 :=
  (v &&& ~~~f.mask) ||| BitVec.ofNat 32 ((x % 2 ^ f.w) <<< f.lo)

/-- The single-bit field n. -/
def bitF (n : Nat) : Fld := ⟨n, 1⟩

/-! ### Registers -/

/-- What the register at a physical address holds. -/
def State.rd (s : State) (a : Nat) : W32 := tabGet regReset s.regs a

/-- Put a word into the register at a physical address. -/
def State.wr (s : State) (a : Nat) (v : W32) : State := s.withRegs (tabPut regReset a v s.regs)

/-- A field of a register. -/
def State.fld (s : State) (a : Nat) (f : Fld) : Nat := fget (s.rd a) f

/-- Replace a field of a register. -/
def State.setFld (s : State) (a : Nat) (f : Fld) (x : Nat) : State := s.wr a (fput (s.rd a) f x)

/-- A field is not zero. -/
def State.on (s : State) (a : Nat) (f : Fld) : Bool := s.fld a f != 0

/-- Bit n of a register. -/
def State.bit (s : State) (a n : Nat) : Bool := (s.rd a).getLsbD n

/-- Set or clear bit n of a register. -/
def State.putBit (s : State) (a n : Nat) (b : Bool) : State := s.setFld a (bitF n) b.toNat

/-- Advance a field by k, stopping at its greatest value. -/
def State.advSat (s : State) (a : Nat) (f : Fld) (k : Nat) : State :=
  s.setFld a f (Nat.min (s.fld a f + k) (2 ^ f.w - 1))

/-- Advance a field by k, wrapping. -/
def State.advWrap (s : State) (a : Nat) (f : Fld) (k : Nat) : State := s.setFld a f (s.fld a f + k)

/-- A 64-bit value held as two registers, low word first. -/
def State.rd2 (s : State) (lo hi : Nat) : Word := s.rd hi ++ s.rd lo

/-- Put a 64-bit value into two registers. -/
def State.wr2 (s : State) (lo hi : Nat) (v : Word) : State :=
  (s.wr lo (v.setWidth 32)).wr hi ((v >>> 32).setWidth 32)

/-- The registers of the domains that p names take their reset values. -/
def State.resetRegs (s : State) (p : Nat → Bool) : State := s.withRegs (tabKeep (fun a => !p a) s.regs)

/-! ### Bytes -/

/-- What a byte of addressed memory that nothing has written reads as: Golyver's boot code in the boot ROM (R623), erased
bytes in the image store (R107), the signature, the fault summary's MAGIC and the debug log's of a reinitialised Insole (R92, R96, R455), zero elsewhere
(R87, R96, R210, R211 and notes/assumptions/6.md). -/
def memDefault (a : Nat) : Byte :=
  if a < 0x40000 then Config.bootRom a
  else if a = 0x28000000 then 0x4C
  else if a = 0x28000001 then 0x53
  else if a = 0x28000002 then 0x4E
  else if a = 0x28000003 then 0x49
  else if a = 0x28002400 then 0x53
  else if a = 0x28002401 then 0x54
  else if a = 0x28002402 then 0x4C
  else if a = 0x28002403 then 0x46
  else if a = 0x28003000 then 0x4C
  else if a = 0x28003001 then 0x47
  else if a = 0x28003002 then 0x42
  else if a = 0x28003003 then 0x44
  else if 0x24000000 ≤ a ∧ a < 0x26000000 then 0xFF
  else 0

/-- The byte at a physical address. -/
def State.byte (s : State) (a : Nat) : Byte := tabGet memDefault s.mem a

/-- Store a byte. -/
def State.putByte (s : State) (a : Nat) (v : Byte) : State := s.withMem (tabPut memDefault a v s.mem)

/-- n bytes from an address, lowest first. -/
def State.bytes (s : State) (a : Nat) : Nat → List Byte
  | 0 => []
  | n + 1 => s.byte a :: State.bytes s (a + 1) n

/-- Store bytes from an address, lowest first. -/
def State.putBytes (s : State) (a : Nat) : List Byte → State
  | [] => s
  | b :: bs => (s.putByte a b).putBytes (a + 1) bs

/-- The little-endian number of a list of bytes. -/
def leNat : List Byte → Nat
  | [] => 0
  | b :: bs => b.toNat + 256 * leNat bs

/-- The n little-endian bytes of a number. -/
def leBytes : Nat → Nat → List Byte
  | 0, _ => []
  | n + 1, x => BitVec.ofNat 8 x :: leBytes n (x / 256)

/-- The 32-bit word at an address, little-endian. -/
def State.word (s : State) (a : Nat) : W32 := BitVec.ofNat 32 (leNat (s.bytes a 4))


/-- The 64-bit doubleword at an address. -/
def State.dword (s : State) (a : Nat) : Word := BitVec.ofNat 64 (leNat (s.bytes a 8))


/-- Every byte from lo up to hi reads as an unlisted byte again. -/
def State.clearMem (s : State) (lo hi : Nat) : State :=
  (s.withMem (tabKeep (fun a => a < lo || hi ≤ a) s.mem)).withLines (tabKeep (fun a => a < lo || hi ≤ a) s.lines)

/-- The little-endian words of a list of bytes, four bytes each. -/
def leWords : List Byte → List W32
  | a :: b :: c :: d :: r => BitVec.ofNat 32 (leNat [a, b, c, d]) :: leWords r
  | _ => []

/-! ### Line states -/

def lineDefault (_ : Nat) : LineState := .clean

/-- The integrity state of the line, or Insole word, whose first byte is a. -/
def State.line (s : State) (a : Nat) : LineState := tabGet lineDefault s.lines a

def State.putLine (s : State) (a : Nat) (l : LineState) : State := s.withLines (tabPut lineDefault a l s.lines)

/-- The hardware writes a 32-bit word of Insole: it is stored with fresh check bits, which clears any error in it (R95). -/
def State.putWord (s : State) (a : Nat) (v : W32) : State := (s.putBytes a (leBytes 4 v.toNat)).putLine a .clean

/-- The hardware writes words of Insole from an address, lowest first. -/
def State.putWords (s : State) (a : Nat) : List W32 → State
  | [] => s
  | v :: vs => (s.putWord a v).putWords (a + 4) vs

/-- The hardware writes a 64-bit doubleword of Insole. -/
def State.putDword (s : State) (a : Nat) (v : Word) : State := s.putWords a [v.setWidth 32, (v >>> 32).setWidth 32]

/-! ### Cores, queues, holds -/

def State.core (s : State) (c : CoreId) : Core := tabGet coreReset s.cores (coreKey c)

def State.setCore (s : State) (c : CoreId) (x : Core) : State := s.withCores (tabPut coreReset (coreKey c) x s.cores)

def queueDefault (_ : Nat) : Queue := Queue.init

/-- Queue q of global engine g, by key 4·g + q. -/
def State.queue (s : State) (k : Nat) : Queue := tabGet queueDefault s.queues k

def State.setQueue (s : State) (k : Nat) (x : Queue) : State := s.withQueues (tabPut queueDefault k x s.queues)

def holdDefault (_ : Nat) : Hold := Hold.init

/-- Hold n of die code c, by key 256·c + n. -/
def State.hold (s : State) (k : Nat) : Hold := tabGet holdDefault s.holds k

def State.setHold (s : State) (k : Nat) (x : Hold) : State := s.withHolds (tabPut holdDefault k x s.holds)

/-! ### Words of a header, an entry or a descriptor (R256, R258) -/

/-- Word i of a header, entry or descriptor. -/
def wd (w : List W32) (i : Nat) : W32 := w.getD i 0

/-- The 48-bit address in words i and i + 1. -/
def wdAddr (w : List W32) (i : Nat) : Word := (((wd w (i + 1)).setWidth 16) ++ wd w i).setWidth 64

/-- The high word of an address carries nothing above bit 47 (R258). -/
def wdAddrOk (w : List W32) (i : Nat) : Bool := wd w (i + 1) >>> 16 == 0

/-- The entry's opcode. -/
def opIs (n : Nat) (w : List W32) : Bool := (wd w 0).toNat % 256 == n

/-- Opcode of the entry a queue runs. -/
def Queue.op (q : Queue) : Option Nat := q.entry.map (fun w => (wd w 0).toNat % 256)

/-! ### Streams, matrix entries, pipelines and regions -/

def streamDefault (_ : Nat) : Stream := Stream.init

/-- Stream unit s of engine g, by key 16·g + s. -/
def State.stream (s : State) (u : Nat) : Stream := tabGet streamDefault s.eng.streams u

def State.setStream (s : State) (u : Nat) (x : Stream) : State := s.withEng { s.eng with streams := tabPut streamDefault u x s.eng.streams }

def State.onStream (s : State) (u : Nat) (f : Stream → Stream) : State := s.setStream u (f (s.stream u))

def noMat (_ : Nat) : Option Mat := none

/-- The matrix entry that queue k runs. -/
def State.mat (s : State) (k : Nat) : Option Mat := tabGet noMat s.eng.mats k

def State.setMat (s : State) (k : Nat) (x : Option Mat) : State := s.withEng { s.eng with mats := tabPut noMat k x s.eng.mats }

def noSeal (_ : Nat) : Seal := ⟨[], none⟩
def noPipe (_ : Nat) : Option Pipe := none

/-- The PIPE that runs on engine g. -/
def State.pipe (s : State) (g : Nat) : Option Pipe := tabGet noPipe s.eng.pipes g

def State.setPipe (s : State) (g : Nat) (x : Option Pipe) : State := s.withEng { s.eng with pipes := tabPut noPipe g x s.eng.pipes }

def rgnDefault (_ : Nat) : Rgn := Rgn.init

/-- Fabric region r of die d, by key 8·d + r. -/
def State.rgn (s : State) (k : Nat) : Rgn := tabGet rgnDefault s.eng.rgns k

def State.setRgn (s : State) (k : Nat) (x : Rgn) : State := s.withEng { s.eng with rgns := tabPut rgnDefault k x s.eng.rgns }

/-! ### Free values -/

/-- Draw a free value: what the manual leaves undefined or does not state (notes/assumptions/1.md). -/
def State.draw (s : State) : Word := Config.freeValue s.free

/-- The state after a draw. -/
def State.drawn (s : State) : State := s.withFree (s.free + 1)

/-- n free bytes. -/
def State.drawBytes (s : State) : Nat → State × List Byte
  | 0 => (s, [])
  | n + 1 =>
    let p := s.drawn.drawBytes n
    (p.1, s.draw.setWidth 8 :: p.2)

/-! ### Small tables and lists -/

def wordZero (_ : Nat) : Word := 0
def w32Zero (_ : Nat) : W32 := 0
def natZero (_ : Nat) : Nat := 0
def boolFalse (_ : Nat) : Bool := false
def boolTrue (_ : Nat) : Bool := true

/-- Apply a state change for each number of a list, in order. -/
def State.each (s : State) (f : State → Nat → State) : List Nat → State
  | [] => s
  | n :: ns => (f s n).each f ns

/-- The numbers of the set bits of x below n, rising. -/
def bitsOf (x n : Nat) : List Nat := (List.range n).filter (fun i => x.testBit i)

/-- All 15 cores. -/
def allCores : List CoreId :=
  [.sole 0, .sole 1, .sole 2, .sole 3, .sole 4, .sole 5, .sole 6, .sole 7, .sole 8, .sole 9, .heel, .keeper 0, .keeper 1,
   .keeper 2, .keeper 3]

/-- Apply a change to each core of a list. -/
def State.eachCore (s : State) (f : Core → Core) : List CoreId → State
  | [] => s
  | c :: cs => (s.setCore c (f (s.core c))).eachCore f cs

/-- The outcome of a meaning that completes. -/
abbrev done (s : State) : Host.Outcome State Fault Refusal := .next s

end Sys2Proof.Machine
end

