-- ==== Sys2Proof/Machine/Access.lean ====
section
/-! DEFINITION. Machine/Access.lean: the address map, who may reach what, and the checks a request passes at its network
entry (08_memory.md R184–R205, 09_network.md R232–R237). -/
namespace Sys2Proof.Machine

/-! ### Dies, variants and liveness (01_package.md) -/

/-- Compute dies a variant carries (R17). -/
def variantDies : Variant → Nat
  | .nx848 => 4
  | .nx524 => 2
  | .nx312 => 1
  | .nx200 => 0

/-- Larder dies a variant carries (R17). -/
def variantLarders : Variant → Nat
  | .nx848 => 2
  | .nx524 => 1
  | .nx312 => 0
  | .nx200 => 0

/-- Code of compute die d in LIVE_DIE_STATE: 0 ABSENT, 1 OFF, 2 STARTING, 3 LIVE, 4 UNAGREED, 5 RETIRED. -/
def State.dieState (s : State) (d : Nat) : Nat :=
  if d < variantDies s.variant then fget (s.rd R.LIVE_DIE_STATE) ⟨4 * d, 4⟩ else 0

/-- Code of Larder die l in LIVE_DIE_STATE (6 UNREACHABLE besides the above). -/
def State.larderState (s : State) (l : Nat) : Nat :=
  if l < variantLarders s.variant then fget (s.rd R.LIVE_DIE_STATE) ⟨16 + 4 * l, 4⟩ else 0

def State.setDieState (s : State) (d c : Nat) : State := s.setFld R.LIVE_DIE_STATE ⟨4 * d, 4⟩ c
def State.setLarderState (s : State) (l c : Nat) : State := s.setFld R.LIVE_DIE_STATE ⟨16 + 4 * l, 4⟩ c

/-- Compute die d is in state LIVE. -/
def State.dieLive (s : State) (d : Nat) : Bool := s.dieState d == 3

/-- Compute die d has power and is out of OFF: its registers are reached (R2). -/
def State.diePowered (s : State) (d : Nat) : Bool := s.dieState d == 2 || s.dieState d == 3 || s.dieState d == 4

/-- A unit code is in service under test (FLT_TESTn, R451). -/
def State.testing (s : State) (u : BitVec 16) : Bool :=
  (List.range 4).any (fun n => s.bit (R.FLT_TEST n) 31 && (s.rd (R.FLT_TEST n)).setWidth 16 == u)

/-- The unit code of a type and an index (R438). -/
def unitCode (ty ix : Nat) : BitVec 16 := BitVec.ofNat 16 (ty * 4096 + ix)

/-- A unit is retired (R445). -/
def State.isRetired (s : State) (u : BitVec 16) : Bool := s.flt.retired.contains u

/-! ### Initiators (R193, R202) -/

/-- Die code of a core: 0 Sole, 1 Heel, 8 + d. -/
def coreDie : CoreId → Nat
  | .sole _ => 0
  | .heel => 1
  | .keeper d => 8 + d.val

/-- Guard index of a core on its die. -/
def coreUnit : CoreId → Nat
  | .sole n => n.val
  | .heel => 0
  | .keeper _ => 16

/-- Die code of the entry a request of this initiator enters at. The debug port is on the Heel. -/
def iniDie : Ini → Nat
  | .core c _ => coreDie c
  | .soleUnit _ => 0
  | .engine d _ _ => 8 + d.val
  | .region d _ _ => 8 + d.val
  | .package _ d => 8 + d.val
  | .debug => 1

/-- Guard index of an initiator (R193); 31 for the debug port. -/
def iniGuard : Ini → Nat
  | .core c _ => coreUnit c
  | .soleUnit u => 10 + u.val
  | .engine _ e _ => e.val
  | .region _ r _ => 8 + r.val
  | .package _ _ => 17
  | .debug => 31

/-- Whether the request is judged as a user-level core request (R195). -/
def iniUser : Ini → Bool
  | .core _ p => !p
  | _ => false

/-- The 16-bit initiator ID (R202). -/
def iniId : Ini → BitVec 16
  | .core c p => BitVec.ofNat 16 (coreDie c * 4096 + coreUnit c * 128 + p.toNat * 64)
  | .soleUnit u => BitVec.ofNat 16 ((10 + u.val) * 128)
  | .engine d e sub => BitVec.ofNat 16 ((8 + d.val) * 4096 + e.val * 128 + sub.toNat)
  | .region d r p => BitVec.ofNat 16 ((8 + d.val) * 4096 + (8 + r.val) * 128 + p.toNat)
  | .package p _ => BitVec.ofNat 16 (0xF000 + p.toNat * 16)
  | .debug => BitVec.ofNat 16 (0xE000 + 31 * 128)

/-- Privileged Sole firmware (R136); the debug port counts as it (R583). -/
def iniPrivSole : Ini → Bool
  | .core (.sole _) p => p
  | .debug => true
  | _ => false

def iniHeelCore : Ini → Bool
  | .core .heel _ => true
  | _ => false

def iniKeeper (d : Nat) : Ini → Bool
  | .core (.keeper k) _ => k.val == d
  | _ => false

def iniIsCore : Ini → Bool
  | .core _ _ => true
  | _ => false

/-! ### The map (R184, R185, R190) -/

/-- A region of the map (R184). -/
inductive Region where
  | bootRom | sram | soleReg | heelReg | store | insole | heelRam | trace
  | dieReg (d : Nat) | keeperRam (d : Nat) | host | larder (l : Nat) | engMem (d e : Nat) | fabric (d : Nat)
  | window (w : Nat)
deriving DecidableEq, Repr

/-- The attribute of a region (R190). -/
inductive Attr where
  | pf | device | ordered
deriving DecidableEq, Repr

/-- Addressable host memory in bytes: 31/32 of eight channels of 2^DENSITY GiB (R189); the greatest capacity before training
has read the density. -/
def State.hostSize (s : State) : Nat :=
  let d := s.fld R.GRD_HMEM_STAT F.GRD_HMEM_STAT.DENSITY
  8 * 2 ^ (if d = 0 then 5 else d) * 0x40000000 / 32 * 31

/-- The region an address lies in, with the region's first and last byte. -/
def State.regionOf (s : State) (a : Nat) : Option (Region × Nat × Nat) :=
  let span (r : Region) (lo n : Nat) : Option (Region × Nat × Nat) := some (r, lo, lo + n - 1)
  if a < 0x40000 then span .bootRom 0 0x40000
  else if 0x01000000 ≤ a ∧ a < 0x02000000 then span .sram 0x01000000 0x01000000
  else if 0x10000000 ≤ a ∧ a < 0x11000000 then span .soleReg 0x10000000 0x01000000
  else if 0x20000000 ≤ a ∧ a < 0x20100000 then span .heelReg 0x20000000 0x100000
  else if 0x24000000 ≤ a ∧ a < 0x26000000 then span .store 0x24000000 0x02000000
  else if 0x28000000 ≤ a ∧ a < 0x28010000 then span .insole 0x28000000 0x10000
  else if 0x2C000000 ≤ a ∧ a < 0x2C040000 then span .heelRam 0x2C000000 0x40000
  else if 0x30000000 ≤ a ∧ a < 0x30400000 then span .trace 0x30000000 0x400000
  else if 0x080000000000 ≤ a ∧ a < 0x080040000000 then
    let d := (a - 0x080000000000) / 0x10000000
    let b := 0x080000000000 + d * 0x10000000
    if b + 0x08000000 ≤ a ∧ a < b + 0x08400000 then span (.keeperRam d) (b + 0x08000000) 0x400000
    else span (.dieReg d) b 0x10000000
  else if 0x100000000000 ≤ a ∧ a < 0x100000000000 + s.hostSize then span .host 0x100000000000 s.hostSize
  else if 0x200000000000 ≤ a ∧ a < 0x200200000000 then
    let l := (a - 0x200000000000) / 0x100000000
    span (.larder l) (0x200000000000 + l * 0x100000000) 0x100000000
  else if 0x300000000000 ≤ a ∧ a < 0x300040000000 ∧ (a - 0x300000000000) % 0x10000000 < 0x08000000 then
    let d := (a - 0x300000000000) / 0x10000000
    let e := (a - 0x300000000000) % 0x10000000 / 0x01000000
    span (.engMem d e) (0x300000000000 + d * 0x10000000 + e * 0x01000000) 0x01000000
  else if 0x380000000000 ≤ a ∧ a < 0x380100000000 then
    let d := (a - 0x380000000000) / 0x40000000
    span (.fabric d) (0x380000000000 + d * 0x40000000) 0x40000000
  else if 0xF00000000000 ≤ a ∧ a < 0xF40000000000 then
    let w := (a - 0xF00000000000) / 0x1000000000
    span (.window w) (0xF00000000000 + w * 0x1000000000) 0x1000000000
  else none

/-- Whether the 4 KiB block of an address is named by a chapter as a register block, a table or a memory (R11, R185). The
message RAMs of the eight message bus controllers are 0x2002_0000 + 0x2000·i (R507). -/
def pageNamed (a : Nat) : Bool :=
  let p := a / 4096 * 4096
  (0x20020000 ≤ p && p < 0x20030000) ||
  regBlocks.any (fun b =>
    if p < b.base / 4096 * 4096 then false
    else match dimsRest (p - b.base / 4096 * 4096) b.dims with
      | some o => o < (b.size + 4095) / 4096 * 4096
      | none => false)

/-- The descriptor of remote window w is enabled (R186). -/
def State.windowEn (s : State) (w : Nat) : Bool := s.bit (R.LACE_WIN_HI w) 31

/-- Remote base and target package of window w (R186, R432). -/
def State.windowBase (s : State) (w : Nat) : Nat :=
  s.fld (R.LACE_WIN_HI w) F.LACE_WIN_HI.BASE * 0x100000000 + (s.rd (R.LACE_WIN_LO w)).toNat

def State.windowPkg (s : State) (w : Nat) : BitVec 8 := BitVec.ofNat 8 (s.fld (R.LACE_WIN_HI w) F.LACE_WIN_HI.PKG)

/-- The attribute of a region (R184, R186). -/
def State.attrOf (s : State) : Region → Attr
  | .bootRom | .sram | .heelRam | .trace | .keeperRam _ | .host | .larder _ | .engMem _ _ => .pf
  | .soleReg | .dieReg _ | .fabric _ => .device
  | .heelReg | .store | .insole => .ordered
  | .window w => if s.bit (R.LACE_WIN_HI w) 30 then .device else .pf

/-- The die code a region is on; Larders count as on a die of their own (R234). -/
def regionDie : Region → Nat
  | .bootRom | .sram | .soleReg | .trace | .host => 0
  | .heelReg | .store | .insole | .heelRam => 1
  | .dieReg d | .keeperRam d | .engMem d _ | .fabric d => 8 + d
  | .larder l => 100 + l
  | .window _ => 200

/-- Check 1: the address is mapped (R185, R188). -/
def State.mapped (s : State) (a : Nat) : Bool :=
  match s.regionOf a with
  | none => false
  | some (.soleReg, _, _) | some (.heelReg, _, _) | some (.dieReg _, _, _) => pageNamed a
  | some (.host, _, _) => !s.on R.GRD_HMEM_STAT F.GRD_HMEM_STAT.FAIL
  | some (.window w, lo, _) =>
    s.windowEn w && decide ((s.windowBase w) + (a - lo) < 0x1000000000000) && s.windowPkg w != (s.rd R.LACE_PKG).setWidth 8
  | some _ => true

/-- Whether the refusal of R27 and the RETIRED checks are lifted for this initiator toward units under test of die d
(R451). -/
def testLift (d : Nat) (i : Ini) : Bool :=
  iniPrivSole i || iniKeeper d i || (match i with | .engine e _ _ => e.val == d | _ => false)

/-- Check 4: the target is live (R27, R213, R449), with the lifting of R451 for units in TESTING, also where their die has lost power (DESIGN CHOICE, notes/assumptions/115.md). -/
def State.targetLive (s : State) (i : Ini) (r : Region) (a : Nat) : Bool :=
  match r with
  | .engMem d e =>
    let g := 8 * d + e
    let b := a % 0x01000000 / 0x100000
    let bank := unitCode 5 (16 * g + b)
    let engOk := s.bit R.LIVE_ENGINES g || (s.testing (unitCode 3 g) && testLift d i)
    let bankOk := !s.isRetired bank || (s.testing bank && testLift d i)
    engOk && bankOk
  | .larder l =>
    let b := a % 0x100000000 / 0x4000000
    let bank := unitCode 6 (64 * l + b)
    s.bit R.LIVE_LARDER l && (!s.isRetired bank || (s.testing bank && (testLift (2 * l) i || testLift (2 * l + 1) i)))
  | .fabric d =>
    let k := 8 * d + (a - 0x380000000000) % 0x40000000 / 0x08000000
    s.bit R.LIVE_FABRIC k || (s.testing (unitCode 9 k) && testLift d i)
  | .keeperRam d => s.diePowered d
  | _ => true

/-! ### Guards (R193–R200) -/

/-- Whether region n of guard j on die code c is enabled and holds the byte a; the answer is its PERM word and last byte. -/
def State.guardHit (s : State) (c j a n : Nat) : Bool :=
  let t := grdTable c
  s.bit (R.GRD_PERM t j n) 0 &&
    decide ((s.rd2 (R.GRD_BASE_LO t j n) (R.GRD_BASE_HI t j n)).toNat ≤ a) &&
    decide (a ≤ (s.rd2 (R.GRD_LIMIT_LO t j n) (R.GRD_LIMIT_HI t j n)).toNat)

/-- The number of the enabled region of a guard that a request's first byte lies in (R195). -/
def State.guardRegion (s : State) (c j a : Nat) : Option Nat := (List.range 32).find? (s.guardHit c j a)

/-- Check 8: the permission of R195. -/
def permOk (perm : W32) (i : Ini) (k : Kind) : Bool :=
  let r := if iniUser i then perm.getLsbD 4 else perm.getLsbD 1
  let w := if iniUser i then perm.getLsbD 5 else perm.getLsbD 2
  let x := if iniUser i then perm.getLsbD 6 else perm.getLsbD 3
  match k with
  | .read => r
  | .write => w
  | .fetch => if iniIsCore i then x else r
  | .atomic => r && w

/-- Whether a request's guard is enabled (GRD_CTL). -/
def State.guardOn (s : State) (i : Ini) : Bool := s.bit (R.GRD_CTL (grdBase (iniDie i))) (iniGuard i)

/-- Checks 6 to 8 (R196, R197): none where they pass, else the reason code. The debug port passes no guard (R194). -/
def State.guardCheck (s : State) (q : Req) : Option Nat :=
  match q.ini with
  | .debug => none
  | i =>
    if s.guardOn i then
      match s.guardRegion (iniDie i) (iniGuard i) q.addr.toNat with
      | none => some 5
      | some n =>
        let t := grdTable (iniDie i)
        if (s.rd2 (R.GRD_LIMIT_LO t (iniGuard i) n) (R.GRD_LIMIT_HI t (iniGuard i) n)).toNat < q.addr.toNat + q.len - 1 then some 6
        else if permOk (s.rd (R.GRD_PERM t (iniGuard i) n)) i q.kind then none else some 7
    else if iniUser i then some 5 else none

/-- The attribute an access takes: its region's, narrowed by NOPF of the matching guard region (R191). -/
def State.accessAttr (s : State) (q : Req) (r : Region) : Attr :=
  match s.attrOf r, q.ini with
  | .pf, .debug => .pf
  | .pf, i =>
    if s.guardOn i then
      match s.guardRegion (iniDie i) (iniGuard i) q.addr.toNat with
      | some n => if s.bit (R.GRD_PERM (grdTable (iniDie i)) (iniGuard i) n) 7 then .device else .pf
      | none => .pf
    else .pf
  | x, _ => x

/-- Check 5 (R211): the host memory line lies below the fill point. -/
def State.belowFill (s : State) (r : Region) (a : Nat) : Bool :=
  match r with
  | .host => (a - 0x100000000000) / 0x100000 < (s.rd R.GRD_HMEM_FILL).toNat
  | _ => true

/-- Whether a region is a register region with named blocks of 32-bit registers (R8). -/
def isRegRegion (r : Region) (a : Nat) : Bool :=
  match r with
  | .soleReg | .heelReg | .dieReg _ => !(0x20020000 ≤ a && a < 0x20030000)
  | _ => false

/-- Checks 1 to 9 of R196 in order: none where all pass, else the reason code of the first that fails. Check 10 is made at
the target. -/
def State.entryCheck (s : State) (q : Req) : Option Nat :=
  let a := q.addr.toNat
  match s.regionOf a with
  | none => some 1
  | some (r, _, last) =>
    if !s.mapped a then some 1
    else if last < a + q.len - 1 then some 2
    else if isRegRegion r a && !(q.len == 4 && a % 4 == 0) then some 11
    else if !s.targetLive q.ini r a then some 3
    else if !s.belowFill r a then some 4
    else match s.guardCheck q with
      | some c => some c
      | none => if q.early && s.accessAttr q r != .pf && q.ini != .debug then some 10 else none

/-- Core SUB of a reason code (R196, last column). -/
def reasonSub (c : Nat) : Nat :=
  if c = 11 then 3 else if c = 3 ∨ c = 4 then 2 else if c = 8 then 6 else if c = 9 then 4 else 1

/-! ### Labels and bandwidth classes (R232–R237) -/

/-- The label a request enters the network with (R232, R233), and the state with NOC_STAT.SUBST advanced where it was
replaced. The Heel core and the debug port have no entry of a NOC block. -/
def State.labelAtEntry (s : State) (q : Req) : State × Nat :=
  if iniDie q.ini = 1 then (s, q.cls)
  else
    let b := nocBase (iniDie q.ini)
    let v := s.rd (R.NOC_ENTRY_CLASS b (iniGuard q.ini))
    if v.getLsbD q.cls then (s, q.cls)
    else
      let s1 := s.advSat (R.NOC_STAT b) F.NOC_STAT.SUBST 1
      (s1.setFld (R.NOC_STAT b) F.NOC_STAT.SUBST_J (iniGuard q.ini), fget v F.NOC_ENTRY_CLASS.DEFAULT)

/-- The label an initiator's requests carry where no list header or source package gives one (R232). -/
def State.iniLabel (s : State) (i : Ini) : Nat :=
  let dflt := s.fld (R.NOC_ENTRY_CLASS (nocBase (iniDie i)) (iniGuard i)) F.NOC_ENTRY_CLASS.DEFAULT
  match i with
  | .core (.sole _) _ => dflt
  | .region _ _ _ => dflt
  | _ => 15

/-- The resource of a request (R234): 0 HOST, 1 LARDER, 2 PEER, 3 REMOTE; none where it is not counted. -/
def resourceOf (i : Ini) (r : Region) : Option Nat :=
  match r with
  | .window _ => some 3
  | .larder _ => some 1
  | .host => if iniDie i = 0 then none else some 0
  | _ => if regionDie r = iniDie i then none else some 2

/-- 64-byte lines a request touches. -/
def linesTouched (a n : Nat) : Nat := if n = 0 then 0 else (a + n - 1) / 64 - a / 64 + 1

/-- Count n lines of a label on resource k of an initiator's die, and demote its class where the count passes the budget (R236, R237). -/
def State.bwcAdd (s : State) (i : Ini) (cls k n : Nat) : State :=
  let b := bwcBase (iniDie i)
  let c := s.fld (R.BWC_COUNT b cls k) F.BWC_COUNT.LINES + n
  let s1 := s.setFld (R.BWC_COUNT b cls k) F.BWC_COUNT.LINES (Nat.min c 0xFFFFFF)
  let budget := s.fld (R.BWC_BUDGET b cls k) F.BWC_BUDGET.LINES
  if cls < 15 ∧ budget ≠ 0xFFFFF ∧ budget < c then
    s1.putBit (if k < 2 then R.BWC_OVER_LO b else R.BWC_OVER_HI b) (16 * (k % 2) + cls) true
  else s1

/-- Count a request that has passed its guard (R234). -/
def State.bwcCount (s : State) (i : Ini) (cls : Nat) (r : Region) (n : Nat) : State :=
  if iniDie i = 1 then s
  else match resourceOf i r with
    | none => s
    | some k => s.bwcAdd i cls k n

end Sys2Proof.Machine
end

