-- ==== Sys2Proof/Machine/Packets.lean ====
section
/-! DEFINITION. Machine/Packets.lean: where the initiators and the targets of requests are attached, the way a request takes between them, the header it carries and
the ports it passes (09_network.md R215–R232). Nodes: 0 is the Sole hub, 1 + d compute die d, 5 + l Larder l. -/
namespace Sys2Proof.Machine

/-! ### Attachments (R215, R216) -/

/-- The router of network interface j: its coordinates (R215). -/
def niRouter (j : Nat) : Int × Int :=
  if j < 8 then ((1 + j % 4 : Nat), (1 + 3 * (j / 4) : Nat))
  else if j < 16 then ((1 + (j - 8) % 4 : Nat), (2 + (j - 8) / 4 : Nat))
  else (2, 0)

/-- Router (x, y) by its index 6·y + x. -/
def routerAt (x y : Nat) : Nat := 6 * y + x

/-- The router index of network interface j, 0–16. -/
def niIndex (j : Nat) : Nat := (niRouter j).2.toNat * 6 + (niRouter j).1.toNat

/-- The router of Lace link k of a die. -/
def linkRouter (k : Nat) : Nat := if k < 6 then routerAt 0 k else routerAt 5 (k - 6)

/-- The router of compute die d at which the bridge to a node attaches; sel says which of the two (R215, R230). -/
def bridgeRouter (d node sel : Nat) : Nat :=
  if node = 0 then routerAt (1 + sel) 0
  else if node = 1 + (d + 3) % 4 then routerAt (1 + sel) 5
  else if node < 5 then routerAt (3 + sel) 5
  else routerAt (3 + sel) 0

/-- Where the bridge between a node and another attaches: a router, or the Sole's hub port 18–21. -/
def bridgeAt (node other sel : Nat) : Nat := if node = 0 then 17 + other else bridgeRouter (node - 1) other sel

/-- A place in the network: node, router index or hub port, DPORT. -/
structure Place where
  node : Nat
  point : Nat
  dport : Nat
deriving DecidableEq, Repr

/-- DDIE of a place. -/
def Place.ddie (p : Place) : Nat := if p.node = 0 then (if p.point = 17 then 1 else 0) else 7 + p.node

/-- Where an initiator's requests enter. The Heel and the debug port reach the Sole hub through the Heel link; a Lace ingress is at its link's router. -/
def iniPlace (i : Ini) (via : Nat) : Place :=
  match i with
  | .core (.sole n) _ => ⟨0, n.val, 0⟩
  | .core .heel _ | .debug => ⟨0, 17, 0⟩
  | .core (.keeper d) _ => ⟨1 + d.val, niIndex 16, 1⟩
  | .soleUnit u => ⟨0, 10 + u.val, 0⟩
  | .engine d e _ => ⟨1 + d.val, niIndex e.val, 0⟩
  | .region d r _ => ⟨1 + d.val, niIndex (8 + r.val), 0⟩
  | .package _ d => ⟨1 + d.val, linkRouter (via % 12), 0⟩

/-! ### Dies on the way (R28, R229, R230) -/

/-- The ring bridge between compute dies p and r, by its bit in LIVE_WELT. -/
def ringBridge (p r : Nat) : Nat := if (p + 1) % 4 = r then 4 + p else 4 + r

/-- The Welt bridge between two nodes, by its bit in LIVE_WELT. -/
def bridgeOf (a b : Nat) : Nat :=
  if a = 0 then b - 1 else if b = 0 then a - 1 else if 5 ≤ b then 7 + a else if 5 ≤ a then 7 + b else ringBridge (a - 1) (b - 1)

/-- Ring bridge p–r has failed (R28). -/
def State.ringGone (s : State) (p r : Nat) : Bool := s.isRetired (unitCode 8 (ringBridge p r))

/-- The compute dies, or the Sole, on the way from node a to node b, b the last: neighbours directly, or the other way round the ring where their bridge has failed; opposite
dies through their fixed intermediate die, or the other one; on NX524 through the Sole hub (R28, R229). -/
def State.nodeWay (s : State) (a b : Nat) : List Nat :=
  if a = b then []
  else if a = 0 ∨ b = 0 then [b]
  else
    let p := a - 1
    let r := b - 1
    if variantDies s.variant = 2 then (if s.ringGone p r then [0, b] else [b])
    else if (p + 1) % 4 = r then (if s.ringGone p r then [1 + (p + 3) % 4, 1 + (p + 2) % 4, b] else [b])
    else if (r + 1) % 4 = p then (if s.ringGone p r then [1 + (p + 1) % 4, 1 + (p + 2) % 4, b] else [b])
    else
      let m := if p % 2 = 0 then 1 else 2
      let other := if p % 2 = 0 then 3 else 0
      [1 + (if s.ringGone p m || s.ringGone m r then other else m), b]

/-- The compute die through whose bridge a node reaches Larder l: its own, else its neighbour's (R230); where that bridge has failed, the Larder's other die (R28). For
the Sole the Larder's first die (notes/assumptions/107.md). -/
def State.larderVia (s : State) (node l : Nat) : Nat :=
  let d :=
    if node = 0 then 2 * l
    else if (node - 1) / 2 = l then node - 1
    else 3 - (node - 1)
  if s.isRetired (unitCode 8 (8 + d)) then (if d % 2 = 0 then d + 1 else d - 1) else d

/-- The link that a remote request takes (R428, R429): of the links of its package's entry in service, the one that address bits 19:12 choose. -/
def State.windowLink (s : State) (w a : Nat) : Option Nat :=
  let v := s.rd (R.LACE_RT (s.windowPkg w).toNat)
  let l := if v.getLsbD 31 then
      ([fget v F.LACE_RT.L0, fget v F.LACE_RT.L1, fget v F.LACE_RT.L2]).filter
        (fun n => decide (n < 48) && s.bit (if n < 32 then R.LIVE_LACE_LO else R.LIVE_LACE_HI) (n % 32))
    else []
  if l.isEmpty then none else l[a / 4096 % 256 % l.length]?

/-- Where a request leaves the network: its target's place, and the node behind it where that is a Larder. The boot ROM and Insole are reached with the Sole's and the
Heel's registers (notes/assumptions/107.md). -/
def State.targetPlace (s : State) (src : Nat) (q : Req) : Option (Place × Option Nat) :=
  let a := q.addr.toNat
  match s.regionOf a with
  | none => none
  | some (r, lo, _) =>
    match r with
    | .sram => some (⟨0, 14, 0⟩, none)
    | .host => some (⟨0, 15, 0⟩, none)
    | .bootRom | .soleReg => some (⟨0, 16, 0⟩, none)
    | .trace => some (⟨0, 12, 0⟩, none)
    | .heelReg | .store | .insole | .heelRam => some (⟨0, 17, 0⟩, none)
    | .dieReg d => some (⟨1 + d, routerAt 3 0, 1⟩, none)
    | .keeperRam d => some (⟨1 + d, niIndex 16, 1⟩, none)
    | .engMem d e => some (⟨1 + d, niIndex e, 0⟩, none)
    | .fabric d => some (⟨1 + d, niIndex (8 + (a - lo) / 0x08000000), 0⟩, none)
    | .larder l =>
      let d := s.larderVia src l
      some (⟨1 + d, bridgeRouter d (5 + l) (a / 256 % 2), 0⟩, some (5 + l))
    | .window w => (s.windowLink w (s.windowBase w + (a - lo))).map (fun n => (⟨1 + n / 12, linkRouter (n % 12), 0⟩, none))

/-! ### Routes on a die (R224–R226) -/

/-- Hops of a ROUTE word: 0 E, 1 W, 2 N, 3 S (R226). -/
def routeHops (v : W32) : List Nat := (List.range (fget v F.NOC_RT_ROUTE.LEN)).map (fun i => fget v ⟨4 + 2 * i, 2⟩)

/-- X-then-Y from one router to another (R224). -/
def xyHops (a b : Nat) : List Nat :=
  List.replicate (b % 6 - a % 6) 0 ++ List.replicate (a % 6 - b % 6) 1 ++ List.replicate (b / 6 - a / 6) 2 ++ List.replicate (a / 6 - b / 6) 3

/-- The router one hop on. -/
def hopIndex (r h : Nat) : Nat := if h = 0 then r + 1 else if h = 1 then r - 1 else if h = 2 then r + 6 else r - 6

/-- AWL_CFG.PORT of the output a hop leaves by, and of the input it arrives at. -/
def hopOut (h : Nat) : Nat := if h = 0 then 1 else if h = 1 then 3 else if h = 2 then 0 else 2
def hopIn (h : Nat) : Nat := if h = 0 then 3 else if h = 1 then 1 else if h = 2 then 2 else 0

/-- The ports of a die's mesh a packet passes from its router r along hops, on a virtual channel. -/
def meshPorts (node vc : Nat) : Nat → List Nat → List PortPass
  | r, [] => [⟨node, r, 4, false, vc⟩]
  | r, h :: hs => ⟨node, r, hopOut h, false, vc⟩ :: ⟨node, hopIndex r h, hopIn h, true, vc⟩ :: meshPorts node vc (hopIndex r h) hs

/-- The ports of one node on the way: on the Sole the hub ports from which and toward which the packet goes; on a compute die its mesh, entered and left LOCAL. -/
def legPorts (node vc a b : Nat) (hops : List Nat) : List PortPass :=
  if node = 0 then [⟨0, a, 0, true, vc⟩, ⟨0, b, 0, false, vc⟩] else ⟨node, a, 4, true, vc⟩ :: meshPorts node vc a hops

/-- The network interface whose route table serves an initiator (R225). -/
def routeNi : Ini → Option (Nat × Nat)
  | .engine d e _ => some (d.val, e.val)
  | .region d r _ => some (d.val, 8 + r.val)
  | .core (.keeper d) _ => some (d.val, 16)
  | _ => none

/-- The source route a request takes: the enabled entry of its interface that ends at the router where it leaves its die's mesh; none toward a DEVICE or ORDERED target
(R222, R225). -/
def State.sourceRoute (s : State) (q : Req) (r : Region) (exit : Nat) : Option W32 :=
  match routeNi q.ini with
  | none => none
  | some (d, j) =>
    if s.accessAttr q r != .pf then none
    else ((List.range 8).find? (fun n => s.bit (R.NOC_RT_DEST d j n) 31 && s.fld (R.NOC_RT_DEST d j n) F.NOC_RT_DEST.DEST == exit)).map
      (fun n => s.rd (R.NOC_RT_ROUTE d j n))

/-! ### The packet of a request (R218–R220, R236, R237) -/

/-- KIND codes of R219; 13–15 are not used. -/
inductive PktKind where
  | read | writePosted | writeNp | atomic | fetch | sig | rspData | rspAck | rspErr | notice | sync | event | maint
deriving DecidableEq, Repr

def PktKind.code : PktKind → Nat
  | .read => 0 | .writePosted => 1 | .writeNp => 2 | .atomic => 3 | .fetch => 4 | .sig => 5 | .rspData => 6 | .rspAck => 7 | .rspErr => 8
  | .notice => 9 | .sync => 10 | .event => 11 | .maint => 12

/-- The KIND of a request (R219). -/
def reqKind (q : Req) : PktKind :=
  match q.kind with
  | .read => .read
  | .write => if q.posted then .writePosted else .writeNp
  | .atomic => .atomic
  | .fetch => .fetch

/-- A packet of an initiator is demoted (R236): its class is demoted on its die for the resource it uses, if it uses one. -/
def State.demotedFor (s : State) (i : Ini) (cls : Nat) (k : Option Nat) : Bool :=
  if iniDie i = 1 ∨ 15 ≤ cls then false
  else match k with
    | none => false
    | some k => s.bit (if k < 2 then R.BWC_OVER_LO (bwcBase (iniDie i)) else R.BWC_OVER_HI (bwcBase (iniDie i))) (16 * (k % 2) + cls)

/-- PRIO of a packet at its entry (R236, R237): 3 for class 15, 0 for a demoted one, else its class's. -/
def State.prioFor (s : State) (i : Ini) (cls : Nat) (k : Option Nat) : Nat :=
  if 15 ≤ cls then 3
  else if s.demotedFor i cls k then 0
  else s.fld (R.BWC_CFG (bwcBase (iniDie i)) cls) F.BWC_CFG.PRIO

/-- The request is demoted. -/
def State.demoted (s : State) (q : Req) (r : Region) : Bool := s.demotedFor q.ini q.cls (resourceOf q.ini r)

/-- PRIO of a request at its entry. -/
def State.entryPrio (s : State) (q : Req) (r : Region) : Nat := s.prioFor q.ini q.cls (resourceOf q.ini r)

/-- The nodes a request crosses after its own. -/
def State.wayOf (s : State) (q : Req) : List Nat :=
  let src := (iniPlace q.ini q.via).node
  match s.targetPlace src q with
  | none => []
  | some (p, l) => s.nodeWay src p.node ++ l.toList

/-- The virtual channel on which a request reaches its target (R220): FWD where it crosses an intermediate die or comes from another package, else REQ. The die of a
neighbour's Larder bridge counts as the destination die (R230). -/
def State.targetVc (s : State) (q : Req) : Nat :=
  let w := (s.wayOf q).filter (· < 5)
  match q.ini with
  | .package _ _ => 2
  | _ => if 2 ≤ w.length then 2 else 0

/-- The bridges on a way from a node. -/
def bridgesOf : Nat → List Nat → List Nat
  | _, [] => []
  | a, b :: w => bridgeOf a b :: bridgesOf b w

/-- The ports of the nodes after the first: each is entered where its bridge from the node before attaches, on the side that address bit 8 chooses on both dies
(notes/assumptions/107.md). -/
def wayPorts (sel vc goal : Nat) : Nat → List Nat → List PortPass
  | _, [] => []
  | a, b :: w =>
    let inAt := bridgeAt b a sel
    let outAt := match w with
      | [] => goal
      | c :: _ => bridgeAt b c sel
    legPorts b vc inAt outAt (xyHops inAt outAt) ++ wayPorts sel vc goal b w

/-- The packet of the n-th request at its entry: its header, and the ports on its way. -/
def State.packet (s : State) (q : Req) (n : Nat) : Transit :=
  let i := iniPlace q.ini q.via
  let sel := q.addr.toNat / 256 % 2
  let base : Hdr :=
    { Hdr.zero with cls := q.cls, early := q.early, kind := (reqKind q).code, ini := iniId q.ini, tag := Config.tag n, addr := q.addr.setWidth 48, len := q.len,
                    vc := (match q.ini with
                      | .package _ _ => 2
                      | _ => 0) }
  match s.regionOf q.addr.toNat, s.targetPlace i.node q with
  | some (r, _, _), some (p, _) =>
    let w := s.nodeWay i.node p.node
    let exit := match w with
      | [] => p.point
      | c :: _ => bridgeAt i.node c sel
    let route := if i.node = 0 then none else s.sourceRoute q r exit
    let hops := match route with
      | some v => routeHops v
      | none => xyHops i.point exit
    let remote := match r with
      | .window _ => true
      | _ => false
    let h : Hdr :=
      { base with ddie := (if remote then 0xF else p.ddie), drouter := p.point, dport := p.dport,
                  prio := s.entryPrio q r, demoted := s.demoted q r, routed := route.isSome, route := route.getD 0 }
    let vc := if 2 ≤ w.length then 2 else base.vc
    ⟨h, legPorts i.node base.vc i.point exit hops ++ wayPorts sel vc p.point i.node w⟩
  | _, _ => ⟨base, []⟩

/-- The eight words of a header flit (R218). -/
def Hdr.words (h : Hdr) : List W32 :=
  [BitVec.ofNat 32 (h.ddie % 16 + h.drouter % 64 * 2 ^ 4 + h.dport % 8 * 2 ^ 10 + h.vc % 4 * 2 ^ 13 + h.cls % 16 * 2 ^ 15 + h.prio % 4 * 2 ^ 19 + h.early.toNat * 2 ^ 21 +
     h.routed.toNat * 2 ^ 22 + h.demoted.toNat * 2 ^ 23 + h.kind % 16 * 2 ^ 24),
   BitVec.ofNat 32 (h.ini.toNat + h.tag.toNat * 2 ^ 16), h.addr.setWidth 32,
   BitVec.ofNat 32 (h.addr.toNat / 2 ^ 32 + h.len % 512 * 2 ^ 16), if h.routed then h.route else 0, BitVec.ofNat 32 (h.reason % 16 + h.poison.toNat * 2 ^ 4), 0, 0]

/-- The flits of a packet: the header's, and one for each 32 bytes of payload (R218). -/
def flitsOf (payload : Nat) : Nat := 1 + (payload + 31) / 32

/-- Those flits, byte by byte: the header's words, little-endian, then the payload packed from the start of its first flit (R218). What fills the last flit no rule says;
it is zero here. -/
def Hdr.flits (h : Hdr) (payload : List Byte) : List (List Byte) :=
  h.words.flatMap (fun w => leBytes 4 w.toNat) ::
    (List.range (flitsOf payload.length - 1)).map (fun k => (List.range 32).map (fun i => payload.getD (32 * k + i) 0))

/-- What an Awl probe sees of a packet on a virtual channel (R241, R243). -/
def Hdr.pkt (h : Hdr) (vc : Nat) : Pkt :=
  { kind := BitVec.ofNat 4 h.kind, cls := BitVec.ofNat 4 h.cls, vc := BitVec.ofNat 2 vc, prio := BitVec.ofNat 2 h.prio, early := h.early, routed := h.routed,
    demoted := h.demoted, ini := h.ini, tag := h.tag, addr := h.addr, len := BitVec.ofNat 9 h.len }

/-! ### Entering the network -/

/-- Some probe of the package is enabled. -/
def State.watched (s : State) : Bool :=
  s.regs.any (fun p => p.2.getLsbD 0 && ([0, 8, 9, 10, 11] : List Nat).any (fun c =>
    decide (awlBase c + 0x100 ≤ p.1) && decide (p.1 < awlBase c + 0x500) && (p.1 - awlBase c) % 0x40 == 0))

/-- A request enters the network as the next packet; where a probe is enabled its ports see it pass at the next DTB tick (notes/assumptions/39.md). -/
def State.sendOut (s : State) (q : Req) : State :=
  s.withNoc { s.noc with
    seq := s.noc.seq + 1
    passing := if s.watched then s.noc.passing ++ [s.packet q s.noc.seq] else s.noc.passing }

/-- A SIG packet of an initiator goes to a place, on a die of the package or, by code 0xF, through a Lace link (R219, R266): for the address of its counter's register, with
the four bytes of the increment, X-then-Y and demoted by the resource it uses. It is held only where a probe could see it (notes/assumptions/39.md). -/
def State.sigOutward (s : State) (i : Ini) (cls : Nat) (k : Option Nat) (addr : Nat) (ddie : Nat) (p : Place) : State :=
  if !s.watched then s
  else
    let src := iniPlace i 0
    let sel := addr / 256 % 2
    let w := s.nodeWay src.node p.node
    let exit := match w with
      | [] => p.point
      | c :: _ => bridgeAt src.node c sel
    let h : Hdr :=
      { Hdr.zero with ddie := ddie, drouter := p.point, dport := p.dport, cls := cls, prio := s.prioFor i cls k, demoted := s.demotedFor i cls k, kind := PktKind.sig.code,
                      ini := iniId i, tag := Config.tag s.noc.seq, addr := BitVec.ofNat 48 addr, len := 4 }
    s.withNoc { s.noc with
      seq := s.noc.seq + 1
      passing := s.noc.passing ++ [⟨h, legPorts src.node 0 src.point exit (xyHops src.point exit) ++ wayPorts sel (if 2 ≤ w.length then 2 else 0) p.point src.node w⟩] }

/-- Virtual channels on which a packet of a kind travels (R220): requests REQ or FWD, responses RSP, DTB sync, events and notices SYS. For MAINT no rule says it; codes 13
to 15 are not used (R219). -/
def pktFits (kind vc : Nat) : Bool :=
  if kind < 6 then vc == 0 || vc == 2
  else if kind < 9 then vc == 1
  else if kind < 12 then vc == 3
  else kind == 12

/-- The remote window a request is for, with its package and its address there (R186, R432). -/
def State.remoteOf (s : State) (q : Req) : Option (Nat × Nat) :=
  match s.regionOf q.addr.toNat with
  | some (.window w, lo, _) => some ((s.windowPkg w).toNat, s.windowBase w + (q.addr.toNat - lo))
  | _ => none

/-- A request that has entered, on its way to its target; one for a remote window with the package and address its descriptor gave at its entry (R201, R428). -/
def State.inFlight (s : State) (q : Req) (data : List Byte) (atom : Option (AtomOp × Word)) (orig : W32) : NetReq :=
  let t := s.packet q (s.noc.seq - 1)
  let src := (iniPlace q.ini q.via).node
  { req := q, data := data, atom := atom, orig := orig, hdr := t.hdr, bridges := bridgesOf src (s.wayOf q), abroad := s.remoteOf q }

/-- The response packet of a request that has entered (R220, R224, R230): from its target X-then-Y, leaving each die through the router that TAG bit 0 selects; a
Larder's enters its die's mesh at that router of its bridge. -/
def State.responsePorts (s : State) (q : Req) (tag : BitVec 16) : List PortPass :=
  let i := iniPlace q.ini q.via
  let sel := tag.toNat % 2
  match s.targetPlace i.node q with
  | none => []
  | some (p, l) =>
    let at_ := match l with
      | some n => bridgeAt p.node n sel
      | none => p.point
    let w := s.nodeWay p.node i.node
    let exit := match w with
      | [] => i.point
      | c :: _ => bridgeAt p.node c sel
    legPorts p.node 1 at_ exit (xyHops at_ exit) ++ wayPorts sel 1 i.point p.node w

/-- A response leaves its target for its initiator's place (R218, R219): RSP_ERR with its REASON, RSP_DATA with the bytes read, or RSP_ACK. -/
def State.sendBack (s : State) (n : NetReq) (reason : Nat) (data : List Byte) : State :=
  if s.watched then
    let k : PktKind := if reason ≠ 0 then .rspErr else if data = [] then .rspAck else .rspData
    let p := iniPlace n.req.ini n.req.via
    let die := match n.req.ini with
      | .package _ _ => 0xF
      | _ => p.ddie
    let h : Hdr := { n.hdr with ddie := die, drouter := p.point, dport := p.dport, vc := 1, kind := k.code, len := data.length, routed := false, route := 0, early := n.hdr.early, reason := reason % 16, poison := reason == 9 }
    s.withNoc { s.noc with passing := s.noc.passing ++ [⟨h, s.responsePorts n.req n.hdr.tag⟩] }
  else s

/-- An initiator can receive an answer: its compute die, if it is on one, is powered. -/
def State.hears (s : State) (i : Ini) : Bool := !(decide (8 ≤ iniDie i) && decide (iniDie i < 12) && !s.diePowered (iniDie i - 8))

/-- The answer to a request goes to its initiator; it is discarded where nothing waits for it: its engine, or its die, has left service (R231, R282, R337). -/
def State.respond (s : State) (n : NetReq) (reason : Nat) (data : List Byte) : State :=
  if n.orphan || !s.hears n.req.ini then s
  else s.withResp (s.resp ++ [{ req := n.req, reason := reason, data := data, orig := n.orig }])

/-! ### The queue of a target (R221, R222) -/

/-- A number for the target whose queue a request joins, off bytes into its region: each fabric region's port has its own. -/
def targetKey (off : Nat) : Region → Nat
  | .bootRom => 0 | .sram => 1 | .soleReg => 2 | .heelReg => 3 | .store => 4 | .insole => 5 | .heelRam => 6 | .trace => 7 | .host => 8
  | .dieReg d => 16 + d | .keeperRam d => 24 + d | .larder l => 32 + l | .engMem d e => 40 + 8 * d + e | .fabric d => 80 + 8 * d + off / 0x08000000 | .window w => 200 + w

/-- The request as it goes on from its entry, with the label it has been given there (R233). -/
def State.carried (s : State) (q : Req) : Req := { q with cls := (s.labelAtEntry q).2 }

/-- The packet an arbiter grants next (R221), of those that wait in arrival order as (number, virtual channel, PRIO, grants that passed it over): one passed over 16 times;
else SYS first, the other channels in rotation after the one granted last, in a channel the highest PRIO and then the first to arrive. -/
def arbPick (last : Nat) (l : List (Nat × Nat × Nat × Nat)) : Option Nat :=
  match l.find? (fun p => decide (16 ≤ p.2.2.2)) with
  | some p => some p.1
  | none =>
    let order := [3, (last + 1) % 3, (last + 2) % 3, last % 3]
    match order.find? (fun v => l.any (fun p => p.2.1 == v)) with
    | none => none
    | some v => (l.filter (fun p => p.2.1 == v)).foldl (fun b p =>
        match b with
        | none => some p
        | some x => if x.2.2.1 < p.2.2.1 then some p else some x) (none : Option (Nat × Nat × Nat × Nat)) |>.map (·.1)

/-- An earlier request that this one follows at its target: of the same initiator, to the same 4 KiB block, or both to ORDERED addresses (R147, R190, R222). -/
def State.follows (s : State) (e q : Req) : Bool :=
  let attr (x : Req) : Option Attr := (s.regionOf x.addr.toNat).map (fun r => s.accessAttr x r.1)
  e.ini == q.ini &&
    (e.addr.toNat / 4096 == q.addr.toNat / 4096 || (attr q == some .ordered && attr e == some .ordered))

/-- No earlier request holds request k back (R222). -/
def State.servable (s : State) (k : Nat) (n : NetReq) : Bool := (s.net.take k).all (fun e => !s.follows e.req n.req)

/-- The target of a request, by its number. -/
def State.keyOf (s : State) (q : Req) : Nat := ((s.regionOf q.addr.toNat).map (fun r => targetKey (q.addr.toNat - r.2.1) r.1)).getD 0

/-- Request j waits in the queue of the target key, or (j = k) arrives there now, and nothing holds it back. -/
def State.waitsAt (s : State) (key k j : Nat) (n : NetReq) : Bool :=
  (j == k || n.arrived) && n.lace.isNone && n.abroad.isNone && s.keyOf n.req == key && s.servable j n

/-- What waits in the queue of the target of request k: number, virtual channel, PRIO, grants that have passed it over (R221). -/
def State.contenders (s : State) (key k : Nat) : List (Nat × Nat × Nat × Nat) :=
  (List.range s.net.length).filterMap (fun j => match s.net[j]? with
    | some n => if s.waitsAt key k j n then some (j, s.targetVc n.req, n.hdr.prio, n.passed) else none
    | none => none)

/-- The target's queue grants request k next (R221). -/
def State.granting (s : State) (k : Nat) (n : NetReq) : Bool :=
  let key := s.keyOf n.req
  arbPick (tabGet natZero s.noc.last key) (s.contenders key k) == some k

/-- A target's queue has granted request k, or one that is served as it arrives, on a virtual channel: the grant has passed over the others that wait there (R221). -/
def State.passOver (s : State) (key k vc : Nat) : State :=
  let waiting := ((s.contenders key k).map (·.1)).filter (· != k)
  let t := if waiting.isEmpty then s
    else s.withNet ((List.range s.net.length).filterMap (fun j => (s.net[j]?).map (fun m => if waiting.contains j then { m with passed := m.passed + 1 } else m)))
  t.withNoc { t.noc with last := tabPut natZero key vc t.noc.last }

/-- Request k has been granted: it leaves the queue. -/
def State.grant (s : State) (k : Nat) (n : NetReq) : State :=
  let t := s.passOver (s.keyOf n.req) k (s.targetVc n.req)
  t.withNet (t.net.eraseIdx k)

/-- A request is for a remote window or for a fabric region, whose answers come with later commands. -/
def State.outward (s : State) (q : Req) : Bool :=
  match s.regionOf q.addr.toNat with
  | some (.window _, _, _) | some (.fabric _, _, _) => true
  | _ => false

/-- No request that waits, or is on its way, comes before one that arrives now. -/
def State.queueClear (s : State) (q : Req) : Bool :=
  s.net.all (fun n => !(n.arrived && s.keyOf n.req == s.keyOf q) && !s.follows n.req q)

/-- The request that comes before one that arrives now, and is served in the same step (notes/assumptions/122.md): what its own target's queue grants where it follows a
request on its way within the package, else what the arbiter of its target grants before it (R221, R222). -/
def State.firstAt (s : State) (q : Req) : Option Nat :=
  let pick (key : Nat) (l : List (Nat × Nat × Nat × Nat)) : Option Nat := arbPick (tabGet natZero s.noc.last key) l
  match (List.range s.net.length).find? (fun j => match s.net[j]? with
      | some n => n.lace.isNone && n.abroad.isNone && !s.outward n.req && s.follows n.req q
      | none => false) with
  | some j => (match s.net[j]? with
    | some n => pick (s.keyOf n.req) (s.contenders (s.keyOf n.req) j)
    | none => none)
  | none =>
    let key := s.keyOf q
    let prio := match s.regionOf q.addr.toNat with
      | some (r, _, _) => s.entryPrio q r
      | none => 0
    (pick key (s.contenders key s.net.length ++ [(s.net.length, s.targetVc q, prio, 0)])).filter (· != s.net.length)

/-- Whose local memory a region is (R132): only that core and the debug port reach it. -/
def localOk (r : Region) (i : Ini) : Bool :=
  match r, i with
  | _, .debug => true
  | .heelRam, .core .heel _ => true
  | .keeperRam d, .core (.keeper k) _ => k.val == d
  | .heelRam, _ => false
  | .keeperRam _, _ => false
  | _, _ => true

/-- A write to an address is posted where its target is prefetchable (R143, R624); one to another core's local memory is not, so that its refusal is precise (R132). -/
def State.postedTo (s : State) (q : Req) : Bool :=
  match s.regionOf q.addr.toNat with
  | some (r, _, _) => s.mapped q.addr.toNat && s.accessAttr q r == .pf && localOk r q.ini
  | none => false

/-- At the network entry (R196 checks 1 to 9, R232–R237): the reason of the first check that fails; else the request goes out with the label it has been given, its lines
counted. -/
def State.passEntry (s : State) (q : Req) : State × Nat × Nat :=
  let p := s.labelAtEntry q
  match p.1.entryCheck q with
  | some c => (p.1, c, 0)
  | none =>
    match p.1.regionOf q.addr.toNat with
    | some (r, _, _) => ((p.1.bwcCount q.ini p.2 r (linesTouched q.addr.toNat q.len)).sendOut { q with cls := p.2 }, 0, p.2)
    | none => (p.1, 0, p.2)

end Sys2Proof.Machine
end

