-- ==== Sys2Proof/Machine/Log.lean ====
section
/-! DEFINITION. Machine/Log.lean: the capture of refusals, imprecise notices, and the records of the fault manager's log
(08_memory.md R203–R205, 17_faults.md R444, R452, R453). -/
namespace Sys2Proof.Machine

/-! ### Records -/

/-- Byte k of a 64-byte record (R452). -/
def recBytes (r : Rec) : List Byte :=
  leBytes 8 r.dtb.toNat ++ leBytes 4 r.seq.toNat ++ leBytes 1 r.kind ++ leBytes 1 r.cls ++ leBytes 1 r.retries ++
  leBytes 1 r.cause ++ leBytes 2 r.unit.toNat ++ leBytes 2 r.sub.toNat ++ leBytes 2 r.ini.toNat ++ leBytes 2 0 ++
  leBytes 8 (r.addr.toNat % 2 ^ 48) ++
  leBytes 32 (leNat (r.detail.flatMap (fun w => leBytes 4 w.toNat)))

/-- 2^SIZE of the log, or 0 while it is disabled (FLT_LOG_CFG). -/
def State.logSize (s : State) : Nat :=
  let n := s.fld R.FLT_LOG_CFG F.FLT_LOG_CFG.SIZE
  if n = 0 then 0 else 2 ^ (if n < 4 then 4 else if 16 < n then 16 else n)

/-- Records in the ring: (HEAD − TAIL) mod 131,072 (R452). -/
def State.logUsed (s : State) : Nat :=
  (s.fld R.FLT_LOG_HEAD F.FLT_LOG_HEAD.INDEX + 131072 - s.fld R.FLT_LOG_TAIL F.FLT_LOG_TAIL.INDEX) % 131072

def State.setEvt (s : State) (b : Nat) : State := s.putBit R.FLT_EVT b true

/-- A record is dropped (R453). -/
def State.dropRec (s : State) : State :=
  (s.wr R.FLT_DROP (if s.rd R.FLT_DROP = 0xFFFFFFFF then 0xFFFFFFFF else s.rd R.FLT_DROP + 1)).setEvt 4

/-- Remove the oldest EVENT or TRANSIENT record (classes 0 and 1) of a queue, if it holds one. -/
def dropOldest : List Rec → Option (List Rec)
  | [] => none
  | r :: rs => if r.cls ≤ 1 then some rs else (dropOldest rs).map (r :: ·)

/-- Hold a record in the internal queue of 64 (R453). -/
def State.holdRec (s : State) (r : Rec) : State :=
  if s.flt.held.length < 64 then s.withFlt { s.flt with held := s.flt.held ++ [r] }
  else match dropOldest s.flt.held with
    | some l => (s.withFlt { s.flt with held := l ++ [r] }).dropRec
    | none => s.dropRec

/-- The request of a full-line write of the fault manager (R232, R354, R452, R624). -/
def State.lineReq (s : State) (a : Nat) : Req :=
  let q : Req := { ini := .soleUnit 3, kind := .write, addr := BitVec.ofNat 64 a, len := 64, posted := false, early := false, cls := 15 }
  { q with posted := s.postedTo q }

/-- The request with which the fault manager writes the record at HEAD (R452). -/
def State.logReq (s : State) : Req :=
  s.lineReq ((s.rd2 R.FLT_LOG_BASE_LO R.FLT_LOG_BASE_HI).toNat + 64 * (s.fld R.FLT_LOG_HEAD F.FLT_LOG_HEAD.INDEX % s.logSize))

/-- Give a record its SEQ (FLT_SEQ names the next record). -/
def State.stampRec (s : State) (r : Rec) : State × Rec :=
  (s.wr R.FLT_SEQ (s.rd R.FLT_SEQ + 1), { r with seq := s.rd R.FLT_SEQ })

/-- An event record (R444): class EVENT. -/
def State.mkEvent (s : State) (kind : Nat) (unit : BitVec 16) (ini : BitVec 16) (addr : Word) (detail : List W32) : Rec :=
  { dtb := s.tb.master, seq := 0, kind := kind, cls := 0, retries := 0, cause := 0, unit := unit, sub := 0, ini := ini,
    addr := addr, detail := detail }

/-! ### Captures and notices -/

/-- Code of a kind in GRD_VIOL_INFO. -/
def kindCode : Kind → Nat
  | .read => 0
  | .write => 1
  | .fetch => 2
  | .atomic => 3

/-- Count a refusal in the guard control block of the initiator's die, and capture it if none is captured (R205). The Bool
says whether it was captured. -/
def State.captureOnly (s : State) (q : Req) (reason : Nat) : State × Bool :=
  let b := grdBase (iniDie q.ini)
  let n := s.rd (R.GRD_VIOL_COUNT b)
  let s1 := s.wr (R.GRD_VIOL_COUNT b) (if n = 0xFFFFFFFF then n else n + 1)
  if s.bit (R.GRD_VIOL_INFO b) 31 then (s1, false)
  else
    let s2 := (s1.wr (R.GRD_VIOL_ADDR_LO b) (q.addr.setWidth 32)).wr (R.GRD_VIOL_ADDR_HI b)
      (((q.addr >>> 32).setWidth 16).setWidth 32)
    (s2.wr (R.GRD_VIOL_INFO b) (BitVec.ofNat 32 ((iniId q.ini).toNat + reason % 16 * 2 ^ 16 + kindCode q.kind * 2 ^ 20 +
      q.posted.toNat * 2 ^ 22 + iniGuard q.ini * 2 ^ 24 + 2 ^ 31)), true)

/-- Put a notice into a core's queue of 16, or discard it (R204). -/
def State.queueNotice (s : State) (c : CoreId) (n : Notice) : State :=
  let x := s.core c
  if x.notices.length < 16 then s.setCore c { x with notices := x.notices ++ [n] }
  else s.setCore c { x with noteOvf := true, noteLost := Nat.min (x.noteLost + 1) 255 }

/-- The core whose queue receives a notice for an initiator (R204); the debug port and other packages have none. -/
def noticeCore : Ini → Option CoreId
  | .core c _ => some c
  | .soleUnit _ => some (.sole 0)
  | .engine d _ _ => some (.keeper d)
  | .region d _ _ => some (.keeper d)
  | .package _ d => some (.keeper d)
  | .debug => none

/-- The log's target has refused a record (R453). -/
def State.logRefused (s : State) : State := (s.putBit R.FLT_STAT 0 true).withFlt { s.flt with refused := true }

/-- The write of a record at HEAD, from its entry to its target: none, or the reason it is refused (R196, R233, R234). A record for a remote window or a fabric region, and one
that another request comes before at its target, goes on its way (notes/assumptions/63.md); memory that only its owner or a core may write refuses it (check 10). -/
def State.logPut (s : State) (r : Rec) : State × Option Nat :=
  let q := s.logReq
  let a := q.addr.toNat
  let p := s.passEntry q
  if p.2.1 ≠ 0 then (p.1, some p.2.1)
  else match p.1.regionOf a with
    | some (.sram, _, _) | some (.host, _, _) | some (.larder _, _, _) | some (.engMem _ _, _, _) =>
      if (p.1.firstAt { q with cls := p.2.2 }).isSome then (p.1.withNet (p.1.net ++ [p.1.inFlight { q with cls := p.2.2 } (recBytes r) none 0]), none)
      else ((p.1.putBytes a (recBytes r)).putLine (a / 64 * 64) .clean, none)
    | some (.window _, _, _) | some (.fabric _, _, _) => (p.1.withNet (p.1.net ++ [p.1.inFlight { q with cls := p.2.2 } (recBytes r) none 0]), none)
    | _ => (p.1, some 8)

/-- A record has been written: HEAD advances (R452). -/
def State.logWritten (s : State) : State := (s.advWrap R.FLT_LOG_HEAD F.FLT_LOG_HEAD.INDEX 1).setEvt 0

/-- A record's write has been refused (R203, R205, R453): LOGERR; its capture, and the notice to A0 of a posted write, are themselves recorded, behind what the queue
holds. -/
def State.logBad (s : State) (q : Req) (c : Nat) : State :=
  let s1 := s.logRefused
  let s2 := s1.captureOnly q c
  let s3 :=
    if q.posted then
      let t := s2.1.queueNotice (.sole 0) ⟨q.addr, iniId q.ini, c⟩
      let e := t.stampRec (t.mkEvent 0x2A 0 (iniId q.ini) q.addr [BitVec.ofNat 32 c])
      e.1.holdRec e.2
    else s2.1
  if s2.2 then
    let e := s3.stampRec (s3.mkEvent 0x27 0 (iniId q.ini) q.addr [BitVec.ofNat 32 c])
    e.1.holdRec e.2
  else s3

/-- Write a record to the log, or hold it (R452, R453); in a Sole domain held in reset there is no fault manager to do so. -/
def State.logRec (s0 : State) (r0 : Rec) : State :=
  let p := s0.stampRec r0
  let s := p.1
  let r := p.2
  if s0.sup.soleHeld then s0
  else if s.logSize = 0 ∨ s.logUsed = s.logSize ∨ s.flt.held ≠ [] ∨ s.flt.refused then s.holdRec r
  else
    let w := s.logPut r
    match w.2 with
    | none => w.1.logWritten
    | some c => (w.1.holdRec r).logBad s.logReq c

/-- Log an event of R444. -/
def State.event (s : State) (kind : Nat) (unit : BitVec 16) (ini : BitVec 16) (addr : Word) (detail : List W32) : State :=
  s.logRec (s.mkEvent kind unit ini addr detail)

/-- A refusal is captured, counted and, where captured, sent to the fault manager (R205). EARLY is excluded. -/
def State.captureRefusal (s : State) (q : Req) (reason : Nat) : State :=
  if reason = 10 then s
  else
    let p := s.captureOnly q reason
    if p.2 then p.1.event 0x27 0 (iniId q.ini) q.addr [BitVec.ofNat 32 reason] else p.1

/-- An imprecise notice (R203, R204), which is also an event (R444). -/
def State.notice (s : State) (i : Ini) (addr : Word) (reason : Nat) : State :=
  match noticeCore i with
  | some c => (s.queueNotice c ⟨addr, iniId i, reason⟩).event 0x2A 0 (iniId i) addr [BitVec.ofNat 32 reason]
  | none => s

/-- Drain held records into the log while it has room and no refusal stands (R453). -/
def State.drainRecs (s : State) : Nat → State
  | 0 => s
  | n + 1 =>
    match s.flt.held with
    | [] => s
    | r :: rs =>
      if s.logSize = 0 ∨ s.logUsed = s.logSize ∨ s.flt.refused then s
      else
        let w := s.logPut r
        match w.2 with
        | none => (w.1.withFlt { w.1.flt with held := rs }).logWritten.drainRecs n
        | some c => w.1.logBad s.logReq c

end Sys2Proof.Machine
end

