-- ==== Sys2Proof/Machine/Sync.lean ====
section
/-! DEFINITION. Machine/Sync.lean: counters and their handles, waits on them, and holds (10_engines.md R264–R273, 06_quecen.md R150–R153). -/
namespace Sys2Proof.Machine

/-! ### Handles (R264, R265) -/

/-- What a counter handle names. -/
inductive HandleRes where
  | counter (reg : Nat)
  | remote
  | malformed
  | notLive
deriving DecidableEq, Repr

/-- A die code that a handle or hold reference may carry: 0, or 8 + d. -/
def handleDie (c : Nat) : Bool := c == 0 || (8 ≤ c && c < 12)

/-- The die of a code is in service: the Sole always, a compute die while LIVE. -/
def State.dieCodeLive (s : State) (c : Nat) : Bool := c == 0 || s.dieLive (c - 8)

/-- Decode a handle; remote handles are allowed to SIGNAL, DONE, LDONE and a core's SIG alone (R265). -/
def State.handle (s : State) (h : W32) (allowRemote : Bool) : HandleRes :=
  let ix := (h.setWidth 12).toNat
  let die := ((h >>> 12).setWidth 4).toNat
  let rem := h.getLsbD 16
  let pkg := ((h >>> 24).setWidth 8).toNat
  if !handleDie die then .malformed
  else if die == 0 && 1024 ≤ ix then .malformed
  else if ((h >>> 17).setWidth 7).toNat != 0 then .malformed
  else if rem && !allowRemote then .malformed
  else if !rem && pkg != 0 then .malformed
  else if rem then .remote
  else if !s.dieCodeLive die then .notLive
  else .counter (R.ENG_CNT (cntBase die) ix)

/-- The condition of R150: (counter − target), as a signed 32-bit value, is zero or more. -/
def waitMet (counter target : W32) : Bool := !(counter - target).msb

/-- The register of the counter a local handle names. -/
def handleReg (h : W32) : Nat := R.ENG_CNT (cntBase ((h >>> 12).setWidth 4).toNat) (h.setWidth 12).toNat

/-- A local copy of the DTB: 0 the Heel's, 1 + d compute die d's, 5 + d keeper Kd's. -/
def State.copy (s : State) (k : Nat) : Word := tabGet wordZero s.tb.copy k

/-- The DTB on a core's die (RDT, R156): the master on the Sole, the local copy elsewhere. -/
def State.dtbOf (s : State) : CoreId → Word
  | .sole _ => s.tb.master
  | .heel => s.copy 0
  | .keeper d => s.copy (5 + d.val)

/-- A deadline has been reached at a DTB value; none never is (R151). -/
def reached (dl : Option Word) (now : Word) : Bool :=
  match dl with
  | some t => decide (t.toNat ≤ now.toNat)
  | none => false

/-- Record in a core's WAITGE that the counter at a register has met its target, unless the DTB has reached the deadline first (R151). -/
def markCore (now : Word) (reg : Nat) (v : W32) (c : Core) : Core :=
  match c.wait with
  | some (.waitge d h t dl w m) =>
    if w && handleReg h == reg then { c with wait := some (.waitge d h t dl w (m || (waitMet v t && !reached dl now))) } else c
  | _ => c

/-- Record the same in a queue's WAIT (R261). -/
def markQueue (now : Word) (reg : Nat) (v : W32) (q : Queue) : Queue :=
  match q.wait with
  | some (.counter h t dl w m) =>
    if w && handleReg h == reg then { q with wait := some (.counter h t dl w (m || (waitMet v t && !reached dl now))) } else q
  | _ => q

/-- The census intervals of which p holds, by group, are broken off (R276). -/
def State.cenBreak (s : State) (p : Nat → CenRun → Bool) : State :=
  s.withEng { s.eng with cen := s.eng.cen.filter (fun e => match e.2 with
    | some r => !p e.1 r
    | none => true) }

/-- Set a counter, and let the waits on it judge the value that results (R151, R267, R268); a change restarts the census intervals that await it (R276). -/
def State.setCounter (s0 : State) (reg : Nat) (v : W32) : State :=
  let s := if s0.rd reg = v then s0 else s0.cenBreak (fun _ r => r.seen.any (fun m => handleReg m.handle == reg))
  let s1 := allCores.foldl (fun t c => t.setCore c (markCore (t.dtbOf c) reg v (t.core c))) (s.wr reg v)
  s1.each (fun t k => t.setQueue k (markQueue (t.copy (1 + k / 32)) reg v (t.queue k))) (s1.queues.map (·.1))

/-- Add to a counter; additions wrap (R150). -/
def State.addCounter (s : State) (reg : Nat) (n : W32) : State := s.setCounter reg (s.rd reg + n)

/-- Count a signal's line at the initiator's entry (R233, R234): PEER where the counter is on another die, REMOTE for another package. One for a counter of this package
goes out as a SIG packet to its die's registers (R219). -/
def State.countSig (s : State) (i : Ini) (cls : Nat) (h : W32) : State :=
  if iniDie i = 1 then s
  else
    let q : Req := { ini := i, kind := .write, addr := 0, len := 4, posted := true, early := false, cls := cls }
    let p := s.labelAtEntry q
    let c := ((h >>> 12).setWidth 4).toNat
    let place : Place := if c = 0 then ⟨0, 16, 0⟩ else ⟨c - 7, routerAt 3 0, 1⟩
    let go (t : State) (k : Option Nat) : State := if handleDie c then t.sigOutward i p.2 k (handleReg h) c place else t
    if h.getLsbD 16 then p.1.bwcAdd i p.2 3 1
    else if c = iniDie i then go p.1 none else (go p.1 (some 2)).bwcAdd i p.2 2 1

/-- Perform a signal (R149, R261, R266): a local handle increments its counter, a remote one is handed to the cluster
routing; none where the handle fails. -/
def State.signal (s : State) (i : Ini) (cls : Nat) (h n : W32) : Option State :=
  match s.handle h true with
  | .counter r => some (s.addCounter r n)
  | .remote => some (s.withSigOut (s.sigOut ++ [⟨h, n, i, cls, none⟩]))
  | _ => none

/-- The increment of an alarm: a handle that fails, and one with REMOTE set, which is malformed there, is an event and increments nothing (R265). -/
def State.alarmSignal (s : State) (h : W32) : State :=
  match s.handle h false with
  | .counter r => s.addCounter r 1
  | _ => s.event 0x26 0 0 0 [h]

/-- A signal whose failing handle is an event (R265). -/
def State.signalOrEvent (s : State) (i : Ini) (cls : Nat) (h n : W32) : State :=
  match s.signal i cls h n with
  | some t => t
  | none => s.event 0x26 0 0 0 [h]

/-! ### Queues as owners -/

def queueDie (k : Nat) : Nat := k / 4 / 8
def queueEng (k : Nat) : Nat := k / 4 % 8
def queueNo (k : Nat) : Nat := k % 4

/-- Address of a queue's registers: R.ENG_Q… d e q for key 4·g + q. -/
def qreg (f : Nat → Nat → Nat → Nat) (k : Nat) : Nat := f (queueDie k) (queueEng k) (queueNo k)

/-- The initiator of a queue's own requests (R249). -/
def queueIni (k : Nat) : Ini :=
  .engine (Fin.ofNat 4 (queueDie k)) (Fin.ofNat 8 (queueEng k)) (BitVec.ofNat 6 (0x20 + queueNo k))

/-- STATE of ENG_QSTAT: 0 OFF, 1 IDLE, 2 RUNNING, 3 WAITING, 4 STOPPED, 5 CANCELLING. -/
def State.qState (s : State) (k : Nat) : Nat := s.fld (qreg R.ENG_QSTAT k) F.ENG_QSTAT.STATE
def State.setQState (s : State) (k c : Nat) : State := s.setFld (qreg R.ENG_QSTAT k) F.ENG_QSTAT.STATE c

/-- STOP_REV of the running entry (R258). -/
def stopRev (q : Queue) : Bool :=
  match q.entry with
  | some (w :: _) => w.getLsbD 10
  | _ => false

/-! ### Holds (R269–R273) -/

/-- An owner ID: the initiator ID with PRIV cleared (R269). Another package's ID has no PRIV: its bits 11:4 are the package ID (R202). -/
def ownerId (i : Ini) : BitVec 16 :=
  match i with
  | .package _ _ => iniId i
  | _ => iniId i &&& 0xFFBF

/-- Give a hold to a waiting queue; rev says that it was revoked (R271–R273). -/
def State.grantHold (s : State) (key k : Nat) (rest : List Nat) (rev : Bool) : State :=
  let s1 := s.setHold key { held := true, revoked := false, owner := ownerId (queueIni k), waiters := rest }
  let q := s1.queue k
  let st := if rev && stopRev q then 7 else 0
  let s2 := (s1.setQueue k { q with wait := none, fin := some ⟨st, 0, 0⟩ }).setQState k 2
  if rev then s2.putBit (qreg R.ENG_QSTAT k) 9 true else s2

/-- A held hold is given up: it passes to the oldest waiter, or becomes free (R271, R272). -/
def State.freeHold (s : State) (key : Nat) (rev : Bool) : State :=
  let h := s.hold key
  match h.waiters with
  | k :: rest => s.grantHold key k rest rev
  | [] => s.setHold key { held := false, revoked := rev || h.revoked, owner := 0, waiters := [] }

/-- Revoke every hold whose owner satisfies p (R272). -/
def State.revokeHolds (s : State) (p : BitVec 16 → Bool) : State :=
  s.each (fun t key => if (t.hold key).held && p (t.hold key).owner then t.freeHold key true else t) (s.holds.map (·.1))

/-- A queue leaves the waiters of every hold. -/
def State.dropWaiter (s : State) (k : Nat) : State :=
  s.each (fun t key => let h := t.hold key; t.setHold key { h with waiters := h.waiters.filter (· != k) }) (s.holds.map (·.1))

/-- ACQ entries that wait for a hold of die code c end with HANDLE (R271). -/
def State.failWaiters (s : State) (c : Nat) : State :=
  s.each (fun t key =>
    if key / 256 = c then
      let h := t.hold key
      let t1 := t.setHold key { h with waiters := [] }
      t1.each (fun u k => (u.setQueue k { u.queue k with wait := none, fin := some ⟨3, 0, 0⟩ }).setQState k 2) h.waiters
    else t) (s.holds.map (·.1))

/-- The read of ENG_HOLD_ACQn (R270, R273): the value read and the state after. -/
def State.acquireRead (s : State) (key : Nat) (i : Ini) : W32 × State :=
  let h := s.hold key
  let me := ownerId i
  if !h.held then
    (BitVec.ofNat 32 (1 + 2 * h.revoked.toNat + me.toNat * 65536),
      s.setHold key { h with held := true, revoked := false, owner := me })
  else if h.owner == me then (BitVec.ofNat 32 (1 + 4 + me.toNat * 65536), s)
  else (BitVec.ofNat 32 (h.owner.toNat * 65536), s)

/-- The view of ENG_HOLDn. -/
def State.holdView (s : State) (key : Nat) : W32 :=
  let h := s.hold key
  BitVec.ofNat 32 (h.held.toNat + 2 * h.revoked.toNat + 4 * (!h.waiters.isEmpty).toNat + (if h.held then h.owner.toNat else 0) * 65536)

/-- A counter's die has left LIVE: waits on it watch it no longer (R152, R267). -/
def unwatchCore (c : Nat) (x : Core) : Core :=
  match x.wait with
  | some (.waitge d h t dl _ m) =>
    if ((h >>> 12).setWidth 4).toNat == c then { x with wait := some (.waitge d h t dl false m) } else x
  | _ => x

def unwatchQueue (c : Nat) (q : Queue) : Queue :=
  match q.wait with
  | some (.counter h t dl _ m) =>
    if ((h >>> 12).setWidth 4).toNat == c then { q with wait := some (.counter h t dl false m) } else q
  | _ => q

def State.unwatch (s : State) (c : Nat) : State :=
  let s1 := s.eachCore (unwatchCore c) allCores
  s1.each (fun t k => t.setQueue k (unwatchQueue c (t.queue k))) (s1.queues.map (·.1))

end Sys2Proof.Machine
end

