-- ==== Sys2Proof/Machine/OutCtl.lean ====
section
/-! DEFINITION. Machine/OutCtl.lean: output stages by number, their switches with dead times, and what turns one off (18_outputs.md). Stage x is 0–39 for HS00–HS39,
40–47 for HB0–HB7, 48–51 for HBA–HBD. -/
namespace Sys2Proof.Machine

def stageDefault (_ : Nat) : Stage := Stage.init

def State.withOuts (s : State) (x : Outs) : State := s.withIo { s.io with outs := x }
def State.stage (s : State) (x : Nat) : Stage := tabGet stageDefault s.io.outs.stages x
def State.setStage (s : State) (x : Nat) (y : Stage) : State := s.withOuts { s.io.outs with stages := tabPut stageDefault x y s.io.outs.stages }
def State.onStage (s : State) (x : Nat) (f : Stage → Stage) : State := s.setStage x (f (s.stage x))

/-- The Heel's copy of the DTB. -/
def State.heelDtb (s : State) : Word := tabGet wordZero s.tb.copy 0

/-- The unit code of a stage (R438). -/
def stageUnit (x : Nat) : BitVec 16 := unitCode 0xC (if x < 40 then x else if x < 48 then 0x40 + (x - 40) else 0x48 + (x - 48))

/-- The stage of an output stage's unit index. -/
def unitStage (ix : Nat) : Nat := if ix < 0x40 then ix else if ix < 0x48 then 40 + (ix - 0x40) else 48 + (ix - 0x48)

def State.stageRetired (s : State) (x : Nat) : Bool := s.isRetired (stageUnit x)

/-- Registers of a stage: its drive, its diagnosis. -/
def ctlReg (x : Nat) : Nat := if x < 40 then R.HSO_CTL x else if x < 48 then R.HBR_HCTL (x - 40) else R.HBR_PCTL (x - 48)
def diagReg (x : Nat) : Nat := if x < 40 then R.HSO_DIAG x else if x < 48 then R.HBR_HDIAG (x - 40) else R.HBR_PSTAT (x - 48)

/-- Set a stage's event bit (R470). -/
def State.stageEvt (s : State) (x : Nat) : State :=
  if x < 32 then s.putBit R.HSO_EVT_LO x true else if x < 40 then s.putBit R.HSO_EVT_HI (x - 32) true else s.putBit R.HBR_EVT (x - 40) true

/-! ### Pattern engines and what they own (R481) -/

def noPat (_ : Nat) : Option Word := none
def noCount (_ : Nat) : Option Nat := none

/-- The step of a running pattern began at this DTB. -/
def State.pat (s : State) (k : Nat) : Option Word := tabGet noPat s.io.outs.pats k
def State.setPat (s : State) (k : Nat) (v : Option Word) : State := s.withOuts { s.io.outs with pats := tabPut noPat k v s.io.outs.pats }

/-- The stages a pattern drives, first the one whose current it watches. -/
def State.patStages (s : State) (k : Nat) : List Nat :=
  let c := s.rd (R.HBR_PATCFG k)
  if c.getLsbD 0 then [48 + fget c F.HBR_PATCFG.P] else [40 + fget c F.HBR_PATCFG.A, 40 + fget c F.HBR_PATCFG.B]

/-- The running pattern that owns a stage. -/
def State.owner (s : State) (x : Nat) : Option Nat := [0, 1, 2, 3].find? (fun k => (s.pat k).isSome && (s.patStages k).contains x)

/-! ### Drives (R458, R476, R478) -/

/-- The drive that the stage's registers command. -/
def State.desired (s : State) (x : Nat) : Drive :=
  let c := s.rd (ctlReg x)
  let duty := Nat.min (fget c F.HSO_CTL.DUTY) 1024
  if x < 40 then
    let m := fget c F.HSO_CTL.MODE
    ⟨if m = 3 then 0 else m, duty, fget c F.HSO_CTL.PHASE, Nat.max 100 (s.fld (R.HSO_PER x) F.HSO_PER.PERIOD)⟩
  else if x < 48 then
    let m := fget c F.HBR_HCTL.MODE
    ⟨if 4 < m then 0 else m, duty, fget c F.HBR_HCTL.PHASE, Nat.max 100 (s.fld (R.HBR_HPER (x - 40)) F.HBR_HPER.PERIOD)⟩
  else
    let m := fget c F.HBR_PCTL.MODE
    ⟨if 5 < m then 0 else m, duty, 0, Nat.max 200 (s.fld (R.HBR_PPER (x - 48)) F.HBR_PPER.PERIOD)⟩

/-- Whether a mode switches with a period. -/
def pwmMode (x m : Nat) : Bool := if x < 40 then m == 2 else if x < 48 then m == 3 || m == 4 else m == 4 || m == 5

/-- Closed switches of a mode: while it is static or in the on-phase, and in the off-phase. -/
def onMask (x m : Nat) : Nat :=
  if x < 40 then (if m = 0 then 0 else 1)
  else if x < 48 then (match m with
    | 1 | 3 | 4 => 1
    | 2 => 2
    | _ => 0)
  else match m with
    | 1 | 4 => 9
    | 2 | 5 => 6
    | 3 => 10
    | _ => 0

def offMask (x m : Nat) : Nat := if x < 40 then 0 else if x < 48 then (if m = 4 then 2 else 0) else if m = 4 ∨ m = 5 then 10 else 0

/-- The unit of a stage's PERIOD in 10 ns: 1 µs, a pre-driver's 100 ns (R458, R478). -/
def perUnit (x : Nat) : Nat := if x < 48 then 100 else 10

/-- Dead time of a stage's own register, in 10 ns (R476, R478). -/
def State.ownDead (s : State) (x : Nat) : Nat :=
  if x < 40 then 0 else if x < 48 then 100 * Nat.max 1 (s.fld (R.HBR_HCTL (x - 40)) F.HBR_HCTL.DT)
  else 10 * Nat.max 2 (s.fld (R.HBR_PCFG (x - 48)) F.HBR_PCFG.DT)

/-- Dead time of a stage; a pair that a pattern drives observes both (R481). -/
def State.deadTime (s : State) (x : Nat) : Nat :=
  match s.owner x with
  | some k => (s.patStages k).foldl (fun m y => Nat.max m (s.ownDead y)) 0
  | none => s.ownDead x

/-- A set of switches cannot close yet: the other switch of a side is closed, or has opened within the dead time (R476, R478). -/
def Stage.needDead (y : Stage) (m now dt : Nat) : Bool :=
  [0, 1, 2, 3].any (fun b => m.testBit b && !y.closed.testBit b &&
    (y.closed.testBit (b ^^^ 1) || (match tabGet noCount y.swAt (b ^^^ 1) with
      | some t => decide (now < t + dt)
      | none => false)))

def State.needDead (s : State) (x m : Nat) : Bool := (s.stage x).needDead m s.tb.body (s.deadTime x)

/-- The closed switches become m, and each that changes keeps when. -/
def Stage.move (y : Stage) (m now : Nat) : Stage :=
  { y with closed := m, swAt := [0, 1, 2, 3].foldl (fun t b => if y.closed.testBit b = m.testBit b then t else tabPut noCount b (some now) t) y.swAt }

/-- The direction of a pre-driver's mode: 1 forward, 2 reverse (R478). -/
def pdWay (m : Nat) : Nat := if m = 1 ∨ m = 4 then 1 else if m = 2 ∨ m = 5 then 2 else 0

/-- A change of mode reverses a pre-driver, and so passes through OFF (R478). -/
def turns (x old new : Nat) : Bool := decide (48 ≤ x) && pdWay old != 0 && pdWay new != 0 && pdWay old != pdWay new

/-- The on-phase ends: the time in limit is added up, or the trip timer clears (R462). -/
def Stage.phaseEnd (y : Stage) (now : Word) : Stage :=
  let t := match y.since with
    | some d => y.trip + (now.toNat - d.toNat)
    | none => y.trip
  { y with trip := if y.limited then t else 0, since := none, limited := false, first := false, probe := false }

/-- Another phase than the on-phase ends: what it spent in limit is added up (R462). -/
def Stage.restEnd (y : Stage) (now : Word) : Stage :=
  match y.since with
  | some d => { y with trip := y.trip + (now.toNat - d.toNat), since := none, limited := false }
  | none => y

/-- PROT of a channel or a half-bridge changes, with its event (R470). -/
def State.setProt (s : State) (x c : Nat) : State :=
  if 48 ≤ x ∨ s.fld (diagReg x) F.HSO_DIAG.PROT = c then s else (s.setFld (diagReg x) F.HSO_DIAG.PROT c).stageEvt x

/-- Close a set of switches and open the others: where two of one side exchange, through both open for the dead time (R476, R478). -/
def State.goTo (s : State) (x m : Nat) : State :=
  let y := s.stage x
  if m = y.closed ∧ y.after.isNone then s
  else
    let now := s.tb.body
    let rest := pwmMode x y.cur.mode && y.closed != onMask x y.cur.mode && (s.owner x).isNone
    let y1 := if y.closed = 0 ∨ m &&& y.closed = y.closed then y else if rest then y.restEnd s.heelDtb else y.phaseEnd s.heelDtb
    let y2 := if s.needDead x m then { y1.move (y.closed &&& m) now with after := some m } else { y1.move m now with after := none }
    let y3 := if m ≠ 0 ∧ m &&& y.closed ≠ m then { y2 with onAt := now, mark := none, off := 0, offAt := none }
      else if m = 0 then { y2 with off := 0, offAt := some now } else y2
    let t := s.setStage x y3
    if y.since.isSome ∧ y3.since.isNone then t.setProt x 0 else t

/-- Every switch opens at once. -/
def State.openAll (s : State) (x : Nat) : State := s.goTo x 0

/-- A stage drives nothing for now: retired or to be retired, shut down, without its charge pump, or off for an overvoltage. -/
def State.stageBlocked (s : State) (x : Nat) : Bool :=
  let y := s.stage x
  s.sup.heelHeld || s.stageRetired x || y.due.isSome || y.uv || y.dead || s.sup.ovOff

/-! ### Patterns' drives and ends (R482, R483) -/

/-- Switches that a DRIVE code closes: 0 OFF, 1 FWD, 2 REV, 3 BRAKE; second says that the stage is B of a pair. -/
def driveMask (pd second : Bool) (d : Nat) : Nat :=
  if pd then onMask 48 d
  else match d with
    | 1 => if second then 2 else 1
    | 2 => if second then 1 else 2
    | 3 => 2
    | _ => 0

/-- Milliseconds in the running step. -/
def State.patElapsed (s : State) (t : Word) : Nat := Nat.min ((s.heelDtb.toNat - t.toNat) / 100000) 0xFFFF

/-- A pattern ends with a state: 2 DONE, 3 TIMEOUT, 4 ABORTED, 5 FAULT. Its target's control registers are OFF, and OWNED clears (R482). -/
def State.patEnd (s : State) (k code : Nat) : State :=
  match s.pat k with
  | none => s
  | some t =>
    let a := R.HBR_PATSTAT k
    let xs := s.patStages k
    let s1 := ((s.setFld a F.HBR_PATSTAT.STATE code).setFld a F.HBR_PATSTAT.ELAPSED (s.patElapsed t)).setPat k none
    let s2 := s1.each (fun u x => ((u.setFld (ctlReg x) F.HBR_HCTL.MODE 0).openAll x).onStage x (fun y => { y with cur := ⟨0, 0, 0, 0⟩, pend := [], fresh := false })) xs
    s2.putBit R.HBR_EVT (12 + k) true

/-! ### Shutdown, retirement, admission -/

/-- A stage leaves service (R465): it opens, its pattern ends FAULT. -/
def State.stageOff (s : State) (x : Nat) : State :=
  let s1 := match s.owner x with
    | some k => s.patEnd k 5
    | none => s
  (((s1.openAll x).onStage x (fun y => { Stage.init with shutAt := y.shutAt, offAt := some s.tb.body })).setProt x 0).stageEvt x

/-- An admitted stage is OFF and UNTESTED, with RESTARTS zero (R465); its STATE changes, which sets its event bit (R470). -/
def State.stageAdmit (s : State) (x : Nat) : State :=
  let s1 := (s.setStage x { Stage.init with offAt := some s.tb.body }).setFld (diagReg x) F.HSO_DIAG.STATE 0
  let s2 := (s1.setFld (diagReg x) F.HSO_DIAG.RESTARTS 0).setFld (ctlReg x) F.HBR_HCTL.MODE 0
  (if x < 48 then s2.setFld (diagReg x) F.HSO_DIAG.PROT 0 else s2).stageEvt x

/-! ### Keep paths (R473–R475) -/

def keepDefault (_ : Nat) : Keep := ⟨false, false, false, 0⟩
def State.keep (s : State) (k : Nat) : Keep := tabGet keepDefault s.io.outs.keeps k
def State.setKeep (s : State) (k : Nat) (y : Keep) : State := s.withOuts { s.io.outs with keeps := tabPut keepDefault k y s.io.outs.keeps }

/-- The keep paths are off, and none has tripped: a start from cold (R474). -/
def State.keepsOff (s : State) : State := s.withOuts { s.io.outs with keeps := [] }

/-- The main units' stages go to the states of R74, and nothing of them is left but the keep paths. -/
def State.outsReset (s : State) : State := s.withOuts { Outs.init with keeps := s.io.outs.keeps }

end Sys2Proof.Machine
end

