-- ==== Sys2Proof/Machine/AngCtl.lean ====
section
/-! DEFINITION. Machine/AngCtl.lean: the angle unit: teeth, synchronisation, direction, event channels, registers (22_angle.md). An edge is processed at the DTB tick at which
it passes the filter. -/
namespace Sys2Proof.Machine

def State.ang (s : State) : Ang := s.io.ang
def State.withAng (s : State) (x : Ang) : State := s.withIo { s.io with ang := x }
def angChDefault (_ : Nat) : AngCh := AngCh.init
def State.angCh (s : State) (c : Nat) : AngCh := tabGet angChDefault s.ang.chs c
def State.setAngCh (s : State) (c : Nat) (x : AngCh) : State := s.withAng { s.ang with chs := tabPut angChDefault c x s.ang.chs }

/-! ### Settings (R557–R559) -/

/-- A value between two bounds. -/
def clampNat (lo hi x : Nat) : Nat := Nat.max lo (Nat.min hi x)

def State.teeth (s : State) : Nat := clampNat 8 120 (s.fld R.ANG_WHEEL F.ANG_WHEEL.TEETH)
def State.angGap (s : State) : Nat := Nat.max 1 (s.fld R.ANG_WHEEL F.ANG_WHEEL.GAP)
def State.fwdn (s : State) : Nat := clampNat 4 64 (s.fld R.ANG_CONF F.ANG_CONF.FWDN)
/-- 720 mode; coded direction. -/
def State.twoRev (s : State) : Bool := s.bit R.ANG_CTL 1
def State.coded (s : State) : Bool := s.bit R.ANG_CTL 2
/-- Angle ticks of a cycle. -/
def State.cycleLen (s : State) : Nat := s.teeth * (if s.twoRev then 128 else 64)
/-- The stamp of what passes the filter now (R558). -/
def State.angStamp (s : State) : Nat := s.heelDtb.toNat - Nat.max 1 (s.fld R.ANG_CTL F.ANG_CTL.FILT)
/-- DIRTH in DTB ticks. -/
def State.dirth (s : State) : Nat := 50 * s.fld R.ANG_CONF F.ANG_CONF.DIRTH

/-- ANG_STAT.STATE: 0 OFF, 1 SEARCH, 2 HALF, 3 SYNC, 4 REVERSE, 5 CONFIRM. -/
def State.angSt (s : State) : Nat := s.fld R.ANG_STAT F.ANG_STAT.STATE
def State.setAngSt (s : State) (c : Nat) : State := s.setFld R.ANG_STAT F.ANG_STAT.STATE c
def State.angEvt (s : State) (b : Nat) : State := s.putBit R.ANG_EVT b true

/-! ### Interpolation (R566, R567) -/

/-- Teeth to the next edge due. -/
def State.pitches (s : State) : Nat := if s.ang.since + 1 = s.teeth - s.angGap then s.angGap + 1 else 1

def State.lastStamp (s : State) : Nat := match s.ang.last with
  | some t => t.toNat
  | none => 0

/-- Angle ticks past the last edge, now. -/
def State.angOff (s : State) : Nat := Nat.min ((s.heelDtb.toNat - s.lastStamp) * 64 / Nat.max 1 s.ang.p) (64 * s.pitches - 1)

/-- The interpolated angle. -/
def State.angleNow (s : State) : Nat := (s.ang.a + s.angOff) % s.cycleLen

/-- The predicted time of the angle r ticks past the last edge. -/
def State.timeOf (s : State) (r : Nat) : Nat := s.lastStamp + (r * s.ang.p + 63) / 64

/-- Angle ticks from one angle forward to another. -/
def State.angDist (s : State) (from_ goal : Nat) : Nat := (goal % s.cycleLen + s.cycleLen - from_ % s.cycleLen) % s.cycleLen

/-! ### Channels (R568–R574) -/

/-- ANG_CHCFG.MODE: 0 ANGLE, 1 DUR, 2 DWELL. -/
def State.chMode (s : State) (c : Nat) : Nat :=
  let m := s.fld (R.ANG_CHCFG c) F.ANG_CHCFG.MODE
  if m = 3 then 0 else m
/-- ANG_CHSTAT.STATE: 0 IDLE, 1 ARMED, 2 ACTIVE. -/
def State.chSt (s : State) (c : Nat) : Nat := s.fld (R.ANG_CHSTAT c) F.ANG_CHSTAT.STATE
def State.setChSt (s : State) (c x : Nat) : State := s.setFld (R.ANG_CHSTAT c) F.ANG_CHSTAT.STATE x

def AngCh.start (x : AngCh) : Nat := fget x.ang F.ANG_CHANG.START
def AngCh.fin (x : AngCh) : Nat := fget x.ang F.ANG_CHANG.END

/-- Put a channel with its next time, which ANG_CHPRED shows. -/
def State.putCh (s : State) (c : Nat) (x : AngCh) : State := (s.setAngCh c x).wr (R.ANG_CHPRED c) (x.at_.setWidth 32)

/-- The angles and the duration that the registers hold. -/
def State.chAdopt (s : State) (c : Nat) : State :=
  s.setAngCh c { s.angCh c with ang := s.rd (R.ANG_CHANG c), dur := Nat.max 1 (s.fld (R.ANG_CHDUR c) F.ANG_CHDUR.DUR) }

/-- A begin time, from the passage it waits for. -/
def State.beginTime (s : State) (c r : Nat) : Nat := if s.chMode c = 2 then s.timeOf r - (s.angCh c).dur else s.timeOf r

/-- Arm a channel: the next passage at least lo ticks past the last edge; in another cycle than the last begin's, or in DWELL mode one whose begin lies ahead (R568, R570). -/
def State.chArm (s : State) (c lo : Nat) : State :=
  let x := s.angCh c
  let len := s.cycleLen
  let dwell := s.chMode c == 2
  let d := s.angDist s.ang.a (if dwell then x.fin else x.start)
  let r0 := if d < lo then d + len else d
  let r1 := if dwell then
      let m := 64 * (s.heelDtb.toNat + x.dur - s.lastStamp) / Nat.max 1 s.ang.p + 1
      if m ≤ r0 then r0 else r0 + (m - r0 + len - 1) / len * len
    else if x.cycle = some s.ang.cyc ∧ r0 < len - s.ang.a then r0 + len else r0
  (s.putCh c { x with ahead := r1, at_ := BitVec.ofNat 64 (s.beginTime c r1), timed := false, short := false }).setChSt c 1

/-- An occurrence ends: 1 DONE, 2 SHORT, 3 CUT, 4 CANCELLED, 5 MISSED. It re-arms if REPEAT is set, else EN clears. -/
def State.chEnd (s : State) (c code : Nat) : State :=
  let t := ((s.setChSt c 0).setFld (R.ANG_CHSTAT c) F.ANG_CHSTAT.LAST code).putBit (if code ≤ 2 then R.ANG_DONE else R.ANG_CANCEL) c true
  let u := t.angEvt 7
  if !s.bit (R.ANG_CHCFG c) 3 then u.putBit (R.ANG_CHCFG c) 0 false
  else if u.angSt = 3 then u.chArm c (u.angOff + 1) else u

/-- An occurrence begins at a DTB: the conversion, the stamp (R574). -/
def State.chBegin (s : State) (c : Nat) (at_ : Nat) (volts : List (BitVec 12)) : State :=
  let cfg := s.rd (R.ANG_CHCFG c)
  let t := ((s.setChSt c 2).wr (R.ANG_CHSTAMP c) (BitVec.ofNat 32 at_)).setAngCh c { s.angCh c with cycle := some s.ang.cyc }
  if cfg.getLsbD 8 then t.wr (R.ANG_CHSAMP c) (BitVec.ofNat 32 ((volts.getD (fget cfg F.ANG_CHCFG.SW) 0).toNat + 0x80000000)) else t

/-- What a begun occurrence ends at. back is how far behind the last edge it began, ahead how far in front of it. -/
def State.chRun (s : State) (c at_ ahead back : Nat) : State :=
  let x := s.angCh c
  let len := s.angDist x.start x.fin
  match s.chMode c with
  | 1 => s.putCh c { x with timed := true, at_ := BitVec.ofNat 64 (at_ + x.dur), startAngle := x.start }
  | 2 => s.putCh c { x with ahead := ahead, at_ := BitVec.ofNat 64 (s.timeOf ahead), startAngle := s.angleNow }
  | _ =>
    if len = 0 then s.putCh c { x with timed := true, at_ := BitVec.ofNat 64 (at_ + 1), startAngle := x.start }
    else if ahead + len ≤ back then (s.setAngCh c { x with startAngle := x.start }).chEnd c 1
    else s.putCh c { x with ahead := ahead + len - back, at_ := BitVec.ofNat 64 (s.timeOf (ahead + len - back)), startAngle := x.start }

/-- A DWELL occurrence whose end angle comes before its begin time (R572). -/
def State.chShort (s : State) (c : Nat) (volts : List (BitVec 12)) : State :=
  let m := s.fld (R.ANG_CHCFG c) F.ANG_CHCFG.MINON
  let now := s.heelDtb.toNat
  if m = 0 then s.chEnd c 5
  else
    let t := s.chBegin c now volts
    t.putCh c { t.angCh c with timed := true, short := true, at_ := BitVec.ofNat 64 (now + 100 * m), startAngle := t.angleNow }

/-- Channel c at an active edge in SYNC that has advanced the angle by adv (R571–R573). -/
def State.chEdge (s : State) (adv : Nat) (volts : List (BitVec 12)) (c : Nat) : State :=
  let x := s.angCh c
  let now := s.heelDtb.toNat
  let t := s.chAdopt c
  let y := t.angCh c
  let st := s.chSt c
  if st = 1 then
    let dwell := s.chMode c == 2
    let fresh := y.ang != x.ang
    let d := s.angDist s.ang.a (if dwell then y.fin else y.start)
    if !fresh && decide (x.ahead ≤ adv) then
      if dwell then t.chShort c volts else (t.chBegin c now volts).chRun c now 0 (adv - x.ahead)
    else
      let r := if !fresh then x.ahead - adv
        else if !dwell && x.cycle == some s.ang.cyc && decide (d < s.cycleLen - s.ang.a) then d + s.cycleLen else d
      let b := t.beginTime c r
      if (dwell && decide (b ≤ now)) || r = 0 then (t.chBegin c now volts).chRun c now r 0
      else t.putCh c { y with ahead := r, at_ := BitVec.ofNat 64 b }
  else if st = 2 then
    if x.timed then t
    else if y.fin ≠ x.fin then
      let done := s.angDist x.startAngle s.ang.a
      let whole := s.angDist x.startAngle y.fin
      if whole ≤ done then t.chEnd c 1 else t.putCh c { y with ahead := whole - done, at_ := BitVec.ofNat 64 (t.timeOf (whole - done)) }
    else if x.ahead ≤ adv then t.chEnd c 1
    else t.putCh c { y with ahead := x.ahead - adv, at_ := BitVec.ofNat 64 (t.timeOf (x.ahead - adv)) }
  else t

/-- The channels are blocked with a cause (R564): ACTIVE occurrences are CUT, ARMED ones CANCELLED. -/
def State.angBlock (s : State) (cause : Nat) : State :=
  let t := s.each (fun u c =>
    let st := u.chSt c
    if st = 2 ∨ st = 1 then (u.chEnd c (5 - st)).setFld (R.ANG_CHSTAT c) F.ANG_CHSTAT.CAUSE cause else u) (List.range 24)
  ((t.setFld R.ANG_BLOCK F.ANG_BLOCK.CAUSE cause).advSat R.ANG_BLOCK F.ANG_BLOCK.COUNT 1).angEvt 1

/-! ### Synchronisation (R560–R565) -/

/-- REVERSE is entered, with the cause it records (R564). -/
def State.angReverse (s : State) (cause : Nat) : State :=
  ((((s.setAngSt 4).advSat R.ANG_BLOCK F.ANG_BLOCK.REVCNT 1).angEvt 2).angBlock cause)

/-- SYNC is left for what R561 says of an inconsistency. -/
def State.angLost (s : State) (cause : Nat) : State := if s.coded then (s.setAngSt 1).angBlock cause else s.angReverse cause

/-- Which revolution a gap's CAM level starts. -/
def State.revOf (s : State) (cam : Bool) : Nat := if s.twoRev && cam != s.bit R.ANG_CTL 5 then 1 else 0

/-- The predicted period, from the periods as R559 counts them. -/
def State.angPredict (s : State) : State :=
  let x := s.ang
  s.withAng { x with p := Nat.max 1 (if s.bit R.ANG_CTL 3 then Nat.max (2 * x.tk - x.tk1) ((x.tk + 1) / 2) else x.tk) }

/-- The tooth and the revolution of the last edge. -/
def State.setTooth (s : State) (rev tooth : Nat) : State :=
  ((s.setFld R.ANG_STAT F.ANG_STAT.REV rev).setFld R.ANG_STAT F.ANG_STAT.TOOTH tooth).withAng { s.ang with a := (rev * s.teeth + tooth) * 64, since := tooth }

/-- SYNC is entered at tooth of revolution rev: the enabled channels are armed. -/
def State.angSync (s : State) (rev tooth : Nat) : State :=
  let t0 := (((s.setTooth rev tooth).setAngSt 3).angEvt 0).angPredict
  let t := t0.withAng { t0.ang with cyc := t0.ang.cyc + 1 }
  t.each (fun u c => if u.bit (R.ANG_CHCFG c) 0 && u.chSt c == 0 then (u.chAdopt c).chArm c 0 else u) (List.range 24)

/-- A gap candidate, and one at a wrong place whatever the count (R559). -/
def State.gapCand (s : State) (t : Nat) : Bool :=
  match s.ang.per with
  | some p =>
    let r := 8 * t / Nat.max 1 p
    decide (200 ≤ t) && decide (s.fld R.ANG_WHEEL F.ANG_WHEEL.GLO ≤ r) && decide (r ≤ s.fld R.ANG_WHEEL F.ANG_WHEEL.GHI)
  | none => false

/-- Count from this gap. -/
def State.fromGap (s : State) (cam : Bool) : State := (s.withAng { s.ang with since := 0, gapCam := cam }).setFld R.ANG_STAT F.ANG_STAT.TOOTH 0

/-- One more edge since the gap. -/
def State.oneMore (s : State) : State :=
  (s.withAng { s.ang with since := s.ang.since + 1 }).setFld R.ANG_STAT F.ANG_STAT.TOOTH (s.ang.since + 1)

/-- An active edge in HALF. -/
def State.edgeHalf (s : State) (cand wrong cam : Bool) : State :=
  let right := s.ang.since + 1 == s.teeth - s.angGap
  if cand && right then
    if cam != s.ang.gapCam then s.angSync (s.revOf cam) 0 else (s.fromGap cam).angEvt 6
  else if cand || wrong then (s.fromGap cam).angEvt 5
  else s.oneMore

/-- An active edge in SYNC. -/
def State.edgeSync (s : State) (cand wrong cam : Bool) (volts : List (BitVec 12)) : State :=
  let n := s.ang.since + 1
  let due := n == s.teeth - s.angGap
  let rev := s.fld R.ANG_STAT F.ANG_STAT.REV
  if wrong || cand != due then (s.angEvt 5).angLost 2
  else if due && s.twoRev && s.revOf cam != 1 - rev then (s.angEvt 6).angLost 3
  else
    let adv := if due then 64 * (s.angGap + 1) else 64
    let rev' := if due && s.twoRev then 1 - rev else rev
    let t := s.setTooth rev' (if due then 0 else n)
    let u := (if due && rev' == 0 then t.withAng { t.ang with cyc := t.ang.cyc + 1 } else t).angPredict
    let v := if due then u.withAng { u.ang with gapCam := cam } else u
    v.each (fun w c => w.chEdge adv volts c) (List.range 24)

/-- CONFIRM is entered (R565). -/
def State.angConfirm (s : State) (gaps : Nat) : State :=
  ((s.setAngSt 5).setFld R.ANG_STAT F.ANG_STAT.FWDCNT 0).withAng { s.ang with gaps := gaps }

/-- An active edge in CONFIRM. -/
def State.edgeConfirm (s : State) (cand wrong cam : Bool) : State :=
  let t := if s.coded then s else s.setFld R.ANG_STAT F.ANG_STAT.FWDCNT (Nat.min (s.fld R.ANG_STAT F.ANG_STAT.FWDCNT + 1) 127)
  let found := t.ang.gaps != 0
  let right := t.ang.since + 1 == t.teeth - t.angGap
  if wrong || (cand && found && !right) then t.angReverse 2
  else if cand && found && t.twoRev && cam == t.ang.gapCam then t.angReverse 3
  else
    let u := if cand then (t.fromGap cam).withAng { (t.fromGap cam).ang with gaps := Nat.min (t.ang.gaps + 1) 2 } else if found then t.oneMore else t
    let need := if !u.twoRev && u.coded then 1 else 2
    if need ≤ u.ang.gaps && decide (u.fwdn ≤ u.fld R.ANG_STAT F.ANG_STAT.FWDCNT) then
      (u.angSync (u.revOf u.ang.gapCam) u.ang.since).angEvt 3
    else u

/-- An active edge of CRK with the CAM level, at the tick at which it passes the filter (R558–R565). -/
def State.crankEdge (s : State) (cam : Bool) (volts : List (BitVec 12)) : State :=
  let st := s.angSt
  let stamp := s.angStamp
  let x := s.ang
  let base (t : State) (y : Ang) : State :=
    (t.withAng { y with last := some (BitVec.ofNat 64 stamp), judge := s.coded, stallFrom := some (BitVec.ofNat 64 stamp) }).wr R.ANG_TSTAMP_LO (BitVec.ofNat 32 stamp)
  match x.last with
  | none => base s x
  | some d =>
    let t := stamp - d.toNat
    let cand := s.gapCand t
    let wrong := decide (t < 200)
    let per := if cand then t / (s.angGap + 1) else t
    let s1 := (base s { x with per := some t, tk := per, tk1 := x.tk }).wr R.ANG_PERIOD (BitVec.ofNat 32 (Nat.min t 0xFFFFFFFF))
    match st with
    | 1 => if cand then (if s.twoRev then (s1.fromGap cam).setAngSt 2 else (s1.fromGap cam).angSync 0 0) else s1
    | 2 => s1.edgeHalf cand wrong cam
    | 3 => s1.edgeSync cand wrong cam volts
    | 4 => if cand && !s.coded then (s1.fromGap cam).angConfirm 1 else s1
    | 5 => s1.edgeConfirm cand wrong cam
    | _ => s1

/-- The last tooth is judged forward (R562, R565). -/
def State.toothForward (s : State) : State :=
  let t := (s.withAng { s.ang with judge := false }).setFld R.ANG_STAT F.ANG_STAT.DIR 0
  match s.angSt with
  | 4 => t.angConfirm 0
  | 5 => t.setFld R.ANG_STAT F.ANG_STAT.FWDCNT (Nat.min (t.fld R.ANG_STAT F.ANG_STAT.FWDCNT + 1) 127)
  | _ => t

/-- The last tooth is judged reverse (R562, R564). -/
def State.toothReverse (s : State) : State :=
  let t := (s.withAng { s.ang with judge := false }).setFld R.ANG_STAT F.ANG_STAT.DIR 1
  if s.angSt = 4 then t else t.angReverse 1

/-- No active edge for STALL ms (R561). -/
def State.angStall (s : State) : State :=
  let t := (s.withAng { s.ang with stallFrom := none, judge := false }).angEvt 4
  if s.angSt = 3 then (t.setAngSt 1).angBlock 4 else t.setAngSt 1

/-! ### Register writes and views -/

/-- A write of ANG_CTL (R576). -/
def State.angCtlWrite (s : State) (v : W32) (acc : State → Nat → W32 → State) : State :=
  let old := s.rd R.ANG_CTL
  if old.getLsbD 0 then
    let t := if (old ^^^ v) &&& 0xFF3E = 0 then s else s.angEvt 8
    if v.getLsbD 0 then t else ((t.putBit R.ANG_CTL 0 false).setAngSt 0).angBlock 5
  else
    let t := acc s R.ANG_CTL v
    if v.getLsbD 0 then (t.setAngSt 1).withAng { Ang.init with chs := t.ang.chs, cyc := t.ang.cyc + 1, stallFrom := some s.heelDtb } else t

/-- A write of ANG_CHCFGn (R570, R573). -/
def State.chCfgWrite (s : State) (c : Nat) (v : W32) (acc : State → Nat → W32 → State) : State :=
  let a := R.ANG_CHCFG c
  let st := s.chSt c
  if st = 0 then
    let t := acc s a v
    if v.getLsbD 0 && t.angSt == 3 then (t.chAdopt c).chArm c (t.angOff + 1) else t
  else if v.getLsbD 0 then s.angEvt 8
  else
    let t := ((s.setChSt c 0).setFld (R.ANG_CHSTAT c) F.ANG_CHSTAT.LAST (5 - st)).setFld (R.ANG_CHSTAT c) F.ANG_CHSTAT.CAUSE 5
    acc ((t.putBit R.ANG_CANCEL c true).angEvt 7) a v

/-- A write of the ANG block. -/
def State.angWrite (s : State) (a : Nat) (v : W32) (acc : State → Nat → W32 → State) : State :=
  let o := a - 0x2000F000
  if o = 0 then s.angCtlWrite v acc
  else if o = 4 ∨ o = 8 then (if s.bit R.ANG_CTL 0 then s.angEvt 8 else acc s a v)
  else if 0x100 ≤ o ∧ o < 0x400 ∧ o % 0x20 = 0 then s.chCfgWrite ((o - 0x100) / 0x20) v acc
  else acc s a v

/-- AEV0–AEV11 (R569): an output is at its active level while a channel routed to it is ACTIVE. -/
def State.aevLevels (s : State) : Nat :=
  let pol := s.rd R.ANG_OUTPOL
  (List.range 12).foldl (fun w n =>
    let on := (List.range 24).any (fun c => s.chSt c == 2 && s.fld (R.ANG_CHCFG c) F.ANG_CHCFG.ROUTE == n)
    if on == pol.getLsbD n then w + 2 ^ n else w) 0

/-- Reads that are views. -/
def State.angRead (s : State) (a : Nat) : Option W32 :=
  if a = R.ANG_ANGLE then some (if s.angSt = 3 then BitVec.ofNat 32 (s.angleNow + 0x80000000) else 0)
  else if a = R.ANG_OUT then some (BitVec.ofNat 32 s.aevLevels)
  else none

/-- A read of ANG_TSTAMP_LO latches HI (R575). -/
def State.angReadLatch (s : State) (a : Nat) : Option (State × W32) :=
  if a = R.ANG_TSTAMP_LO then some (s.wr R.ANG_TSTAMP_HI (BitVec.ofNat 32 (s.lastStamp / 0x100000000)), s.rd a) else none

end Sys2Proof.Machine
end

