-- ==== Sys2Proof/Machine/InCtl.lean ====
section
/-! DEFINITION. Machine/InCtl.lean: the filtered switch levels, and a decoder that leaves service (19_inputs.md). -/
namespace Sys2Proof.Machine

/-- The filtered level of input i (SWI_LVL). -/
def State.swLevel (s : State) (i : Nat) : Bool := s.bit (if i < 32 then R.SWI_LVL_LO else R.SWI_LVL_HI) (i % 32)

def qdecDefault (_ : Nat) : Qdec := Qdec.init
def State.qdec (s : State) (n : Nat) : Qdec := tabGet qdecDefault s.io.qdec n
def State.setQdec (s : State) (n : Nat) (y : Qdec) : State := s.withIo { s.io with qdec := tabPut qdecDefault n y s.io.qdec }

/-- A decoder retires (R502). -/
def State.qdecOff (s : State) (n : Nat) : State :=
  ((s.setFld (R.QDEC_STAT n) F.QDEC_STAT.UNCERTAIN 1).setFld (R.QDEC_STAT n) F.QDEC_STAT.REF_VALID 0).setQdec n { s.qdec n with learn := false }

end Sys2Proof.Machine
end

