-- ==== Sys2Proof/Machine/MbcCtl.lean ====
section
/-! DEFINITION. Machine/MbcCtl.lean: the message bus controllers and the Last matrix (20_message_bus.md): requests and the frame on offer, attempts, reception, error
counters and bus-off, failure reports, the matrix's cycles and windows. Buffer 32 is the pass-through element. -/
namespace Sys2Proof.Machine

def mbcDefault (_ : Nat) : Mbc := Mbc.init
def State.mbc (s : State) (n : Nat) : Mbc := tabGet mbcDefault s.io.mbc n
def State.setMbc (s : State) (n : Nat) (x : Mbc) : State := s.withIo { s.io with mbc := tabPut mbcDefault n x s.io.mbc }
def State.onMbc (s : State) (n : Nat) (f : Mbc → Mbc) : State := s.setMbc n (f (s.mbc n))

def mbcUnit (n : Nat) : BitVec 16 := unitCode 0xD n

/-- The controller is powered and in service. -/
def State.mbcUp (s : State) (n : Nat) : Bool := !s.sup.heelHeld && !s.isRetired (mbcUnit n)

/-! ### Message RAM and frames (R507, R508, R512) -/

/-- An offset of a controller's message RAM. -/
def msgRam (n off : Nat) : Nat := 0x20020000 + 0x2000 * n + off

/-- The element of transmit buffer b. -/
def txElem (n b : Nat) : Nat := if b < 32 then msgRam n (0x50 * b) else msgRam n 0x1E00

/-- Word i of an element's 80 bytes. -/
def elemWord (l : List Byte) (i : Nat) : W32 := BitVec.ofNat 32 (leNat ((l.drop (4 * i)).take 4))

/-- Data bytes of a DLC. -/
def dlcLen (fdf : Bool) (dlc : Nat) : Nat :=
  if dlc ≤ 8 then dlc
  else if !fdf then 8
  else match dlc with
    | 9 => 12
    | 10 => 16
    | 11 => 20
    | 12 => 24
    | 13 => 32
    | 14 => 48
    | _ => 64

/-- A frame as it is on the bus: a base ID has 11 bits. -/
def frameNorm (f : CanFrame) : CanFrame := if f.ide then f else { f with id := f.id &&& 0x7FF }

/-- The frame that a transmit element describes. -/
def txFrame (l : List Byte) : CanFrame :=
  let a := elemWord l 0
  let b := elemWord l 1
  let fdf := b.getLsbD 4
  let rtr := a.getLsbD 30
  let dlc := fget b ⟨0, 4⟩
  frameNorm { id := a.setWidth 29, ide := a.getLsbD 29, rtr := rtr, fdf := fdf, brs := b.getLsbD 5, esi := false, dlc := BitVec.ofNat 4 dlc,
              data := if rtr then [] else (l.drop 16).take (dlcLen fdf dlc) }

/-- A header that R508 does not let be sent. -/
def txBad (f : CanFrame) : Bool := (!f.fdf && f.brs) || (f.rtr && f.fdf)

def txOneshot (l : List Byte) : Bool := (elemWord l 1).getLsbD 8
def txReady (l : List Byte) : Bool := (elemWord l 1).getLsbD 9

/-- What arbitration compares, dominant first: a lower number wins. -/
def arbKey (f : CanFrame) : Nat :=
  if f.ide then f.id.toNat / 0x40000 * 0x200000 + 0x180000 + f.id.toNat % 0x40000 * 2 + f.rtr.toNat
  else f.id.toNat % 2048 * 0x200000 + f.rtr.toNat * 0x100000

/-- A receive element (R512), zero beyond the frame's length (R507). -/
def rxElem (f : CanFrame) (filt : Option Nat) (stamp : Word) : List Byte :=
  let w0 := f.id.toNat + 0x20000000 * f.ide.toNat + 0x40000000 * f.rtr.toNat + 0x80000000 * f.esi.toNat
  let w1 := f.dlc.toNat + 16 * f.fdf.toNat + 32 * f.brs.toNat + (match filt with
    | some n => 256 * n
    | none => 0x2000)
  let d := if f.rtr then [] else f.data.take (dlcLen f.fdf f.dlc.toNat)
  leBytes 4 w0 ++ leBytes 4 w1 ++ leBytes 8 stamp.toNat ++ d ++ List.replicate (64 - d.length) 0

/-! ### Registers by name -/

def State.mbcInit (s : State) (n : Nat) : Bool := s.bit (R.MBC_CTL n) 0
/-- MBC_STAT.STATE: 0 ACTIVE, 1 PASSIVE, 2 BUSOFF, 3 RECOVERING. -/
def State.mbcState (s : State) (n : Nat) : Nat := s.fld (R.MBC_STAT n) F.MBC_STAT.STATE
def State.setAct (s : State) (n c : Nat) : State := s.setFld (R.MBC_STAT n) F.MBC_STAT.ACT c
def State.mbcEvt (s : State) (n b : Nat) : State := s.putBit (R.MBC_EVT n) b true
/-- LAST_STAT.STATE: 0 STOPPED, 1 WAIT_START, 2 RUNNING, 3 WAIT_REF, 4 BUSOFF_HALT. -/
def State.lastState (s : State) (n : Nat) : Nat := s.fld (R.LAST_STAT n) F.LAST_STAT.STATE
def State.setLast (s : State) (n c : Nat) : State := s.setFld (R.LAST_STAT n) F.LAST_STAT.STATE c
def State.lastRun (s : State) (n : Nat) : Bool := s.bit (R.LAST_CTL n) 0
/-- LAST_CTL.MODE: 0 LOCAL, 1 SENDER, 2 FOLLOWER. -/
def State.lastMode (s : State) (n : Nat) : Nat :=
  let m := s.fld (R.LAST_CTL n) F.LAST_CTL.MODE
  if m = 3 then 0 else m
/-- A bit of LAST_EVT, and MBC_EVT.LAST with it. -/
def State.lastEvt (s : State) (n b : Nat) : State := (s.putBit (R.LAST_EVT n) b true).mbcEvt n 10
def State.lastCycles (s : State) (n : Nat) : Nat := s.fld (R.LAST_CFG n) F.LAST_CFG.CYCLES + 1
def State.lastSlots (s : State) (n : Nat) : Nat := s.fld (R.LAST_CFG n) F.LAST_CFG.SLOTS + 1
def State.slotOff (s : State) (n j : Nat) : Nat := s.fld (R.LAST_SLOT n j) F.LAST_SLOT.OFFSET
def State.slotWin (s : State) (n j : Nat) : Nat := s.fld (R.LAST_SLOT n j) F.LAST_SLOT.WIN
/-- The cell of a row and a slot: its type, and the buffer it names. -/
def State.lastCell (s : State) (n row slot : Nat) : Nat × Option Nat :=
  let h := fget (s.rd (R.LAST_CELL n row (slot / 2))) ⟨16 * (slot % 2), 16⟩
  (h % 4, if h.testBit 7 then some (h / 4 % 32) else none)

/-- A buffer that a cell of the running matrix names (R518). -/
def State.lastOwns (s : State) (n b : Nat) : Bool :=
  s.lastRun n && (List.range (s.lastCycles n)).any (fun r => (List.range (s.lastSlots n)).any (fun c => (s.lastCell n r c).2 == some b))

/-- WAKE_XSTAT.STATE: 0 OFF, 1 STANDBY, 2 DECODING, 3 SILENT, 4 NORMAL. -/
def State.mbState (s : State) (i : Nat) : Nat := s.fld (R.WAKE_XSTAT i) F.WAKE_XSTAT.STATE

/-- The transceiver's transmitter, and its receiver, are on (R543); MB4–MB7 have external ones. -/
def State.txOnBus (s : State) (n : Nat) : Bool := decide (4 ≤ n) || s.mbState n == 4
def State.rxOnBus (s : State) (n : Nat) : Bool := decide (4 ≤ n) || decide (3 ≤ s.mbState n)

/-! ### Failure reports (R514) -/

/-- Queue a report, or count it lost. -/
def State.failReport (s : State) (n : Nat) (r : FailRep) : State :=
  if (s.mbc n).fails.length < 16 then (s.onMbc n (fun m => { m with fails := m.fails ++ [r] })).mbcEvt n 4
  else s.advSat (R.MBC_FAIL_STAT n) F.MBC_FAIL_STAT.LOST 1

/-- A free request, or the pass-through element's, is pending no longer. -/
def State.freeClear (s : State) (n b : Nat) : State :=
  let t := s.onMbc n (fun m => { m with since := m.since.filter (fun p => p.1 != b) })
  if b < 32 then (t.putBit (R.MBC_TXREQ n) b false).putBit (R.MBC_TXCAN n) b false else t.setFld (R.MBC_PT_STAT n) F.MBC_PT_STAT.PTX_BUSY 0

/-- A free request is made now, unless it stands already. -/
def State.freeAsked (s : State) (n b : Nat) : State :=
  s.onMbc n (fun m => if m.since.any (fun p => p.1 == b) then m else { m with since := m.since ++ [(b, s.heelDtb)] })

/-- A free request, or the pass-through element's, ends with a failure cause. -/
def State.freeFail (s : State) (n b cause : Nat) : State :=
  let t := (s.freeClear n b).failReport n ⟨b, cause, 0, 0, s.heelDtb⟩
  if b = 32 then t.setFld (R.MBC_PT_STAT n) F.MBC_PT_STAT.PTX_RES cause else t

/-- A cell's frame ends with a failure cause. -/
def State.cellFail (s : State) (n : Nat) (c : CellTx) (cause : Nat) : State := s.failReport n ⟨c.buf, cause, c.row, c.slot, s.heelDtb⟩

/-- The buffer of the cell frame that waits. -/
def Mbc.cellBuf (m : Mbc) : Option Nat := m.cell.map CellTx.buf

/-- The request of buffer b, which waits, ends with a failure cause. -/
def State.reqFail (s : State) (n b cause : Nat) : State :=
  match (s.mbc n).cell with
  | some c => if c.buf = b then (s.onMbc n (fun m => { m with cell := none })).cellFail n c cause else s.freeFail n b cause
  | none => s.freeFail n b cause

/-- The request of the frame on the bus, buffer b, ends with a failure cause. -/
def State.txEnded (s : State) (n b cause : Nat) : State :=
  match (s.mbc n).txCell with
  | some c => s.cellFail n c cause
  | none => s.freeFail n b cause

/-- Buffer b's frame is on the bus as a free request's. -/
def Mbc.freeTx (m : Mbc) (b : Nat) : Bool := m.tx == some b && m.txCell.isNone && !m.orphan

/-- Requests that wait, by buffer: free ones, the cell's, the pass-through element's. -/
def State.waitingReqs (s : State) (n : Nat) : List Nat :=
  let m := s.mbc n
  let f := (List.range 32).filter (fun b => s.bit (R.MBC_TXREQ n) b && m.cellBuf != some b && !m.freeTx b)
  f ++ m.cellBuf.toList ++ (if s.on (R.MBC_PT_STAT n) F.MBC_PT_STAT.PTX_BUSY && !m.freeTx 32 then [32] else [])

/-! ### The frame on offer (R509, R518, R519) -/

/-- The controller may start a frame now. -/
def State.mbcCanSend (s : State) (n : Nat) : Bool :=
  let mode := s.fld (R.MBC_CTL n) F.MBC_CTL.MODE
  s.mbcUp n && !s.mbcInit n && (s.mbc n).joined && decide (s.mbcState n < 2) && (mode == 0 || mode == 3)

/-- Free buffers and the pass-through element may start: outside a running matrix, or within an ARBITRATING window. -/
def State.freeMayStart (s : State) (n : Nat) : Bool :=
  s.lastState n != 2 || (match (s.mbc n).openSlot with
    | some c => (s.lastCell n (s.fld (R.LAST_STAT n) F.LAST_STAT.ROW) c).1 == 2
    | none => false)

/-- Buffers whose frame may start, rising, with its contents. -/
def State.mbcReady (s : State) (n : Nat) : List (Nat × List Byte) :=
  let m := s.mbc n
  let free := if s.freeMayStart n then
      ((List.range 32).filter (fun b => s.bit (R.MBC_TXREQ n) b && !s.lastOwns n b)) ++ (if s.on (R.MBC_PT_STAT n) F.MBC_PT_STAT.PTX_BUSY then [32] else [])
    else []
  let fs := free.map (fun b => (b, s.bytes (txElem n b) 80))
  match m.cell with
  | some c => fs.filter (fun p => decide (p.1 < c.buf)) ++ [(c.buf, c.bytes)] ++ fs.filter (fun p => decide (c.buf < p.1))
  | none => fs

/-- The DTBs between which a frame may start in the open window (R518). -/
def State.slotSpan (s : State) (n c : Nat) : Nat × Nat :=
  let a := (s.mbc n).start.toNat + 100 * s.slotOff n c
  (a, a + 100 * s.slotWin n c)

/-- The frame of buffer b is on offer: it starts at the next bus idle. -/
def State.txStart (s : State) (n b : Nat) (l : List Byte) : State :=
  let w := if s.lastState n = 2 then (s.mbc n).openSlot.map (s.slotSpan n) else none
  (s.onMbc n (fun m =>
    let mine := m.cellBuf == some b
    { m with
      tx := some b, snap := l, abort := none, orphan := false, win := w, txCell := if mine then m.cell else none, cell := if mine then none else m.cell })).setAct n 3

/-- No frame is on the bus. -/
def Mbc.noTx (m : Mbc) : Mbc := { m with tx := none, txCell := none, abort := none, orphan := false, win := none }

/-- The frame that wins arbitration; the lower buffer on a tie. -/
def bestTx : List (Nat × List Byte) → Option (Nat × List Byte)
  | [] => none
  | p :: r =>
    match bestTx r with
    | none => some p
    | some q => if arbKey (txFrame q.2) < arbKey (txFrame p.2) then some q else some p

/-- End the requests whose headers R508 refuses, and put the winner among the ready requests that p takes on offer if no frame is. -/
def State.offerOf (s : State) (n : Nat) (p : Nat → Bool) : State :=
  if !s.mbcCanSend n || (s.mbc n).tx.isSome then s
  else
    let bad := (s.mbcReady n).filter (fun q => txBad (txFrame q.2))
    let t := s.each (fun u b => u.reqFail n b 6) (bad.map (·.1))
    match bestTx ((t.mbcReady n).filter (fun q => p q.1)) with
    | some (b, l) => t.txStart n b l
    | none => t

def State.offer (s : State) (n : Nat) : State := s.offerOf n (fun _ => true)

/-- The request of buffer b stood at a DTB; a cell's frame stands in its window. -/
def Mbc.stoodAt (m : Mbc) (sof : Word) (b : Nat) : Bool := m.cellBuf == some b || m.since.all (fun p => p.1 != b || decide (p.2.toNat ≤ sof.toNat))

/-- The frame that seemed to be on the bus was not, or is to be repeated: its request goes back to waiting, or ends as it was to end. -/
def State.untx (s : State) (n : Nat) : State :=
  let m := s.mbc n
  match m.tx with
  | none => s
  | some b =>
    let t := (s.onMbc n Mbc.noTx).setAct n 1
    if m.orphan then t
    else match m.txCell with
      | some c =>
        if let some x := m.abort then t.cellFail n c x
        else if m.openSlot = some c.slot ∧ m.cell.isNone then t.onMbc n (fun y => { y with cell := some c })
        else ((t.cellFail n c 9).advSat (R.LAST_CNT n) F.LAST_CNT.MISSED 1).lastEvt n 1
      | none => if let some x := m.abort then t.freeFail n b x else t

/-! ### The matrix (R518–R523) -/

/-- The first cycle of LOCAL and SENDER timing whose start lies at least 10 µs ahead (R520, R523). -/
def State.lastNextK (s : State) (n : Nat) : Nat :=
  let st := (s.rd2 (R.LAST_START_LO n) (R.LAST_START_HI n)).toNat
  let p := 100 * Nat.max 1 (s.fld (R.LAST_LEN n) F.LAST_LEN.LEN)
  let t := s.heelDtb.toNat + 1000
  if t ≤ st then 0 else (t - st + p - 1) / p

/-- The DTB at which cycle k starts. -/
def State.lastStart (s : State) (n k : Nat) : Nat :=
  (s.rd2 (R.LAST_START_LO n) (R.LAST_START_HI n)).toNat + k * s.fld (R.LAST_LEN n) F.LAST_LEN.LEN * 100

/-- No cell frame is to start; one that waits ends with a cause. -/
def State.cellDrop (s : State) (n cause : Nat) : State :=
  let t := s.onMbc n (fun m => { m with openSlot := none })
  match (s.mbc n).cellBuf with
  | some b => t.reqFail n b cause
  | none => t

/-- RUN clears (R521): a frame that has started may finish. -/
def State.lastStop (s : State) (n : Nat) : State :=
  if s.lastRun n then (((s.cellDrop n 8).putBit (R.LAST_CTL n) 0 false).setLast n 0).onMbc n (fun m => { m with ref := none }) else s

/-- Why RUN is refused (R521), 0 where it is not. -/
def State.lastCode (s : State) (n : Nat) : Nat :=
  let len := s.fld (R.LAST_LEN n) F.LAST_LEN.LEN
  let k := s.lastSlots n
  let slots := List.range k
  let rows := List.range (s.lastCycles n)
  let rb := s.fld (R.LAST_CFG n) F.LAST_CFG.REF_BUF
  let h := s.bytes (txElem n rb) 80
  if s.mbcInit n || s.mbcState n ≥ 2 || s.isRetired (mbcUnit n) then 1
  else if len < 100 then 2
  else if !slots.all (fun j => if j + 1 < k then decide (s.slotOff n j < s.slotOff n (j + 1)) else decide (s.slotOff n j < len)) then 3
  else if !slots.all (fun j => decide (s.slotOff n j + s.slotWin n j ≤ if j + 1 < k then s.slotOff n (j + 1) else len)) then 4
  else if rows.any (fun r => slots.any (fun c => (s.lastCell n r c).1 == 1 && (s.lastCell n r c).2.isNone)) then 5
  else if s.lastMode n == 1 && (s.slotOff n 0 != 0 || rows.any (fun r => s.lastCell n r 0 != (1, some rb)) ||
      (txFrame h).id != (s.rd (R.LAST_REF n)).setWidth 29 || (txFrame h).ide != (s.rd (R.LAST_REF n)).getLsbD 29 || (txFrame h).dlc == 0) then 6
  else 0

/-- The matrix waits for its first cycle, or for the next one after bus-off. -/
def State.lastArm (s : State) (n : Nat) (again : Bool) : State :=
  let fol := s.lastMode n == 2
  let st := (s.rd2 (R.LAST_START_LO n) (R.LAST_START_HI n)).toNat
  let t := s.onMbc n (fun m => { m with
    k := if !again && decide (s.heelDtb.toNat < st) then 0 else s.lastNextK n
    openSlot := none, ref := none, refAt := s.heelDtb })
  t.setLast n (if fol && again then 3 else 1)

/-- RUN is set (R521). -/
def State.lastGo (s : State) (n : Nat) : State :=
  let c := s.lastCode n
  if c = 0 then (((s.putBit (R.LAST_CTL n) 0 true).setFld (R.LAST_STAT n) F.LAST_STAT.CODE 0).lastArm n false)
  else (((s.putBit (R.LAST_CTL n) 0 false).setLast n 0).setFld (R.LAST_STAT n) F.LAST_STAT.CODE c).lastEvt n 4

/-- The open window ends: a frame that has not started is MISSED (R514, R519). begun: the frame on offer in it has started. -/
def State.windowEnd (s : State) (n : Nat) (begun : Bool) : State :=
  match (s.mbc n).openSlot with
  | none => s
  | some c =>
    let s0 := if !begun && (s.mbc n).win == some (s.slotSpan n c) then s.untx n else s
    let t := s0.onMbc n (fun m => { m with openSlot := none })
    match (s0.mbc n).cellBuf with
    | some b => ((t.reqFail n b 9).advSat (R.LAST_CNT n) F.LAST_CNT.MISSED 1).lastEvt n 1
    | none => t

/-- A cycle starts with a row at a DTB; a frame on offer that no window bounds must have started by then. -/
def State.cycleStart (s : State) (n row : Nat) (at_ : Word) : State :=
  let t := (s.windowEnd n true).setLast n 2
  ((((t.setFld (R.LAST_STAT n) F.LAST_STAT.ROW row).setFld (R.LAST_STAT n) F.LAST_STAT.SLOT 0).advWrap (R.LAST_CNT n) F.LAST_CNT.CYC 1).onMbc n
    (fun m => { m with start := at_, nextSlot := 0, win := if m.tx.isSome && m.win.isNone then some (0, at_.toNat) else m.win }))

/-- A slot's window opens, with the named buffer's contents as they are now (R518, R519). -/
def State.slotStart (s : State) (n slot : Nat) : State :=
  let s0 := s.windowEnd n true
  let row := s0.fld (R.LAST_STAT n) F.LAST_STAT.ROW
  let t := (s0.setFld (R.LAST_STAT n) F.LAST_STAT.SLOT slot).onMbc n (fun m => { m with openSlot := some slot, nextSlot := slot + 1 })
  let c := s.lastCell n row slot
  let u := match c with
    | (1, some b) | (2, some b) =>
      let l := t.bytes (txElem n b) 80
      if txReady l then t.onMbc n (fun m => { m with cell := some ⟨b, row, slot, l, (m.k + 63) % 64⟩ }) else t.advSat (R.LAST_CNT n) F.LAST_CNT.SKIP 1
    | _ => t
  u.offer n

/-! ### Error counters and bus-off (R515–R517) -/

/-- Bus-off (R516). -/
def State.busOff (s : State) (n : Nat) : State :=
  let one (t : State) (b : Nat) : Bool := b == 32 || t.bit (R.MBC_CTL n) 3 || (t.mbc n).cellBuf == some b || txOneshot (t.bytes (txElem n b) 80)
  let s1 := ((s.setFld (R.MBC_STAT n) F.MBC_STAT.STATE 2).mbcEvt n 7).onMbc n (fun m => { m.noTx with joined := false, openSlot := none })
  let s2 := s1.each (fun t b => if one t b then t.reqFail n b 7 else t) (s1.waitingReqs n)
  (if s2.lastRun n then s2.setLast n 4 else s2).setAct n 0

/-- The error counters take new values (R515). -/
def State.setErr (s : State) (n tec rec : Nat) : State :=
  let a := R.MBC_ECNT n
  let t0 := s.fld a F.MBC_ECNT.TEC
  let r0 := s.fld a F.MBC_ECNT.REC
  let r := Nat.min rec 255
  let s1 := (s.setFld a F.MBC_ECNT.TEC (Nat.min tec 256)).setFld a F.MBC_ECNT.REC r
  let s2 := if (t0 < 96 ∧ 96 ≤ tec) ∨ (r0 < 96 ∧ 96 ≤ r) then s1.mbcEvt n 5 else s1
  if 255 < tec then s2.busOff n
  else
    let p := decide (127 < tec) || decide (127 < r)
    let s3 := if p && s2.mbcState n == 0 then s2.mbcEvt n 6 else s2
    s3.setFld (R.MBC_STAT n) F.MBC_STAT.STATE p.toNat

def State.mbcTec (s : State) (n : Nat) : Nat := s.fld (R.MBC_ECNT n) F.MBC_ECNT.TEC
def State.mbcRec (s : State) (n : Nat) : Nat := s.fld (R.MBC_ECNT n) F.MBC_ECNT.REC

/-- LEC and DLEC codes (MBC_STAT). -/
def lecCode : BusErr → Nat
  | .stuff => 1
  | .form => 2
  | .ack => 3
  | .bit1 => 4
  | .bit0 => 5
  | .crc => 6

def State.setLec (s : State) (n : Nat) (e : BusErr) (data : Bool) : State :=
  s.setFld (R.MBC_STAT n) (if data then F.MBC_STAT.DLEC else F.MBC_STAT.LEC) (lecCode e)

/-- ACKRUN and ALONE clear (R517). -/
def State.notAlone (s : State) (n : Nat) : State := (s.setFld (R.MBC_STAT n) F.MBC_STAT.ACKRUN 0).setFld (R.MBC_STAT n) F.MBC_STAT.ALONE 0

/-- An attempt ends without an acknowledgement (R517). -/
def State.ackMiss (s : State) (n : Nat) : State :=
  let t := s.advSat (R.MBC_STAT n) F.MBC_STAT.ACKRUN 1
  if t.fld (R.MBC_STAT n) F.MBC_STAT.ACKRUN = 16 ∧ s.fld (R.MBC_STAT n) F.MBC_STAT.ACKRUN = 15 then (t.setFld (R.MBC_STAT n) F.MBC_STAT.ALONE 1).mbcEvt n 9 else t

/-! ### INIT and recovery (R504, R506, R516) -/

/-- The bit timing meets R504. -/
def State.timingOk (s : State) (n : Nat) : Bool :=
  let a := s.rd (R.MBC_NBT n)
  let d := s.rd (R.MBC_DBT n)
  let t1 := fget a F.MBC_NBT.TSEG1 + 1
  let t2 := fget a F.MBC_NBT.TSEG2 + 1
  let d1 := fget d F.MBC_DBT.TSEG1 + 1
  let d2 := fget d F.MBC_DBT.TSEG2 + 1
  decide (2 ≤ t1) && decide (2 ≤ t2) && decide (fget a F.MBC_NBT.SJW + 1 ≤ t2) && decide (80 ≤ (fget a F.MBC_NBT.BRP + 1) * (1 + t1 + t2)) &&
  decide (fget d F.MBC_DBT.SJW + 1 ≤ d2) && decide (10 ≤ (fget d F.MBC_DBT.BRP + 1) * (1 + d1 + d2))

/-- INIT is set (R506, R516, R523): requests end ABORTED, the frame on the bus at its end (R510); the matrix stops. -/
def State.mbcSetInit (s : State) (n : Nat) : State :=
  if s.mbcInit n then s
  else
    let s1 := (s.lastStop n).putBit (R.MBC_CTL n) 0 true
    let s2 := s1.each (fun t b => t.reqFail n b 8) (s1.waitingReqs n)
    let s3 := (s2.onMbc n (fun y => { y with joined := false, abort := if y.tx.isSome then y.abort.or (some 8) else none })).setAct n (if (s2.mbc n).tx.isSome then 3 else 0)
    if s3.mbcState n ≥ 2 then s3.setFld (R.MBC_STAT n) F.MBC_STAT.STATE 2
    else (s3.wr (R.MBC_ECNT n) 0).setFld (R.MBC_STAT n) F.MBC_STAT.STATE 0

/-- INIT is cleared (R504, R506). -/
def State.mbcClrInit (s : State) (n : Nat) : State := (s.putBit (R.MBC_CTL n) 0 false).setFld (R.MBC_STAT n) F.MBC_STAT.PXE 0

/-- The controller integrates to the bus again (R503, R528). -/
def State.rejoin (s : State) (n : Nat) : State := ((s.untx n).onMbc n (fun m => { m with joined := false })).setAct n 0

/-- A controller retires (R528): its frame is cut off, and it returns in INIT. -/
def State.mbcOff (s : State) (n : Nat) : State :=
  let m := s.mbc n
  let t := match m.tx with
    | some b => if m.orphan then s else s.txEnded n b 8
    | none => s
  (t.onMbc n Mbc.noTx).mbcSetInit n

/-! ### Reception (R511, R512, R520) -/

/-- Put an element into the receive FIFO, or count it lost. -/
def State.toFifo (s : State) (n : Nat) (e : List Byte) : State :=
  let a := R.MBC_RXF_STAT n
  let fill := s.fld a F.MBC_RXF_STAT.FILL
  if 48 ≤ fill then (s.advSat a F.MBC_RXF_STAT.LOST 1).mbcEvt n 1
  else ((s.putBytes (msgRam n (0xA00 + 0x50 * ((s.fld a F.MBC_RXF_STAT.GET + fill) % 48))) e).setFld a F.MBC_RXF_STAT.FILL (fill + 1)).mbcEvt n 0

/-- Discard element i of a queue of len elements of 80 bytes at a base: the fill elements held from get on, of which the later ones close up. -/
def State.dropElem (s : State) (base len get fill i : Nat) : State :=
  (List.range (fill - 1 - i)).foldl (fun t j => t.putBytes (base + 0x50 * ((get + i + j) % len)) (t.bytes (base + 0x50 * ((get + i + j + 1) % len)) 80)) s

/-- Release the oldest element of the FIFO. -/
def State.fifoPop (s : State) (n : Nat) : State :=
  let a := R.MBC_RXF_STAT n
  let fill := s.fld a F.MBC_RXF_STAT.FILL
  if fill = 0 then s else (s.setFld a F.MBC_RXF_STAT.FILL (fill - 1)).setFld a F.MBC_RXF_STAT.GET ((s.fld a F.MBC_RXF_STAT.GET + 1) % 48)

/-- Put an element into the pass-through receive queue, or count it lost. -/
def State.toPass (s : State) (n : Nat) (e : List Byte) : State :=
  let a := R.MBC_PT_STAT n
  let fill := s.fld a F.MBC_PT_STAT.PTRX_FILL
  if 16 ≤ fill then s.advSat a F.MBC_PT_STAT.PTRX_LOST 1
  else ((s.putBytes (msgRam n (0x1900 + 0x50 * (((s.mbc n).ptGet + fill) % 16))) e).setFld a F.MBC_PT_STAT.PTRX_FILL (fill + 1)).mbcEvt n 2

/-- Release the oldest element of the pass-through receive queue. -/
def State.passPop (s : State) (n : Nat) : State :=
  let a := R.MBC_PT_STAT n
  let fill := s.fld a F.MBC_PT_STAT.PTRX_FILL
  if fill = 0 then s else (s.setFld a F.MBC_PT_STAT.PTRX_FILL (fill - 1)).onMbc n (fun m => { m with ptGet := (m.ptGet + 1) % 16 })

/-- Receive element e of the FIFO is unreadable: it is discarded as lost, where it is held (R528). -/
def State.fifoLose (s : State) (n e : Nat) : State :=
  let a := R.MBC_RXF_STAT n
  let fill := s.fld a F.MBC_RXF_STAT.FILL
  let get := s.fld a F.MBC_RXF_STAT.GET
  let i := (e + 48 - get) % 48
  if fill ≤ i then s
  else
    let t := if i = 0 then s.fifoPop n else (s.dropElem (msgRam n 0xA00) 48 get fill i).setFld a F.MBC_RXF_STAT.FILL (fill - 1)
    (t.advSat a F.MBC_RXF_STAT.LOST 1).mbcEvt n 1

/-- The same of the pass-through receive queue. -/
def State.passLose (s : State) (n e : Nat) : State :=
  let a := R.MBC_PT_STAT n
  let fill := s.fld a F.MBC_PT_STAT.PTRX_FILL
  let get := (s.mbc n).ptGet
  let i := (e + 16 - get) % 16
  if fill ≤ i ∨ 16 ≤ e then s
  else
    let t := if i = 0 then s.passPop n else (s.dropElem (msgRam n 0x1900) 16 get fill i).setFld a F.MBC_PT_STAT.PTRX_FILL (fill - 1)
    t.advSat a F.MBC_PT_STAT.PTRX_LOST 1

/-- The first enabled filter that matches. -/
def State.filterOf (s : State) (n : Nat) (f : CanFrame) : Option Nat :=
  (List.range 32).find? (fun j =>
    let w := s.rd (R.MBC_FLT_ID n j)
    fget w F.MBC_FLT_ID.ACT != 0 && w.getLsbD 29 == f.ide && ((w.setWidth 29 ^^^ f.id) &&& (s.rd (R.MBC_FLT_MASK n j)).setWidth 29) == 0)

/-- A frame goes where its filter says. -/
def State.mbcAccept (s : State) (n : Nat) (f : CanFrame) (stamp : Word) : State :=
  match s.filterOf n f with
  | none => if s.bit (R.MBC_CTL n) 5 then s.toFifo n (rxElem f none stamp) else s
  | some j =>
    let act := s.fld (R.MBC_FLT_ID n j) F.MBC_FLT_ID.ACT
    let e := rxElem f (some j) stamp
    let t := if act = 1 ∨ act = 3 then s.toFifo n e else s
    if act = 2 ∨ act = 3 then t.toPass n e else t

/-- A reference message of a FOLLOWER (R520). -/
def State.lastRefer (s : State) (n : Nat) (f : CanFrame) (stamp : Word) : State :=
  let w := s.rd (R.LAST_REF n)
  if s.lastRun n && s.lastMode n == 2 && s.lastState n != 4 && w.setWidth 29 == f.id && w.getLsbD 29 == f.ide then
    let row := if f.dlc = 0 then none else some ((f.data.headD 0).toNat % 64)
    s.onMbc n (fun m => { m with ref := some (row, stamp) })
  else s

/-- A valid frame of another node, or one's own in internal loopback. -/
def State.mbcReceive (s : State) (n : Nat) (f : CanFrame) (stamp : Word) : State :=
  let s1 := ((s.advSat (R.MBC_RXCNT n) F.MBC_RXCNT.COUNT 1).notAlone n)
  let r := s1.mbcRec n
  let s2 := if r = 0 then s1
    else if r ≤ 127 then s1.setErr n (s1.mbcTec n) (r - 1)
    else s1.drawn.setErr n (s1.mbcTec n) (119 + s1.draw.toNat % 9)
  (s2.mbcAccept n f stamp).lastRefer n f stamp

/-! ### Attempts (R509, R510, R513, R514) -/

/-- The cause a failed attempt is reported with. -/
def failCause : TxEnd → Nat
  | .ok => 0
  | .lost => 1
  | .err .ack _ _ _ => 2
  | .err .bit1 _ _ _ => 3
  | .err .bit0 _ _ _ => 3
  | .err .stuff _ _ _ => 4
  | .err _ _ _ _ => 5

/-- The frame on the bus is a SENDER's reference message. -/
def State.isRefTx (s : State) (n : Nat) : Bool :=
  match (s.mbc n).txCell with
  | some c => c.slot == 0 && s.lastMode n == 1
  | none => false

/-- The frame as it was on the bus: an FD frame's ESI is recessive in PASSIVE (R515), and a SENDER's reference carries its cycle number (R520). -/
def State.sentFrame (s : State) (n : Nat) : CanFrame :=
  let m := s.mbc n
  let g := txFrame m.snap
  let f := { g with esi := g.fdf && s.mbcState n == 1 }
  match f.data, m.txCell with
  | b :: r, some c => if s.isRefTx n then { f with data := ((b &&& 0xC0) ||| BitVec.ofNat 8 c.cycle) :: r } else f
  | _, _ => f

/-- Buffer b has sent its frame (R508, R509, R512, R520). -/
def State.txOk (s : State) (n b : Nat) (sof : Word) : State :=
  let m := s.mbc n
  let f := s.sentFrame n
  let s1 := ((s.advSat (R.MBC_TXCNT n) F.MBC_TXCNT.COUNT 1).notAlone n)
  let s2 := if s1.mbcInit n then s1 else s1.setErr n (s1.mbcTec n - 1) (s1.mbcRec n)
  let s3 := if m.orphan then s2
    else
      let t := s2.putBytes (txElem n b + 8) (leBytes 8 sof.toNat)
      let u := if m.txCell.isSome then t else t.freeClear n b
      if b < 32 then (u.putBit (R.MBC_TXDONE n) b true).mbcEvt n 3 else u.setFld (R.MBC_PT_STAT n) F.MBC_PT_STAT.PTX_RES 0
  if s3.fld (R.MBC_CTL n) F.MBC_CTL.MODE = 3 then s3.mbcReceive n f sof else if s.isRefTx n then s3.mbcAccept n f sof else s3

/-- The attempt of buffer b has failed: its request ends, or is retried. -/
def State.txFail (s : State) (n b : Nat) (e : TxEnd) : State :=
  let m := s.mbc n
  if m.orphan then s
  else if let some x := m.abort then s.txEnded n b x
  else if b == 32 || m.txCell.isSome || s.bit (R.MBC_CTL n) 3 || txOneshot m.snap then s.txEnded n b (failCause e)
  else s

/-- What an error does to the counters and the last error codes. -/
def State.txErr (s : State) (n : Nat) (e : TxEnd) : State :=
  match e with
  | .err k data quiet more =>
    let t := s.setLec n k data
    let u := match k with
      | .ack => t.ackMiss n
      | _ => t
    let free := quiet && (match k with
      | .ack => u.mbcState n == 1
      | _ => true)
    if u.mbcInit n then u else u.setErr n (u.mbcTec n + (if free then 0 else 8) + 8 * more) (u.mbcRec n)
  | _ => s

/-- An attempt of the frame on the bus ends. -/
def State.attemptEnd (s : State) (n b : Nat) (sof : Word) (e : TxEnd) : State :=
  let free (t : State) : State := (t.onMbc n Mbc.noTx).setAct n (if t.mbcInit n || decide (2 ≤ t.mbcState n) then 0 else 1)
  match e with
  | .ok => (free (s.txOk n b sof)).offer n
  | _ => ((free (s.txFail n b e)).txErr n e).offer n

/-! ### Register writes and views (R506, R521, R527) -/

/-- A write of MBC_CTL. -/
def State.mbcCtlWrite (s : State) (n : Nat) (v : W32) : State :=
  let a := R.MBC_CTL n
  let conf := v &&& 0x3E
  let old := s.rd a
  if s.mbcInit n then
    if v.getLsbD 0 then s.wr a ((old &&& ~~~0x3E) ||| conf)
    else if !s.timingOk n then s.mbcEvt n 11
    else (s.wr a ((old &&& ~~~0x3E) ||| conf)).mbcClrInit n
  else
    let s1 := if old &&& 0x3E = conf then s else s.mbcEvt n 12
    if v.getLsbD 0 then s1.mbcSetInit n
    else if v.getLsbD 8 && s1.mbcState n == 2 then s1.setFld (R.MBC_STAT n) F.MBC_STAT.STATE 3
    else s1

/-- A write of MBC_TXREQ (R509). -/
def State.txReq (s : State) (n : Nat) (v : W32) : State :=
  (s.each (fun t b => if t.lastOwns n b then t else (t.putBit (R.MBC_TXREQ n) b true).freeAsked n b) (bitsOf v.toNat 32)).offer n

/-- A write of MBC_TXCAN (R510). -/
def State.txCan (s : State) (n : Nat) (v : W32) : State :=
  s.each (fun t b =>
    let m := t.mbc n
    let u := if (t.waitingReqs n).contains b then t.reqFail n b 8 else t
    if m.tx = some b ∧ !m.orphan then (u.putBit (R.MBC_TXCAN n) b m.txCell.isNone).onMbc n (fun y => { y with abort := y.abort.or (some 8) }) else u) (bitsOf v.toNat 32)

/-- A write of an MBC block. -/
def State.mbcWrite (s : State) (a : Nat) (v : W32) (acc : State → Nat → W32 → State) : State :=
  let n := (a - 0x20010000) / 0x1000
  let o := a % 0x1000
  if o = 0 then s.mbcCtlWrite n v
  else if o = 4 ∨ o = 8 ∨ 0x100 ≤ o then (if s.mbcInit n then acc s a v else s.mbcEvt n 12)
  else if o = 0x14 then
    let t := acc s a v
    if s.bit a 10 && t.rd (R.LAST_EVT n) != 0 then t.mbcEvt n 10 else t
  else if o = 0x20 then s.txReq n v
  else if o = 0x24 then s.txCan n v
  else if o = 0x3C then s.onMbc n (fun m => { m with fails := m.fails.drop 1 })
  else if o = 0x48 then s.fifoPop n
  else if o = 0x58 then (if n < 4 then s else acc s a v)
  else acc s a v

/-- A write of a LAST block (R521). -/
def State.lastWrite (s : State) (a : Nat) (v : W32) (acc : State → Nat → W32 → State) : State :=
  let n := (a - 0x20030000) / 0x2000
  let run := s.lastRun n
  if a % 0x2000 = 0 then
    let t := s.setFld (R.LAST_CTL n) F.LAST_CTL.MODE (fget v F.LAST_CTL.MODE)
    if v.getLsbD 0 then (if run then t else t.lastGo n) else (t.lastStop n).offer n
  else if run then s.lastEvt n 5
  else acc s a v

/-- Reads that are views: the oldest failure report, RETIRED, the pin of an on-die channel. -/
def State.mbcRead (s : State) (a : Nat) : Option W32 :=
  if 0x20010000 ≤ a ∧ a < 0x20018000 then
    let n := (a - 0x20010000) / 0x1000
    let fs := (s.mbc n).fails
    match a % 0x1000 with
    | 0x0C => some (fput (s.rd a) F.MBC_STAT.RETIRED (s.isRetired (mbcUnit n)).toNat)
    | 0x30 => some (match fs with
      | r :: _ => BitVec.ofNat 32 (r.buf + 256 * r.cause + 0x1000 * r.row + 0x40000 * r.slot + 0x80000000)
      | [] => 0)
    | 0x34 => some (match fs with
      | r :: _ => r.dtb.setWidth 32
      | [] => 0)
    | 0x38 => some (match fs with
      | r :: _ => (r.dtb >>> 32).setWidth 32
      | [] => 0)
    | 0x40 => some (fput (s.rd a) F.MBC_FAIL_STAT.COUNT fs.length)
    | 0x58 => if n < 4 then some 0 else none
    | _ => none
  else none

/-! ### Message RAM from the network, and pass-through (R507, R513) -/

/-- An address of the message RAMs. -/
def isMsgRam (a : Nat) : Bool := decide (0x20020000 ≤ a) && decide (a < 0x20030000)

/-- A write of message RAM: only transmit buffers take it. -/
def State.msgWrite (s : State) (a : Nat) : List Byte → State
  | [] => s
  | b :: r => (if (a - 0x20020000) % 0x2000 < 0xA00 then s.putByte a b else s).msgWrite (a + 1) r

/-- The DLC of a length, where a frame can have it. -/
def lenDlc (fdf : Bool) (n : Nat) : Option Nat := (List.range (if fdf then 16 else 9)).find? (fun d => dlcLen fdf d == n)

/-- BUS_TX on MBn (R513): bytes, the header word as R123 has it, the data. -/
def State.mbcBusTx (s : State) (n len : Nat) (w : W32) (data : List Byte) : State × Nat × List W32 :=
  let fdf := w.getLsbD 30
  match lenDlc fdf len with
  | none => (s, 2, [])
  | some dlc =>
    if !fdf && w.getLsbD 31 then (s, 2, [])
    else if s.isRetired (mbcUnit n) then (s, 5, [])
    else if s.mbcInit n then (s, 3, [])
    else
      let busy := s.on (R.MBC_PT_STAT n) F.MBC_PT_STAT.PTX_BUSY
      let s1 := if busy then (s.onMbc n (fun m => { m with orphan := m.orphan || m.tx == some 32 })).reqFail n 32 11 else s
      let h := leBytes 4 (w.toNat % 0x40000000) ++ leBytes 4 (dlc + 16 * fdf.toNat + 32 * (w.getLsbD 31).toNat + 256) ++ leBytes 8 0
      let s2 := (s1.putBytes (txElem n 32) (h ++ data ++ List.replicate (64 - data.length) 0)).setFld (R.MBC_PT_STAT n) F.MBC_PT_STAT.PTX_BUSY 1
      ((s2.freeAsked n 32).offer n, 0, [])

/-- Words of a list of bytes, the last one filled up with zeros. -/
def packWords (l : List Byte) : List W32 := leWords (l ++ List.replicate ((4 - l.length % 4) % 4) 0)

/-- BUS_RX on MBn (R513). -/
def State.mbcBusRx (s : State) (n : Nat) : State × Nat × List W32 :=
  if s.isRetired (mbcUnit n) then (s, 5, [])
  else if s.mbcInit n then (s, 3, [])
  else if s.fld (R.MBC_PT_STAT n) F.MBC_PT_STAT.PTRX_FILL = 0 then (s, 4, [])
  else
    let l := s.bytes (msgRam n (0x1900 + 0x50 * (s.mbc n).ptGet)) 80
    let f := txFrame l
    let len := f.data.length
    let w2 := f.id.toNat + 0x20000000 * f.ide.toNat + 0x40000000 * f.fdf.toNat + 0x80000000 * f.brs.toNat
    (s.passPop n, 0, [BitVec.ofNat 32 (n + 256 * len), BitVec.ofNat 32 w2] ++ packWords f.data)

end Sys2Proof.Machine
end

