-- ==== Sys2Proof/Machine/LinCtl.lean ====
section
/-! DEFINITION. Machine/LinCtl.lean: the LIN controllers and the on-die transceivers of MB0–MB3 and LN0–LN3 (21_lin_wake.md). -/
namespace Sys2Proof.Machine

def linDefault (_ : Nat) : Lin := Lin.init
def State.lin (s : State) (n : Nat) : Lin := tabGet linDefault s.io.lin n
def State.setLin (s : State) (n : Nat) (x : Lin) : State := s.withIo { s.io with lin := tabPut linDefault n x s.io.lin }
def State.onLin (s : State) (n : Nat) (f : Lin → Lin) : State := s.setLin n (f (s.lin n))

def linUnit (n : Nat) : BitVec 16 := unitCode 0xD (8 + n)
def State.linEvt (s : State) (n b : Nat) : State := s.putBit (R.LIN_EVT n) b true

/-- LIN_CTL.MODE: 0 RESPONDER, 1 COMMANDER, 2 UART. -/
def State.linMode (s : State) (n : Nat) : Nat :=
  let m := s.fld (R.LIN_CTL n) F.LIN_CTL.MODE
  if m = 3 then 0 else m

/-- The controller is powered, in service and enabled. -/
def State.linUp (s : State) (n : Nat) : Bool := !s.sup.heelHeld && !s.isRetired (linUnit n) && s.bit (R.LIN_CTL n) 0

def xcvDefault (_ : Nat) : Xcv := Xcv.init
/-- Transceiver x: 0–3 MB0–MB3, 4–7 LN0–LN3. -/
def State.xcv (s : State) (x : Nat) : Xcv := tabGet xcvDefault s.io.xcv x
def State.setXcv (s : State) (x : Nat) (y : Xcv) : State := s.withIo { s.io with xcv := tabPut xcvDefault x y s.io.xcv }

/-- The controller hears and drives its line: the transceiver of LN0–LN3 is in NORMAL (R544). -/
def State.linOnBus (s : State) (n : Nat) : Bool := decide (4 ≤ n) || (s.xcv (4 + n)).st == 2

/-! ### Characters (R532, R533, R541) -/

/-- The majority of the samples 16·k + 7, 16·k + 8 and 16·k + 9; true is recessive. -/
def charBit (w : BitVec 192) (k : Nat) : Bool :=
  decide (2 ≤ (w.getLsbD (16 * k + 7)).toNat + (w.getLsbD (16 * k + 8)).toNat + (w.getLsbD (16 * k + 9)).toNat)

/-- A stop bit k is valid. -/
def stopOk (w : BitVec 192) (k : Nat) : Bool := charBit w k && w.getLsbD (16 * k + 9)

def charByte (w : BitVec 192) : Byte := BitVec.ofNat 8 (bitsWord8 (fun i => charBit w (i + 1)))
where
  /-- A byte with bit i set where p holds. -/
  bitsWord8 (p : Nat → Bool) : Nat := (List.range 8).foldl (fun x i => if p i then x + 2 ^ i else x) 0

/-- The exclusive or of the bits of a byte. -/
def byteParity (b : Byte) : Bool := (List.range 8).foldl (fun p i => p != b.getLsbD i) false

/-- The last stop sample of a character, which its framing and the next start hang on (R533, R534). -/
def lastStop (w : BitVec 192) (par : Nat) (stop2 : Bool) : Bool :=
  w.getLsbD (16 * ((if par == 1 || par == 2 then 10 else 9) + stop2.toNat) + 9)

/-- A character from its samples, with its FE and PE marks; none for a glitch. par: 0 or 3 none, 1 even, 2 odd. -/
def charOf (w : BitVec 192) (par : Nat) (stop2 : Bool) : Option (Byte × Bool × Bool) :=
  if charBit w 0 then none
  else
    let b := charByte w
    let hasPar := par == 1 || par == 2
    let k := if hasPar then 10 else 9
    let pe := hasPar && (charBit w 9 != (byteParity b != (par == 2)))
    some (b, !(stopOk w k && (!stop2 || stopOk w (k + 1))), pe)

/-! ### Frames (R535–R539) -/

/-- The protected identifier of an ID. -/
def linPid (id : Nat) : Byte :=
  let b (i : Nat) : Bool := id.testBit i
  BitVec.ofNat 8 (id % 64 + 64 * (b 0 ^^ b 1 ^^ b 2 ^^ b 4).toNat + 128 * (!(b 1 ^^ b 3 ^^ b 4 ^^ b 5)).toNat)

/-- The checksum: the sum with the carry added back in, inverted. -/
def linCsum (l : List Byte) : Byte :=
  ~~~(BitVec.ofNat 8 (l.foldl (fun x b => let y := x + b.toNat; if 255 < y then y - 255 else y) 0))

/-- The eight data bytes of an ID. -/
def State.linData (s : State) (n id : Nat) : List Byte := leBytes 4 (s.rd (R.LIN_DATA_LO n id)).toNat ++ leBytes 4 (s.rd (R.LIN_DATA_HI n id)).toNat

/-- LEN of an entry in force. -/
def linLen (w : W32) : Nat := Nat.min 8 (Nat.max 1 (fget w F.LIN_RESP.LEN))

/-- Add a queue element (R539); every SUBSCRIBE frame whose entry has PT set enters the pass-through queue (R542). -/
def State.linElem (s : State) (n : Nat) (e : LinElem) : State :=
  let s1 := if e.status = 0 then s.advSat (R.LIN_CNT n) F.LIN_CNT.OK 1 else (s.advSat (R.LIN_CNT n) F.LIN_CNT.ERR 1).linEvt n 3
  if (s.lin n).rq.length < 16 then (s1.onLin n (fun x => { x with rq := x.rq ++ [e] })).linEvt n 0
  else (s1.advSat (R.LIN_RQ_STAT n) F.LIN_RQ_STAT.LOST 1).linEvt n 1

def State.linPass (s : State) (n id : Nat) (data : List Byte) : State :=
  if (s.lin n).pass.length < 8 then s.onLin n (fun x => { x with pass := x.pass ++ [(id, data)] })
  else s.advSat (R.LIN_PT_STAT n) F.LIN_PT_STAT.LOST 1

/-- The frame in progress ends with a status. -/
def State.linEnd (s : State) (n status : Nat) : State :=
  match (s.lin n).frame with
  | none => s
  | some f =>
    let resp := f.phase == .response
    let data := if !resp then [] else if f.publish then f.data else f.data.take f.len
    let s1 := (s.onLin n (fun x => { x with frame := none })).linElem n ⟨f.pid, status, data, f.stamp⟩
    let id := f.pid.toNat % 64
    let s2 := if resp && f.publish && status == 0 then
        let t := s1.linEvt n 2
        if f.once then t.setFld (R.LIN_RESP n id) F.LIN_RESP.ACT 0 else t
      else s1
    if resp && !f.publish && f.pt then s2.linPass n id data else s2

/-- A frame whose break or header begins. -/
def linFrame (ph : LinPhase) (start stamp : Word) (div : Nat) : LinFrame :=
  { phase := ph, pid := 0, publish := false, len := 0, classic := false, pt := false, once := false, data := [], fe := false, start := start, stamp := stamp, div := div }

def State.linDiv (s : State) (n : Nat) : Nat := s.fld (R.LIN_BAUD n) F.LIN_BAUD.DIV

/-- LIN_HDR (R535): the PID is kept with the header to be sent. -/
def State.linHdr (s : State) (n id : Nat) : State :=
  if !s.linUp n || s.linMode n != 1 then s
  else if (s.lin n).frame.isSome then s.linEvt n 7
  else s.onLin n (fun x => { x with frame := some { linFrame .header s.heelDtb s.heelDtb (s.linDiv n) with pid := linPid id } })

/-- The line has been dominant for at least 11 bit times of DIV, a bit time being DIV cycles of 12.5 ns (R530, R536). -/
def State.breakSeen (s : State) (n : Nat) (start stamp : Word) : Bool := decide (55 * s.linDiv n ≤ 4 * (stamp.toNat - start.toNat))

/-- A commander's own break (R535): it starts once the bus has been quiet after a wake-up signal (R540), and lasts 13 + BRKLEN bit times, of which DTB ticks count the
whole ones. -/
def State.ownBreak (s : State) (n : Nat) (start stamp : Word) : Bool :=
  decide ((s.lin n).quiet.toNat ≤ start.toNat) &&
    decide (5 * s.linDiv n * (13 + s.fld (R.LIN_CTL n) F.LIN_CTL.BRKLEN) < 4 * (stamp.toNat - start.toNat + 1))

/-- Four bit times of the controller in DTB ticks (R530, R540). -/
def State.linQuiet (s : State) (n : Nat) (at_ : Word) : Word := at_ + BitVec.ofNat 64 (5 * s.linDiv n)

/-- A break (R536): a responder leaves the frame it follows; a commander's own break begins its header. A dominant phase within the 4 bit times after a wake-up signal
starts them again (R540). -/
def State.linBreak (s : State) (n : Nat) (start stamp : Word) : State :=
  let x := s.lin n
  let u := s.onLin n (fun y => { y with low := false, quiet := if start.toNat < y.quiet.toNat then s.linQuiet n stamp else y.quiet })
  let fresh (t : State) (pid : Byte) : State := t.onLin n (fun y => { y with frame := some { linFrame .break_ start stamp (s.linDiv n) with pid := pid } })
  if x.waking ∨ !s.breakSeen n start stamp then u
  else match s.linMode n, x.frame with
    | 0, some f => fresh (if f.phase = .response then u.linEnd n (if f.publish then 6 else if f.fe then 4 else 2) else u) 0
    | 0, none => fresh u 0
    | 1, some f => if f.phase = .header ∧ s.ownBreak n start stamp then fresh u f.pid else u
    | _, _ => u

/-- Bit times in DTB ticks, times four (R530). -/
def State.linBits4 (s : State) (n bits : Nat) : Nat := 5 * s.linDiv n * bits

/-- A commander's sync byte comes after its delimiter of 1 + DELIM bit times (R535): the time from at_ holds so many more bit times and the byte's nine. -/
def State.ownSync (s : State) (n : Nat) (at_ : Word) (more : Nat) : Bool :=
  decide (s.linBits4 n (1 + s.fld (R.LIN_CTL n) F.LIN_CTL.DELIM + 9 + more) ≤ 4 * (s.heelDtb.toNat - at_.toNat + 1))

/-- The sync byte's start bit began 154 samples before its last stop sample, which is now. -/
def State.syncStart (s : State) (n : Nat) : Word := s.heelDtb - BitVec.ofNat 64 (s.linBits4 n 154 / 64)

/-- A character while a frame is followed. cyc is the time from the falling edge of its start bit to that of its bit 7, in body-reference cycles. A commander that has
not seen its own break takes its header from the sync byte on (R538). -/
def State.linChar (s : State) (n : Nat) (b : Byte) (fe : Bool) (cyc : Nat) : State :=
  match (s.lin n).frame with
  | none => s
  | some f =>
    let put (t : State) (g : LinFrame) : State := t.onLin n (fun x => { x with frame := some g })
    let brk := 13 + s.fld (R.LIN_CTL n) F.LIN_CTL.BRKLEN
    match f.phase with
    | .header => if !fe && b = 0x55 && s.ownSync n f.start brk then put s { f with phase := .sync, div := s.linDiv n, start := s.syncStart n, stamp := s.syncStart n } else s
    | .break_ =>
      let div := s.linDiv n
      let resp := s.linMode n == 0
      let md := cyc / 8
      let near := decide (85 * div ≤ 100 * md) && decide (100 * md ≤ 115 * div)
      let t := if resp then s.setFld (R.LIN_STAT n) F.LIN_STAT.MDIV (Nat.min md 0xFFFF) else s
      if !resp && !s.ownSync n f.stamp 0 then s
      else if fe then t.linEnd n 4
      else if b ≠ 0x55 || (resp && !near) then t.linEnd n 7
      else put t { f with phase := .sync, div := if resp && s.bit (R.LIN_CTL n) 3 then md else div }
    | .sync =>
      let t := put s { f with phase := .pid, pid := b }
      if fe then t.linEnd n 4 else t
    | .response => if f.publish || decide (f.len < f.data.length) then s else put s { f with data := f.data ++ [b], fe := f.fe || fe }
    | _ => s

/-- The PID's action (R537). -/
def State.linAct (s : State) (n : Nat) : State :=
  match (s.lin n).frame with
  | none => s
  | some f =>
    if f.phase ≠ .pid then s
    else
      let id := f.pid.toNat % 64
      if f.pid ≠ linPid id then s.linEnd n 5
      else
        let w := s.rd (R.LIN_RESP n id)
        let act := fget w F.LIN_RESP.ACT
        if act = 0 ∨ act = 3 then s.onLin n (fun x => { x with frame := none })
        else
          let g := { f with
            phase := .response, publish := act == 1, len := linLen w, classic := w.getLsbD 2 || id == 60 || id == 61
            pt := w.getLsbD 3, once := w.getLsbD 8, data := if act = 1 then (s.linData n id).take (linLen w) else [] }
          s.onLin n (fun x => { x with frame := some g })

/-- The checksum that a response must carry (R537). -/
def LinFrame.csum (f : LinFrame) (data : List Byte) : Byte := linCsum (if f.classic then data else f.pid :: data)

/-- A response ends (R537–R539). bit: a publisher read back another bit than it sent, as it does over a transceiver that is off. -/
def State.linRespEnd (s : State) (n : Nat) (bit : Bool) : State :=
  match (s.lin n).frame with
  | none => s
  | some f =>
    if f.phase ≠ .response then s
    else if f.publish then s.linEnd n (if bit || !s.linOnBus n then 6 else 0)
    else if f.fe then s.linEnd n 4
    else if f.data.length = f.len + 1 then s.linEnd n (if f.data.drop f.len = [f.csum (f.data.take f.len)] then 0 else 3)
    else s

/-- TFRAME_MAX in DTB ticks, times four (R538): a bit time is div cycles of 12.5 ns. -/
def tframe4 (f : LinFrame) : Nat := 7 * f.div * (34 + 10 * (f.len + 1))

/-- TFRAME_MAX passes (R538). -/
def State.linTimeout (s : State) (n : Nat) : State :=
  match (s.lin n).frame with
  | none => s
  | some f =>
    if f.phase ≠ .response ∨ f.publish ∨ 4 * (s.heelDtb.toNat - f.start.toNat) < tframe4 f then s
    else s.linEnd n (if f.data = [] then 1 else 2)

/-- LIN_WUTX (R540): SEND is ignored while a frame is in progress, and outside the LIN modes. -/
def State.linWake (s : State) (n : Nat) : State :=
  if !s.linUp n || s.linMode n == 2 || (s.lin n).waking then s
  else if (s.lin n).frame.isSome then s.linEvt n 7
  else (s.onLin n (fun x => { x with waking := true, wakeAt := s.tb.body })).putBit (R.LIN_WUTX n) 0 true

/-- The signal has lasted DUR × 50 µs, DUR from 5 to 100 (R540). -/
def State.linWakeOver (s : State) (n : Nat) : Bool :=
  decide ((s.lin n).wakeAt + 5000 * Nat.max 5 (Nat.min 100 (s.fld (R.LIN_WUTX n) F.LIN_WUTX.DUR)) ≤ s.tb.body)

def State.linWakeEnd (s : State) (n : Nat) : State := (s.onLin n (fun x => { x with waking := false, quiet := s.linQuiet n s.heelDtb })).putBit (R.LIN_WUTX n) 0 false

/-! ### UART (R541) -/

def State.uartPush (s : State) (n : Nat) (b : Byte) : State :=
  if (s.lin n).utx.length < 16 then s.onLin n (fun x => { x with utx := x.utx ++ [b] }) else s

/-- A character has been sent. -/
def State.uartSent (s : State) (n : Nat) : State :=
  match (s.lin n).utx with
  | [] => s
  | _ :: r =>
    let t := s.onLin n (fun x => { x with utx := r })
    if r = [] then t.linEvt n 5 else t

/-- A character has been received. -/
def State.uartGot (s : State) (n : Nat) (c : Byte × Bool × Bool) : State :=
  if (s.lin n).urx.length < 16 then (s.onLin n (fun x => { x with urx := x.urx ++ [c] })).linEvt n 4
  else s.putBit (R.LIN_UART_STAT n) 16 true

/-- A read of LIN_UART_RX. -/
def State.uartPop (s : State) (n : Nat) : State × W32 :=
  match (s.lin n).urx with
  | [] => (s, 0)
  | (b, fe, pe) :: r => (s.onLin n (fun x => { x with urx := r }), BitVec.ofNat 32 (b.toNat + 256 * fe.toNat + 512 * pe.toNat + 0x80000000))

/-! ### Transceivers (R543–R549, R555) -/

/-- RTC ticks in DECODING, this stay included (WAKE_SWTIME). -/
def State.swTime (s : State) (i : Nat) : Nat :=
  let t := (s.rd (R.WAKE_SWTIME i)).toNat
  match (s.xcv i).dec with
  | some d => Nat.min (t + (s.tb.rtc - d).toNat) 0xFFFFFFFF
  | none => t

/-- MBi's transceiver takes a state; its time in DECODING is counted. -/
def State.mbEnter (s : State) (i c : Nat) : State :=
  let s1 := s.wr (R.WAKE_SWTIME i) (BitVec.ofNat 32 (s.swTime i))
  (s1.setFld (R.WAKE_XSTAT i) F.WAKE_XSTAT.STATE c).setXcv i { s.xcv i with dec := if c = 2 then some s.tb.rtc else none, ready := false }

/-- A write of MODE: it moves the transceiver at once. -/
def State.xcvMode (s : State) (x m : Nat) : State :=
  if x < 4 then
    if s.isRetired (mbcUnit x) then s else s.mbEnter x (if m < 2 then m else m + 1)
  else if s.isRetired (linUnit (x - 4)) then s else s.setXcv x { s.xcv x with st := Nat.min m 2 }

/-- Every on-die transceiver is in STANDBY (R546). -/
def State.xcvStandby (s : State) : State :=
  let t := s.each (fun t i => (t.mbEnter i 1).setFld (R.WAKE_XSTAT i) F.WAKE_XSTAT.DOMTO 0) [0, 1, 2, 3]
  t.each (fun u x => u.setXcv x Xcv.init) [0, 1, 2, 3, 4, 5, 6, 7]

/-- The Winter commit (R546, R555): what each transceiver detects through Winter, its counts from zero. -/
def State.xcvArm (s : State) : State :=
  let t := s.each (fun t i =>
    let c := if !t.bit R.WAKE_EN i then 0 else if t.mbState i = 2 then 2 else 1
    let keep := c == 2 && (t.xcv i).ready
    let u := ((t.mbEnter i c).wr (R.WAKE_XSTAT i) (BitVec.ofNat 32 c)).wr (R.WAKE_SWCNT i) 0
    let v := (((u.wr (R.WAKE_SWTIME i) 0).wr (R.WAKE_SWCAP_ID i) 0).wr (R.WAKE_SWCAP_LO i) 0).wr (R.WAKE_SWCAP_HI i) 0
    (v.wr (R.WAKE_SWCAP_DLC i) 0).setXcv i { v.xcv i with ready := keep }) [0, 1, 2, 3]
  t.each (fun u i => u.setXcv (4 + i) { u.xcv (4 + i) with st := (u.bit R.WAKE_EN (4 + i)).toNat, released := false }) [0, 1, 2, 3]

/-- A LIN controller retires (R556): what it sends ends, its pins and its transceiver go to their states at reset. -/
def State.linOff (s : State) (n : Nat) : State :=
  let t := ((s.onLin n (fun x => { x with frame := none })).linWakeEnd n).wr (R.LIN_XCVR n) (regReset (R.LIN_XCVR n))
  if n < 4 then t.setXcv (4 + n) Xcv.init else t

/-- Unit code type 0xD retires: MBi or LNi (R438, R528, R556). -/
def State.busUnitOff (s : State) (ix : Nat) : State :=
  if ix < 8 then
    let t := (s.mbcOff ix).wr (R.MBC_XCVR ix) 1
    if ix < 4 then (t.mbEnter ix 1).setFld (R.WAKE_XCFG ix) F.WAKE_XCFG.MODE 1 else t
  else s.linOff (ix - 8)

/-! ### Register writes and views -/

/-- A write of LIN_CTL: with EN set, only EN changes. -/
def State.linCtlWrite (s : State) (n : Nat) (v : W32) (acc : State → Nat → W32 → State) : State :=
  let a := R.LIN_CTL n
  let old := s.rd a
  let was := old.getLsbD 0
  let s1 := if !was then acc s a v
    else
      let t := s.putBit a 0 (v.getLsbD 0)
      if (old ^^^ v) &&& 0x1FFE = 0 then t else t.linEvt n 8
  if was && !v.getLsbD 0 then (s1.onLin n (fun x => { x with frame := none, low := false })).linWakeEnd n else s1

/-- A write of a LIN block. -/
def State.linWrite (s : State) (a : Nat) (v : W32) (acc : State → Nat → W32 → State) : State :=
  let n := (a - 0x20040000) / 0x1000
  match a % 0x1000 with
  | 0x00 => s.linCtlWrite n v acc
  | 0x04 => if v.toNat % 65536 < 80 then s.linEvt n 8 else acc s a v
  | 0x14 => s.linHdr n (v.toNat % 64)
  | 0x18 =>
    let t := s.setFld a F.LIN_WUTX.DUR (fget v F.LIN_WUTX.DUR)
    if v.getLsbD 0 then t.linWake n else t
  | 0x34 => s.onLin n (fun x => { x with rq := x.rq.drop 1 })
  | 0x48 => s.uartPush n (v.setWidth 8)
  | 0x54 => if n < 4 then (acc s a (v ||| 0x10)).xcvMode (4 + n) (v.toNat % 4) else acc s a v
  | _ => acc s a v

/-- A write of the transceiver wake block. -/
def State.xcvWrite (s : State) (a : Nat) (v : W32) (acc : State → Nat → W32 → State) : State :=
  let o := a - 0x2000E000
  if o < 0x10 then (acc s a v).xcvMode (o / 4) (v.toNat % 4) else acc s a v

/-- LIN_STAT.STATE. -/
def State.linStateCode (s : State) (n : Nat) : Nat :=
  let x := s.lin n
  if !s.linUp n then 0
  else if s.linMode n = 2 then 4
  else if x.waking then 5
  else match x.frame with
    | none => 1
    | some f => if f.phase = .response then 3 else 2

/-- Reads that are views. -/
def State.linRead (s : State) (a : Nat) : Option W32 :=
  if 0x20040000 ≤ a ∧ a < 0x20048000 then
    let n := (a - 0x20040000) / 0x1000
    let x := s.lin n
    let e := x.rq.head?
    let word (f : LinElem → Nat) : Option W32 := some (BitVec.ofNat 32 (match e with
      | some y => f y
      | none => 0))
    match a % 0x1000 with
    | 0x08 => some (fput (fput (s.rd a) F.LIN_STAT.STATE (s.linStateCode n)) F.LIN_STAT.RETIRED (s.isRetired (linUnit n)).toNat)
    | 0x20 => word (fun y => y.pid.toNat + 256 * y.data.length + 0x10000 * y.status + 0x80000000)
    | 0x24 => word (fun y => leNat (y.data.take 4))
    | 0x28 => word (fun y => leNat (y.data.drop 4))
    | 0x2C => word (fun y => y.dtb.toNat % 0x100000000)
    | 0x30 => word (fun y => y.dtb.toNat / 0x100000000)
    | 0x38 => some (fput (s.rd a) F.LIN_RQ_STAT.COUNT x.rq.length)
    | 0x50 => some (fput (fput (s.rd a) F.LIN_UART_STAT.TXFREE (16 - x.utx.length)) F.LIN_UART_STAT.RXCOUNT x.urx.length)
    | 0x54 => if n < 4 then some (s.rd a &&& 0xF) else none
    | 0x58 => some (fput (s.rd a) F.LIN_PT_STAT.FILL x.pass.length)
    | _ => none
  else if 0x2000E070 ≤ a ∧ a < 0x2000E080 then some (BitVec.ofNat 32 (s.swTime ((a - 0x2000E070) / 4)))
  else none

/-- The read that pops a UART character. -/
def State.linReadPop (s : State) (a : Nat) : Option (State × W32) :=
  if 0x20040000 ≤ a ∧ a < 0x20048000 ∧ a % 0x1000 = 0x4C then some (s.uartPop ((a - 0x20040000) / 0x1000)) else none

/-! ### Pass-through (R542) -/

/-- Put data bytes and an entry for an ID. -/
def State.linEntry (s : State) (n id : Nat) (data : List Byte) : State :=
  let d := data ++ List.replicate (8 - data.length) 0
  let t := (s.wr (R.LIN_DATA_LO n id) (BitVec.ofNat 32 (leNat (d.take 4)))).wr (R.LIN_DATA_HI n id) (BitVec.ofNat 32 (leNat (d.drop 4)))
  let a := R.LIN_RESP n id
  (((t.setFld a F.LIN_RESP.ACT 1).setFld a F.LIN_RESP.CSUM 0).setFld a F.LIN_RESP.LEN data.length).setFld a F.LIN_RESP.ONCE 1

/-- BUS_TX on LNn. On a commander with a frame in progress it answers OK, and the header is dropped with HDRBUSY (DESIGN CHOICE, notes/assumptions/119.md). -/
def State.linBusTx (s : State) (n len : Nat) (w : W32) (data : List Byte) : State × Nat × List W32 :=
  let id := w.toNat
  if 8 < len ∨ 63 < id ∨ s.linMode n = 2 then (s, 2, [])
  else if s.isRetired (linUnit n) then (s, 5, [])
  else if !s.bit (R.LIN_CTL n) 0 then (s, 3, [])
  else if s.linMode n = 1 then
    let t := if len = 0 then (s.setFld (R.LIN_RESP n id) F.LIN_RESP.ACT 2).putBit (R.LIN_RESP n id) 3 true else s.linEntry n id data
    (t.linHdr n id, 0, [])
  else if len = 0 then (s, 2, [])
  else (s.linEntry n id data, 0, [])

/-- BUS_RX on LNn. -/
def State.linBusRx (s : State) (n : Nat) : State × Nat × List W32 :=
  if s.linMode n = 2 then (s, 2, [])
  else if s.isRetired (linUnit n) then (s, 5, [])
  else if !s.bit (R.LIN_CTL n) 0 then (s, 3, [])
  else match (s.lin n).pass with
    | [] => (s, 4, [])
    | (id, d) :: r => (s.onLin n (fun x => { x with pass := r }), 0, [BitVec.ofNat 32 (8 + n + 256 * d.length), BitVec.ofNat 32 id] ++ packWords d)

/-- BUS_TX (R123): CH and BYTES, ID and format, data. -/
def State.busTx (s : State) (ops : List W32) : State × Nat × List W32 :=
  match ops with
  | w1 :: w2 :: ds =>
    let ch := fget w1 ⟨0, 4⟩
    let len := fget w1 ⟨8, 7⟩
    let data := (ds.flatMap (fun d => leBytes 4 d.toNat)).take len
    if ds.length ≠ (len + 3) / 4 then (s, 2, [])
    else if ch < 8 then s.mbcBusTx ch len w2 data else s.linBusTx (ch - 8) len w2 data
  | _ => (s, 2, [])

/-- BUS_RX (R123): CH. -/
def State.busRx (s : State) (ops : List W32) : State × Nat × List W32 :=
  match ops with
  | [w1] =>
    let ch := fget w1 ⟨0, 4⟩
    if ch < 8 then s.mbcBusRx ch else s.linBusRx (ch - 8)
  | _ => (s, 2, [])

end Sys2Proof.Machine
end

