-- ==== Sys2Proof/Machine/LaceCtl.lean ====
section
/-! DEFINITION. Machine/LaceCtl.lean: links and lanes by number (n = 12·d + k), and a link that leaves service (15_lace_lanes.md, 16_lace_links.md R412,
R433, R434). -/
namespace Sys2Proof.Machine

/-- A register of link n's block, and of its lane i. -/
def lreg (f : Nat → Nat → Nat) (n : Nat) : Nat := f (n / 12) (n % 12)
def lnreg (f : Nat → Nat → Nat → Nat) (n i : Nat) : Nat := f (n / 12) (n % 12) i

def linkDefault (_ : Nat) : Link := Link.init

def State.withLace (s : State) (x : Lace) : State := s.withIo { s.io with lace := x }
def State.link (s : State) (n : Nat) : Link := tabGet linkDefault s.io.lace.links n
def State.setLink (s : State) (n : Nat) (x : Link) : State := s.withLace { s.io.lace with links := tabPut linkDefault n x s.io.lace.links }
def State.onLink (s : State) (n : Nat) (f : Link → Link) : State := s.setLink n (f (s.link n))

/-- LACE_LSTAT.STATE: 0 DISABLED, 1 TRAINING, 2 UP, 3 RETRAIN, 4 FAILED, 5 RETIRED. -/
def State.linkSt (s : State) (n : Nat) : Nat := if s.isRetired (unitCode 7 n) then 5 else s.fld (lreg R.LACE_LSTAT n) F.LACE_LSTAT.STATE
def State.setLinkSt (s : State) (n c : Nat) : State := s.setFld (lreg R.LACE_LSTAT n) F.LACE_LSTAT.STATE c

/-- Lane i of link n is retired (R410). -/
def State.laneRetired (s : State) (n i : Nat) : Bool := s.flt.lanesRetired.contains (4 * n + i)

/-- LACE_LSTATi.STATE: 0 OFF, 1 NEGOTIATE, 2 TRAIN, 3 ACTIVE, 4 IDLE, 5 EXITING, 6 EXITFAIL, 7 TEST, 8 RETIRED, 9 FAILED. -/
def State.laneSt (s : State) (n i : Nat) : Nat :=
  if s.laneRetired n i || s.linkSt n == 5 then 8 else s.fld (lnreg R.LACE_LNSTAT n i) F.LACE_LNSTAT.STATE
def State.setLaneSt (s : State) (n i c : Nat) : State := s.setFld (lnreg R.LACE_LNSTAT n i) F.LACE_LNSTAT.STATE c

/-- Lanes that are not retired, of a mask. -/
def State.lanesIn (s : State) (n m : Nat) : List Nat := (bitsOf m 4).filter (fun i => !s.laneRetired n i)

/-- Every lane goes OFF at electrical idle. -/
def State.lanesOff (s : State) (n : Nat) : State :=
  let s1 := s.each (fun t i => (t.setLaneSt n i 0).setFld (lnreg R.LACE_LNSTAT n i) F.LACE_LNSTAT.LOCK 0) [0, 1, 2, 3]
  (s1.wr (lreg R.LACE_PHY_STAT n) 0).onLink n (fun x => { x with phase := 0, tx := false, rx := [], fel := 0, lpb := 0, order := [], idleReq := false })

/-! ### Undelivered (R433) -/

/-- A request or signal has ended undelivered (LACE_CL_STAT.UNREACH). -/
def State.unreach (s : State) : State := s.advSat R.LACE_CL_STAT F.LACE_CL_STAT.UNREACH 1

/-- Request k of those on their way ends undelivered: an error completion, and for a posted write a notice. -/
def State.undeliverReq (s : State) (k : Nat) : State :=
  match s.net[k]? with
  | none => s
  | some n =>
    let s1 := (s.withNet (s.net.eraseIdx k)).unreach
    let s2 := if n.req.posted then s1.notice n.req.ini n.req.addr 0xC else s1
    s2.respond n 0xC []

/-- Signal k on its way ends with a reason: a notice, whose address the manual does not give. -/
def State.undeliverSig (s : State) (k reason : Nat) : State :=
  match s.sigOut[k]? with
  | none => s
  | some g => (s.withSigOut (s.sigOut.eraseIdx k)).drawn.notice g.ini (BitVec.ofNat 64 (s.draw.toNat % 2 ^ 48)) reason

/-- Undeliver every request and signal that p names. -/
def State.undeliverWhere (s : State) (p : LaceTag → Bool) : Nat → State
  | 0 => s
  | fuel + 1 =>
    match (List.range s.net.length).find? (fun k => match s.net[k]? with
        | some n => (match n.lace with
          | some t => p t
          | none => false)
        | none => false) with
    | some k => (s.undeliverReq k).undeliverWhere p fuel
    | none =>
      match (List.range s.sigOut.length).find? (fun k => match s.sigOut[k]? with
          | some g => (match g.lace with
            | some t => p t
            | none => false)
          | none => false) with
      | some k => (s.unreach.undeliverSig k 0xC).undeliverWhere p fuel
      | none => s

/-- A request or signal waits to use link n, or is in its replay buffer. -/
def tagLink (n : Nat) (t : LaceTag) : Bool := t.link == some n && !t.acked

/-- This package's ID. -/
def State.pkgId (s : State) : Nat := s.fld R.LACE_PKG F.LACE_PKG.ID

/-- Word 2 of a DATA packet's link header (R414). -/
def dataOrig (p : LData) : W32 := p.tag ++ p.ini

/-- An answer to a request of package p waits to leave (R429, R431, R433): with a reason, else with data. It brings back ORIG_INIT and ORIG_TAG, and its TAG chooses the
link. -/
def State.answerPkg (s : State) (p : BitVec 8) (orig : W32) (cls reason : Nat) (data : List Byte) : State :=
  let tag : BitVec 16 := (orig >>> 16).setWidth 16
  s.withLace { s.io.lace with
    out := s.io.lace.out ++
      [⟨1, tag.toNat % 256, none, ⟨p, BitVec.ofNat 8 s.pkgId, 0, orig.setWidth 16, tag, BitVec.ofNat 4 cls, .resp (BitVec.ofNat 4 reason) data⟩, none⟩] }

/-- Units of a receive buffer are free again, and their credits are owed (R415, R421). -/
def State.oweUnits (s : State) (n vc units : Nat) : State := s.onLink n (fun x => { x with oweCr := tabPut natZero vc (tabGet natZero x.oweCr vc + units) x.oweCr })

/-- A packet leaves the receive buffer it lies in. -/
def State.freeBuf (s : State) (src : Option (Nat × Nat)) (units : Nat) : State :=
  match src with
  | some (n, vc) => (s.onLink n (fun x => { x with buf := tabPut natZero vc (tabGet natZero x.buf vc - units) x.buf })).oweUnits n vc units
  | none => s

/-- Credits a packet costs (R421). -/
def laceUnits (len : Nat) : Nat := (32 + len + 63) / 64

/-- Credits a DATA packet costs. -/
def dataUnits (p : LData) : Nat :=
  laceUnits (match p.body with
    | .req .write _ _ _ _ data _ _ => data.length
    | .req .atomic _ len _ _ _ _ _ => len.toNat
    | .resp _ data => data.length
    | _ => 0)

/-- A forwarded packet goes no further: a request or signal ends undelivered, and its source is answered UNREACH (R430, R433, R434). -/
def State.bounce (s : State) (p : LData) : State :=
  match p.body with
  | .resp _ _ => s
  | _ => s.unreach.answerPkg p.spkg (dataOrig p) p.cls.toNat 0xC []

/-- Packets that wait for a link are dropped. -/
def State.dropOut (s : State) (p : LOut → Bool) : State :=
  (s.io.lace.out.filter p).foldl (fun t o => (t.freeBuf o.src (dataUnits o.pkt)).bounce o.pkt)
    (s.withLace { s.io.lace with out := s.io.lace.out.filter (fun o => !p o) })

/-- Forwarded packets that came over link n lie in no receive buffer any longer. -/
def State.bufGone (s : State) (n : Nat) : State :=
  s.withLace { s.io.lace with out := s.io.lace.out.map (fun o => match o.src with
    | some (m, _) => if m = n then { o with src := none } else o
    | none => o) }

/-- A packet of a replay buffer that is revoked: a forwarded one ends (R434); this package's own are ended by their requests. -/
def State.revoke (s : State) (p : LPkt) : State :=
  match p.what with
  | .data d => if p.vc = 2 then s.bounce d else s
  | _ => s

/-- A link ends in DISABLED, FAILED or RETIRED, with a cause (R412, R434): its lanes go OFF; where it was UP or in RETRAIN, its replay buffer is revoked and what was
in it or waited for it ends undelivered. The LIVE_ registers are the caller's. -/
def State.linkDown (s : State) (n st cause : Nat) : State :=
  let was := s.linkSt n == 2 || s.linkSt n == 3
  let s1 := ((s.setLinkSt n st).setFld (lreg R.LACE_LSTAT n) F.LACE_LSTAT.CAUSE cause).setFld (lreg R.LACE_LSTAT n) F.LACE_LSTAT.WIDTH 0
  let s2 := (s1.lanesOff n).setLink n { Link.init with fails := (s.link n).fails }
  if was then
    let s3 := (s.link n).replay.foldl State.revoke ((s2.putBit (lreg R.LACE_LEVT n) 1 true).bufGone n)
    (s3.dropOut (fun o => o.link == some n)).undeliverWhere (tagLink n) (s3.net.length + s3.sigOut.length)
  else s2

end Sys2Proof.Machine
end

