-- ==== Sys2Proof/Machine/Live.lean ====
section
/-! DEFINITION. Machine/Live.lean: the LIVE_ registers as the die states, the bridges and the retired units make them
(01_package.md R18–R29, R619; 17_faults.md R446, R449), and what a die or a unit that leaves service takes with it
(R24, R85, R282, R445–R447). -/
namespace Sys2Proof.Machine

/-! ### What is in service -/

/-- Larder l is powered and out of power-up reset: STARTING, LIVE or UNREACHABLE. -/
def State.larderPowered (s : State) (l : Nat) : Bool :=
  s.larderState l == 2 || s.larderState l == 3 || s.larderState l == 6

/-- A bridge, by its bit in LIVE_WELT, is in service (R15, R619). The Sole counts as powered while its domain is released. -/
def State.bridgeLive (s : State) (b : Nat) : Bool :=
  !s.isRetired (unitCode 8 b) &&
  (if b < 4 then s.diePowered b && !s.sup.soleHeld
   else if b < 8 then s.diePowered (b - 4) && s.diePowered ((b - 3) % 4)
   else if b < 12 then s.diePowered (b - 8) && s.larderPowered ((b - 8) / 2)
   else b == 16 && !s.sup.heelHeld)

/-- A word with bit i set where p i holds, for i below n. -/
def bitsWord (n : Nat) (p : Nat → Bool) : Nat :=
  (List.range n).foldl (fun w i => if p i then w + 2 ^ i else w) 0

def State.engineLive (s : State) (g : Nat) : Bool := s.dieLive (g / 8) && !s.isRetired (unitCode 3 g)
/-- A link is in service exactly in UP and RETRAIN (R412). -/
def State.linkLive (s : State) (n : Nat) : Bool := s.dieLive (n / 12) && (s.linkSt n == 2 || s.linkSt n == 3)
def State.regionLive (s : State) (r : Nat) : Bool := s.dieLive (r / 8) && !s.isRetired (unitCode 9 r)

/-- LIVE_WELT as it is now. -/
def State.weltWord (s : State) : W32 := BitVec.ofNat 32 (bitsWord 17 s.bridgeLive)

/-- A powered Larder is LIVE while a LIVE compute die has its own bridge to it in service, else UNREACHABLE (R23). -/
def State.larderNow (s : State) (l : Nat) : Nat :=
  let c := s.larderState l
  if c = 3 ∨ c = 6 then
    if (s.dieLive (2 * l) && s.bridgeLive (8 + 2 * l)) || (s.dieLive (2 * l + 1) && s.bridgeLive (9 + 2 * l)) then 3 else 6
  else c

/-- An engine that is LIVE or under test has its queues in service: one that is OFF becomes IDLE with HEAD = TAIL (R282, R451). -/
def State.queuesOn (s : State) : State :=
  s.each (fun t g =>
    if t.engineLive g || t.testing (unitCode 3 g) then
      t.each (fun u q =>
        let k := 4 * g + q
        if u.qState k = 0 then
          let a := qreg R.ENG_QPTR k
          (u.setFld a F.ENG_QPTR.HEAD (u.fld a F.ENG_QPTR.TAIL)).setQState k 1
        else u) [0, 1, 2, 3]
    else t) (List.range 32)

/-! ### Entries that lose what they use -/

/-- The running entry of a queue ends with a status, unless it has ended with an error already. -/
def State.endEntry (s : State) (k st : Nat) : State :=
  let q := s.queue k
  let bad := match q.fin with
    | some e => e.status != 0
    | none => false
  if q.entry.isNone || bad then s
  else ((s.setQueue k { q with fin := some ⟨st, 0, 0⟩, wait := none }).setMat k none).setQState k 2

def State.setRgnState (s : State) (x c : Nat) : State := s.setFld (R.FAB_STAT (x / 8)) ⟨3 * (x % 8), 3⟩ c

/-- Release the pins a region owns. -/
def State.freePins (s : State) (x : Nat) : State :=
  s.each (fun t i =>
    let a := R.FAB_IO_OWN (x / 8) (i / 8)
    if t.fld a ⟨4 * (i % 8), 4⟩ = x % 8 then t.setFld a ⟨4 * (i % 8), 4⟩ 15 else t) (List.range 32)

/-- A call no longer runs in the region. -/
def State.callOver (s : State) (x : Nat) : State :=
  (s.setRgn x { s.rgn x with call := none, started := none, handed := [], part := [], used := 0 }).putBit (R.FAB_RSTAT (x / 8) (x % 8)) 16 false

/-- The neighbour of region x on port p of its ring channels: 0 DN, 1 UP (R362). -/
def chanPeer (x p : Nat) : Nat := 8 * (x / 8) + (if p = 0 then x % 8 + 7 else x % 8 + 1) % 8

/-- What region x has in transit to its neighbours is discarded ("If a neighbour region is reloaded while a ring channel carries data"). -/
def State.chanDrop (s : State) (x : Nat) : State :=
  s.each (fun t p =>
    let y := chanPeer x p
    t.setRgn y { t.rgn y with recv := (t.rgn y).recv.filter (fun e => e.1 != 1 - p) }) [0, 1]

/-- The region becomes EMPTY: its contents, its pins and its load information go; what waits for it stays. -/
def State.rgnClear (s : State) (x : Nat) : State :=
  let r := s.rgn x
  let s1 := (((s.freePins x).chanDrop x).setRgn x { Rgn.init with waiting := r.waiting }).setRgnState x 0
  (s1.putBit (R.FAB_RINFO (x / 8) (x % 8)) 7 false).putBit (R.FAB_RSTAT (x / 8) (x % 8)) 16 false

/-- The region restarts (R372): it reads RESTARTING, its storage elements hold their load-time values and its pins are at high impedance; the call it was running, if any, ends with a status once the restart is complete. -/
def State.rgnRestart (s : State) (x : Nat) (st : Nat) : State :=
  let r := s.rgn x
  ((s.callOver x).setRgn x { r.rest with call := none, started := none, ending := r.call.map (fun k => (k, st)) }).setRgnState x 3

/-- The call, the load or the wait of queue k on a region of its die is ended with a status (R280, R372): a running call restarts the region and ends after it; a
load under way leaves the region EMPTY. -/
def State.fabAbort (s : State) (k st : Nat) : State :=
  let d := k / 32
  s.each (fun t r =>
    let x := 8 * d + r
    let g := t.rgn x
    if g.call = some k then t.rgnRestart x st
    else if g.loading = some k then (t.rgnClear x).endEntry k st
    else if g.waiting.contains k then (t.setRgn x { g with waiting := g.waiting.filter (· != k) }).endEntry k st
    else t) (List.range 8)

/-- First address of compute die d's registers and keeper RAM, of its engine memory, and of Larder l. -/
def dieBase (d : Nat) : Nat := 0x080000000000 + d * 0x10000000
def engBase (d : Nat) : Nat := 0x300000000000 + d * 0x10000000
def larderBase (l : Nat) : Nat := 0x200000000000 + l * 0x100000000

/-- n bytes from an address reach into Larder l. -/
def inLarder (l a n : Nat) : Bool := decide (larderBase l < a + n) && decide (a < larderBase l + 0x100000000)

/-- The region that a FAB_LOAD or FAB_CALL entry of queue k names, by its key (R368, R370). -/
def fabX (k : Nat) (w : List W32) : Nat := 8 * (k / 32) + (wd w 3).toNat % 8

/-- Where the bytes of a registered load's body begin: after its 512-byte header (R107, R110). -/
def FabReg.bodyAddr (f : FabReg) : Nat := f.addr + 512

/-- Fields of a PIPE's descriptor (R339): micro-batches, slots, lead; the micro-batches that are offloaded (R340). -/
def Pipe.mb (p : Pipe) : Nat := fget (wd p.desc 0) ⟨16, 8⟩
def Pipe.nslot (p : Pipe) : Nat := fget (wd p.desc 0) ⟨24, 4⟩
def Pipe.lead (p : Pipe) : Nat := fget (wd p.desc 0) ⟨28, 4⟩
def Pipe.moved (p : Pipe) : Nat := p.mb - Nat.min (fget (wd p.desc 1) ⟨0, 8⟩) p.mb

/-- Address of micro-batch i's slot, and of its offload area (R339). -/
def Pipe.slotAddr (p : Pipe) (i : Nat) : Nat := ((wdAddr p.desc 8).toNat + i % p.nslot * (wd p.desc 10).toNat) % 2 ^ 48
def Pipe.offAddr (p : Pipe) (i : Nat) : Nat := ((wdAddr p.desc 11).toNat + i * (wd p.desc 13).toNat) % 2 ^ 48

/-- A PIPE's transfers use Larder l: a slot or an offload area of an offloaded micro-batch lies in it. -/
def Pipe.usesLarder (p : Pipe) (l : Nat) : Bool :=
  (List.range p.moved).any (fun i => inLarder l (p.slotAddr i) (wd p.desc 10).toNat || inLarder l (p.offAddr i) (wd p.desc 10).toNat)

/-- Queue k's running entry uses Larder l: a copy by its ranges, a load by its body, a call by its region's ports too, another entry by what its streams have read and
written there for it (R260). -/
def State.usesLarder (s : State) (l k : Nat) : Bool :=
  match (s.queue k).entry with
  | none => false
  | some w =>
    let n := (wd w 7).toNat
    let copy := inLarder l (wdAddr w 3).toNat n || inLarder l (wdAddr w 5).toNat n
    let r := s.rgn (fabX k w)
    let load := r.loading == some k && (match s.boot.fabs[(wd w 4).toNat % 64]? with
      | some f => inLarder l f.bodyAddr f.img.len.toNat
      | none => false)
    (opIs 0x40 w && load) || (opIs 0x41 w && r.call == some k && r.used.testBit l) || (opIs 0x10 w && copy) || (opIs 0x11 w && (copy || (wdAddr w 8 != 0 && inLarder l (wdAddr w 8).toNat n))) ||
      (List.range 16).any (fun u =>
        let x := s.stream (16 * (k / 4) + u)
        x.bound.head?.map (·.1) == some k && x.used.testBit l)

/-- Larder l leaves service: the entries that use it end RETIRED, a fabric call after its region has restarted, a load with its region EMPTY; a PIPE that offloads to it
or from it stops its queue as for a failed transfer (R260, R347, R368, R372). -/
def State.larderGone (s : State) (l : Nat) : State :=
  let t := s.each (fun t k =>
    if !t.usesLarder l k then t
    else match (t.queue k).entry, (t.queue k).op with
      | some _, some 0x41 => t.fabAbort k 0xA
      | some w, some 0x40 => (t.fabAbort k 0xA).putBit (R.FAB_EVT (k / 32)) (8 + fabX k w % 8) true
      | _, _ => t.endEntry k 0xA) (s.queues.map (·.1))
  t.each (fun u g => match u.pipe g with
    | some p => if p.usesLarder l && p.xfail.isNone then u.setPipe g (some { p with xfail := some ⟨0xA, 0, 0⟩ }) else u
    | none => u) (t.eng.pipes.map (·.1))

/-- Every LIVE_ register recomputed (R20, R23, R449, R619), LIVE_SEQ aside; entries that use a Larder that is no longer LIVE end (R260). While the Heel main domain is in reset, or the Sole-Heel link out of service,
LIVE_HEEL and LIVE_HSO stay as the retirements make them: R29 names only LIVE_DIES.HEEL and LIVE_WELT.HEEL (DESIGN CHOICE, notes/assumptions/104.md). -/
def State.liveWords (s0 : State) : State :=
  let s1 := s0.setLarderState 0 (s0.larderNow 0)
  let s := s1.setLarderState 1 (s1.larderNow 1)
  let heel := s.bridgeLive 16
  let lard := bitsWord 2 (fun l => s.larderState l == 3)
  let t0 := s.wr R.LIVE_WELT s.weltWord
  let t1 := t0.wr R.LIVE_DIES (BitVec.ofNat 32 (heel.toNat + 2 + 4 * bitsWord 4 s.dieLive + 64 * lard))
  let t2 := t1.wr R.LIVE_ENGINES (BitVec.ofNat 32 (bitsWord 32 s.engineLive))
  let t3 := t2.wr R.LIVE_LACE_LO (BitVec.ofNat 32 (bitsWord 32 s.linkLive))
  let t4 := t3.wr R.LIVE_LACE_HI (BitVec.ofNat 32 (bitsWord 16 (fun n => s.linkLive (32 + n))))
  let t5 := t4.wr R.LIVE_LARDER (BitVec.ofNat 32 lard)
  let t6 := t5.wr R.LIVE_FABRIC (BitVec.ofNat 32 (bitsWord 32 s.regionLive))
  let t7 := t6.wr R.LIVE_HEEL (BitVec.ofNat 32 (bitsWord 32 (fun i =>
    !s.isRetired (if i < 16 then unitCode 0xD i else if i < 20 then unitCode 0xE (i - 16)
      else if i < 28 then unitCode 0xC (0x40 + (i - 20)) else unitCode 0xC (0x48 + (i - 28))))))
  let t8 := t7.wr R.LIVE_HSO_LO (BitVec.ofNat 32 (bitsWord 32 (fun i => !s.isRetired (unitCode 0xC i))))
  let t9 := t8.wr R.LIVE_HSO_HI (BitVec.ofNat 32 (bitsWord 8 (fun i => !s.isRetired (unitCode 0xC (32 + i)))))
  let ta := t9.each (fun t n => t.wr (R.LIVE_EBANK n) (BitVec.ofNat 32 (bitsWord 32 (fun i =>
    s.engineLive (2 * n + i / 16) && !s.isRetired (unitCode 5 (16 * (2 * n + i / 16) + i % 16)))))) (List.range 16)
  let tb := ta.each (fun t n => t.wr (R.LIVE_LBANK n) (BitVec.ofNat 32 (bitsWord 32 (fun i =>
    s.larderState (n / 2) == 3 && !s.isRetired (unitCode 6 (64 * (n / 2) + 32 * (n % 2) + i)))))) (List.range 4)
  tb.queuesOn.each State.larderGone ([0, 1].filter (fun l => s0.bit R.LIVE_LARDER l && s.larderState l != 3))

/-- LIVE_SEQ advances (R26); in a Sole domain held in reset it keeps its reset value, 0. -/
def State.seqAdvance (s : State) : State := if s.sup.soleHeld then s else s.wr R.LIVE_SEQ (s.rd R.LIVE_SEQ + 1)

/-- The registers LIVE_SEQ answers for (R26). -/
def liveRegs : List Nat :=
  [R.LIVE_DIES, R.LIVE_ENGINES, R.LIVE_LACE_LO, R.LIVE_LACE_HI, R.LIVE_LARDER, R.LIVE_FABRIC, R.LIVE_HEEL, R.LIVE_HSO_LO,
   R.LIVE_HSO_HI, R.LIVE_DIE_STATE, R.LIVE_WELT] ++ (List.range 16).map R.LIVE_EBANK ++ (List.range 4).map R.LIVE_LBANK

/-- Recompute the LIVE_ registers after one event that began at s0; all the bits change together, and LIVE_SEQ advances once
if any LIVE_ register has changed since (R26). -/
def State.syncLive (s : State) (s0 : State) : State :=
  let t := s.liveWords
  if liveRegs.all (fun a => t.rd a == s0.rd a) then t else t.seqAdvance

/-! ### Leaving service -/

/-- The queues of an engine go OFF: running entries end without completion or DONE, registrations are dropped (R282). -/
def State.queuesOff (s : State) (g : Nat) : State :=
  s.each (fun t q =>
    let k := 4 * g + q
    (((t.dropWaiter k).setQueue k Queue.init).setQState k 0).setFld (qreg R.ENG_QSTAT k) F.ENG_QSTAT.PRODUCERS 0) [0, 1, 2, 3]

/-- Keys of a table of units, k per engine, that belong to engine g. -/
def keyOfEngine (n g k : Nat) : Bool := k / n == g

/-- A stream unit stops at once and goes IDLE, with no SIG; held faults are dropped without being counted (R332, R337). -/
def streamOff (x : Stream) : Stream := { Stream.init with status := x.status, reason := x.reason, errAddr := x.errAddr, dropped := x.dropped, lines := x.lines }

/-- A queue that no longer waits for a region, and no longer calls or loads it. A region whose call or load it was is restarted or emptied by its own rules. -/
def rgnLeave (k : Nat) (r : Rgn) : Rgn := { r with waiting := r.waiting.filter (· != k) }

/-- n bytes of memory from an address are undefined: each is a free value. -/
def State.scramble (s : State) (a n : Nat) : State :=
  match s.regionOf a with
  | some (.sram, _, last) | some (.host, _, last) | some (.larder _, _, last) | some (.engMem _ _, _, last) =>
    let p := s.drawBytes (Nat.min n (last + 1 - a))
    p.1.putBytes a p.2
  | _ => s

/-- Answers that have come back for an initiator's reads, by p, and that nothing will take, are discarded. -/
def State.dropHere (s : State) (p : Req → Bool) : State := s.withResp (s.resp.filter (fun r => !(r.here && p r.req)))

/-- The PIPE of engine g ends by a cancel, or as the engine leaves LIVE (R348): the sequencer returns to IDLE, and the contents of its slots and of its offload areas are
undefined. -/
def State.pipeDrop (s : State) (g : Nat) : State :=
  match s.pipe g with
  | none => s
  | some p =>
    let t := ((List.range (Nat.min p.nslot p.mb)).map p.slotAddr ++ (List.range p.moved).map p.offAddr).foldl (fun u a => u.scramble a (wd p.desc 10).toNat) s
    ((t.dropHere (fun q => q.ini == queueIni p.key && q.via == 1)).setPipe g none).setFld (R.TRN_PSTAT (g / 8) (g % 8)) F.TRN_PSTAT.XBUSY 0

/-- An initiator is engine g. -/
def ofEngine (g : Nat) : Ini → Bool
  | .engine d e _ => 8 * d.val + e.val == g
  | _ => false

/-- Nothing waits any longer for the answers to engine g's requests (R282, R337). -/
def State.disownEngine (s : State) (g : Nat) : State :=
  (s.withNet (s.net.map (fun n => if ofEngine g n.req.ini then { n with orphan := true } else n))).withResp (s.resp.filter (fun r => !ofEngine g r.req.ini))

/-- The engine's own units stop; its queues go OFF (R282, R337, R348). A region that it calls is restarted (R372, R447); a load that it runs ends, and leaves
the region EMPTY. What its requests in flight come to is reported to nobody. -/
def State.stopEngine (s0 : State) (g : Nat) : State :=
  let s := s0.disownEngine g
  let s1 := (s.queuesOff g).each (fun t u => t.onStream (16 * g + u) streamOff) (List.range 16)
  let s2 := (s1.each (fun t q => t.setMat (4 * g + q) none) [0, 1, 2, 3]).pipeDrop g
  let d := g / 8
  let mine (k : Option Nat) : Bool := match k with
    | some x => x / 4 == g
    | none => false
  s2.each (fun t r =>
    let x := t.rgn (8 * d + r)
    let x1 := { x with waiting := x.waiting.filter (fun k => k / 4 != g) }
    if mine x.call then ((t.callOver (8 * d + r)).setRgn (8 * d + r) { x1.rest with call := none, started := none, ending := none }).setFld (R.FAB_STAT d) ⟨3 * r, 3⟩ 3
    else if mine x.loading then (t.setRgn (8 * d + r) { Rgn.init with waiting := x1.waiting }).setFld (R.FAB_STAT d) ⟨3 * r, 3⟩ 0
    else t.setRgn (8 * d + r) x1) (List.range 8)

/-- Quarters that the matrix entry of a queue holds, by QMASK (R262). -/
def Queue.quarters (q : Queue) : Nat :=
  match q.entry with
  | some w => if opIs 0x30 w || opIs 0x31 w || opIs 0x32 w then fget (wd w 5) ⟨16, 4⟩ else 0
  | none => 0

/-- Quarter 4·g + q leaves service: the entry that holds it ends RETIRED (R311). -/
def State.stopQuarter (s : State) (x : Nat) : State :=
  s.each (fun t q =>
    let k := 4 * (x / 4) + q
    if (t.queue k).quarters.testBit (x % 4) then t.endEntry k 0xA else t) [0, 1, 2, 3]

/-- A fabric region leaves service: its call or load, and what waits for it, end RETIRED (R260, R381). -/
def State.stopRegion (s : State) (x : Nat) : State :=
  let r := s.rgn x
  let ks := r.call.toList ++ r.loading.toList ++ r.waiting ++ (r.ending.map (·.1)).toList
  (ks.foldl (fun t k => t.endEntry k 0xA) (s.setRgn x Rgn.init)).setFld (R.FAB_STAT (x / 8)) ⟨3 * (x % 8), 3⟩ 4

/-- A verification failure, fallback or mismatch is an event with its code (R130). -/
def State.bootEvent (s : State) (code : Nat) : State := s.event 0x24 0 0 0 [BitVec.ofNat 32 code]

/-- Judge the Sole image against the Heel image (R119, R120). -/
def State.judgeHi (s : State) : State :=
  match s.boot.sole, s.boot.heel with
  | none, _ => s.setFld R.BOOT_AGREE F.BOOT_AGREE.HEEL 0
  | some _, none => s.setFld R.BOOT_AGREE F.BOOT_AGREE.HEEL 3
  | some a, some b =>
    if a.hi = b.hi then s.setFld R.BOOT_AGREE F.BOOT_AGREE.HEEL 1
    else ((s.setFld R.BOOT_AGREE F.BOOT_AGREE.HEEL 2).putBit R.BOOT_AGREE 16 true).bootEvent 0x100

/-- A named die that retires or leaves LIVE is dropped from the swap under way ("If a named die retires or leaves LIVE during a swap"). -/
def State.swapDrop (s : State) (d : Nat) : State :=
  match s.boot.swap with
  | some w =>
    if w.dies.contains d then (s.withBoot { s.boot with swap := some { w with dies := w.dies.filter (· != d) } }).putBit R.BOOT_SWAP_STAT (8 + d) true else s
  | none => s

/-- The links of a die that leaves LIVE: training, traffic and tests end (R434, "If the die leaves LIVE during training or a test"). -/
def State.linksOff (s : State) (d : Nat) : State :=
  s.each (fun t k => if t.linkSt (12 * d + k) = 5 then t else (t.linkDown (12 * d + k) 0 0).setFld (R.LACE_TEST d k) F.LACE_TEST.MODE 0) (List.range 12)

/-- The engines of a die stop, its holds' waiters fail and waits on its counters are unwatched; its links go down, and a swap goes on without it
(R128, R152, R267, R271, R282, R434). -/
def State.stopDie (s : State) (d : Nat) : State :=
  let s1 := s.each (fun t e => t.stopEngine (8 * d + e)) (List.range 8)
  (((s1.failWaiters (8 + d)).unwatch (8 + d)).linksOff d).swapDrop d

/-- An owner ID lies inside compute die d. -/
def ownedByDie (d : Nat) (o : BitVec 16) : Bool := o.toNat / 4096 == 8 + d

/-- An owner ID lies inside a unit (R447): its DIE, and UNIT where one applies. -/
def ownedByUnit (u : BitVec 16) (o : BitVec 16) : Bool :=
  let ty := u.toNat / 4096
  let ix := u.toNat % 4096
  let die := o.toNat / 4096
  let un := o.toNat / 128 % 32
  if ty = 1 ∨ ty = 0xA then die == 8 + ix
  else if ty = 3 then die == 8 + ix / 8 && un == ix % 8
  else if ty = 9 then die == 8 + ix / 8 && un == 8 + ix % 8
  else if ty = 0xB then die == 0 && un == 8 + ix
  else false

/-- Compute dies a bridge or a Larder unit touches; for the other units the die that carries them. -/
def unitDies (u : BitVec 16) : List Nat :=
  let ty := u.toNat / 4096
  let ix := u.toNat % 4096
  match ty with
  | 1 => [ix]
  | 2 => [2 * ix, 2 * ix + 1]
  | 3 => [ix / 8]
  | 4 => [ix / 4 / 8]
  | 5 => [ix / 16 / 8]
  | 6 => [2 * (ix / 64), 2 * (ix / 64) + 1]
  | 7 => [ix / 12]
  | 8 => if ix < 4 then [ix] else if ix < 8 then [ix - 4, (ix - 3) % 4] else if ix < 12 then [ix - 8] else []
  | 9 => [ix / 8]
  | 0xA => [ix]
  | _ => []

/-- The unit is carried by the Heel die. -/
def unitOnHeel (u : BitVec 16) : Bool :=
  u.toNat / 4096 == 0xC || u.toNat / 4096 == 0xD || u.toNat / 4096 == 0xE || u == unitCode 8 16

/-- FLT_EVT.PERM, and FLT_KEVT or FLT_HEVT of the die that carried the unit (R445 step 5). -/
def State.permEvent (s : State) (u : BitVec 16) : State :=
  let s1 := s.setEvt 1
  let s2 := if unitOnHeel u then s1.putBit R.FLT_HEVT 0 true else s1
  s2.each (fun t d => if d < variantDies t.variant then t.putBit (R.FLT_KEVT d) 0 true else t) (unitDies u)

/-- A record of class RETIRED (R445). -/
def State.mkRetired (s : State) (kind : Nat) (u : BitVec 16) (sub : Nat) (retries cause : Nat) (addr : Word) : Rec :=
  { dtb := s.tb.master, seq := 0, kind := kind, cls := 3, retries := retries, cause := cause, unit := u,
    sub := BitVec.ofNat 16 sub, ini := 0, addr := addr, detail := [] }

/-- Show that summary writes are held (R456). -/
def State.sumPend (s : State) : State := (s.putBit R.FLT_STAT 1 true).putBit R.FLT_HEVT 1 true

/-- Queue a write of the Insole fault summary (R455); it is held while the Sole ↔ Heel link is out of service. -/
def State.queueSummary (s : State) (x : SumUpd) : State :=
  let t := s.withFlt { s.flt with summary := s.flt.summary ++ [x] }
  if s.bridgeLive 16 then t else t.sumPend

/-- The record's first 32 bytes go to the summary with the SEQ they carry in the log. -/
def State.recSeq (s : State) (r : Rec) : Rec := { r with seq := s.rd R.FLT_SEQ }

/-- Die x, 0–3 compute, 4 + l Larder, leaves its start for good: no release, scrub or boot of it is still to come (R22), and TO_SUMMER ends without it. -/
def State.leaveStart (s : State) (x : Nat) : State :=
  let t := (s.withSup { s.sup with dieRst := s.sup.dieRst.filter (· != x), scrub := s.sup.scrub.filter (· != x) }).withBoot
    { s.boot with dieRom := s.boot.dieRom.filter (· != x) }
  if t.fld R.PWR_STATE F.PWR_STATE.STATE = 2 ∧ t.sup.dieRst = [] ∧ t.sup.scrub = [] ∧ t.boot.dieRom = [] then t.setFld R.PWR_STATE F.PWR_STATE.STATE 0 else t

/-- A core's own producer registrations are dropped (R447). -/
def State.unproduce (s : State) (c : CoreId) : State := s.setCore c { s.core c with producers := [] }

/-- What a unit's retirement stops, by its type (R445 step 1, R446), and the producer registrations of its core (R447). Responses to initiators on a retired die are
discarded (R231). -/
def State.stopUnit (s : State) (u : BitVec 16) : State :=
  let ty := u.toNat / 4096
  let ix := u.toNat % 4096
  match ty with
  | 1 | 0xA =>
    let t := (((s.stopDie ix).leaveStart ix).unproduce (.keeper (Fin.ofNat 4 ix))).setDieState ix 5
    t.withResp (t.resp.filter (fun r => iniDie r.req.ini != 8 + ix))
  | 2 => (s.leaveStart (4 + ix)).setLarderState ix 5
  | 3 => s.stopEngine ix
  | 4 => s.stopQuarter ix
  | 7 => s.linkDown ix 5 0
  | 9 => s.stopRegion ix
  | 0xC => s.stageOff (unitStage ix)
  | 0xD => s.busUnitOff ix
  | 0xE => s.qdecOff ix
  | 0xB =>
    let c : CoreId := .sole (Fin.ofNat 10 (8 + ix))
    (s.setCore c { s.core c with run := .retired, wait := none, producers := [] }).putBit R.CORE_PAIR_STAT (16 + ix) true
  | _ => s

/-- The unit that leaves service where a unit fails: the mesh takes its die (R439). -/
def retiredUnit (u : BitVec 16) : BitVec 16 := if u.toNat / 4096 = 0xA then unitCode 1 (u.toNat % 4096) else u

/-- The retirement of several units as one event, without its records (R28, R445): each stops, the LIVE_ bits and LIVE_SEQ change once, holds are
revoked. us pairs units with their CAUSE codes. -/
def State.retireSet (s0 : State) (us : List (BitVec 16 × Nat)) : State :=
  let s1 := us.foldl (fun t x => t.stopUnit x.1) s0
  let s2 := us.foldl (fun t x => t.withFlt { t.flt with
    retired := if t.flt.retired.contains x.1 then t.flt.retired else t.flt.retired ++ [x.1],
    causes := tabPut natZero x.1.toNat x.2 t.flt.causes }) s1
  let s3 := s2.liveWords.seqAdvance
  us.foldl (fun t x => t.revokeHolds (ownedByUnit x.1)) s3

/-- Retire a unit with its record, as one event (R445, R446). -/
def State.retire (s : State) (u : BitVec 16) (cause : Nat) (r : Rec) : State :=
  let s1 := s.retireSet [(u, cause)]
  let s2 := s1.queueSummary ⟨r.unit, none, true, none, cause, some (s1.recSeq r)⟩
  (s2.logRec r).permEvent u

end Sys2Proof.Machine
end

