-- ==== Sys2Proof/Machine/Line.lean ====
section
/-! DEFINITION. Machine/Line.lean: reads and writes of tagged lines and of Insole words (08_memory.md R206–R214,
04_seasons.md R95, 17_faults.md R442, R444). -/
namespace Sys2Proof.Machine

/-- A memory with tagged lines, by its code in GRD_LINE_UE.MEM. -/
def memCode : Region → Option Nat
  | .sram => some 0
  | .host => some 1
  | .engMem _ _ => some 2
  | .larder _ => some 3
  | _ => none

/-- The guard control block that counts a memory's line events (R207). -/
def State.lineBlock (s : State) (r : Region) : Nat :=
  match r with
  | .engMem d _ => grdBase (8 + d)
  | .larder l => grdBase (8 + (if s.diePowered (2 * l) then 2 * l else 2 * l + 1))
  | _ => grdBase 0

/-- The bank a line lies in (R213): its unit code, TYPE 0x0 for Sole SRAM and host memory (R444). -/
def lineBank (r : Region) (a : Nat) : BitVec 16 :=
  match r with
  | .engMem d e => unitCode 5 (16 * (8 * d + e) + a % 0x01000000 / 0x100000)
  | .larder l => unitCode 6 (64 * l + a % 0x100000000 / 0x4000000)
  | _ => 0

/-- A record about a line (R444): KIND LINE, RETRIES 1, the bank, the line address and the memory code. -/
def State.lineRec (s : State) (r : Region) (a : Nat) (cls : Nat) : Rec :=
  { dtb := s.tb.master, seq := 0, kind := 1, cls := cls, retries := 1, cause := 0, unit := lineBank r a, sub := 0, ini := 0,
    addr := BitVec.ofNat 64 (a / 64 * 64), detail := [BitVec.ofNat 32 ((memCode r).getD 0)] }

/-- The count of retries a kind is allowed (R439, FLT_RETRY_LO and FLT_RETRY_HI): zero counts as one. -/
def State.retryCount (s : State) (kind : Nat) : Nat :=
  let n := if kind = 0xB then s.fld R.FLT_RETRY_HI F.FLT_RETRY_HI.BODY else fget (s.rd R.FLT_RETRY_LO) ⟨4 * (kind - 2), 4⟩
  if n = 0 then 1 else n

/-- The window of R443 that FLT_CFG.RECUR_WIN names, in ticks. -/
def State.recurLen (s : State) : Nat :=
  let m := s.fld R.FLT_CFG F.FLT_CFG.RECUR_WIN
  6000000000 * (if m = 0 then 1 else m)

/-- Past a window's end every count is zero, and the written length is in force: the next end is its next multiple (R443). -/
def State.recurRoll (s : State) : State :=
  let t := s.tb.master.toNat
  if t < s.flt.recurEnd then s else s.withFlt { s.flt with recur := [], recurEnd := (t / s.recurLen + 1) * s.recurLen }

/-- Show that the count of a kind has reached RECUR_THR (R443). -/
def State.recurHit (s : State) (kind : Nat) : State := (s.putBit R.FLT_RECUR kind true).setEvt 3

/-- A TRANSIENT record is logged, and counted for recurrence unless RECUR_THR is 0 (R440, R443). -/
def State.logTransient (s0 : State) (r : Rec) : State :=
  let s := s0.recurRoll
  let thr := s.fld R.FLT_CFG F.FLT_CFG.RECUR_THR
  if thr = 0 then s.logRec r
  else
    let n := tabGet natZero s.flt.recur r.kind + 1
    let s1 := s.withFlt { s.flt with recur := tabPut natZero r.kind n s.flt.recur }
    (if n = thr then s1.recurHit r.kind else s1).logRec r

/-- RECUR_THR has been written, was being its value before: a kind whose count it has come down to has reached it (R443). -/
def State.recurLowered (s : State) (was : Nat) : State :=
  let thr := s.fld R.FLT_CFG F.FLT_CFG.RECUR_THR
  s.each (fun t k =>
    let n := tabGet natZero t.flt.recur k
    if thr ≠ 0 ∧ thr ≤ n ∧ (was = 0 ∨ n < was) then t.recurHit k else t) ((List.range 11).map (· + 1))

/-- Free the test slot of a unit (R451). -/
def State.endTest (s : State) (u : BitVec 16) : State :=
  let s1 := s.each (fun t n => if t.bit (R.FLT_TEST n) 31 && (t.rd (R.FLT_TEST n)).setWidth 16 == u then t.wr (R.FLT_TEST n) 0 else t) [0, 1, 2, 3]
  s1.setFld R.FLT_STAT F.FLT_STAT.TESTS ((List.range 4).filter (fun n => s1.bit (R.FLT_TEST n) 31)).length

/-- A unit in TESTING returns to RETIRED with a record r and its CAUSE for the summary: its test slot is freed, no LIVE_ bit changes (R448, R450, R451). -/
def State.testFail (s : State) (u : BitVec 16) (cause : Nat) (r : Rec) : State :=
  let t := ((s.endTest u).stopUnit u).queueSummary ⟨u, none, true, none, cause, some (s.recSeq r)⟩
  (t.logRec r).permEvent u

/-- A bank has had another confirmed uncorrectable line; it retires at FLT_CFG.BANKUE, and one in TESTING returns to RETIRED (R442, R451). -/
def State.bankUe (s : State) (u : BitVec 16) : State :=
  if u = 0 then s
  else
    let n := tabGet natZero s.flt.bankUe u.toNat + 1
    let s1 := s.withFlt { s.flt with bankUe := tabPut natZero u.toNat n s.flt.bankUe }
    let thr := Nat.max 1 (s1.fld R.FLT_CFG F.FLT_CFG.BANKUE)
    if n < thr then s1
    else if s1.testing u then s1.testFail u 1 (s1.mkRetired 1 u 0 1 1 0)
    else if s1.isRetired u then s1
    else s1.retire u 1 (s1.mkRetired 1 u 0 1 1 0)

/-- A single-bit error is corrected and written back (R207). -/
def State.correctLine (s : State) (r : Region) (a : Nat) : State :=
  (s.putLine (a / 64 * 64) .clean).advSat (R.GRD_LINE_CE (s.lineBlock r)) F.GRD_LINE_CE.COUNT 1

/-- An uncorrectable line whose second read confirms it is poisoned, counted and reported (R207, R213). -/
def State.poisonLine (s : State) (r : Region) (a : Nat) : State :=
  let b := s.lineBlock r
  let l := a / 64 * 64
  let s1 := (s.putLine l .poisoned).advSat (R.GRD_LINE_UE b) F.GRD_LINE_UE.COUNT 1
  let s2 := (s1.setFld (R.GRD_LINE_UE b) F.GRD_LINE_UE.MEM ((memCode r).getD 0)).putBit (R.GRD_LINE_UE b) 31 true
  let s3 := (s2.wr (R.GRD_LINE_ADDR_LO b) (BitVec.ofNat 32 l)).wr (R.GRD_LINE_ADDR_HI b) (BitVec.ofNat 32 (l / 0x100000000))
  (s3.logRec (s3.lineRec r a 0)).bankUe (lineBank r a)

/-- Read one tagged line with the actions of R207; the Bool says that its data may be used. -/
def State.readLine (s : State) (r : Region) (a : Nat) : State × Bool :=
  match s.line (a / 64 * 64) with
  | .clean => (s, true)
  | .single => (s.correctLine r a, true)
  | .onceBad => ((s.logTransient (s.lineRec r a 1)).putLine (a / 64 * 64) .clean, true)
  | .onceSingle => ((s.logTransient (s.lineRec r a 1)).correctLine r a, true)
  | .uncorrectable => (s.poisonLine r a, false)
  | .poisoned => (s, false)

/-- First bytes of the lines of n bytes from a. -/
def lineList (a n : Nat) : List Nat := (List.range (linesTouched a n)).map (fun i => (a / 64 + i) * 64)

/-- Read every line of an access; false if any of them is poisoned. -/
def State.readLines (s : State) (r : Region) : List Nat → State × Bool
  | [] => (s, true)
  | l :: ls =>
    let p := s.readLine r l
    let q := p.1.readLines r ls
    (q.1, p.2 && q.2)

/-- A partial write's effect on one line's tag (R209): corrected where it can be, else the poison stays and the writer receives a
POISON_MERGE notice naming the line. The written bytes are merged by the caller in either case. -/
def State.mergeLine (s : State) (i : Ini) (r : Region) (a : Nat) : State :=
  match s.line (a / 64 * 64) with
  | .clean => s
  | .single => s.correctLine r a
  | .onceBad => (s.logTransient (s.lineRec r a 1)).putLine (a / 64 * 64) .clean
  | .onceSingle => (s.logTransient (s.lineRec r a 1)).correctLine r a
  | .uncorrectable => (s.poisonLine r a).notice i (BitVec.ofNat 64 (a / 64 * 64)) 9
  | .poisoned => s.notice i (BitVec.ofNat 64 (a / 64 * 64)) 9

/-- Write bytes to tagged memory (R209): full lines take a valid tag, partial ones merge. -/
def State.writeTagged (s : State) (i : Ini) (r : Region) (a : Nat) (bs : List Byte) : State :=
  let s1 := s.each (fun t l =>
    if a ≤ l ∧ l + 64 ≤ a + bs.length then t.putLine l .clean else t.mergeLine i r l) (lineList a bs.length)
  s1.putBytes a bs

/-! ### Insole (R92–R96) -/

/-- Read Insole words: an uncorrectable word returns no data and reports an INSOLE event; a corrected word advances CE_COUNT
and names itself in INS_ECC_ADDR (R95). Words are 32 bits. -/
def State.readInsole (s : State) (a : Nat) : State × Bool :=
  match s.line (a / 4 * 4) with
  | .clean => (s, true)
  | .single | .onceBad | .onceSingle =>
    ((((s.putLine (a / 4 * 4) .clean).advSat R.INS_STATUS F.INS_STATUS.CE_COUNT 1).setFld R.INS_ECC_ADDR F.INS_ECC_ADDR.OFFSET
      (a / 4 * 4 - 0x28000000)), true)
  | .uncorrectable | .poisoned => (s.event 0x23 0 0 (BitVec.ofNat 64 (a / 4 * 4)) [BitVec.ofNat 32 (a / 4 * 4 - 0x28000000)], false)

end Sys2Proof.Machine
end

