-- ==== Sys2Proof/Machine/Exc.lean ====
section
/-! DEFINITION. Machine/Exc.lean: a core's system registers, exception entry, interrupt entry, the halt on DOUBLE and the return
(06_quecen.md R157–R162). -/
namespace Sys2Proof.Machine

/-! ### A core's registers (R135) -/

/-- General register n; g0 reads zero (R135). -/
def Core.gr (c : Core) (n : BitVec 5) : Word := if n = 0 then 0 else tabGet wordZero c.g n.toNat

/-- Write general register n; a write to g0 is ignored (R135). -/
def Core.setGr (c : Core) (n : BitVec 5) (v : Word) : Core :=
  if n = 0 then c else { c with g := tabPut wordZero n.toNat v c.g }

/-- System register n as stored. -/
def Core.sr (c : Core) (n : Nat) : W32 := tabGet sysReset c.sys n

def Core.setSr (c : Core) (n : Nat) (v : W32) : Core := { c with sys := tabPut sysReset n v c.sys }

/-- Bit b of system register n. -/
def Core.srBit (c : Core) (n b : Nat) : Bool := (c.sr n).getLsbD b

def Core.putSrBit (c : Core) (n b : Nat) (x : Bool) : Core := c.setSr n (fput (c.sr n) (bitF b) x.toNat)

/-- System register numbers (register tables of 06 and 07). -/
def srStatus : Nat := 0x001
def srCause : Nat := 0x002
def srEpcLo : Nat := 0x003
def srEpcHi : Nat := 0x004
def srTvalLo : Nat := 0x005
def srTvalHi : Nat := 0x006
def srVbaseLo : Nat := 0x007
def srVbaseHi : Nat := 0x008
def srScratch : Nat := 0x009
def srIrqEn : Nat := 0x010
def srIrqPend : Nat := 0x011
def srThr : Nat := 0x016
def srWait : Nat := 0x017
def srLane : Nat := 0x018

/-- CORE_STATUS bits. -/
def stIe : Nat := 0
def stPriv : Nat := 1
def stPie : Nat := 2
def stPpriv : Nat := 3
def stExl : Nat := 4
def stPastdl : Nat := 5
def stInwait : Nat := 6
def stWarm : Nat := 7

/-- The core runs at the privileged level (R136). -/
def Core.priv (c : Core) : Bool := c.srBit srStatus stPriv

/-- A 48-bit address held in a LO and a HI system register. -/
def Core.srAddr (c : Core) (lo hi : Nat) : Word := ((c.sr hi).setWidth 16 ++ c.sr lo).setWidth 64

def Core.setSrAddr (c : Core) (lo hi : Nat) (v : Word) : Core :=
  (c.setSr lo (v.setWidth 32)).setSr hi (((v >>> 32).setWidth 16).setWidth 32)

/-! ### Exception codes (R157) -/

def excLoad : Nat := 0x05
def excStore : Nat := 0x06
def excIllegal : Nat := 0x01
def excPriv : Nat := 0x02
def excFetch : Nat := 0x03
def excAlign : Nat := 0x04
def excEcallU : Nat := 0x07
def excEcallP : Nat := 0x08
def excBrk : Nat := 0x09
def excHandle : Nat := 0x0A
def excDouble : Nat := 0x0C

/-- The initiator of a core's own requests at its present level. -/
def State.coreIni (s : State) (c : CoreId) : Ini := .core c (s.core c).priv

/-- Halt a core as on DOUBLE: it does not vector, and the fault manager receives a DOUBLE event with both codes (R159). -/
def State.haltCore (s : State) (c : CoreId) (first second : Nat) : State :=
  let s1 := s.setCore c { s.core c with run := .halted, wait := none }
  s1.event 0x25 0 (iniId (.core c false)) 0 [BitVec.ofNat 32 first, BitVec.ofNat 32 second]

/-- An address as PC holds it: bits 1:0 are zero (R135). -/
def pcOf (a : Word) : Word := a &&& ~~~3#64

/-- What exception and interrupt entry share (R158, R161): EPC, CAUSE, TVAL, PRIV and IE saved, PRIV set, IE cleared, EXL as given, and the
core at VBASE plus an offset. -/
def Core.enter (x : Core) (cause : W32) (epc tval : Word) (exl : Bool) (off : Nat) : Core :=
  let st := x.sr srStatus
  let st1 := fput (fput st (bitF stPpriv) (x.srBit srStatus stPriv).toNat) (bitF stPie) (x.srBit srStatus stIe).toNat
  let st2 := fput (fput st1 (bitF stPriv) 1) (bitF stIe) 0
  let st3 := if exl then fput st2 (bitF stExl) 1 else st2
  let y := ((x.setSrAddr srEpcLo srEpcHi epc).setSr srCause cause).setSrAddr srTvalLo srTvalHi tval
  { (y.setSr srStatus st3) with pc := x.srAddr srVbaseLo srVbaseHi + BitVec.ofNat 64 off, wait := none }

/-- CORE_CAUSE of an exception (R157, R158): CODE and SUB; LINE, which no exception gives a value, is free (notes/assumptions/13.md). -/
def State.excCause (s : State) (code sub : Nat) : W32 := BitVec.ofNat 32 (code + sub * 256 + s.draw.toNat % 32 * 65536)

/-- Exception entry (R157–R159): with EXL set the core halts on DOUBLE; otherwise it enters at VBASE, and a VBASE of zero, the boot ROM,
halts it as on DOUBLE. -/
def State.except (s : State) (c : CoreId) (code sub : Nat) (tval : Word) : State :=
  let x := s.core c
  let t := s.drawn
  if x.srBit srStatus stExl then
    (t.setCore c (x.setSr srCause (s.excCause excDouble code))).haltCore c (fget (x.sr srCause) ⟨0, 8⟩) code
  else
    let s1 := t.setCore c (x.enter (s.excCause code sub) x.pc tval true 0)
    if x.srAddr srVbaseLo srVbaseHi = 0 then s1.drawn.haltCore c code (s1.draw.toNat % 256) else s1

/-- ERET (R141): PC from EPC, PRIV from PPRIV, IE from PIE, EXL cleared. -/
def Core.eret (x : Core) : Core :=
  let st := x.sr srStatus
  let st1 := fput (fput st (bitF stPriv) (x.srBit srStatus stPpriv).toNat) (bitF stIe) (x.srBit srStatus stPie).toNat
  { (x.setSr srStatus (fput st1 (bitF stExl) 0)) with pc := x.srAddr srEpcLo srEpcHi }

end Sys2Proof.Machine
end

