-- ==== Sys2Proof/Machine/Irq.lean ====
section
/-! DEFINITION. Machine/Irq.lean: the interrupt lines of each kind of core, as their sources assert them, and the line a core takes
(06_quecen.md R161–R163; the sources in their own chapters). A line the table leaves out, and one whose source the manual does not describe, is
never asserted (notes/assumptions/14.md). -/
namespace Sys2Proof.Machine

/-- Two registers have a set bit in common. -/
def State.anyOf (s : State) (a b : Nat) : Bool := s.rd a &&& s.rd b != 0

/-- An enabled alarm with PEND and IRQ whose TARGET is this core (R49, R163). -/
def State.alarmLine (s : State) (n : Nat) : Bool :=
  (List.range 8).any (fun k => s.bit R.TBASE_ALM_PEND k && s.on (R.TBASE_ALM_CFG k) F.TBASE_ALM_CFG.IRQ &&
    s.fld (R.TBASE_ALM_CFG k) F.TBASE_ALM_CFG.TARGET == n)

/-- A link asserts LACE: a W1C bit of its PHY events, or a link event (R411, LACE_LEVT). -/
def State.linkLine (s : State) (n : Nat) : Bool :=
  s.rd (lreg R.LACE_PHY_EVT n) &&& 0xCFFFF != 0 || s.rd (lreg R.LACE_LEVT n) != 0

/-- Lines 0–15 of a Sole core. -/
def State.soleLine (s : State) (c : Fin 10) (n : Nat) : Bool :=
  match n with
  | 0 => s.alarmLine c.val
  | 1 => (s.core (.sole c)).soft
  | 2 => s.anyOf R.FLT_EVT R.FLT_IRQ_EN
  | 3 => !(s.core (.sole c)).notices.isEmpty
  | 4 => s.anyOf R.PWR_SUP_EVT R.PWR_SUP_IRQ
  | 5 => !s.boot.rx.isEmpty
  | 6 => s.on R.BOOT_VER_STAT F.BOOT_VER_STAT.DONE || s.on R.BOOT_SWAP_STAT F.BOOT_SWAP_STAT.DONE
  | 7 => s.on R.PWR_PMB_STAT F.PWR_PMB_STAT.DONE
  | 9 => (List.range 48).any s.linkLine
  | 10 => s.bit R.DBG_STAT 0
  | _ => false

/-- Lines 0–15 of the Heel core. -/
def State.heelLine (s : State) (n : Nat) : Bool :=
  match n with
  | 0 => s.sup.winter == .grace
  | 1 => s.boot.cmdSeen
  | 2 => match s.boot.swap with
    | some w => w.heel && w.deadline.isSome
    | none => false
  | 3 => s.anyOf R.PWR_SUP_EVT R.PWR_SUP_IRQ
  | 4 => s.flt.retired.contains (BitVec.ofNat 16 0x8010)
  | 5 => s.rd R.FLT_HEVT != 0
  | 6 => s.rd R.WAKE_PEND != 0
  | 7 => !(s.core .heel).notices.isEmpty
  | 8 => s.anyOf R.HSO_EVT_LO R.HSO_IRQ_EN_LO || s.anyOf R.HSO_EVT_HI R.HSO_IRQ_EN_HI
  | 9 => s.anyOf R.HBR_EVT R.HBR_IRQ_EN
  | 10 => s.anyOf R.SWI_EVT_LO R.SWI_IRQ_EN_LO || s.anyOf R.SWI_EVT_HI R.SWI_IRQ_EN_HI
  | 11 => s.anyOf R.QDEC_EVT R.QDEC_IRQ_EN
  | 12 => s.anyOf R.ANG_EVT R.ANG_IRQ_EN
  | n =>
    if 16 ≤ n ∧ n < 24 then s.anyOf (R.MBC_EVT (n - 16)) (R.MBC_IRQ_EN (n - 16))
    else if 24 ≤ n ∧ n < 32 then s.anyOf (R.LIN_EVT (n - 24)) (R.LIN_IRQ_EN (n - 24))
    else false

/-- An engine asserts ENG of its keeper: a bit of ENG_IRQ_PEND, or a stream unit in ERROR with ERRIRQ set (R334). -/
def State.engAsserts (s : State) (g : Nat) : Bool :=
  s.rd (R.ENG_IRQ_PEND (g / 8) (g % 8)) != 0 ||
    (List.range 16).any (fun n => (s.stream (16 * g + n)).error && s.on (R.STR_CFG (g / 8) (g % 8) n) F.STR_CFG.ERRIRQ)

/-- Lines 0–15 of keeper Kd. -/
def State.keeperLine (s : State) (d : Fin 4) (n : Nat) : Bool :=
  match n with
  | 0 => (s.core (.keeper d)).soft
  | 1 => (List.range 8).any (fun e => s.engAsserts (8 * d.val + e))
  | 2 => s.rd (R.FLT_KEVT d.val) != 0
  | 3 => s.rd (R.FAB_EVT d.val) != 0
  | 4 => (List.range 12).any (fun k => s.linkLine (12 * d.val + k))
  | 5 => !(s.core (.keeper d)).notices.isEmpty
  | _ => false

/-- The units of a die whose Awl triggers assert a line: a probe that fired with IRQ set and whose FIRED stands, toward AWL_IRQ's core and line (R244). x is 0 for the Sole, 1 + d for
compute die d. -/
def State.awlLine (s : State) (x core n : Nat) : Bool :=
  let b := awlBase (if x = 0 then 0 else 7 + x)
  s.fld (R.AWL_IRQ b) F.AWL_IRQ.CORE == core && s.fld (R.AWL_IRQ b) F.AWL_IRQ.LINE == n &&
    (List.range (if x = 0 then 8 else 16)).any (fun p => s.bit (R.AWL_STAT b) p && s.noc.irq.contains (16 * x + p))

/-- An engine's events assert the line of ENG_IRQ_ROUTE on a Sole core. -/
def State.engLine (s : State) (g c n : Nat) : Bool :=
  s.rd (R.ENG_IRQ_PEND (g / 8) (g % 8)) != 0 && s.fld (R.ENG_IRQ_ROUTE (g / 8) (g % 8)) F.ENG_IRQ_ROUTE.CORE == c &&
    s.fld (R.ENG_IRQ_ROUTE (g / 8) (g % 8)) F.ENG_IRQ_ROUTE.LINE == n

/-- Any tracker event asserts the line of TRN_CK_ROUTE. -/
def State.trkLine (s : State) (c n : Nat) : Bool :=
  s.rd R.TRN_CK_EVT != 0 && s.fld R.TRN_CK_ROUTE F.TRN_CK_ROUTE.CORE == c && s.fld R.TRN_CK_ROUTE F.TRN_CK_ROUTE.LINE == n

/-- Routed lines of a Sole core, and of a keeper (R163). -/
def State.routedSole (s : State) (c n : Nat) : Bool := (List.range 5).any (fun x => s.awlLine x c n) || (List.range 32).any (fun g => s.engLine g c n) || s.trkLine c n
def State.routedKeeper (s : State) (d n : Nat) : Bool := s.awlLine (1 + d) 15 n

/-- Line n of core c is pending (R161, R163). -/
def State.irqLine (s : State) (c : CoreId) (n : Nat) : Bool :=
  match c with
  | .sole k => if n < 16 then s.soleLine k n else s.routedSole k.val n
  | .heel => s.heelLine n
  | .keeper d => if n < 16 then s.keeperLine d n else s.routedKeeper d.val n

/-- CORE_IRQ_PEND. -/
def State.irqPend (s : State) (c : CoreId) : W32 :=
  BitVec.ofNat 32 ((List.range 32).foldl (fun w n => if s.irqLine c n then w + 2 ^ n else w) 0)

/-- The priority of line n in CORE_IRQ_PRI0–3. -/
def Core.irqPri (x : Core) (n : Nat) : Nat := fget (x.sr (0x012 + n / 8)) ⟨4 * (n % 8), 4⟩

/-- Line n is pending, enabled and above the threshold (R161); priority 0 is never taken. -/
def State.irqReady (s : State) (c : CoreId) (n : Nat) : Bool :=
  let x := s.core c
  x.srBit srIrqEn n && decide (fget (x.sr srThr) ⟨0, 4⟩ < x.irqPri n) && s.irqLine c n

/-- The line a core takes: the highest priority, then the lowest number (R161). -/
def State.irqBest (s : State) (c : CoreId) : Option Nat :=
  (List.range 32).foldl (fun best n =>
    if s.irqReady c n then
      match best with
      | none => some n
      | some m => if (s.core c).irqPri m < (s.core c).irqPri n then some n else best
    else best) none

end Sys2Proof.Machine
end

