-- ==== Sys2Proof/Machine/LaneOps.lean ====
section
/-! DEFINITION. Machine/LaneOps.lean: the arithmetic of the signal lane on one core's registers (07_signal_lane.md R169–R174). -/
namespace Sys2Proof.Machine

/-- The core has a signal lane (R169). -/
def hasLane : CoreId → Bool
  | .sole _ => true
  | _ => false

/-- Complex register n. -/
def Core.cr (x : Core) (n : Nat) : Word := tabGet wordZero x.laneC n

def Core.setCr (x : Core) (n : Nat) (v : Word) : Core := { x with laneC := tabPut wordZero n v x.laneC }

def accZero (_ : Nat) : BitVec 80 := 0

/-- A component of accumulator n: RE for im false, IM for im true. -/
def Core.acc (x : Core) (n : Nat) (im : Bool) : BitVec 80 := tabGet accZero x.laneA (2 * n + im.toNat)

def Core.setAcc (x : Core) (n : Nat) (im : Bool) (v : BitVec 80) : Core :=
  { x with laneA := tabPut accZero (2 * n + im.toNat) v x.laneA }

/-- The real and the imaginary part of a complex value, signed Q1.31 (R169). -/
def cRe (w : Word) : Int := (w.setWidth 32).toInt
def cIm (w : Word) : Int := ((w >>> 32).setWidth 32).toInt

/-- The low n bits of an integer's two's complement. -/
def cPack (re im : Int) : Word := BitVec.ofInt 32 im ++ BitVec.ofInt 32 re

/-- A value between two bounds. -/
def clamp (lo hi v : Int) : Int := if v < lo then lo else if hi < v then hi else v

/-- Divide by 2^k and round once (R171): toward minus infinity, or to nearest with ties to even. -/
def roundShift (floor : Bool) (v : Int) (k : Nat) : Int :=
  let q := v / (2 ^ k : Int)
  let r := v % (2 ^ k : Int)
  if floor || decide (2 * r < (2 ^ k : Int)) then q
  else if (2 ^ k : Int) < 2 * r then q + 1
  else if q % 2 = 0 then q else q + 1

/-- CORE_LANE.RND: toward minus infinity. -/
def Core.rndFloor (x : Core) : Bool := x.srBit srLane 0

/-- Write a result to complex register n (R171): each part divided by 2^k, rounded, saturated; SAT sets where a part saturates. -/
def Core.putC (x : Core) (n : Nat) (re im : Int) (k : Nat) : Core :=
  let r := roundShift x.rndFloor re k
  let i := roundShift x.rndFloor im k
  let r' := clamp (-2 ^ 31) (2 ^ 31 - 1) r
  let i' := clamp (-2 ^ 31) (2 ^ 31 - 1) i
  let y := x.setCr n (cPack r' i')
  if r' = r ∧ i' = i then y else y.putSrBit srLane 1 true

/-- Add to a component exactly; outside 80 bits it saturates and ASAT sets (R171). -/
def Core.accAdd (x : Core) (n : Nat) (im : Bool) (v : Int) : Core :=
  let e := (x.acc n im).toInt + v
  let r := clamp (-2 ^ 79) (2 ^ 79 - 1) e
  let y := x.setAcc n im (BitVec.ofInt 80 r)
  if r = e then y else y.putSrBit srLane 2 true

/-- The exact complex product (R171). -/
def cMulRe (a b : Word) : Int := cRe a * cRe b - cIm a * cIm b
def cMulIm (a b : Word) : Int := cRe a * cIm b + cIm a * cRe b

/-- Byte i of a 64-bit value, signed or unsigned. -/
def byteInt (w : Word) (i : Nat) (unsigned : Bool) : Int :=
  let b := (w >>> (8 * i)).setWidth 8
  if unsigned then (b.toNat : Int) else b.toInt

/-- The sum of eight byte products (R174): the bytes of a signed, those of b signed or unsigned. -/
def dot8 (a b : Word) (unsigned : Bool) : Int :=
  (List.range 8).foldl (fun t i => t + byteInt a i false * byteInt b i unsigned) 0

/-- The D field of a register function names an accumulator. -/
def laneDAcc : LaneReg → Bool
  | .cmul | .cmac | .cmsb | .cmacj | .dot8 | .dot8su => true
  | .cadd | .csub | .crot | .cconj => false

/-- The fields and step bits of a register function are ones its encoding admits (R172–R174). -/
def laneRegOk (f : LaneReg) (d a b : BitVec 5) (st : BitVec 3) : Bool :=
  let cconj := f == .cconj
  decide (d.toNat < if laneDAcc f then 4 else 16) && decide (a.toNat < 16) &&
    (if cconj then b == 0 && !st.getLsbD 1 else decide (b.toNat < 16)) && !(laneDAcc f && st.getLsbD 2)

/-- The fields and step bits of a memory function are ones its encoding admits (R172–R174). -/
def laneMemOk (f : LaneMem) (d b : BitVec 5) (st : BitVec 3) : Bool :=
  match f with
  | .cldp => decide (d.toNat < 16) && b == 0 && !st.getLsbD 0 && !st.getLsbD 1
  | .cmacr => decide (d.toNat < 4) && decide (b.toNat ≤ 14) && st == 0
  | _ => decide (d.toNat < 4) && decide (b.toNat < 16) && !st.getLsbD 0 && !st.getLsbD 2

/-- The register a field names in repetition k (R177). -/
def stepped (n : BitVec 5) (step : Bool) (k : Nat) : Nat := if step then (n.toNat + k) % 16 else n.toNat

/-- The effect of a register function (R174). -/
def Core.laneReg (x : Core) (f : LaneReg) (d a b : Nat) : Core :=
  let u := x.cr a
  let v := x.cr b
  match f with
  | .cmul => ((x.setAcc d false 0).setAcc d true 0).accAdd d false (cMulRe u v) |>.accAdd d true (cMulIm u v)
  | .cmac => (x.accAdd d false (cMulRe u v)).accAdd d true (cMulIm u v)
  | .cmsb => (x.accAdd d false (-cMulRe u v)).accAdd d true (-cMulIm u v)
  | .cmacj => (x.accAdd d false (cRe u * cRe v + cIm u * cIm v)).accAdd d true (cIm u * cRe v - cRe u * cIm v)
  | .cadd => x.putC d (cRe u + cRe v) (cIm u + cIm v) 0
  | .csub => x.putC d (cRe u - cRe v) (cIm u - cIm v) 0
  | .crot => x.putC d (cMulRe u v) (cMulIm u v) 31
  | .cconj => x.putC d (cRe u) (-cIm u) 0
  | .dot8 => x.accAdd d false (dot8 u v false)
  | .dot8su => x.accAdd d false (dot8 u v true)

/-- Bytes a memory function reads. -/
def laneMemSize : LaneMem → Nat
  | .cmacr => 4
  | _ => 8

/-- The effect of a memory function on the value it read (R174): m is zero-extended. The pointer advances. -/
def Core.laneMem (x : Core) (f : LaneMem) (d : Nat) (a : BitVec 5) (b : Nat) (m : Word) : Core :=
  let adv (y : Core) : Core := y.setGr a (y.gr a + BitVec.ofNat 64 (laneMemSize f))
  match f with
  | .cldp => adv (x.setCr d m)
  | .cmacm => adv ((x.accAdd d false (cMulRe m (x.cr b))).accAdd d true (cMulIm m (x.cr b)))
  | .cmacr =>
    let v := x.cr b
    let y := (x.accAdd d false (cRe m * cRe v)).accAdd d true (cRe m * cIm v)
    adv (y.putC b (cMulRe v (x.cr (b + 1))) (cMulIm v (x.cr (b + 1))) 31)
  | .dot8m => adv (x.accAdd d false (dot8 m (x.cr b) false))
  | .dot8msu => adv (x.accAdd d false (dot8 m (x.cr b) true))

/-- RDCS: an accumulator shifted right into a complex register, rounded and saturated (R171, R174). -/
def Core.rdcs (x : Core) (d a k : Nat) : Core := x.putC d (x.acc a false).toInt (x.acc a true).toInt k

/-- CORE_LANE.REPDONE (R179). -/
def Core.setRepdone (x : Core) (k : Nat) : Core := x.setSr srLane (fput (x.sr srLane) ⟨16, 12⟩ k)

end Sys2Proof.Machine
end

