-- ==== Sys2Proof/Machine/CoreCtl.lean ====
section
/-! DEFINITION. Machine/CoreCtl.lean: the core control block of the Sole: starting cores and software interrupts; a core's system registers
(06_quecen.md R135, R140, R163, R166). -/
namespace Sys2Proof.Machine

/-- Apply a change to one core. -/
def State.onCore (s : State) (c : CoreId) (f : Core → Core) : State := s.setCore c (f (s.core c))

/-- Start or restart a Sole core at CORE_ENTRY (R166): ignored while it is RUNNING or RETIRED, and during a swap. -/
def State.startCore (s : State) (n : Nat) : State :=
  let c : CoreId := .sole (Fin.ofNat 10 n)
  let x := s.core c
  if x.run = .running ∨ x.run = .retired ∨ s.boot.swap.isSome ∨ s.sup.soleHeld then s
  else
    let e := ((s.rd (R.CORE_ENTRY_HI n)).setWidth 16 ++ s.rd (R.CORE_ENTRY_LO n)).setWidth 64
    s.setCore c { Core.init .running with
      pc := e, notices := x.notices, noteOvf := x.noteOvf, noteLost := x.noteLost, dhalt := x.dhalt }

/-- The core control block's writes: CORE_START and CORE_SWI act, the rest follow their access codes. -/
def State.coreCtlWrite (s : State) (a : Nat) (v : W32) : Option State :=
  if a = R.CORE_START then some (s.each State.startCore (bitsOf v.toNat 10))
  else if a = R.CORE_SWI then
    some (s.each (fun t n => t.onCore (.sole (Fin.ofNat 10 n)) (fun x => { x with soft := true })) (bitsOf v.toNat 10))
  else none

/-- The domain of a core is powered and out of reset. -/
def State.domainUp (s : State) : CoreId → Bool
  | .sole _ => !s.sup.soleHeld
  | .heel => !s.sup.heelHeld
  | .keeper d => s.diePowered d.val

/-! ### System registers (R135, R140) -/

/-- A system register number names a register on this kind of core. -/
def sysNamed (c : CoreId) (n : Nat) : Bool := n ≤ 9 || (0x010 ≤ n && n ≤ 0x017) || (n == srLane && hasLane c)

/-- CORE_ID. -/
def coreIdReg : CoreId → W32
  | .sole n => BitVec.ofNat 32 (n.val + (if n.val < 8 then 0 else 1) * 16 + 256)
  | .heel => 0x20
  | .keeper d => BitVec.ofNat 32 (d.val + 0x30)

/-- What a system register reads as. -/
def State.sysRead (s : State) (c : CoreId) (n : Nat) : W32 :=
  let x := s.core c
  if n = 0 then coreIdReg c
  else if n = srIrqPend then s.irqPend c
  else if n = srWait then fput (x.sr srWait) ⟨8, 4⟩ x.producers.length
  else x.sr n

/-- RW bits of a system register, and its W1C bits (register tables of 06 and 07). -/
def sysRw (n : Nat) : W32 :=
  if n = srStatus then 0x1D
  else if n = srEpcLo then 0xFFFFFFFC
  else if n = srEpcHi ∨ n = srVbaseHi then 0xFFFF
  else if n = srVbaseLo then 0xFFFFFE00
  else if n = srScratch ∨ n = srIrqEn ∨ (0x012 ≤ n ∧ n ≤ 0x015) then 0xFFFFFFFF
  else if n = srThr then 0xF
  else if n = srLane then 1
  else 0

def sysW1c (n : Nat) : W32 := if n = srStatus then 0x20 else if n = srLane then 6 else 0

/-- Write a system register: RW bits take v, W1C bits that v sets clear; SOFT of a Sole core clears through CORE_IRQ_PEND bit 1 (R163). -/
def Core.sysWrite (x : Core) (c : CoreId) (n : Nat) (v : W32) : Core :=
  if n = srIrqPend then
    match c with
    | .sole _ => if v.getLsbD 1 then { x with soft := false } else x
    | _ => x
  else
    let old := x.sr n
    x.setSr n (((old &&& ~~~(sysRw n)) ||| (v &&& sysRw n)) &&& ~~~(v &&& sysW1c n))

/-- Set bits of a system register (SSET): RW bits take one, others are unchanged (notes/assumptions/16.md). -/
def Core.sysSet (x : Core) (c : CoreId) (n : Nat) (v : W32) : Core := x.sysWrite c n ((x.sr n &&& sysRw n) ||| (v &&& sysRw n))

/-- Clear bits of a system register (SCLR): RW and W1C bits that v sets. -/
def Core.sysClear (x : Core) (c : CoreId) (n : Nat) (v : W32) : Core :=
  x.sysWrite c n ((x.sr n &&& sysRw n &&& ~~~v) ||| (v &&& ~~~(sysRw n)))

end Sys2Proof.Machine
end

