-- ==== Sys2Proof/Machine/DieOff.lean ====
section
/-! DEFINITION. Machine/DieOff.lean: the EN_ pins, and what a compute die or a Larder loses with its power (03_supplies_reset.md R66, 04_seasons.md R77, R85). -/
namespace Sys2Proof.Machine

/-- The EN_ pin of a die. -/
def State.enPin (s : State) (x : Nat) : Bool := s.bit R.PWR_EN (2 + x)
def State.setEn (s : State) (x : Nat) (b : Bool) : State := s.putBit R.PWR_EN (2 + x) b

/-- What the links of die d hold beside their registers is gone. -/
def State.linkReset (s : State) (d : Nat) : State :=
  let x := s.io.lace
  s.withLace { x with
    links := tabKeep (fun k => k / 12 != d) x.links
    prbs := tabKeep (fun k => k / 48 != d) x.prbs
    gens := tabKeep (fun k => k / 48 != d) x.gens
    bits := tabKeep (fun k => k / 48 != d) x.bits
    ctle := tabKeep (fun k => k / 48 != d) x.ctle }

/-- What the engines, the fabric and the links of die d hold beside their registers is gone; the spares' positions, which the fault summary records, stay. -/
def State.engReset (s0 : State) (d : Nat) : State :=
  let s := s0.linkReset d
  let e := s.eng
  s.withEng { e with
    streams := tabKeep (fun k => k / 128 != d) e.streams
    mats := tabKeep (fun k => k / 32 != d) e.mats
    stamps := tabKeep (fun k => k / 8 != d) e.stamps
    steps := tabKeep (fun k => k / 8 != d) e.steps
    pipes := tabKeep (fun k => k / 8 != d) e.pipes
    rgns := tabKeep (fun k => k / 8 != d) e.rgns }

/-- The registers of compute die d take their reset values, its keeper is held and its units' work is gone. -/
def State.dieRegsReset (s : State) (d : Nat) : State :=
  let s1 := (s.stopDie d).resetRegs (fun a => decide (dieBase d ≤ a) && decide (a < dieBase d + 0x10000000))
  let s2 := s1.withCores (tabKeep (fun k => k != 12 + d) s1.cores)
  let s3 := s2.withHolds (tabKeep (fun k => k / 256 != 8 + d) s2.holds)
  let s4 := (s3.engReset d).withBoot { s3.boot with die := tabKeep (· != d) s3.boot.die }
  s4.withTb { s4.tb with loaded := tabPut boolFalse (1 + d) false (tabPut boolFalse (5 + d) false s4.tb.loaded) }

/-- Requests and responses of a die that goes into reset are dropped; its BWC and Awl blocks hold nothing beside their registers. -/
def State.dropNet (s : State) (die : Nat) : State :=
  let t := (s.withNet (s.net.filter (fun n => iniDie n.req.ini != die))).withResp (s.resp.filter (fun r => iniDie r.req.ini != die))
  let x := if die = 0 then 0 else die - 7
  let t := t.withSigOut (t.sigOut.filter (fun g => iniDie g.ini != die))
  let u := if die = 1 then t else t.withAwlSpent (t.awlSpent.filter (fun k => k / 16 != x))
  let u := u.withNoc { u.noc with
    irq := if die = 1 then u.noc.irq else u.noc.irq.filter (fun k => k / 16 != x)
    passing := u.noc.passing.filter (fun p => p.hdr.ini.toNat / 4096 != die) }
  if die = 0 then (u.withBwcLen (tabKeep (· != die) u.bwcLen)).withTraceQ [] else u.withBwcLen (tabKeep (· != die) u.bwcLen)

/-- A compute die loses power: its registers, its keeper and the contents of its memories go (R85). -/
def State.dieOff (s : State) (d : Nat) : State :=
  (((s.dropNet (8 + d)).dieRegsReset d).clearMem (engBase d) (engBase d + 0x10000000)).clearMem (dieBase d + 0x08000000) (dieBase d + 0x08400000)

/-- A Larder loses power: its contents go (R85). -/
def State.larderOff (s : State) (l : Nat) : State := s.clearMem (larderBase l) (larderBase l + 0x100000000)

/-- Die x, 0–3 compute, 4 + l Larder, loses power. -/
def State.powerOff (s : State) (x : Nat) : State := if x < 4 then s.dieOff x else s.larderOff (x - 4)

/-- A die that has retired while powered: the power state no longer requires its rails, so its EN_ pin goes low (R66, R77) and its contents go with them; its engines are
gated no longer (R105). -/
def State.retiredOff (s : State) (u : BitVec 16) : State :=
  let ty := u.toNat / 4096
  let x := if ty = 1 then u.toNat % 4096 else 4 + u.toNat % 4096
  if (ty = 1 ∨ ty = 2) ∧ s.enPin x then
    let t := (s.setEn x false).powerOff x
    if x < 4 then t.each (fun v e => v.putBit R.PWR_GATE_STAT (8 * x + e) false) (List.range 8) else t
  else s

end Sys2Proof.Machine
end

