-- ==== Sys2Proof/Machine/FaultOps.lean ====
section
/-! DEFINITION. Machine/FaultOps.lean: the classification of faults and what a permanent one retires (17_faults.md R437–R446, 01_package.md R28). -/
namespace Sys2Proof.Machine

/-- Units that contain a unit (R446). -/
def containers (u : BitVec 16) : List (BitVec 16) :=
  let ix := u.toNat % 4096
  match u.toNat / 4096 with
  | 3 => [unitCode 1 (ix / 8)]
  | 4 => [unitCode 3 (ix / 4), unitCode 1 (ix / 32)]
  | 5 => [unitCode 3 (ix / 16), unitCode 1 (ix / 128)]
  | 6 => [unitCode 2 (ix / 64)]
  | 7 => [unitCode 1 (ix / 12)]
  | 9 => [unitCode 1 (ix / 8)]
  | 0xA => [unitCode 1 ix]
  | _ => []

/-- A unit, or one that contains it and is not under test, is retired. -/
def State.outOfService (s : State) (u : BitVec 16) : Bool :=
  s.isRetired u || (containers u).any (fun c => s.isRetired c && !s.testing c)

/-- A unit code names a unit this package has (R17, R438). -/
def State.unitPresent (s : State) (u : BitVec 16) : Bool :=
  let ix := u.toNat % 4096
  let nd := variantDies s.variant
  let nl := variantLarders s.variant
  match u.toNat / 4096 with
  | 1 | 0xA => decide (ix < nd)
  | 2 => decide (ix < nl)
  | 3 | 9 => decide (ix < 8 * nd)
  | 4 => decide (ix < 32 * nd)
  | 5 => decide (ix < 128 * nd)
  | 6 => decide (ix < 64 * nl)
  | 7 => decide (ix < 12 * nd)
  | 8 => (if ix < 4 then decide (ix < nd)
          else if ix < 8 then decide (ix - 4 < nd) && decide ((ix - 3) % 4 < nd) && (nd == 4 || ix == 4)
          else if ix < 12 then decide (ix - 8 < nd) && decide ((ix - 8) / 2 < nl)
          else ix == 16)
  | 0xB => decide (ix < 2)
  | 0xC => decide (ix < 40) || (decide (0x40 ≤ ix) && decide (ix < 0x4C))
  | 0xD => decide (ix < 16)
  | 0xE => decide (ix < 4)
  | _ => false

/-- Dies that a bridge's retirement retires with it (R28): the compute die of a Sole bridge; a Larder that has lost both bridges. -/
def State.bridgeDies (s : State) (u : BitVec 16) : List (BitVec 16) :=
  let ix := u.toNat % 4096
  if u.toNat / 4096 ≠ 8 then []
  else if ix < 4 then (if s.isRetired (unitCode 1 ix) then [] else [unitCode 1 ix])
  else if 8 ≤ ix ∧ ix < 12 then
    let l := (ix - 8) / 2
    let other := if ix % 2 = 0 then ix + 1 else ix - 1
    if s.isRetired (unitCode 8 other) && !s.isRetired (unitCode 2 l) then [unitCode 2 l] else []
  else []

/-- Requests in flight on a Welt bridge that has retired end (R231): NOTLIVE to their initiators, or a notice for a posted write. One that waits in its target's queue has
crossed it. -/
def State.bridgeLost (s : State) (b : Nat) : State :=
  let gone (n : NetReq) : Bool := n.bridges.contains b && !n.arrived && n.lace.isNone
  let lost := s.net.filter gone
  let t := s.withNet (s.net.filter (fun n => !gone n))
  lost.foldl (fun u n =>
    let v := if n.req.posted then u.notice n.req.ini n.req.addr 3 else u
    v.respond n 3 []) t

/-- Retire a unit and what a bridge takes with it, as one event with one record for each (R28, R445); a die that was powered loses its rails (R66, R77). r is the record of the
unit named. -/
def State.retireWith (s : State) (u : BitVec 16) (cause : Nat) (r : Rec) : State :=
  let dies := s.bridgeDies u
  let s1 := s.retireSet ((u, cause) :: dies.map (fun x => (x, 2)))
  let put (t : State) (x : BitVec 16) (c : Nat) (r : Rec) : State :=
    ((t.queueSummary ⟨x, none, true, none, c, some (t.recSeq r)⟩).logRec r).permEvent x
  let s2 := dies.foldl (fun t x => put t x 2 (t.mkRetired 7 x 0 r.retries 2 0)) (put s1 u cause r)
  let s3 := (u :: dies).foldl State.retiredOff s2
  if u.toNat / 4096 = 8 then s3.bridgeLost (u.toNat % 4096) else s3

/-- A permanent fault (R439, R440, R445): a unit in TESTING returns to RETIRED (R451); a unit out of service is left; else the unit retires. -/
def State.permanent (s : State) (kind : Nat) (u : BitVec 16) (sub retries : Nat) (addr : Word) : State :=
  if s.testing u then s.testFail u 1 (s.mkRetired kind u sub retries 1 addr)
  else if s.outOfService u then s
  else
    let v := retiredUnit u
    let cause := if kind = 6 then 3 else 1
    s.retireWith v cause (s.mkRetired kind v sub retries cause addr)

/-- A report of a kind with retries (R437, R440): k retries fail before one that succeeds, which is too many from the kind's count on. -/
def State.faultOrRetry (s : State) (kind : Nat) (u : BitVec 16) (sub k : Nat) (addr : Word) : State :=
  let n := s.retryCount kind
  if k < n then
    s.logTransient { dtb := s.tb.master, seq := 0, kind := kind, cls := 1, retries := k + 1, cause := 0, unit := u,
                     sub := BitVec.ofNat 16 sub, ini := 0, addr := addr, detail := [] }
  else s.permanent kind u sub n addr

end Sys2Proof.Machine
end

