-- ==== Sys2Proof/Machine/TimeBaseOps.lean ====
section
/-! DEFINITION. Machine/TimeBaseOps.lean: the DTB, the RTC and the alarms (02_handshake_timing.md). -/
namespace Sys2Proof.Machine

def State.setCopy (s : State) (k : Nat) (v : Word) : State :=
  s.withTb { s.tb with copy := tabPut wordZero k v s.tb.copy }

/-- floor(r × 390,625 / 128) modulo 2^64 (R44, R45). -/
def rtcTicks (r : BitVec 48) : Word := BitVec.ofNat 64 (r.toNat * 390625 / 128)

/-- TBASE_OFFSET and TBASE_MARK, kept in the Insole header (R44, R47, R92). -/
def insOffset : Nat := 0x28000010
def insMark : Nat := 0x28000018

/-- An RTC tick has just come, of XTAL32's rising edge or derived from LPRC (R35, R44): in this DTB tick the RTC has advanced. -/
def State.atXtal (s : State) : Bool :=
  match s.tb.lprc with
  | some k => k == 0
  | none => s.tb.quiet.isNone && decide (s.tb.rtcFrac < 128)

/-- The capture of R44: t − floor(r × 390,625 / 128) and t are stored in Insole. -/
def State.captureDtb (s : State) : State :=
  let t := s.copy 0
  (s.putDword insOffset (t - rtcTicks s.tb.rtc)).putDword insMark t

/-- Load the master and the Heel's copy, and set ALIGNED (R45, R620). -/
def State.loadMaster (s : State) (v : Word) : State :=
  ((s.withTb { s.tb with master := v }).setCopy 0 v).putBit R.TBASE_STATUS 0 true

/-- The value DTB_ALIGN loads, and which of COLD (1) and KEPT (6) it sets (R45, R46, R620). -/
def State.alignValue (s : State) : Word × Option Nat :=
  let sum := rtcTicks s.tb.rtc + s.dword insOffset
  let mark := s.dword insMark + 110000000
  if s.sup.heelAlone then (if s.tb.master.toNat < sum.toNat then sum else s.tb.master, none)
  else if s.sup.thaw then (sum, none)
  else if s.sup.freshInsole then (rtcTicks s.tb.rtc, some 1)
  else (if sum.toNat < mark.toNat then mark else sum, some 6)

/-- DTB ticks without an XTAL32 edge after which it is declared lost: 4 ms (R35). -/
def xtalGap : Nat := 400000

/-- n LPRC periods add 1.024 RTC ticks each, the fraction carried (R35). -/
def State.addLprc (s : State) (n : Nat) : State :=
  let f := s.tb.rtcFrac + n * 400000
  s.withTb { s.tb with rtc := s.tb.rtc + BitVec.ofNat 48 (f / 390625), rtcFrac := f % 390625 }

/-- DTB ticks of an LPRC period of 32 kHz; its ±5% are the reference's error (notes/assumptions/27.md). -/
def lprcPeriod : Nat := 3125

/-- XTAL32 gives no more edges: the last came when the RTC last advanced (R35). -/
def State.xtalStop (s : State) : State := s.withTb { s.tb with quiet := some (s.tb.rtcFrac / 128), rtcFrac := 0 }

/-- The declaration of an XTAL32 loss: the RTC is derived from LPRC from here on, with the ticks of the n LPRC periods since the last edge added (R35). -/
def State.xtalLost (s : State) (n : Nat) : State :=
  ((s.withTb { s.tb with xtal := false, quiet := none, lprc := some 0 }).addLprc n).putBit R.TBASE_STATUS 4 true

/-- What a DTB tick's time does to the RTC: it is held at zero in an always-on power-on reset, stands while XTAL32 gives no edges, is derived from LPRC after a loss, and
else keeps its exact ratio of 128/390,625 (R35, R44, R70). -/
def State.rtcTick (s : State) : State :=
  if s.sup.aonHeld then s
  else match s.tb.lprc, s.tb.quiet with
    | some k, _ => if k + 1 < lprcPeriod then s.withTb { s.tb with lprc := some (k + 1) } else (s.withTb { s.tb with lprc := some 0 }).addLprc 1
    | none, some q => s.withTb { s.tb with quiet := some (q + 1) }
    | none, none =>
      let f := s.tb.rtcFrac + 128
      s.withTb { s.tb with rtc := s.tb.rtc + BitVec.ofNat 48 (f / 390625), rtcFrac := f % 390625 }

/-- One DTB tick: the master, while the Sole is out of reset, every copy that is not held and the body count, which has the same source (R33), count; the RTC runs beside
them (R40, R44, R620). -/
def State.tick (s : State) : State :=
  let s1 := s.rtcTick
  if s1.tb.ticking then
    let m := if s1.sup.soleHeld then s1.tb.master else s1.tb.master + 1
    let s2 := s1.withTb { s1.tb with master := m, body := s1.tb.body + 1, sync := if s1.sup.soleHeld then s1.tb.sync else s1.tb.sync + 1 }
    let s3 := s2.each (fun t k => if t.tb.hold.contains k then t else t.setCopy k (t.copy k + 1)) (List.range 9)
    s3.withTb { s3.tb with hold := s3.tb.hold.filter (fun k => decide (m.toNat < (s3.copy k).toNat)) }
  else s1

/-- Ticks from one sync message to the next (R40). -/
def syncPeriod : Nat := 65536

/-- A sync message is due: the master, out of reset, has counted its period (R40). -/
def State.syncDue (s : State) : Bool := !s.sup.soleHeld && decide (syncPeriod ≤ s.tb.sync)

/-- A sync message reaches one copy (R40, R41, R43): the first after power-up loads it; a copy that differs is corrected, counted, and
beyond 4 ticks reported; a copy still held by an earlier correction is not corrected again. DETAIL word 0 of the SYNC record, for which the spec gives no
code, is the size of the correction in ticks (DESIGN CHOICE, notes/assumptions/96.md). -/
def State.syncCopy (s : State) (k : Nat) : State :=
  let m := s.tb.master
  let c := s.copy k
  let die := if k < 5 then k - 1 else k - 5
  if k ≠ 0 ∧ !s.diePowered die then s
  else if k ≠ 0 ∧ tabGet boolFalse s.tb.loaded k = false then
    (s.setCopy k m).withTb { (s.setCopy k m).tb with loaded := tabPut boolFalse k true s.tb.loaded }
  else if c = m ∨ s.tb.hold.contains k then s
  else
    let s1 := if c.toNat < m.toNat then s.setCopy k m
      else s.withTb { s.tb with hold := if s.tb.hold.contains k then s.tb.hold else s.tb.hold ++ [k] }
    let s2 := if k = 0 then s1.advSat R.TBASE_SYNC_HEEL F.TBASE_SYNC_HEEL.HEEL 1
      else s1.advSat R.TBASE_SYNC_ERR ⟨8 * die, 8⟩ 1
    let size := if c.toNat < m.toNat then m.toNat - c.toNat else c.toNat - m.toNat
    if 4 < size then
      (s2.putBit R.TBASE_STATUS 5 true).event 0x20 (if k = 0 then 0 else unitCode 1 die) 0 0 [BitVec.ofNat 32 size]
    else s2

/-- No count yet. -/
def noWord (_ : Nat) : Option Word := none

/-- An alarm fires (R49): PEND, and MISSED where it was pending; the signal; in periodic mode the period is added. Its interrupt
line is asserted while PEND is set. It fires once in a tick of the master. In periodic mode TBASE_ALM_LOn shows the new compare value only where it showed the old one, so an LO write that waits for
its HI stands; HI always shows it (DESIGN CHOICE, notes/assumptions/97.md). An alarm's counter is local: a handle with REMOTE set is malformed (R265). -/
def State.fireAlarm (s : State) (n : Nat) : State :=
  let cfg := s.rd (R.TBASE_ALM_CFG n)
  let s0 := s.withTb { s.tb with almAt := tabPut noWord n (some s.tb.master) s.tb.almAt }
  let s1 := if s.bit R.TBASE_ALM_PEND n then s0.putBit R.TBASE_ALM_PEND (8 + n) true else s0.putBit R.TBASE_ALM_PEND n true
  let s2 := if cfg.getLsbD 2 then s1.alarmSignal (s1.rd (R.TBASE_ALM_SIG n)) else s1
  let per := fget cfg F.TBASE_ALM_CFG.PERIOD
  if cfg.getLsbD 3 && per != 0 then
    let old := tabGet wordZero s2.tb.almCmp n
    let new := old + BitVec.ofNat 64 per
    let s3 := s2.withTb { s2.tb with almCmp := tabPut wordZero n new s2.tb.almCmp }
    let s4 := if s3.rd (R.TBASE_ALM_LO n) == old.setWidth 32 then s3.wr (R.TBASE_ALM_LO n) (new.setWidth 32) else s3
    s4.wr (R.TBASE_ALM_HI n) ((new >>> 32).setWidth 32)
  else s2.withTb { s2.tb with almArm := tabPut boolTrue n false s2.tb.almArm }

/-- Alarm n is enabled, has not fired at its compare value nor in this tick, and the master has reached it (R49). -/
def State.alarmDue (s : State) (n : Nat) : Bool :=
  s.bit (R.TBASE_ALM_CFG n) 0 && tabGet boolTrue s.tb.almArm n && tabGet noWord s.tb.almAt n != some s.tb.master &&
    decide ((tabGet wordZero s.tb.almCmp n).toNat ≤ s.tb.master.toNat)

/-- A write of TBASE_ALM_HIn commits both words; the alarm fires at once if that value is already reached (R49). -/
def State.commitAlarm (s : State) (n : Nat) (v : W32) : State :=
  let s1 := s.wr (R.TBASE_ALM_HI n) v
  let s2 := s1.withTb { s1.tb with
    almCmp := tabPut wordZero n (v ++ s1.rd (R.TBASE_ALM_LO n)) s1.tb.almCmp
    almArm := tabPut boolTrue n true s1.tb.almArm
    almAt := tabPut noWord n none s1.tb.almAt }
  if s2.alarmDue n then s2.fireAlarm n else s2

/-- A clear of REFLOSS returns the tick to REFCLK, one of RTC_LPRC the RTC to XTAL32, while the monitor sees that reference;
otherwise it is ignored (R35). SYNC_FAULT clears as any W1C bit does. -/
def State.clearTbStatus (s : State) (v : W32) : State :=
  let s1 := if v.getLsbD 3 && s.tb.refclk then (s.putBit R.TBASE_STATUS 3 false).putBit R.TBASE_STATUS 2 false else s
  let s2 := if v.getLsbD 4 && s.tb.xtal then (s1.withTb { s1.tb with lprc := none }).putBit R.TBASE_STATUS 4 false else s1
  if v.getLsbD 5 then s2.putBit R.TBASE_STATUS 5 false else s2

end Sys2Proof.Machine
end

