-- ==== Sys2Proof/Machine/NetOps.lean ====
section
/-! DEFINITION. Machine/NetOps.lean: source routes, bandwidth windows and Awl probes (09_network.md R225–R247). x names a block's die: 0 the Sole, 1 + d
compute die d. -/
namespace Sys2Proof.Machine

/-- The die code of x. -/
def netDie (x : Nat) : Nat := if x = 0 then 0 else 7 + x

/-- The DTB on a die. -/
def State.dieDtb (s : State) (c : Nat) : Word := if c = 0 then s.tb.master else s.copy (c - 7)

/-! ### Route tables (R225–R228) -/

/-- The router a hop leads to. -/
def hopTo (p : Int × Int) (h : Nat) : Int × Int :=
  if h = 0 then (p.1 + 1, p.2) else if h = 1 then (p.1 - 1, p.2) else if h = 2 then (p.1, p.2 + 1) else (p.1, p.2 - 1)

def inMesh (p : Int × Int) : Bool := decide (0 ≤ p.1) && decide (p.1 < 6) && decide (0 ≤ p.2) && decide (p.2 < 6)

/-- Whether every router of a path from p lies in the mesh. -/
def pathInMesh (p : Int × Int) : List Nat → Bool
  | [] => true
  | h :: hs => inMesh (hopTo p h) && pathInMesh (hopTo p h) hs

/-- Whether some hop after the first satisfies r of the one before it and itself. -/
def hopPair (r : Nat → Nat → Bool) : List Nat → Bool
  | a :: b :: hs => r a b || hopPair r (b :: hs)
  | _ => false

/-- The first check of R227 that an entry fails, by its code; 0 where none does. -/
def State.routeCheck (s : State) (d j n : Nat) (dest route : W32) : Nat :=
  let hops := routeHops route
  let dst := fget dest F.NOC_RT_DEST.DEST
  let end_ := hops.foldl hopTo (niRouter j)
  if 14 < fget route F.NOC_RT_ROUTE.LEN then 5
  else if !pathInMesh (niRouter j) hops then 3
  else if hopPair (fun a b => (a == 0 && b == 1) || (a == 1 && b == 0) || (a == 2 && b == 3) || (a == 3 && b == 2)) hops then 2
  else if hopPair (fun a b => b == 1 && a != 1) hops then 1
  else if end_.2 * 6 + end_.1 ≠ (dst : Int) then 4
  else if (List.range 8).any (fun m => m != n && s.bit (R.NOC_RT_DEST d j m) 31 && s.fld (R.NOC_RT_DEST d j m) F.NOC_RT_DEST.DEST == dst) then 6
  else 0

/-- A refusal in NOC_RT_STAT. -/
def State.routeRefuse (s : State) (d j n code : Nat) : State :=
  s.wr (R.NOC_RT_STAT (nocBase (8 + d))) (BitVec.ofNat 32 (code + 16 * j + 512 * n + 2 ^ 31))

/-- A write in a route table (R227, R228). -/
def State.routeWrite (s : State) (a : Nat) (v : W32) : Option State :=
  let o := (a - 0x080000000000) % 0x10000000 - 0x20000
  let d := (a - 0x080000000000) / 0x10000000
  let j := o / 0x100
  let n := o % 0x100 / 0x10
  let dest := R.NOC_RT_DEST d j n
  let on := s.bit dest 31
  if 17 ≤ j then none
  else if a = dest then
    let v' := v &&& 0x8000003F
    if on then
      let same := v.setWidth 6 == (s.rd dest).setWidth 6
      let t := if v.getLsbD 31 then s else s.putBit dest 31 false
      some (if same then t else t.routeRefuse d j n 7)
    else if v.getLsbD 31 then
      let code := s.routeCheck d j n v (s.rd (R.NOC_RT_ROUTE d j n))
      if code = 0 then some (s.wr dest v') else some ((s.wr dest (v &&& 0x3F)).routeRefuse d j n code)
    else some (s.wr dest v')
  else if a = R.NOC_RT_ROUTE d j n then
    if on then some (s.routeRefuse d j n 7) else some (s.wr a v)
  else none

/-! ### Bandwidth windows (R235, R238) -/

def bwcLen0 (_ : Nat) : W32 := 100

/-- W, the window in force on a die, in ticks. -/
def State.bwcWindow (s : State) (c : Nat) : Nat :=
  let n := (tabGet bwcLen0 s.bwcLen c).toNat % 65536
  10 * (if n = 0 then 1 else n)

/-- A window boundary: counts and demotions are copied and cleared; the written length comes into force. -/
def State.bwcBoundary (s : State) (c : Nat) : State :=
  let b := bwcBase c
  let s1 := s.each (fun t i =>
    let cls := i / 4
    let r := i % 4
    let past := t.bit (if r < 2 then R.BWC_OVER_LO b else R.BWC_OVER_HI b) (16 * (r % 2) + cls)
    let n := t.fld (R.BWC_COUNT b cls r) F.BWC_COUNT.LINES
    (t.wr (R.BWC_LAST b cls r) (BitVec.ofNat 32 (n + past.toNat * 2 ^ 31))).wr (R.BWC_COUNT b cls r) 0) (List.range 64)
  let s2 := (s1.wr (R.BWC_OVER_LO b) 0).wr (R.BWC_OVER_HI b) 0
  s2.withBwcLen (tabPut bwcLen0 c (s2.rd (R.BWC_WINDOW b) &&& 0xFFFF) s2.bwcLen)

/-! ### Awl probes (R239–R245) -/

/-- A block's die is powered and out of reset. -/
def State.netUp (s : State) (x : Nat) : Bool := if x = 0 then !s.sup.soleHeld else s.diePowered (x - 1)

/-- Probes of a die. -/
def awlCount (x : Nat) : Nat := if x = 0 then 8 else 16

/-- A packet that passes a port matches probe p (R241). -/
def State.awlHits (s : State) (x p : Nat) (point : BitVec 6) (port : BitVec 3) (dir : Bool) (k : Pkt) : Bool :=
  let b := awlBase (netDie x)
  let cfg := s.rd (R.AWL_CFG b p)
  let ini := s.rd (R.AWL_INIT b p)
  let early := fget cfg F.AWL_CFG.EARLY
  cfg.getLsbD 0 && fget cfg F.AWL_CFG.POINT == point.toNat && (x == 0 || fget cfg F.AWL_CFG.PORT == port.toNat) && cfg.getLsbD 2 == dir &&
  s.bit (R.AWL_KIND b p) k.kind.toNat && s.bit (R.AWL_KIND b p) (16 + k.cls.toNat) && cfg.getLsbD (18 + k.vc.toNat) &&
  ((k.ini ^^^ ini.setWidth 16) &&& (ini >>> 16).setWidth 16) == 0 &&
  (early == 0 || early == 3 || (early == 1 && k.early) || (early == 2 && !k.early)) &&
  (!cfg.getLsbD 3 ||
    (decide ((s.rd2 (R.AWL_ALO_LO b p) (R.AWL_ALO_HI b p)).toNat ≤ k.addr.toNat) &&
     decide (k.addr.toNat ≤ (s.rd2 (R.AWL_AHI_LO b p) (R.AWL_AHI_HI b p)).toNat)))

/-- The counts of a match (R242). -/
def State.awlCountUp (s : State) (x p : Nat) (len : Nat) : State :=
  let b := awlBase (netDie x)
  let n := (s.rd (R.AWL_PKT b p)).toNat + 1
  let hi := s.rd (R.AWL_BYTES_HI b p)
  let y := hi.toNat % 65536 * 2 ^ 32 + (s.rd (R.AWL_BYTES_LO b p)).toNat + len
  let y' := Nat.min y (2 ^ 48 - 1)
  let past := decide (2 ^ 32 - 1 ≤ n) || decide (2 ^ 48 - 1 ≤ y)
  let s1 := s.wr (R.AWL_PKT b p) (BitVec.ofNat 32 (Nat.min n (2 ^ 32 - 1)))
  let s2 := s1.wr (R.AWL_BYTES_LO b p) (BitVec.ofNat 32 y')
  s2.wr (R.AWL_BYTES_HI b p) (BitVec.ofNat 32 (y' / 2 ^ 32 + (past || hi.getLsbD 31).toNat * 2 ^ 31))

/-- The record of a match (R243). -/
def State.awlRecord (s : State) (x p : Nat) (k : Pkt) : List Byte :=
  let c := netDie x
  leBytes 8 (s.dieDtb c).toNat ++ leBytes 2 k.ini.toNat ++ leBytes 1 (k.cls.toNat + 16 * k.vc.toNat + 64 * k.prio.toNat) ++
  leBytes 1 (k.kind.toNat + 16 * k.early.toNat + 32 * k.routed.toNat + 64 * k.demoted.toNat) ++ leBytes 6 k.addr.toNat ++ leBytes 2 k.len.toNat ++
  leBytes 1 p ++ leBytes 1 c ++ leBytes 2 k.tag.toNat ++ leBytes 8 0

/-- A trigger's actions (R244). IRQ, as AWL_TRIG holds it at the firing, asserts the line until FIRED is cleared. -/
def State.awlFire (s : State) (x p : Nat) : State :=
  let b := awlBase (netDie x)
  let t := s.rd (R.AWL_TRIG b p)
  let held := s.bit (R.AWL_STAT b) p && s.noc.irq.contains (16 * x + p)
  let others := s.noc.irq.filter (· != 16 * x + p)
  let s1 := ((s.putBit (R.AWL_STAT b) p true).withAwlSpent (s.awlSpent ++ [16 * x + p])).withNoc
    { s.noc with irq := if t.getLsbD 24 || held then others ++ [16 * x + p] else others }
  let s2 := if t.getLsbD 25 then s1.putBit (R.AWL_TRACE b) 0 true else s1
  let s3 := if t.getLsbD 26 then s2.putBit (R.AWL_TRACE b) 0 false else s2
  let s4 := if t.getLsbD 27 then s3.putBit (R.AWL_STAT b) 16 true else s3
  s4.each (fun u q => if q < awlCount x then u.putBit (R.AWL_CFG b q) 0 true else u) (bitsOf (s4.rd (R.AWL_ARM b p)).toNat 16)

/-- The trigger of probe p is armed and its count has reached THRESH. -/
def State.awlDue (s : State) (x p : Nat) : Bool :=
  let b := awlBase (netDie x)
  let n := s.fld (R.AWL_TRIG b p) F.AWL_TRIG.THRESH
  s.bit (R.AWL_TRIG b p) 31 && !s.awlSpent.contains (16 * x + p) && decide ((if n = 0 then 1 else n) ≤ (s.rd (R.AWL_PKT b p)).toNat)

/-- Fire every trigger that is due, in ascending probe number; none while the die's probes are frozen. -/
def State.awlTriggers (s : State) (x : Nat) : State :=
  if s.bit (R.AWL_STAT (awlBase (netDie x))) 16 then s
  else s.each (fun t p => if s.awlDue x p then t.awlFire x p else t) (List.range (awlCount x))

/-- A packet passes a port: every matching probe counts it unless the die's probes are frozen, and may send a record; then triggers fire
(R242–R244; FREEZE stops the counting alone). -/
def State.awlPass (s : State) (x : Nat) (point : BitVec 6) (port : BitVec 3) (dir : Bool) (k : Pkt) : State :=
  let b := awlBase (netDie x)
  let frozen := s.bit (R.AWL_STAT b) 16
  let hits := (List.range (awlCount x)).filter (fun p => s.awlHits x p point port dir k)
  let s1 := s.each (fun t p =>
    let u := if frozen then t else t.awlCountUp x p k.len.toNat
    if s.bit (R.AWL_CFG b p) 1 && s.bit (R.AWL_TRACE b) 0 then u.withTraceQ (u.traceQ ++ [s.awlRecord x p k]) else u) hits
  s1.awlTriggers x

/-- A packet of the package's own passes the ports on its way, on dies that are powered (R239–R244). -/
def State.passPorts (s : State) (t : Transit) : State :=
  t.ports.foldl (fun u p => if u.netUp p.die then u.awlPass p.die (BitVec.ofNat 6 p.point) (BitVec.ofNat 3 p.port) p.dir (t.hdr.pkt p.vc) else u) s

/-- What the network does in a tick: packets under way pass their ports, and requests arrive in their targets' queues (notes/assumptions/39.md, 106.md). -/
def State.nocTick (s : State) : State :=
  let t := s.noc.passing.foldl State.passPorts (s.withNoc { s.noc with passing := [] })
  t.withNet (t.net.map (fun n => { n with arrived := true }))

/-- The die x and the probe and word offset of an Awl register. -/
def awlPlace (a : Nat) : Nat × Nat :=
  let x := if a < 0x080000000000 then 0 else 1 + (a - 0x080000000000) / 0x10000000
  (x, a - awlBase (netDie x))

/-- A write of an Awl register (R244, R245). -/
def State.awlWrite (s : State) (a : Nat) (v : W32) (acc : State → Nat → W32 → State) : Option State :=
  let q := awlPlace a
  let b := awlBase (netDie q.1)
  let o := (q.2 - 0x100) % 0x40
  let p := (q.2 - 0x100) / 0x40
  if q.2 = 0 then some ((acc s a v).awlTriggers q.1)
  else if q.2 < 0x100 then none
  else
    let on := s.bit (R.AWL_CFG b p) 0
    if o = 0 then (if on && v.getLsbD 0 then some (s.putBit a 1 (v.getLsbD 1)) else none)
    else if o = 0x28 then
      let t := acc s a v
      some ((t.withAwlSpent (t.awlSpent.filter (· != 16 * q.1 + p))).awlTriggers q.1)
    else if o = 0x1C then some ((acc s a v).awlTriggers q.1)
    else if on && decide (o < 0x30) then some (s.putBit (R.AWL_STAT b) 17 true)
    else none

/-! ### Resends (R231, R246) -/

/-- A bridge's resend counts: the Sole's field for its bridges, each compute die's for its own (NOC_WELT_RETRY). -/
def State.weltRetry (s : State) (b n : Nat) : State :=
  let at_ (t : State) (c f : Nat) : State := t.advSat (R.NOC_WELT_RETRY (nocBase c)) ⟨8 * f, 8⟩ n
  if b < 4 then at_ (at_ s 0 b) (8 + b) 0
  else if b < 8 then at_ (at_ s (8 + (b - 4)) 2) (8 + (b - 3) % 4) 1
  else at_ s (8 + (b - 8)) 3

end Sys2Proof.Machine
end

