-- ==== Sys2Proof/Machine/Reports.lean ====
section
/-! DEFINITION. Machine/Reports.lean: the Heel's reports to the fault manager, which cross the Sole ↔ Heel link (17_faults.md R437, 03_supplies_reset.md R76). -/
namespace Sys2Proof.Machine

/-- The Heel's reports reach the fault manager: it is out of reset, and the Sole ↔ Heel link is in service. -/
def State.heelUp (s : State) : Bool := !s.sup.soleHeld && s.bridgeLive 16

/-- The fault manager takes a report of the Heel (R437, R440, R444). An event's record carries its stamp, a fault's the DTB at which it is classified. -/
def State.takeReport (s : State) (x : HeelReport) : State :=
  let r := x.item
  match x.how with
  | .event => s.logRec { r with dtb := x.stamp.getD s.tb.master }
  | .transient => if s.isRetired r.unit then s else s.logTransient { r with dtb := s.tb.master }
  | .permanent => s.permanent r.kind r.unit r.sub.toNat r.retries r.addr
  | .counted => s.faultOrRetry r.kind r.unit r.sub.toNat r.retries r.addr

/-- A unit of the Heel reports (R437). A report that cannot cross the link waits (DESIGN CHOICE, notes/assumptions/120.md): in a Heel main reset for the first DTB value after
the release, which stamps it (R76). -/
def State.heelReport (s : State) (how : ReportAs) (r : Rec) : State :=
  if s.heelUp && s.sup.late.isEmpty then s.takeReport ⟨how, r, some r.dtb⟩
  else
    let stamp := if s.sup.heelHeld || !s.bit R.TBASE_STATUS 0 then none else some (s.copy 0)
    s.withSup { s.sup with late := s.sup.late ++ [⟨how, r, stamp⟩] }

/-- A body unit reports a fault of kind BODY: k repeats fail before one that succeeds (R437, R439). -/
def State.bodyReport (s : State) (u : BitVec 16) (k : Nat) : State :=
  s.heelReport .counted { s.mkEvent 0xB u 0 0 [] with retries := k }

/-- An event of the Heel's monitors or of its boot ROM, with DETAIL word 0 (R76, R130). -/
def State.monitorEvent (s : State) (kind code : Nat) : State :=
  s.heelReport .event (s.mkEvent kind 0 0 0 [BitVec.ofNat 32 code])

/-- The reports that waited go out in order, once the link is back and each has its stamp. -/
def State.flushReports (s : State) : State :=
  if s.heelUp && s.sup.late.all (fun x => x.stamp.isSome) then
    s.sup.late.foldl State.takeReport (s.withSup { s.sup with late := [] })
  else s

/-- The DTB has its first value after a Heel main release: the reports of that reset take it as their stamp (R76), and go out where the link is up. -/
def State.stampLate (s : State) : State :=
  (s.withSup { s.sup with late := s.sup.late.map (fun x => { x with stamp := some (x.stamp.getD (s.copy 0)) }) }).flushReports

/-- REFCLK is declared lost (R35, R621): the fallback PLL drives the tick, SRC and REFLOSS set, and a REFCLK event is raised. -/
def State.refclkLoss (s : State) : State :=
  let s1 := s.withTb { s.tb with refclk := false, ticking := true }
  ((s1.putBit R.TBASE_STATUS 2 true).putBit R.TBASE_STATUS 3 true).monitorEvent 0x29 0

end Sys2Proof.Machine
end

