-- ==== Sys2Proof/Machine/Summary.lean ====
section
/-! DEFINITION. Machine/Summary.lean: the Insole fault summary (17_faults.md R454–R456): where each unit's bit lies, the units it
records as retired, and the write of one pending update. -/
namespace Sys2Proof.Machine

/-- First byte of the summary (R92, R454). -/
def sumBase : Nat := 0x28002400

/-- Bit number, from the summary's first byte, of the bitmap bit of a unit code; none for a unit the summary has no bit for. -/
def sumBit (u : BitVec 16) : Option Nat :=
  let ty := u.toNat / 4096
  let ix := u.toNat % 4096
  match ty with
  | 1 => some (8 * 0x10 + ix)
  | 2 => some (8 * 0x10 + 4 + ix)
  | 3 => some (8 * 0x14 + ix)
  | 4 => some (8 * 0x20 + ix)
  | 5 => some (8 * 0x40 + ix)
  | 6 => some (8 * 0x80 + ix)
  | 7 => some (8 * 0x90 + ix)
  | 8 => some (8 * 0x18 + ix)
  | 9 => some (8 * 0x1C + ix)
  | 0xC => if ix < 0x40 then some (8 * 0xB4 + ix) else if ix < 0x48 then some (8 * 0xB0 + 20 + (ix - 0x40)) else some (8 * 0xB0 + 28 + (ix - 0x48))
  | 0xD => some (8 * 0xB0 + ix)
  | 0xE => some (8 * 0xB0 + 16 + ix)
  | _ => none

/-- Bit of a Lace lane, by 4·n + i. -/
def sumLaneBit (k : Nat) : Nat := 8 * 0x98 + k

/-- Bit of a spare in use, by 4·g + q. -/
def sumSpareBit (k : Nat) : Nat := 8 * 0x30 + k

/-- A bit of the summary. -/
def State.sumGet (s : State) (b : Nat) : Bool := (s.byte (sumBase + b / 8)).getLsbD (b % 8)

/-- Put a bit of the summary: a 32-bit write, which stores the word with fresh check bits (R95). -/
def State.sumPut (s : State) (b : Nat) (v : Bool) : State :=
  let a := sumBase + b / 8
  let m : Byte := BitVec.ofNat 8 (2 ^ (b % 8))
  (s.putByte a (if v then s.byte a ||| m else s.byte a &&& ~~~m)).putLine (a / 4 * 4) .clean

/-- The summary's MAGIC matches (R454, R455). -/
def State.sumValid (s : State) : Bool := s.word sumBase == 0x464C5453

/-- The summary in its initialised form (R455). -/
def State.sumInit (s : State) : State := (s.clearMem sumBase (sumBase + 0xC00)).putWord sumBase 0x464C5453

/-- At a release, a summary whose MAGIC does not match is rewritten in its initialised form, and records nothing retired (R455). -/
def State.sumReady (s : State) : State := if s.sumValid then s else s.sumInit

/-- Unit codes of a type, n of them from an offset. -/
def unitsOf (ty from_ n : Nat) : List (BitVec 16) := (List.range n).map (fun i => unitCode ty (from_ + i))

/-- Units of the Heel. -/
def heelUnits : List (BitVec 16) := unitsOf 0xC 0 40 ++ unitsOf 0xC 0x40 12 ++ unitsOf 0xD 0 16 ++ unitsOf 0xE 0 4

/-- Dies and bridges, whose state the Sole's registers report. -/
def soleUnits : List (BitVec 16) := unitsOf 1 0 4 ++ unitsOf 2 0 2 ++ unitsOf 8 0 12 ++ [unitCode 8 16]

/-- Units that a compute die carries. -/
def dieUnits (d : Nat) : List (BitVec 16) :=
  unitsOf 3 (8 * d) 8 ++ unitsOf 4 (32 * d) 32 ++ unitsOf 5 (128 * d) 128 ++ unitsOf 7 (12 * d) 12 ++ unitsOf 9 (8 * d) 8

/-- Units that a Larder die carries. -/
def larderUnits (l : Nat) : List (BitVec 16) := unitsOf 6 (64 * l) 64

/-- Put one 4-bit CAUSE nibble of the summary. -/
def State.sumCause (s : State) (u : BitVec 16) (c : Nat) : State :=
  let ty := u.toNat / 4096
  if ty = 1 ∨ ty = 2 then
    let b := if ty = 1 then u.toNat % 4096 else 4 + u.toNat % 4096
    let a := sumBase + 0xC0 + b / 2
    let old := (s.byte a).toNat
    let keep := if b % 2 = 0 then old / 16 * 16 else old % 16
    (s.putByte a (BitVec.ofNat 8 (keep + c * 16 ^ (b % 2)))).putLine (a / 4 * 4) .clean
  else s

/-- One pending update (R455): the bitmap bits and spare positions, then the record slot, then the count and NEXT. -/
def State.sumWrite (s : State) (x : SumUpd) : State :=
  let s1 := match x.lane with
    | some k => s.sumPut (sumLaneBit k) x.set
    | none => match x.spare with
      | some _ => s
      | none => match sumBit x.unit with
        | some b => (s.sumPut b x.set).sumCause x.unit (if x.set then x.cause else 0)
        | none => s
  let s2 := match x.spare with
    | some pos =>
      let k := x.unit.toNat % 4096
      let a := sumBase + 0xBC0 + k / 2
      let old := (s1.byte a).toNat
      let keep := if k % 2 = 0 then old / 16 * 16 else old % 16
      ((s1.sumPut (sumSpareBit k) true).putByte a (BitVec.ofNat 8 (keep + pos % 16 * 16 ^ (k % 2)))).putLine (a / 4 * 4) .clean
    | none => s1
  let s3 := s2.putWord (sumBase + 0xBC) (s2.rd R.CORE_PAIR_STAT)
  match x.record with
  | none => s3
  | some r =>
    let n := (s3.word (sumBase + 8)).toNat % 86
    let s4 := s3.putWords (sumBase + 0x100 + 32 * n) (leWords ((recBytes r).take 32))
    let s5 := if r.cls = 2 ∨ r.cls = 3 then s4.putWord (sumBase + 4) (s4.word (sumBase + 4) + 1) else s4
    s5.putWord (sumBase + 8) (BitVec.ofNat 32 ((n + 1) % 86))

/-- Whether a unit is retired according to the summary. -/
def State.sumRetired (s : State) (u : BitVec 16) : Bool :=
  s.sumValid && (match sumBit u with
    | some b => s.sumGet b
    | none => false)

/-- The state as it would be with every pending update of the summary made (R456): what the summary records once they have reached it. -/
def State.sumAhead (s : State) : State := s.flt.summary.foldl State.sumWrite s

/-- Take from the summary, its pending updates among it, which of a list of units are retired (R22, R455); CAUSE comes from the nibbles of R454, where a die has one, and is FAULT
where it is zero. -/
def State.loadRetired (s : State) (us : List (BitVec 16)) : State :=
  let r := us.filter s.sumAhead.sumRetired
  s.withFlt { s.flt with
    retired := s.flt.retired.filter (fun u => !us.contains u) ++ r,
    causes := r.foldl (fun t u =>
      let ty := u.toNat / 4096
      let b := if ty = 1 then u.toNat % 4096 else 4 + u.toNat % 4096
      let c := if ty = 1 ∨ ty = 2 then (s.sumAhead.byte (sumBase + 0xC0 + b / 2)).toNat / 16 ^ (b % 2) % 16 else 1
      tabPut natZero u.toNat (if c = 0 then 1 else c) t) s.flt.causes }

/-- A unit of the Heel returns to service: an output stage OFF and UNTESTED, a message-bus controller in INIT (R451, R465). -/
def State.heelUnitAdmit (s : State) (u : BitVec 16) : State :=
  let ix := u.toNat % 4096
  match u.toNat / 4096 with
  | 0xC => s.stageAdmit (unitStage ix)
  | 0xD => if ix < 8 then s.mbcSetInit ix else s
  | _ => s

/-- Units of the Heel that the summary does not record as retired, though they were, return to service: their held summary writes were lost (R445, R456; DESIGN CHOICE,
notes/assumptions/120.md). -/
def State.heelBack (s : State) (was : List (BitVec 16)) : State :=
  (heelUnits.filter (fun u => was.contains u && !s.isRetired u)).foldl State.heelUnitAdmit s

/-- Take from the summary which quarters of die d use their spare, and in which position (R455). -/
def State.loadSpares (s : State) (d : Nat) : State :=
  let m := s.sumAhead
  s.each (fun t k =>
    let b := (m.byte (sumBase + 0xBC0 + k / 2)).toNat / 16 ^ (k % 2) % 16
    t.withEng { t.eng with spares := tabPut natZero k (if m.sumValid && m.sumGet (sumSpareBit k) then b + 1 else 0) t.eng.spares })
    ((List.range 32).map (32 * d + ·))

/-- Take from the summary which lanes of die d's links are retired (R455). -/
def State.loadLanes (s : State) (d : Nat) : State :=
  s.withFlt { s.flt with lanesRetired := s.flt.lanesRetired.filter (fun k => k / 48 != d) ++
    ((List.range 48).map (48 * d + ·)).filter (fun k => s.sumAhead.sumValid && s.sumAhead.sumGet (sumLaneBit k)) }

/-- Make every pending update in order (R456). -/
def State.sumFlush (s : State) : State :=
  let t := s.flt.summary.foldl State.sumWrite (s.withFlt { s.flt with summary := [] })
  ((t.putBit R.FLT_STAT 1 false).putBit R.FLT_HEVT 1 false)

end Sys2Proof.Machine
end

