-- ==== Sys2Proof/Machine/PowerOps.lean ====
section
/-! DEFINITION. Machine/PowerOps.lean: rails, domains, reset scopes, releases, the power states, Insole and the Thaw
(03_supplies_reset.md, 04_seasons.md). -/
namespace Sys2Proof.Machine

/-! ### Rails (R52, R58, R63) -/

/-- Key of a rail in the table of rails. -/
def railKey : Rail → Nat
  | .vcc5 => 0
  | .vddioH => 1
  | .vddHeel => 2
  | .vio18 => 3
  | .vddSole => 4
  | .vddLpphy => 5
  | .vddqLp => 6
  | .vddC d => 8 + d.val
  | .vlaceC d => 12 + d.val
  | .vlacehC d => 16 + d.val
  | .viofC d => 20 + d.val
  | .vddL l => 24 + l.val
  | .vppL l => 26 + l.val

/-- Rails before anything is reported of them: the Heel's and the Sole's are in window in State.reset, those of dies that are off are not
(notes/assumptions/3.md). -/
def railDefault (k : Nat) : Bool := decide (k < 7)

def State.railIn (s : State) (k : Nat) : Bool := tabGet railDefault s.sup.railIn k

def State.setRail (s : State) (r : Rail) (b : Bool) : State :=
  s.withSup { s.sup with railIn := tabPut railDefault (railKey r) b s.sup.railIn }

def State.heelRails (s : State) : Bool := s.railIn 0 && s.railIn 1 && s.railIn 2
def State.soleRails (s : State) : Bool := s.railIn 3 && s.railIn 4 && s.railIn 5 && s.railIn 6
def State.phyRails (s : State) (d : Nat) : Bool := s.railIn (12 + d) && s.railIn (16 + d) && s.railIn (20 + d)
def State.larderRails (s : State) (l : Nat) : Bool := s.railIn (24 + l) && s.railIn (26 + l)

/-- The rails of die x, 0–3 compute, 4–5 Larder, are in window. -/
def State.dieRails (s : State) (x : Nat) : Bool := if x < 4 then s.railIn (8 + x) && s.phyRails x else s.larderRails (x - 4)

/-- Bit of a rail's group in PWR_SUP_EVT; the Heel's own rails have the place of PWR_SUP_STAT.HEEL. -/
def railGroup : Rail → Nat
  | .vcc5 | .vddioH | .vddHeel => 3
  | .vio18 | .vddSole | .vddLpphy | .vddqLp => 4
  | .vddC d => 8 + d.val
  | .vlaceC d | .vlacehC d | .viofC d => 12 + d.val
  | .vddL l | .vppL l => 16 + l.val

/-- PWR_SUP_STAT as the monitors report it. -/
def State.supStat (s : State) : W32 :=
  BitVec.ofNat 32 ((!s.sup.brownout).toNat + 2 * s.sup.vbatLow.toNat + 4 * s.sup.vbatOv.toNat + 8 * s.heelRails.toNat + 16 * s.soleRails.toNat +
    256 * bitsWord 4 (fun d => s.railIn (8 + d)) + 4096 * bitsWord 4 s.phyRails + 65536 * bitsWord 2 s.larderRails)

/-- A rail-group event reaches the fault manager (R76, R444); while the Heel main or the Sole domain is in reset it waits. -/
def State.supplyEvent (s : State) (g : Nat) : State :=
  let s1 := if g = 3 then s else s.putBit R.PWR_SUP_EVT g true
  s1.monitorEvent 0x22 (2 ^ g)

/-! ### EN_ pins, dies and power states -/

/-- Compute dies and Larders of the variant, by the number 0–3 or 4 + l. -/
def State.presentDies (s : State) : List Nat :=
  List.range (variantDies s.variant) ++ (List.range (variantLarders s.variant)).map (4 + ·)

/-- Die state by the number 0–3 or 4 + l. -/
def State.anyState (s : State) (x : Nat) : Nat := if x < 4 then s.dieState x else s.larderState (x - 4)
def State.setAnyState (s : State) (x c : Nat) : State := if x < 4 then s.setDieState x c else s.setLarderState (x - 4) c

def State.setInh (s : State) (b : Bool) : State := s.putBit R.PWR_EN 0 b

/-- PWR_STATE codes. -/
def psSummer : Nat := 0
def psAutumn : Nat := 1
def psToSummer : Nat := 2
def psToAutumn : Nat := 3
def psToWinter : Nat := 4
def psThaw : Nat := 5
def State.power (s : State) : Nat := s.fld R.PWR_STATE F.PWR_STATE.STATE
def State.setPower (s : State) (c : Nat) : State := s.setFld R.PWR_STATE F.PWR_STATE.STATE c

/-- BOOT_AGREE of die d: 0 NONE, 1 AGREED, 2 MISMATCH, 3 NOIMG. -/
def State.setAgree (s : State) (d c : Nat) : State := s.setFld R.BOOT_AGREE ⟨4 + 2 * d, 2⟩ c

/-- The compute and Larder dies go off, as one event: states, LIVE_ bits and LIVE_SEQ, their queues, holds of their units, EN_ pins, contents
(R24, R85, R271, R282). -/
def State.diesOff (s0 : State) : State :=
  let s1 := s0.each (fun t x => if t.anyState x = 5 then t else t.setAnyState x 1) s0.presentDies
  let s2 := (s1.syncLive s0).each (fun t x => if x < 4 then t.stopDie x else t) s0.presentDies
  let s3 := s2.revokeHolds (fun o => 8 ≤ o.toNat / 4096 && o.toNat / 4096 < 12)
  let s4 := s3.each (fun t x =>
    let u := t.setEn x false
    if x < 4 then (u.dieOff x).setAgree x 0 else u.larderOff (x - 4)) s3.presentDies
  ((s4.withSup { s4.sup with dieRst := [], scrub := [], hot := [] }).withBoot { s4.boot with dieRom := [] }).wr R.PWR_GATE_STAT 0

/-- The Autumn entry (R77, R85): PWR_STATE reports the transition, which ends with the next DTB tick (notes/assumptions/35.md). -/
def State.autumnEntry (s : State) : State := s.diesOff.setPower psToAutumn

/-- The end of Summer → Autumn (R77). -/
def State.autumnDone (s : State) : State := if s.power = psToAutumn then s.setPower psAutumn else s

/-- A cause met from an accepted Winter request on, which PWR_FORCE shows after the Thaw. -/
def State.noteForced (s : State) (bit : Nat) : State :=
  if s.sup.winter = .none then s else s.withSup { s.sup with forced := s.sup.forced ||| BitVec.ofNat 32 (2 ^ bit) }

/-- A forced Autumn (R89): PWR_FORCE, its COUNT, the event and the entry. During a Winter entry only the cause is recorded. DETAIL word 0 of the FORCE
record, for which the spec gives no code, is 1 for SUPPLY and 2 for THERMAL (DESIGN CHOICE, notes/assumptions/99.md). -/
def State.forceAutumn (s : State) (bit : Nat) (u : BitVec 16) : State :=
  let p := s.power
  if p = psSummer ∨ p = psToSummer then
    let s1 := (((s.noteForced bit).putBit R.PWR_FORCE bit true).advSat R.PWR_FORCE F.PWR_FORCE.COUNT 1).autumnEntry
    s1.event 0x21 u 0 0 [BitVec.ofNat 32 (if bit = 0 then 1 else 2)]
  else if s.sup.winter = .committed ∨ s.sup.winter = .saved then (s.noteForced bit).putBit R.PWR_FORCE bit true
  else s

/-! ### Wake (R99–R101) -/

/-- A register the always-on domain acts on in Winter: from its copy while the Heel main domain is off (R94). -/
def State.aonRd (s : State) (a : Nat) : W32 :=
  if s.sup.winter = .winter ∨ s.sup.winter = .thawCheck then tabGet regReset s.sup.aon a else s.rd a

/-- The sources that are enabled: WAKE_EN, with debug wake and brown-out always active (R99). -/
def State.wakeEnabled (s : State) : W32 := s.aonRd R.WAKE_EN ||| 0xC000

/-- An enabled source is pending (R82, R83). -/
def State.wakePending (s : State) : Bool := (s.rd R.WAKE_PEND &&& s.wakeEnabled) != 0

/-- The whole-Insole check starts, with CE_COUNT cleared (R95). -/
def State.checkBegin (s : State) : State := (s.withSup { s.sup with checking := true }).setFld R.INS_STATUS F.INS_STATUS.CE_COUNT 0

/-- Start of a Thaw: INH, the full-mode regulator and the Insole check (R97); a tripped keep path may drive again (R475). -/
def State.thawBegin (s : State) : State :=
  let s1 := s.checkBegin.withSup { s.checkBegin.sup with winter := .thawCheck, thaw := true }
  (s1.setInh true).each (fun t k => t.setKeep k { t.keep k with tripped := false }) [0, 1]

/-- Between the Winter commit and the release of the Sole (R100). -/
def State.collecting (s : State) : Bool :=
  match s.sup.winter with
  | .committed | .saved | .winter | .thawCheck | .thaw => true
  | _ => false

/-- A wake source is confirmed (R99, R100): WAKE_PEND; from the commit on WAKE_SRC and, for the source that starts the Thaw, WAKE_DETAIL;
in Winter an enabled source begins a Thaw, unless VBAT keeps the regulator off (R104). -/
def State.wake (s : State) (b : Nat) (detail : W32) (mbf : Option Nat) : State :=
  let s1 := s.putBit R.WAKE_PEND b true
  if !s1.collecting then s1
  else
    let s2 := s1.putBit R.WAKE_SRC b true
    let s3 := match mbf with
      | some i => s2.putBit R.WAKE_SRC (20 + i) true
      | none => s2
    let low := s.rd R.WAKE_SRC &&& s.wakeEnabled &&& BitVec.ofNat 32 (2 ^ b - 1)
    if !s.wakeEnabled.getLsbD b then s3
    else if s.sup.woken then
      if s.sup.wakeRtc = s.tb.rtc ∧ low = 0 then s3.wr R.WAKE_DETAIL detail else s3
    else
      let s4 := (s3.wr R.WAKE_DETAIL detail).withSup { s3.sup with woken := true, wakeRtc := s3.tb.rtc }
      if s4.sup.winter = .winter && !s4.sup.brownout then s4.thawBegin else s4

/-- WAKE_DETAIL of KIND 3 (index) and KIND 1 (pattern). -/
def wakeIndex (n : Nat) : W32 := BitVec.ofNat 32 (0xC0000000 + n)
def wakePattern (i : Nat) : W32 := BitVec.ofNat 32 (0x40000000 + i)

/-- A wake record (R101) at the slot WAKE_REC_NEXT names; IDX and COUNT advance (R100). -/
def State.appendWake (s : State) : State :=
  let n := s.rd R.WAKE_REC_NEXT
  let a := 0x28002000 + 16 * fget n F.WAKE_REC_NEXT.IDX
  let cnt := fget n F.WAKE_REC_NEXT.COUNT
  let rtc := s.sup.wakeRtc
  let s2 := s.putWords a [rtc.setWidth 32, BitVec.ofNat 32 (rtc.toNat / 0x100000000 + cnt * 65536), s.rd R.WAKE_SRC, s.rd R.WAKE_DETAIL]
  (s2.advWrap R.WAKE_REC_NEXT F.WAKE_REC_NEXT.IDX 1).advWrap R.WAKE_REC_NEXT F.WAKE_REC_NEXT.COUNT 1

/-! ### The debug log (R589–R591) -/

/-- A record of the debug log at slot NEXT; NEXT and WRITTEN advance. -/
def State.dbgRecord (s : State) (kind : Nat) (rtc : BitVec 48) : State :=
  let n := (s.word 0x28003008).toNat % 252
  let r := leBytes 8 s.heelDtb.toNat ++ leBytes 6 rtc.toNat ++ leBytes 1 kind ++ leBytes 1 s.power
  ((s.putWords (0x28003040 + 16 * n) (leWords r)).putWord 0x28003008 (BitVec.ofNat 32 ((n + 1) % 252))).putWord 0x2800300C (s.word 0x2800300C + 1)

/-- The attach count advances, saturating. -/
def State.attachCount (s : State) : State :=
  let n := s.word 0x28003004
  if n = 0xFFFFFFFF then s else s.putWord 0x28003004 (n + 1)

/-- A WAKE record follows a Thaw that collected a debug wake (R593). -/
def State.wakeDbgRecord (s : State) : State := if s.bit R.WAKE_SRC 14 then s.dbgRecord 3 s.sup.wakeRtc else s

/-! ### The save list (R94, R622) -/

/-- The saved registers with their words of the save block. -/
def saveList : List (Nat × Nat) :=
  [(0, R.WAKE_EN), (1, R.WAKE_PIN_CFG), (2, R.WAKE_RTC_ALM_LO), (3, R.WAKE_RTC_ALM_HI), (4, R.WAKE_REC_NEXT), (5, R.BOOT_SEL),
   (6, R.HSO_KEEP), (7, R.SWI_CYC_LO), (8, R.SWI_CYC_HI), (9, R.SWI_CYC_CFG), (10, R.WAKE_LCFG)] ++
  (List.range 4).map (fun i => (12 + i, R.WAKE_XCFG i)) ++ (List.range 4).map (fun i => (16 + i, R.WAKE_SWID i)) ++
  (List.range 4).map (fun i => (20 + i, R.WAKE_SWMASK i)) ++ (List.range 4).map (fun i => (24 + 2 * i, R.WAKE_SWDATA_LO i)) ++
  (List.range 4).map (fun i => (25 + 2 * i, R.WAKE_SWDATA_HI i)) ++ (List.range 64).map (fun i => (32 + i, R.SWI_CFG i))

/-- Bits of a register marked (kept). -/
def keptMask (a : Nat) : W32 :=
  match regRow a with
  | some r => BitVec.ofNat 32 r.kept
  | none => 0

/-- Copy the save list into the save block: every field that is not (kept) as zero, words not listed zero (R622). -/
def State.saveBlock (s : State) : State :=
  saveList.foldl (fun t p => t.putWord (0x28000100 + 4 * p.1) (s.rd p.2 &&& keptMask p.2)) (s.clearMem 0x28000100 0x28001000)

/-- The always-on domain loads its settings out of the save block (R91, R94, R104). -/
def State.loadAon (s : State) : State :=
  s.withSup { s.sup with aon := saveList.foldl (fun t p =>
    tabPut regReset p.2 ((regReset p.2 &&& ~~~keptMask p.2) ||| (s.word (0x28000100 + 4 * p.1) &&& keptMask p.2)) t) [] }

/-- Restore the save list: the (kept) bits of each register take their saved values (R12, R94). -/
def State.restore (s : State) : State :=
  saveList.foldl (fun t p => t.wr p.2 ((t.rd p.2 &&& ~~~keptMask p.2) ||| (s.word (0x28000100 + 4 * p.1) &&& keptMask p.2))) s

/-- The (kept) bits of the save list take their stated values, as a cold boot and a restart of the Heel leave them (R12). -/
def State.unkeep (s : State) : State :=
  saveList.foldl (fun t p => t.wr p.2 ((t.rd p.2 &&& ~~~keptMask p.2) ||| (regReset p.2 &&& keptMask p.2)))
    (s.withSup { s.sup with rtcAlm := 0 })

/-! ### Insole (R92–R96) -/

/-- The signature word, and the counts of the header (R92). -/
def insSignature : W32 := 0x494E534C
def insGen : Nat := 0x28000004
def insBrown : Nat := 0x28000008

/-- The check passes (R95): the signature matches and no word holds an uncorrectable error. -/
def State.insoleGood (s : State) : Bool :=
  s.word 0x28000000 == insSignature &&
    !s.lines.any (fun e => decide (0x28000000 ≤ e.1) && decide (e.1 < 0x28010000) && (e.2 == .uncorrectable || e.2 == .poisoned))

/-- The check corrects every single-bit error it meets, with CE_COUNT and INS_ECC_ADDR (R95). -/
def State.insoleCorrect (s : State) : State :=
  s.each (fun t a => if 0x28000000 ≤ a ∧ a < 0x28010000 then (t.readInsole a).1 else t)
    ((s.lines.filter (fun e => e.2 == .single || e.2 == .onceBad || e.2 == .onceSingle)).map (·.1))

/-- Reinitialise Insole (R96, R455): zeros, a new signature, and the initialised fault summary, which is how unlisted bytes of Insole read. -/
def State.insoleReinit (s : State) : State :=
  (s.clearMem 0x28000000 0x28010000).putBit R.INS_STATUS 1 true

/-! ### Reset scopes (R70–R73) -/

/-- What the Heel's body units hold beside their registers, at reset (R74); in a Winter entry the transceivers stay armed as the commit left them. -/
def State.heelUnitsReset (s : State) : State :=
  let t := ((s.dropNet 1).outsReset).clearMem 0x20020000 0x20030000
  let u := t.withIo { t.io with swi := { t.io.swi with cand := [] }, qdec := [], mbc := [], lin := [], ang := Ang.init, dbg := Dbg.init }
  if u.sup.winter = .committed ∨ u.sup.winter = .saved then u else u.xcvStandby

/-- Fields of the Heel's registers that follow an input (R12) go on showing what s0 shows: the Sole's and the Heel's temperatures and the switch inputs. -/
def State.pinsFrom (s s0 : State) : State :=
  ((s.wr R.PWR_TEMP_X (0x8080 ||| (s0.rd R.PWR_TEMP_X &&& 0xFFFF0000))).wr R.SWI_LVL_LO (s0.rd R.SWI_LVL_LO)).wr R.SWI_LVL_HI (s0.rd R.SWI_LVL_HI)

/-- What the Sole's units hold beside their registers, at reset. -/
def State.soleUnitsReset (s : State) : State :=
  let t := s.dropNet 0
  t.io.lace.out.foldl (fun u o => u.freeBuf o.src (dataUnits o.pkt)) ((t.withEng { t.eng with sealLocal := [], seals := [], cen := [] }).withLace { t.io.lace with out := [] })

/-- The Heel main domain enters reset: its registers, its core and its units; the DTB tick stops with the Heel PLL; LIVE_DIES.HEEL and
LIVE_WELT.HEEL clear (R29, R70, R73, R620); the Heel core's holds are revoked (R272); fields that follow an input keep showing it (R12). The EN_ pins,
PWR_STATE and PWR_FORCE are carried over where the dies run on, and the Sole's watchdog, whose domain is the Sole's. TBASE_STATUS takes its reset values
here, at the reset's entry, for the Heel main release that follows: RTC_LPRC of an XTAL32 lost before the entry is cleared with the RTC still on LPRC, one set in
Winter stands after the release (DESIGN CHOICE, notes/assumptions/100.md). -/
def State.heelReset (s0 : State) (alone : Bool) : State :=
  let en := s0.rd R.PWR_EN
  let ps := s0.rd R.PWR_STATE
  let pf := s0.rd R.PWR_FORCE
  let wd := s0.rd (R.PWR_WDOG_CFG 1)
  let s1 := (((s0.resetRegs (fun a => regDomain a == some .heel)).pinsFrom s0).heelUnitsReset).revokeHolds (fun o => o.toNat / 4096 == 1 || o == ownerId .debug)
  let s2 := s1.withCores (tabKeep (fun k => k != 10) s1.cores)
  let s3 := s2.withSup { s2.sup with heelHeld := true, heelAlone := alone, fullModeIn := alone && s2.sup.fullModeIn, wdogStart0 := 0, rstArm := none,
                                     winArm := none, winter := if s2.sup.winter = .grace then .none else s2.sup.winter }
  let s4 := s3.withTb { s3.tb with ticking := false, locked := false }
  let s5 := s4.withBoot { s4.boot with heel := none, heelFb := false, heelRom := false, cmdSeen := false, storeOps := 0 }
  let s6 := if alone then (((s5.wr R.PWR_EN en).wr R.PWR_STATE ps).wr R.PWR_FORCE pf).wr (R.PWR_WDOG_CFG 1) wd else s5
  (if alone then s6 else s6.unkeep).syncLive s0

/-- The Sole domain enters reset: its registers, cores, holds, queues and units (R70, R73); its cores' holds elsewhere are revoked (R272). -/
def State.soleReset (sa : State) (keepHost : Bool) : State :=
  let s := if sa.bridgeLive 16 then sa.sumFlush else (sa.withFlt { sa.flt with summary := [] }).putBit R.FLT_HEVT 1 false
  let tst := s.rd R.TBASE_STATUS
  let s1 := (s.resetRegs (fun a => regDomain a == some .sole)).soleUnitsReset
  let s2 := s1.withCores (tabKeep (fun k => decide (10 ≤ k)) s1.cores)
  let s3 := (s2.withHolds (tabKeep (fun k => k / 256 != 0) s2.holds)).revokeHolds (fun o => o.toNat / 4096 == 0)
  let live := s.regs.filter (fun e => decide (0x10000040 ≤ e.1) && decide (e.1 < 0x10000100))
  let s4 := live.foldl (fun t e => t.wr e.1 e.2) s3
  let s5 := s4.withSup { s4.sup with soleHeld := true, hmemKept := keepHost, wdogStart1 := 0 }
  let s6 := s5.withBoot { s5.boot with sole := none, stagedDie := none, stagedSole := none, stagedBody := [], fabs := [], job := none, soleRom := false,
                                       swap := none, tx := [], rx := [] }
  (((s6.wr R.TBASE_STATUS tst).wr R.LIVE_SEQ 0).wr (R.PWR_WDOG_CFG 1) (regReset (R.PWR_WDOG_CFG 1))).withTb { s6.tb with almCmp := [], almArm := [], almAt := [] }

/-- A reset of the whole package but for the always-on domain (R70): Heel brown-out, the pin, the debug and software system resets. INH is high but in an always-on power-on
reset (R64). -/
def State.systemReset (s : State) (cause : Nat) : State :=
  let s1 := s.putBit R.PWR_RST_CAUSE cause true
  if s1.sup.winter = .winter then s1
  else
    let s2 := (((s1.withSup { s1.sup with thaw := false, winter := .none, woken := false }).diesOff.soleReset false).heelReset false).keepsOff
    (s2.checkBegin.setInh (!s2.sup.aonHeld)).wr R.PWR_STATE 1

/-- A reset of the Sole domain with the compute and Larder dies off (R70); where the Heel is restarting alone, the PWR_STATE that it will show is set already. -/
def State.soleOnlyReset (s : State) (cause : Nat) (keepHost : Bool) : State :=
  let s1 := s.putBit R.PWR_RST_CAUSE cause true
  if s1.sup.winter = .winter ∨ s1.sup.winter = .thawCheck ∨ s1.sup.winter = .committed ∨ s1.sup.winter = .saved then s1
  else
    let s2 := s1.diesOff.soleReset keepHost
    let s3 := s2.withSup { s2.sup with winter := if s2.sup.winter = .grace then .none else s2.sup.winter, winArm := none, rstArm := none }
    if (s3.sup.heelHeld && !s3.sup.heelAlone) ∨ s3.power = psThaw then s3 else s3.setPower psAutumn

/-- A core's registrations on counters of a die are dropped (R153). -/
def State.dropProducers (s : State) (c : Nat) : State :=
  s.eachCore (fun x => { x with producers := x.producers.filter (fun h => ((h >>> 12).setWidth 4).toNat != c) }) allCores

/-- A software reset of compute die d (R70, R71): the die's units stop, its holds are revoked, and its power-up reset is to be released
again; the EN_ pin of a die that is off is raised in Summer (R451). The state is STARTING from the request on, and the LIVE_WELT bits of the die's bridges stay
set through its power-up reset, which R619 does not name among what clears them (DESIGN CHOICE, notes/assumptions/101.md). A request that names a retired die, or one that is
off outside Summer, sets PWR_RST_CAUSE.SW_DIE alone (DESIGN CHOICE, notes/assumptions/116.md). -/
def State.dieReset (s0 : State) (d : Nat) : State :=
  let s1 := s0.putBit R.PWR_RST_CAUSE (12 + d) true
  let c := s1.dieState d
  if c = 0 ∨ c = 5 then s1
  else if c = 1 ∧ s1.power ≠ psSummer then s1
  else
    let s2 := (s1.setEn d true).setDieState d (if c = 1 then 1 else 2)
    let s3 := ((s2.syncLive s1).stopDie d).revokeHolds (ownedByDie d)
    let s4 := ((s3.dieRegsReset d).setAgree d 0).dropProducers (8 + d)
    (s4.withSup { s4.sup with dieRst := s4.sup.dieRst.filter (· != d) ++ [d], scrub := s4.sup.scrub.filter (· != d) }).withBoot
      { s4.boot with dieRom := s4.boot.dieRom.filter (· != d) }

/-! ### Requests (R79–R83) -/

/-- A request within 10 µs of the write that armed it. -/
def State.inArm (s : State) (a : Option Word) : Bool :=
  match a with
  | some t => decide ((s.copy 0).toNat ≤ t.toNat + 1000)
  | none => false

/-- A pair of registers of the 64 inputs, by input. -/
def swReg (lo hi i : Nat) : Nat := if i < 32 then lo else hi

/-- An input that Winter senses: SWI_CYC (R491). -/
def State.swNamed (s : State) (i : Nat) : Bool := (s.aonRd (swReg R.SWI_CYC_LO R.SWI_CYC_HI i)).getLsbD (i % 32)

def State.withSwi (s : State) (x : Swi) : State := s.withIo { s.io with swi := x }

/-- The Winter commit arms cyclic sensing: references captured, SWI_WCHG cleared (R491). -/
def State.swArm (s : State) : State :=
  let s1 := (s.wr R.SWI_WCHG_LO 0).wr R.SWI_WCHG_HI 0
  let s2 := s1.each (fun t i => if t.swNamed i then t.putBit (swReg R.SWI_CYC_REF_LO R.SWI_CYC_REF_HI i) (i % 32) (t.swLevel i) else t) (List.range 64)
  let ref : BitVec 64 := s2.rd R.SWI_CYC_REF_HI ++ s2.rd R.SWI_CYC_REF_LO
  s2.withSwi { s2.io.swi with cyclic := s2.bit R.WAKE_EN 8 && (List.range 64).any s2.swNamed, diff := [], cycAt := none, raw := ref }

/-- What the Winter commit adds in the body units: detection armed, references captured (R91, R491, R546). -/
def State.armDetectors (s : State) : State := s.swArm.xcvArm

/-- The commit of a Winter entry (R83, R91): the Autumn entry from Summer, the Sole reset and isolated, wake detection armed. -/
def State.winterCommit (s : State) : State :=
  let s1 := if s.power = psSummer ∨ s.power = psToSummer then s.autumnEntry else s
  let s2 := (s1.soleReset false).setPower psToWinter
  let s3 := s2.withSup { s2.sup with winter := .committed, woken := false, grace := 0 }
  ((s3.wr R.WAKE_SRC 0).wr R.WAKE_DETAIL 0).armDetectors

/-- The end of the grace period (R83): refused LATE while an enabled source is pending, else committed. -/
def State.winterEnd (s : State) : State :=
  let s1 := s.withSup { s.sup with winter := .none }
  if s1.wakePending then
    (((s1.putBit R.PWR_REQ_STAT 0 true).putBit R.PWR_REQ_STAT 1 true)).setFld R.PWR_REQ_STAT F.PWR_REQ_STAT.SNAP ((s1.rd R.WAKE_PEND).toNat % 65536)
  else s1.winterCommit

/-- A Winter request on its second write (R81, R82): accepted in Summer and Autumn, refused while an enabled source is pending, BAD during a
swap, and BAD during the grace period of one already accepted, which goes on (DESIGN CHOICE, notes/assumptions/103.md). With GRACE 0 there is no wait: the notice line is
not asserted and NOACK stays clear (DESIGN CHOICE, notes/assumptions/117.md). The Bool says that it was accepted. -/
def State.winterRequest (s : State) : State × Bool :=
  if (s.power ≠ psSummer ∧ s.power ≠ psAutumn) ∨ s.boot.swap.isSome ∨ s.sup.winter ≠ .none then (s.putBit R.PWR_REQ_STAT 2 true, false)
  else if s.wakePending then
    ((s.putBit R.PWR_REQ_STAT 0 true).setFld R.PWR_REQ_STAT F.PWR_REQ_STAT.SNAP ((s.rd R.WAKE_PEND).toNat % 65536), false)
  else
    let g := s.fld R.PWR_WINTER_CFG F.PWR_WINTER_CFG.GRACE
    if g = 0 then ((s.withSup { s.sup with forced := 0 }).winterEnd, true)
    else (s.withSup { s.sup with winter := .grace, grace := s.copy 0 + BitVec.ofNat 64 (g * 100000), forced := 0 }, true)

/-- A write of PWR_WINTER_REQ (R81). -/
def State.winterWrite (s : State) (v : W32) : State :=
  let s1 := s.withSup { s.sup with winArm := none }
  match s.sup.winArm with
  | none => if v = 0xC3C3 then s1.withSup { s1.sup with winArm := some (s.copy 0) } else s1.putBit R.PWR_REQ_STAT 2 true
  | some t => if v = 0x3C3C0003 ∧ s.inArm (some t) then s1.winterRequest.1 else s1.putBit R.PWR_REQ_STAT 2 true

/-- A write of PWR_RST_REQ (R71). -/
def State.rstWrite (s : State) (v : W32) : State :=
  let s1 := s.withSup { s.sup with rstArm := none }
  match s.sup.rstArm with
  | none => if v = 0xA5A5 then s1.withSup { s1.sup with rstArm := some (s.copy 0) } else s1
  | some t =>
    if s.inArm (some t) && v >>> 4 == 0x5A5A000 then
      match (v &&& 0xF).toNat with
      | 1 => s1.systemReset 6
      | 2 => s1.soleOnlyReset 9 true
      | n => if 8 ≤ n ∧ n - 8 < variantDies s.variant then s1.dieReset (n - 8) else s1
    else s1

/-- A watchdog expires (R70). -/
def State.wdogExpire (s : State) (n : Nat) : State :=
  if n = 0 then (s.putBit R.PWR_RST_CAUSE 5 true).heelReset true else s.soleOnlyReset 8 true

/-- The DTB a watchdog is measured on, and the restart of its count. -/
def State.wdogRestart (s : State) (n : Nat) : State :=
  if n = 0 then s.withSup { s.sup with wdogStart0 := s.copy 0 } else s.withSup { s.sup with wdogStart1 := s.tb.master }

/-- The watchdogs pause: DBG_CTL.WDHOLD is set and a core is halted by the debug port (R585). -/
def State.wdogPaused (s : State) : Bool := s.bit R.DBG_CTL 0 && allCores.any (fun c => (s.core c).dhalt.isSome)

/-- A tick of a pause counts for neither watchdog. -/
def State.wdogHold (s : State) (was : State) : State :=
  if was.wdogPaused then
    s.withSup { s.sup with wdogStart0 := s.sup.wdogStart0 + (s.copy 0 - was.copy 0), wdogStart1 := s.sup.wdogStart1 + (s.tb.master - was.tb.master) }
  else s

/-- A running watchdog's timeout has passed. -/
def State.wdogDue (s : State) (n : Nat) : Bool :=
  let c := s.rd (R.PWR_WDOG_CFG n)
  let (now, start) := if n = 0 then (s.copy 0, s.sup.wdogStart0) else (s.tb.master, s.sup.wdogStart1)
  let held := if n = 0 then s.sup.heelHeld else s.sup.soleHeld
  c.getLsbD 0 && !held && !s.wdogPaused && decide (start.toNat + fget c F.PWR_WDOG_CFG.TIMEOUT * 100000 ≤ now.toNat)

/-! ### Releases (R75) -/

/-- Keep paths whose mode is not OFF turn on: at the end of the Insole save, and once the settings are loaded again after a Winter brown-out (R474, R475). -/
def State.keepOn (s : State) : State :=
  s.each (fun t k =>
    let m := fget (t.aonRd R.HSO_KEEP) (if k = 0 then F.HSO_KEEP.K24 else F.HSO_KEEP.K25)
    t.setKeep k ⟨m == 1 || m == 2, true, (t.keep k).tripped, t.tb.rtc⟩) [0, 1]

/-- What a Thaw restores and a release starts in the body units (R94, R484, R501, R527, R555, R576). -/
def State.heelUnitsRelease (s : State) : State :=
  let t := (s.withIo { s.io with swi := { s.io.swi with cyclic := false, diff := [], cycAt := none }, dbg := { Dbg.init with tlrAt := some s.heelDtb } }).xcvStandby
  if s.sup.vbatLow ∨ s.sup.vbatOv then t.withOuts { t.io.outs with stopped := some t.heelDtb } else t

/-- The Heel main release (R75, R94, R455, R456, R621): the registers at reset, restored after a Thaw; retirements of Heel units from the
summary; the boot ROM starts; REFCLK is declared lost where its monitor sees no edge. -/
def State.heelRelease (s0 : State) : State :=
  let pf := s0.rd R.PWR_FORCE
  let ps := if s0.sup.heelAlone then s0.rd R.PWR_STATE else if s0.sup.thaw then 5 else 1
  let s1 := s0.withSup { s0.sup with heelHeld := false, wdogStart0 := s0.copy 0, aon := [],
                                     winter := if s0.sup.thaw then .thaw else s0.sup.winter }
  let s2 := if s0.sup.thaw && !s0.sup.heelAlone then (s1.restore).wr R.PWR_FORCE pf else s1
  let s3 := s2.wr R.PWR_STATE ps
  let s5 := (s3.sumReady.sumFlush.loadRetired heelUnits).heelUnitsRelease
  let s6 := (s5.withBoot { s5.boot with heelRom := true }).syncLive s0
  if s6.tb.refclk then s6 else s6.refclkLoss

/-- What the Sole release starts in the Sole's other units: SRAM and host memory (R210, R211), the cluster (R427), the trace unit (R592). -/
def State.soleUnitsRelease (s : State) : State :=
  let s1 := (s.withScrubPos (tabKeep (fun m => m != 0 && m != 1) s.scrubPos)).clearMem 0x30000000 0x30400000
  let s2 := s1.setFld R.LACE_PKG F.LACE_PKG.ID s1.sup.idStraps.toNat
  if s2.sup.hmemKept then s2.putBit R.GRD_HMEM_STAT 8 true else s2

/-- The Sole release (R75, R78, R98, R100, R210, R442, R455, R620): the master from the Heel's copy, registers at reset, retirements from the summary, SRAM
zeroed, the wake record, and the boot ROM on A0. The wake record of a cold boot, where no wake was confirmed, carries the RTC of the Sole release (DESIGN CHOICE,
notes/assumptions/102.md). -/
def State.soleRelease (s0 : State) : State :=
  let cold := !s0.collecting
  let s1 := (s0.withSup { s0.sup with soleHeld := false, wdogStart1 := s0.copy 0, winter := .none, thaw := false, woken := false }).withTb
    { s0.tb with master := s0.copy 0 }
  let s2 := (s1.clearMem 0x01000000 0x02000000).soleUnitsRelease
  let s3 := s2.sumReady.withFlt { Flt.init with recurEnd := ((s0.copy 0).toNat / 360000000000 + 1) * 360000000000, retired := s2.flt.retired, causes := s2.flt.causes, summary := s2.flt.summary, lanesRetired := s2.flt.lanesRetired }
  let s4 := ((s3.loadRetired soleUnits).loadRetired heelUnits).heelBack s3.flt.retired
  let s5 := s4.each (fun t x =>
    if t.isRetired (if x < 4 then unitCode 1 x else unitCode 2 (x - 4)) then t.setAnyState x 5
    else if t.anyState x = 5 then t.setAnyState x 1 else t) s4.presentDies
  let pair := if s5.sumValid then s5.word (sumBase + 0xBC) &&& keptMask R.CORE_PAIR_STAT else 0
  let s6 := (s5.wr R.CORE_PAIR_STAT pair).withFlt { s5.flt with
    retired := s5.flt.retired.filter (fun u => u.toNat / 4096 != 0xB) ++ ((bitsOf (pair.toNat / 65536) 2).map (fun i => unitCode 0xB i)) }
  let s7 := s6.each (fun t i => if pair.getLsbD (16 + i) then t.setCore (.sole (Fin.ofNat 10 (8 + i))) (Core.init .retired) else t) [0, 1]
  let s8 := if cold then ((s7.wr R.WAKE_SRC 0x10000).wr R.WAKE_DETAIL 0).withSup { s7.sup with wakeRtc := s7.tb.rtc } else s7.putBit R.WAKE_SRC 16 false
  let s9 := if s0.power = psThaw ∨ s0.power = psToWinter then s8.setPower psAutumn else s8
  let sa := (s9.appendWake.wakeDbgRecord).syncLive s0
  let sb := sa.flushReports
  let sc := sb.withBoot { sb.boot with soleRom := true }
  match sc.boot.heel with
  | some im => ((sc.putBit R.BOOT_STATUS 0 (im.slot == 1)).putBit R.BOOT_STATUS 2 sc.boot.heelFb).wr R.BOOT_EPOCH_HEEL (im.hi.setWidth 32)
  | none => sc

/-- A compute die's registers after its power-up reset: retirements of its units from the summary (R455). -/
def State.dieUnitsRelease (s : State) (d : Nat) : State := (s.loadSpares d).loadLanes d

/-- The release of a die's power-up reset (R88, R619): STARTING begins here, for R24 does not say at which moment of Autumn → Summer it does (DESIGN CHOICE,
notes/assumptions/115.md), and its bridges' bits set. -/
def State.dieRelease (s0 : State) (x : Nat) : State :=
  let sp := s0.sumReady.withScrubPos (tabKeep (· != 2 + x) s0.scrubPos)
  let s1 := if x < 4 then (sp.loadRetired (dieUnits x)).dieUnitsRelease x else sp.loadRetired (larderUnits (x - 4))
  let s2 := s1.withSup { s1.sup with dieRst := s1.sup.dieRst.filter (· != x), scrub := s1.sup.scrub.filter (· != x) ++ [x] }
  (s2.setAnyState x 2).syncLive s0

/-- TO_SUMMER ends once every powered die has started. -/
def State.summerCheck (s : State) : State :=
  if s.power = psToSummer ∧ s.sup.dieRst = [] ∧ s.sup.scrub = [] ∧ s.boot.dieRom = [] then s.setPower psSummer else s

/-! ### Engine power gating (R105) -/

/-- All queues of an engine are empty and no command runs. -/
def State.engineIdle (s : State) (g : Nat) : Bool :=
  [0, 1, 2, 3].all (fun q =>
    let k := 4 * g + q
    let st := s.qState k
    (st == 0 || st == 1) && s.fld (qreg R.ENG_QPTR k) F.ENG_QPTR.HEAD == s.fld (qreg R.ENG_QPTR k) F.ENG_QPTR.TAIL)

/-- Gate an engine whose gate bit is set while it is idle. -/
def State.gateCheck (s : State) (g : Nat) : State :=
  if s.bit R.PWR_GATE_ENG g && s.diePowered (g / 8) && s.engineIdle g then s.putBit R.PWR_GATE_STAT g true else s

end Sys2Proof.Machine
end

