-- ==== Sys2Proof/Machine/DbgCtl.lean ====
section
/-! DEFINITION. Machine/DbgCtl.lean: the debug registers, core control and the trace unit (23_debug.md). -/
namespace Sys2Proof.Machine

def State.withDbg (s : State) (x : Dbg) : State := s.withIo { s.io with dbg := x }

/-- The TAP is in Test-Logic-Reset. -/
def State.tapReset (s : State) : Bool := s.io.dbg.tlrAt.isSome

/-! ### Core control (R584, R585) -/

/-- The core that DBG_CSEL selects. -/
def State.dbgCore (s : State) : Option CoreId :=
  let n := s.fld R.DBG_CSEL F.DBG_CSEL.CORE
  if n < 10 then some (.sole (Fin.ofNat 10 n))
  else if n = 10 then some .heel
  else if 12 ≤ n then some (.keeper (Fin.ofNat 4 (n - 12)))
  else none

/-- HALT: at once where the core is at a boundary or in a wait, else once its access has completed. -/
def Core.debugHalt (x : Core) : Core :=
  if x.dhalt.isSome then x
  else match x.wait with
    | some (.access _) => { x with stepping := some 1 }
    | some (.drain _) => { x with stepping := some 1 }
    | _ => { x with dhalt := some 1, stepping := none }

/-- RESUME and STEP of a halted core. -/
def Core.debugResume (x : Core) : Core := if x.dhalt.isSome then { x with dhalt := none, stepping := none } else x
def Core.debugStep (x : Core) : Core := if x.dhalt.isSome then { x with dhalt := none, stepping := some 3 } else x

/-- A write of DBG_CCTL. -/
def State.cctlWrite (s : State) (v : W32) : State :=
  match s.dbgCore with
  | none => s
  | some c =>
    if !s.domainUp c then s
    else
      let t := if v.getLsbD 0 then s.onCore c Core.debugHalt else s
      let u := if v.getLsbD 1 then t.onCore c Core.debugResume else t
      if v.getLsbD 2 then u.onCore c Core.debugStep else u

/-- Register NUM of a core, as DBG_CREG numbers them. -/
def State.cregRead (s : State) (c : CoreId) (n : Nat) : Word :=
  let x := s.core c
  if n < 32 then x.gr (BitVec.ofNat 5 n)
  else if n = 0x40 then x.pc
  else if 0x80 ≤ n ∧ n < 0x90 ∧ hasLane c then x.cr (n - 0x80)
  else if 0x90 ≤ n ∧ n < 0xA0 ∧ hasLane c then
    let v := x.acc ((n - 0x90) / 4) (decide (2 ≤ n % 4))
    if n % 2 = 0 then v.setWidth 64 else (v >>> 64).setWidth 64
  else if 0x1000 ≤ n ∧ sysNamed c (n - 0x1000) then (s.sysRead c (n - 0x1000)).setWidth 64
  else 0

/-- Write register NUM; a new PC ends the wait that the core was halted in. -/
def Core.cregWrite (x : Core) (c : CoreId) (n : Nat) (v : Word) : Core :=
  if n < 32 then x.setGr (BitVec.ofNat 5 n) v
  else if n = 0x40 then { x with pc := pcOf v, wait := none }
  else if 0x80 ≤ n ∧ n < 0x90 ∧ hasLane c then x.setCr (n - 0x80) v
  else if 0x90 ≤ n ∧ n < 0xA0 ∧ hasLane c then
    let im := decide (2 ≤ n % 4)
    let old := x.acc ((n - 0x90) / 4) im
    x.setAcc ((n - 0x90) / 4) im
      (if n % 2 = 0 then (old >>> 64 <<< 64) ||| v.setWidth 80 else (v.setWidth 80 <<< 64) ||| (old.setWidth 64).setWidth 80)
  else if 0x1000 ≤ n ∧ sysNamed c (n - 0x1000) then x.sysWrite c (n - 0x1000) (v.setWidth 32)
  else x

/-- A write of DBG_CREG (R584). -/
def State.cregAccess (s0 : State) (v : W32) : State :=
  let s := s0.wr R.DBG_CREG (v &&& 0x80001FFF)
  let n := fget v F.DBG_CREG.NUM
  let refused := (s.putBit R.DBG_CSTAT 4 true).wr2 R.DBG_CDATA_LO R.DBG_CDATA_HI 0
  match s.dbgCore with
  | none => refused
  | some c =>
    if !s.domainUp c || (s.core c).dhalt.isNone then refused
    else if v.getLsbD 31 then s.onCore c (fun x => x.cregWrite c n (s.rd2 R.DBG_CDATA_LO R.DBG_CDATA_HI))
    else s.wr2 R.DBG_CDATA_LO R.DBG_CDATA_HI (s.cregRead c n)

/-! ### Register writes and views -/

/-- A write of the debug block: ATTACHED clears only while the TAP is in Test-Logic-Reset (R588). -/
def State.dbgWrite (s : State) (a : Nat) (v : W32) (acc : State → Nat → W32 → State) : State :=
  if a = R.DBG_STAT then acc s a (if s.tapReset then v else v &&& ~~~1)
  else if a = R.DBG_CCTL then s.cctlWrite v
  else if a = R.DBG_CREG then s.cregAccess v
  else acc s a v

/-- A write of the trace block: setting EN clears FULL (R592). -/
def State.traceWrite (s : State) (a : Nat) (v : W32) (acc : State → Nat → W32 → State) : State :=
  let t := acc s a v
  if a = R.DBG_TRC_CTL ∧ v.getLsbD 0 ∧ !s.bit a 0 then t.putBit R.DBG_TRC_STAT 0 false else t

/-- Reads that are views. -/
def State.dbgRead (s : State) (a : Nat) : Option W32 :=
  if a = R.DBG_ATTACH_CNT then some (s.word 0x28003004)
  else if a = R.DBG_CSTAT then
    match s.dbgCore with
    | none => some (s.rd a)
    | some c =>
      match (s.core c).dhalt with
      | some k => some (fput (fput (s.rd a) F.DBG_CSTAT.DHALT 1) F.DBG_CSTAT.CAUSE k)
      | none => some (s.rd a)
  else none

/-- The trace unit stores a record, or cannot accept it, which advances AWL_STAT.DROP of the die in the record's byte 21 (R243, R592). -/
def State.traceStore (s : State) (r : List Byte) : State :=
  let w := s.fld R.DBG_TRC_WPTR F.DBG_TRC_WPTR.INDEX
  let stop := s.bit R.DBG_TRC_CTL 1
  if !s.bit R.DBG_TRC_CTL 0 || (stop && s.bit R.DBG_TRC_STAT 0) then s.advSat (R.AWL_STAT (awlBase (r.getD 21 0).toNat)) F.AWL_STAT.DROP 1
  else
    let t := (s.putBytes (0x30000000 + 32 * w) r).setFld R.DBG_TRC_WPTR F.DBG_TRC_WPTR.INDEX (w + 1)
    if w = 131071 then
      let u := t.putBit R.DBG_TRC_STAT 0 true
      if stop then u else u.putBit R.DBG_TRC_STAT 1 true
    else t

end Sys2Proof.Machine
end

