-- ==== Sys2Proof/Machine/Coding.lean ====
section
/-! DEFINITION. Machine/Coding.lean: the 8b/10b code of a lane: its groups, its running disparity, and how a receiver judges a group (15_lace_lanes.md R386–R388). The
spec names the published code without printing its tables: they are taken from there (PRESUMED, notes/assumptions/113.md). A group's bit a is its most significant. -/
namespace Sys2Proof.Machine

/-! ### The tables -/

/-- abcdei of D.x at negative running disparity. -/
def code6 : List (BitVec 6) :=
  [0b100111, 0b011101, 0b101101, 0b110001, 0b110101, 0b101001, 0b011001, 0b111000, 0b111001, 0b100101, 0b010101, 0b110100, 0b001101, 0b101100, 0b011100, 0b010111,
   0b011011, 0b100011, 0b010011, 0b110010, 0b001011, 0b101010, 0b011010, 0b111010, 0b110011, 0b100110, 0b010110, 0b110110, 0b001110, 0b101110, 0b011110, 0b101011]

/-- fghj of D.x.y at negative running disparity. -/
def code4 : List (BitVec 4) := [0b1011, 0b1001, 0b0101, 0b1100, 0b1101, 0b1010, 0b0110, 0b1110]

/-- fghj of K.x.y at negative running disparity. -/
def code4k : List (BitVec 4) := [0b1011, 0b0110, 0b1010, 0b1100, 0b1101, 0b0101, 0b1001, 0b0111]

/-- Ones among the low n bits. -/
def onesIn (n w : Nat) : Nat := ((List.range n).filter w.testBit).length

/-- Running disparity (true: positive) after a six-bit block. -/
def after6 (rd : Bool) (c : BitVec 6) : Bool :=
  let n := onesIn 6 c.toNat
  if 3 < n || c == 0b000111 then true else if n < 3 || c == 0b111000 then false else rd

/-- Running disparity after a four-bit block. -/
def after4 (rd : Bool) (c : BitVec 4) : Bool :=
  let n := onesIn 4 c.toNat
  if 2 < n || c == 0b0011 then true else if n < 2 || c == 0b1100 then false else rd

/-- Running disparity after a group, as the code's rules take it from the group. -/
def afterGroup (rd : Bool) (g : BitVec 10) : Bool := after4 (after6 rd (g.extractLsb' 4 6)) (g.extractLsb' 0 4)

/-- A block at positive running disparity: its complement where it is unbalanced, or one of the balanced pair. -/
def block6 (rd : Bool) (c : BitVec 6) : BitVec 6 := if rd && (onesIn 6 c.toNat != 3 || c == 0b111000) then ~~~c else c
def block4 (rd : Bool) (c : BitVec 4) : BitVec 4 := if rd && (onesIn 4 c.toNat != 2 || c == 0b1100) then ~~~c else c

/-- The alternate seven, which breaks a run of five. -/
def altSeven (rd : Bool) (x : Nat) : Bool := if rd then x == 11 || x == 13 || x == 14 else x == 17 || x == 18 || x == 20

/-- The group of D.x.y. -/
def encodeD (rd : Bool) (b : Byte) : BitVec 10 :=
  let x := b.toNat % 32
  let y := b.toNat / 32
  let c6 := block6 rd (code6.getD x 0)
  let r := after6 rd c6
  c6 ++ (if y = 7 && altSeven r x then block4 r 0b0111 else block4 r (code4.getD y 0))

/-- The control symbols of the code: K28.0–K28.7, K23.7, K27.7, K29.7, K30.7. -/
def kCodes : List Byte := [0x1C, 0x3C, 0x5C, 0x7C, 0x9C, 0xBC, 0xDC, 0xFC, 0xF7, 0xFB, 0xFD, 0xFE]

/-- The group of K.x.y. Its four-bit block is complemented by the disparity even where it is balanced. -/
def encodeK (rd : Bool) (b : Byte) : BitVec 10 :=
  let x := b.toNat % 32
  let c6 := block6 rd (if x = 28 then 0b001111 else code6.getD x 0)
  let c4 := code4k.getD (b.toNat / 32) 0
  c6 ++ (if after6 rd c6 then ~~~c4 else c4)

/-- A symbol: control or data, and its eight bits. -/
abbrev Sym := Bool × Byte

def encodeSym (rd : Bool) (s : Sym) : BitVec 10 := if s.1 then encodeK rd s.2 else encodeD rd s.2

/-- Every symbol of the code. -/
def codeSyms : List Sym := kCodes.map (fun b => (true, b)) ++ (List.range 256).map (fun n => (false, BitVec.ofNat 8 n))

/-- The symbol of a group at a running disparity. -/
def decodeSym (rd : Bool) (g : BitVec 10) : Option Sym := codeSyms.find? (fun s => encodeSym rd s == g)

/-! ### Control symbols and ordered sets (R387, R388) -/

def symCOM : Sym := (true, 0xBC)
def symTRN : Sym := (true, 0x3C)
def symSKP : Sym := (true, 0x1C)
def symEIE : Sym := (true, 0x5C)
def symLPB : Sym := (true, 0x9C)
def symIDL : Sym := (true, 0x7C)
def symSOP : Sym := (true, 0xFB)
def symEOP : Sym := (true, 0xFD)
def symPAD : Sym := (true, 0xF7)
def symD102 : Sym := (false, 0x4A)

/-- A control symbol that R387 gives no meaning: K28.6 and K28.7. -/
def symBarred (s : Sym) : Bool := s.1 && (s.2 == 0xDC || s.2 == 0xFC)

def setSKIP : List Sym := [symCOM, symSKP, symSKP, symSKP]
def setEIE : List Sym := [symCOM, symEIE, symEIE, symEIE]
def setLPB : List Sym := [symCOM, symLPB, symLPB, symLPB]
/-- The fast-exit burst: 24 × D10.2, then COM TRN TRN TRN twice. -/
def setBurst : List Sym := List.replicate 24 symD102 ++ [symCOM, symTRN, symTRN, symTRN, symCOM, symTRN, symTRN, symTRN]

/-- The 16 symbols of TS1 or TS2 (R388, R390). -/
def setTS (x : TrainSet) : List Sym :=
  [symCOM, symTRN, (false, if x.ts2 then 2 else 1), (false, BitVec.ofNat 8 x.lane.val), (false, x.link.setWidth 8), (false, x.pkg), (false, x.rates.setWidth 8),
   (false, x.phase.setWidth 8), (false, BitVec.ofNat 8 (x.locked.toNat + 2 * x.adapted.toNat + 4 * x.warden.toNat + 8 * x.felAllow.toNat))] ++ List.replicate 7 symD102

/-! ### The lanes -/

def rdNeg (_ : Nat) : Bool := false
def wireIdle (_ : Nat) : BitVec 10 := 0

/-- Lane l of link n sends symbols: its transmitter's running disparity follows them, and the last group stands on its balls (R386). -/
def Link.sends (x : Link) (l : Nat) (ss : List Sym) : Link :=
  let p := ss.foldl (fun (p : Bool × BitVec 10) s =>
    let g := encodeSym p.1 s
    (afterGroup p.1 g, g)) (tabGet rdNeg x.txRd l, tabGet wireIdle x.wire l)
  { x with txRd := tabPut rdNeg l p.1 x.txRd, wire := tabPut wireIdle l p.2 x.wire }

/-- Lanes of a list send the same symbols. -/
def Link.sendsOn (x : Link) (ls : List Nat) (ss : List Sym) : Link := ls.foldl (fun y l => y.sends l ss) x

/-- Lanes of link n that are ACTIVE, or IDLE. -/
def State.activeLanes (s : State) (n : Nat) : List Nat := [0, 1, 2, 3].filter (fun i => s.laneSt n i == 3)

/-- Every active lane of link n sends a set (R388). -/
def State.lanesSend (s : State) (n : Nat) (ss : List Sym) : State := s.onLink n (fun x => x.sendsOn (s.activeLanes n) ss)

/-- How a receiver takes a group: good, a code violation (not in the code, or a control symbol without meaning), or a disparity error (R386, R387). -/
inductive Judged where
  | good (s : Sym)
  | violation
  | disparity (s : Sym)
deriving DecidableEq, Repr

def judgeGroup (rd : Bool) (g : BitVec 10) : Judged :=
  match decodeSym rd g, decodeSym (!rd) g with
  | some s, _ => if symBarred s then .violation else .good s
  | none, some s => if symBarred s then .violation else .disparity s
  | none, none => .violation

/-- Lane l of link n receives a group: an errored one is counted in LACE_SYMERR; the running disparity is taken from the group (R386). -/
def State.rxGroup (s : State) (n l : Nat) (g : BitVec 10) : State :=
  let rd := tabGet rdNeg (s.link n).rxRd l
  let s1 := match judgeGroup rd g with
    | .good _ => s
    | .violation => s.advSat (lnreg R.LACE_SYMERR n l) F.LACE_SYMERR.CV 1
    | .disparity _ => s.advSat (lnreg R.LACE_SYMERR n l) F.LACE_SYMERR.DISP 1
  s1.onLink n (fun x => { x with rxRd := tabPut rdNeg l (afterGroup rd g) x.rxRd })

def State.rxGroups (s : State) (n l : Nat) (gs : List (BitVec 10)) : State := gs.foldl (fun t g => t.rxGroup n l g) s

/-- Some group of those that a lane receives from a running disparity on is errored, and reaches the link layer marked bad (R386). -/
def groupsBad : Bool → List (BitVec 10) → Bool
  | _, [] => false
  | rd, g :: gs => (match judgeGroup rd g with
      | .good _ => false
      | _ => true) || groupsBad (afterGroup rd g) gs

/-- Lanes 0–3 receive the groups of a packet. -/
def State.rxLanes (s : State) (n : Nat) (rx : List (List (BitVec 10))) : State := [0, 1, 2, 3].foldl (fun t l => t.rxGroups n l (rx.getD l [])) s

/-- A symbol of the packet is marked bad. -/
def State.rxBad (s : State) (n : Nat) (rx : List (List (BitVec 10))) : Bool := [0, 1, 2, 3].any (fun l => groupsBad (tabGet rdNeg (s.link n).rxRd l) (rx.getD l []))

end Sys2Proof.Machine
end

