-- ==== Sys2Proof/Machine/Framing.lean ====
section
/-! DEFINITION. Machine/Framing.lean: link packets as they stand on the lanes: the header's words, the body, the CRC, and the striping (16_lace_links.md R414, R416). -/
namespace Sys2Proof.Machine

/-- The VC a DATA packet is on (R430): a request's first link is crossed on REQ, every later one on FWD. -/
def dataVc (p : LData) : Nat := match p.body with
  | .resp _ _ => 1
  | _ => if p.hops = 0 then 0 else 2

/-- TYPE of a link packet. -/
def LSent.type (p : LSent) : Nat :=
  match p.what with
  | some (.data _) => 0
  | some (.creditInit _ _ _) => 3
  | some _ => 2
  | none => 1

/-- The three words of a link header (R414). -/
def LSent.words (p : LSent) : List W32 :=
  let h := p.hdr
  let w0 (vc : Nat) : W32 :=
    BitVec.ofNat 32 (p.type + vc * 2 ^ 4 + p.seq.getD 0 % 4096 * 2 ^ 6 + h.ackseq.toNat * 2 ^ 18 + h.ackv.toNat * 2 ^ 30 + h.nak.toNat * 2 ^ 31)
  let w1 (rest : Nat) : W32 := BitVec.ofNat 32 (h.cvc.toNat + h.credits.toNat * 2 ^ 2 + rest)
  match p.what with
  | some (.data d) => [w0 (dataVc d), w1 (d.dpkg.toNat * 2 ^ 10 + d.spkg.toNat * 2 ^ 18 + d.hops.toNat * 2 ^ 26), dataOrig d]
  | some (.creditInit req rsp fwd) => [w0 0, w1 0, BitVec.ofNat 32 (req % 256 + rsp % 256 * 2 ^ 8 + fwd % 256 * 2 ^ 16)]
  | some m => [w0 0, w1 0, Config.mgmtWord m]
  | none => [w0 0, w1 0, 0]

/-- The network header of a DATA packet (R218, R414); what the link's own header does not carry, and no rule gives across packages, is zero. -/
def LData.header (p : LData) : Hdr :=
  let base : Hdr := { Hdr.zero with ddie := 0xF, vc := dataVc p, cls := p.cls.toNat, ini := p.ini, tag := p.tag }
  match p.body with
  | .req k a len posted early data _ _ =>
    { base with kind := (match k with
                  | .read => PktKind.read
                  | .write => if posted then .writePosted else .writeNp
                  | .atomic => .atomic
                  | .fetch => .fetch).code
                early := early, addr := a.setWidth 48, len := if k = Kind.write then data.length else len.toNat }
  | .sig h _ => { base with kind := PktKind.sig.code, addr := h.setWidth 48, len := 4 }
  | .resp r data => { base with kind := (if r ≠ 0 then PktKind.rspErr else if data.isEmpty then .rspAck else .rspData).code, len := data.length, reason := r.toNat, poison := r == 9 }

/-- The payload of a DATA packet. -/
def LData.payload (p : LData) : List Byte :=
  match p.body with
  | .req .write _ _ _ _ data _ _ => data
  | .req .atomic _ _ _ _ _ _ _ | .sig _ _ => Config.packetBody p
  | .req _ _ _ _ _ _ _ _ => []
  | .resp _ data => data

/-- Words as little-endian bytes. -/
def wordBytes (ws : List W32) : List Byte := ws.flatMap (fun w => leBytes 4 w.toNat)

/-- The body of a link packet: one network packet for DATA, else none. -/
def LSent.body (p : LSent) : List Byte :=
  match p.what with
  | some (.data d) => wordBytes (LData.header d).words ++ LData.payload d
  | _ => []

/-- One byte through the CRC-32 of IEEE 802.3. -/
def crcByte (c : W32) (b : Byte) : W32 :=
  (List.range 8).foldl (fun x _ => if x.getLsbD 0 then (x >>> 1) ^^^ 0xEDB88320 else x >>> 1) (c ^^^ b.setWidth 32)

def crc32 (bs : List Byte) : W32 := ~~~(bs.foldl crcByte 0xFFFFFFFF)

/-- SOP, header, body, CRC, EOP (R414). -/
def LSent.syms (p : LSent) : List Sym :=
  let bs := wordBytes p.words ++ p.body
  [symSOP] ++ (bs ++ leBytes 4 (crc32 bs).toNat).map (fun b => (false, b)) ++ [symEOP]

/-- Symbol i of the stream goes on logical lane i mod w; a packet starts on lane 0, and PAD fills its last group (R416). -/
def stripe (w i : Nat) (ss : List Sym) : List Sym := (List.range ((ss.length + w - 1) / w)).map (fun k => ss.getD (w * k + i) symPAD)

/-- The active lanes carry a packet. -/
def Link.transmits (x : Link) (p : LSent) : Link :=
  let w := x.order.length
  let ss := p.syms
  let y := (List.range w).foldl (fun z i => z.sends (x.order.getD i 0) (stripe w i ss)) x
  { y with slots := y.slots + (ss.length + w - 1) / w }

end Sys2Proof.Machine
end

