-- ==== Sys2Proof/Machine/LaceOps.lean ====
section
/-! DEFINITION. Machine/LaceOps.lean: cold training, the link layer's packets, the warden and the cluster routes (15_lace_lanes.md R391–R411, 16_lace_links.md
R412–R436). -/
namespace Sys2Proof.Machine

/-! ### Faults of lanes and links (R410, R436) -/

def linkUnit (n : Nat) : BitVec 16 := unitCode 7 n

/-- A TRANSIENT record of kind LACE. -/
def State.laceTransient (s : State) (n sub retries : Nat) : State :=
  s.logTransient ⟨s.tb.master, 0, 8, 1, retries, 0, linkUnit n, BitVec.ofNat 16 sub, 0, 0, []⟩

/-- A lane's receiver is off, or has lost its lock: it is neither locked nor active. -/
def State.laneDark (s : State) (n i : Nat) : State :=
  let a := lreg R.LACE_PHY_STAT n
  ((s.setFld (lnreg R.LACE_LNSTAT n i) F.LACE_LNSTAT.LOCK 0).putBit a (4 + i) false).putBit a (8 + i) false

/-- Retire lane i of link n, with its record (R410, R436, R445): its bit in the summary, no LIVE_ bit. -/
def State.retireLane (s : State) (n i retries : Nat) : State :=
  let r := s.mkRetired 8 (linkUnit n) i retries 1 0
  let s1 := ((s.withFlt { s.flt with lanesRetired := s.flt.lanesRetired ++ [4 * n + i] }).setFld (lnreg R.LACE_LNSTAT n i) F.LACE_LNSTAT.STATE 0).laneDark n i
  let s2 := s1.queueSummary ⟨linkUnit n, some (4 * n + i), true, none, 1, some (s1.recSeq r)⟩
  (s2.logRec r).permEvent (linkUnit n)

/-- Retire a link with cause WIDTH (5) or REPLAY (6) (R436). -/
def State.retireLink (s : State) (n cause : Nat) : State :=
  let r := s.mkRetired 8 (linkUnit n) 0xF (s.retryCount 8) cause 0
  (s.retireWith (linkUnit n) cause r).setFld (lreg R.LACE_LSTAT n) F.LACE_LSTAT.CAUSE cause

/-! ### Cold training (R401–R404) -/

/-- TMO in ticks. -/
def State.trainTmo (s : State) (n : Nat) : Nat :=
  let t := s.fld (lreg R.LACE_PHY_CFG n) F.LACE_PHY_CFG.TMO
  10000 * (if t = 0 then 1 else t)

/-- DTB of link n's die. -/
def State.linkDtb (s : State) (n : Nat) : Word := tabGet wordZero s.tb.copy (1 + n / 12)

/-- RATES bit as LACE_PHY_STAT.RATE: 1 20.0, 2 10.0, 3 5.0, 4 1.25 Gbaud. -/
def State.setRate (s : State) (n c : Nat) : State := s.setFld (lreg R.LACE_PHY_STAT n) F.LACE_PHY_STAT.RATE c

/-- Rate bit that an attempt trains. -/
def State.trainBit (s : State) (n : Nat) : Nat := 2 ^ (s.fld (lreg R.LACE_PHY_STAT n) F.LACE_PHY_STAT.RATE - 1)

def noGoal (_ : Nat) : Option Word := none

/-- TS1 or TS2 as lane i of link n sends it in the phase that runs (R390, R425). -/
def State.ownSet (s : State) (n i : Nat) (ts2 : Bool) : TrainSet :=
  let x := s.link n
  { ts2 := ts2, lane := Fin.ofNat 4 i, link := BitVec.ofNat 6 n, pkg := BitVec.ofNat 8 s.pkgId, rates := BitVec.ofNat 4 (s.fld (lreg R.LACE_PHY_CFG n) F.LACE_PHY_CFG.RATES),
    phase := if x.phase = 2 then BitVec.ofNat 4 (s.trainBit n) else 0, locked := s.on (lnreg R.LACE_LNSTAT n i) F.LACE_LNSTAT.LOCK,
    adapted := x.phase = 2 && (tabGet noGoal x.goal i).isSome, warden := s.on (lreg R.LACE_LCFG n) F.LACE_LCFG.WARDEN_PREF,
    felAllow := s.on (lreg R.LACE_PHY_CFG n) F.LACE_PHY_CFG.FEL_ALLOW }

/-- Lane i of link n sends TS1, or TS2, from here on: the set it repeats stands on its balls (R401). -/
def State.sendTs (s : State) (n : Nat) (ts2 : Bool) (i : Nat) : State := s.onLink n (fun x => x.sends i (setTS (s.ownSet n i ts2)))

/-- Cold training starts on the lanes of a mask that are not retired: NEGOTIATE at 1.25 Gbaud. -/
def State.trainStart (s : State) (n mask : Nat) : State :=
  let ls := s.lanesIn n mask
  let s1 := s.lanesOff n
  let s2 := ls.foldl (fun t i => ((t.wr (lnreg R.LACE_SYMERR n i) 0).wr (lnreg R.LACE_LNSTAT n i) 0).setLaneSt n i 1) s1
  let s3 := (s2.wr (lreg R.LACE_PEER n) 0).setRate n 4
  ls.foldl (fun t i => t.sendTs n false i) (s3.onLink n (fun x =>
    { x with phase := 1, began := s.linkDtb n, part := bitsWord 4 (fun i => ls.contains i), tried := 0, heard := [], crIn := false, crOut := false,
             asked := none, agree := [], goal := [], txRd := [], rxRd := [] }))

/-- Rates common to both ends (R402). -/
def State.commonRates (s : State) (n : Nat) : Nat :=
  (s.fld (lreg R.LACE_PHY_CFG n) F.LACE_PHY_CFG.RATES) &&& (s.fld (lreg R.LACE_PEER n) F.LACE_PEER.RATES)

/-- The highest common traffic rate not yet tried, as its RATES bit number; 1.25 Gbaud only where it is the sole common rate (R403). -/
def State.nextRate (s : State) (n : Nat) : Option Nat :=
  let c := s.commonRates n
  (if c = 8 then [3] else [0, 1, 2]).find? (fun b => c.testBit b && !(s.link n).tried.testBit b)

/-- Begin a TRAIN attempt at a rate. -/
def State.attempt (s : State) (n b : Nat) : State :=
  let s1 := (bitsOf (s.link n).part 4).foldl (fun t i => t.setLaneSt n i 2) (s.setRate n (b + 1))
  (bitsOf (s.link n).part 4).foldl (fun t i => t.sendTs n false i)
    (s1.onLink n (fun x => { x with phase := 2, began := s.linkDtb n, tried := x.tried + 2 ^ b, agree := [], goal := [], txRd := [] }))

/-- Training has left the link layer no usable link: a link in TRAINING ends FAILED; one in RETRAIN is retired for WIDTH, else FAILED (R413, R436). -/
def State.trainLost (s : State) (n cause : Nat) : State :=
  let t := s.onLink n (fun x => { x with phase := 0 })
  if t.linkSt n = 1 then t.linkDown n 4 cause
  else if t.linkSt n = 3 then (if cause = 5 then t.retireLink n 5 else (t.linkDown n 4 cause).syncLive s)
  else t

/-- Lanes of a mask have failed training (R402, R403, R410): FAILED and TRAIN_FAIL. In consecutive retrainings, more often than the count for LACE, a lane is retired
(R436). -/
def State.lanesFail (s : State) (n : Nat) (ls : List Nat) : State :=
  ls.foldl (fun t i =>
    let s1 := (t.setLaneSt n i 9).putBit (lreg R.LACE_PHY_EVT n) (8 + i) true
    let f := tabGet natZero (s1.link n).fails i + 1
    if s1.linkSt n = 3 then
      let s2 := s1.onLink n (fun x => { x with fails := tabPut natZero i f x.fails })
      if s2.retryCount 8 < f then s2.retireLane n i (s2.retryCount 8) else s2.laceTransient n i f
    else s1.laceTransient n i 1) s

/-- Lanes as a mask. -/
def maskOf (ls : List Nat) : Nat := bitsWord 4 (fun i => ls.contains i)

/-- LACE_LCFG.MINW. -/
def State.minWidth (s : State) (n : Nat) : Nat :=
  let m := s.fld (lreg R.LACE_LCFG n) F.LACE_LCFG.MINW
  if m = 0 then 1 else if 4 < m then 4 else m

/-- The CTLE of lane i of link n gives so much peaking. -/
def State.setCtle (s : State) (n i c : Nat) : State := s.withLace { s.io.lace with ctle := tabPut natZero (4 * n + i) c s.io.lace.ctle }

/-- A lane's receiver has adapted (R393): its DFE taps, and its CTLE unless it is fixed, come from the channel and are free values. -/
def State.adapt (s : State) (n i : Nat) : State :=
  let s1 := (s.wr (lnreg R.LACE_DFE n i) ((s.draw.setWidth 30).setWidth 32)).drawn
  if s1.on (lnreg R.LACE_RX n i) F.LACE_RX.FIXED then s1 else (s1.setCtle n i (s1.draw.toNat % 16)).drawn

/-- The six bits of DFE tap t + 1 as a number, after at most m steps either way, which v says. -/
def dfeStep (taps v m t : Nat) : Nat :=
  let c : Int := (BitVec.ofNat 6 (taps / 2 ^ (6 * t))).toInt
  let d : Int := (v / 2 ^ (12 * t) % 2 ^ 12 % (2 * m + 1) : Nat)
  (BitVec.ofInt 6 (Max.max (-32) (Min.min 31 (c + d - m)))).toNat

/-- The DFE of a lane that is ACTIVE goes on adapting (R393): each tap by at most one step for every 10 µs since it was last looked at, in a direction that is free. -/
def State.dfeRun (s : State) (n i : Nat) : State :=
  let now := s.linkDtb n
  let old := tabGet wordZero (s.link n).dfeAt i
  let m := (now.toNat - old.toNat) / 1000
  let a := lnreg R.LACE_DFE n i
  if m = 0 then s
  else
    let v := s.draw.toNat
    let taps := (s.rd a).toNat
    let w := [0, 1, 2, 3, 4].foldl (fun w t => w + dfeStep taps v (Nat.min m 64) t * 2 ^ (6 * t)) 0
    ((s.wr a (BitVec.ofNat 32 w)).drawn).onLink n (fun x => { x with dfeAt := tabPut wordZero i (BitVec.ofNat 64 (old.toNat + 1000 * m)) x.dfeAt })

/-! ### Sending, acknowledgements and replay (R415–R420) -/

/-- Units whose credits are owed for a VC. -/
def Link.owed (x : Link) (vc : Nat) : Nat := tabGet natZero x.oweCr vc

/-- The VC whose credits the next packet returns. -/
def Link.owedVc (x : Link) : Nat := if x.owed 0 ≠ 0 then 0 else if x.owed 1 ≠ 0 then 1 else if x.owed 2 ≠ 0 then 2 else 0

/-- An acknowledgement or a credit is owed (R424). -/
def Link.owes (x : Link) : Bool := x.oweAck || x.owed x.owedVc != 0

/-- The acknowledgement and the credit return of the next packet (R414, R415): at most 255 units of one VC. -/
def Link.hdr (x : Link) : LHdr :=
  ⟨x.taken, x.oweNak, BitVec.ofNat 12 (x.expect + 4095), BitVec.ofNat 2 x.owedVc, BitVec.ofNat 8 (Nat.min 255 (x.owed x.owedVc))⟩

/-- A packet leaves over the active lanes at a DTB: an ACK where it carries nothing (R415). -/
def Link.emit (x0 : Link) (now : Word) (seq : Option Nat) (what : Option LWhat) : Link :=
  let x := x0.transmits ⟨seq, x0.hdr, what⟩
  let vc := x.owedVc
  { x with sent := some ⟨seq, x0.hdr, what⟩, oweAck := false, oweNak := false, oweCr := tabPut natZero vc (x.owed vc - Nat.min 255 (x.owed vc)) x.oweCr, quiet := now,
           idleReq := false }

/-- A sequenced packet leaves, and the replay buffer holds it (R417); it spends its VC's credits (R421). -/
def Link.send (x0 : Link) (now : Word) (vc units : Nat) (what : LWhat) : Link :=
  let x := x0.emit now (some x0.nextSeq) (some what)
  { x with replay := x.replay ++ [⟨x.nextSeq, vc, units, 0, now, what⟩], nextSeq := (x.nextSeq + 1) % 4096,
           crReq := if vc = 0 then x.crReq - units else x.crReq, crRsp := if vc = 1 then x.crRsp - units else x.crRsp, crFwd := if vc = 2 then x.crFwd - units else x.crFwd }

/-- CREDIT_INIT leaves: 64 units of each VC, the receive buffers of R421; across RETRAIN it restates the same (R422). -/
def Link.creditOut (x : Link) (now : Word) : Link := { x.emit now none (some (.creditInit 64 64 64)) with crOut := true }

/-- Room for a packet in the replay buffer of 64 KiB and 2,047 packets (R417). -/
def Link.room (x : Link) (units : Nat) : Bool :=
  decide (x.replay.length < 2047) && decide ((x.replay.foldl (fun m p => m + 64 * p.units) 0) + 64 * units ≤ 65536)

/-- Credits of a VC. -/
def Link.credit (x : Link) (vc : Nat) : Nat := if vc = 0 then x.crReq else if vc = 1 then x.crRsp else x.crFwd

/-! ### The end of training -/

/-- The lanes are ACTIVE: the link layer judges width and peer, and the warden is decided (R403, R413, R425). Credit initialisation follows. -/
def State.lanesActive (s : State) (n : Nat) (ls : List Nat) : State :=
  let m := maskOf ls
  let s1 := ls.foldl (fun t i => ((t.setLaneSt n i 3).setFld (lnreg R.LACE_LNSTAT n i) F.LACE_LNSTAT.LOCK 1).onLink n
    (fun x => { x with fails := tabPut natZero i 0 x.fails, dfeAt := tabPut wordZero i (s.linkDtb n) x.dfeAt })) s
  let order := if s.on (lreg R.LACE_PHY_STAT n) F.LACE_PHY_STAT.REVERSED then ls.reverse else ls
  let a := lreg R.LACE_PHY_STAT n
  let s2 := (((s1.setFld a F.LACE_PHY_STAT.LOCKED m).setFld a F.LACE_PHY_STAT.ACTIVE m).putBit (lreg R.LACE_PHY_EVT n) 12 true).onLink n
    (fun x => { x with phase := 0, part := m, order := order, slots := 0, skipped := false })
  let st := s2.linkSt n
  if st ≠ 1 ∧ st ≠ 3 then s2
  else
    let peer := s2.fld (lreg R.LACE_PEER n) F.LACE_PEER.PKG
    let cfg := lreg R.LACE_LCFG n
    if ls.length < s2.minWidth n then s2.trainLost n 5
    else if peer = s2.pkgId then s2.trainLost n 3
    else if s2.on cfg F.LACE_LCFG.EXPECT_EN ∧ s2.fld cfg F.LACE_LCFG.EXPECT ≠ peer then s2.trainLost n 4
    else
      let own := s2.on cfg F.LACE_LCFG.WARDEN_PREF
      let other := s2.on (lreg R.LACE_PEER n) F.LACE_PEER.WARDEN
      let warden := if own = other then decide (s2.pkgId < peer) else own
      let t := (s2.setFld (lreg R.LACE_LSTAT n) F.LACE_LSTAT.WIDTH ls.length).setFld (lreg R.LACE_LSTAT n) F.LACE_LSTAT.WARDEN warden.toNat
      if warden then t.onLink n (fun x => x.creditOut (s.linkDtb n)) else t

/-- NEGOTIATE is over for the lanes of a list (R402). The order of the lanes heard must be 0–3 or 3–0. -/
def State.negotiated (s : State) (n : Nat) (ls : List Nat) : State :=
  let s1 := s.lanesFail n ((bitsOf (s.link n).part 4).filter (fun i => !ls.contains i))
  let heard (i : Nat) : Nat := tabGet natZero (s1.link n).heard i
  let lost (t : State) (bit cause : Nat) : State := ((ls.foldl (fun u i => u.setLaneSt n i 9) t).putBit (lreg R.LACE_PHY_EVT n) bit true).trainLost n cause
  if ls.isEmpty then s1.trainLost n 5
  else
    let straight := ls.all (fun i => heard i == i + 1)
    let crossed := ls.all (fun i => heard i == 4 - i)
    if !straight && !crossed then lost s1 13 2
    else
      let s2 := (s1.setFld (lreg R.LACE_PHY_STAT n) F.LACE_PHY_STAT.REVERSED (!straight).toNat).onLink n (fun x => { x with part := maskOf ls })
      let s3 := ls.foldl (fun t i => t.setFld (lnreg R.LACE_LNSTAT n i) F.LACE_LNSTAT.LOGICAL (if straight then i else 3 - i)) s2
      match s3.nextRate n with
      | some b => s3.attempt n b
      | none => lost s3 14 1

/-- An attempt has ended with the lanes of a list complete (R403). -/
def State.attemptOver (s : State) (n : Nat) (ls : List Nat) : State :=
  let part := bitsOf (s.link n).part 4
  if part.all ls.contains then s.lanesActive n ls
  else match s.nextRate n with
    | some b => s.attempt n b
    | none =>
      let s1 := s.lanesFail n (part.filter (fun i => !ls.contains i))
      if ls.isEmpty then s1.trainLost n 5 else s1.lanesActive n ls

/-! ### MGMT packets, acknowledgements and replay (R415–R420) -/

/-- Something waits to be sent on link l: its direction stays active, or leaves electrical idle (R424). -/
def State.linkHolds (s : State) (l : Nat) : State := s.onLink l (fun x => { x with idleReq := false, quiet := s.linkDtb l })

/-- A MGMT packet can leave now: the link is UP and not idle, and the replay buffer has room (R417, R421). -/
def State.mgmtReady (s : State) (n : Nat) : Bool := s.linkSt n == 2 && !(s.link n).tx && (s.link n).room 1

/-- Send a MGMT packet, or let it wait its turn. -/
def State.sendMgmt (s : State) (n : Nat) (what : LWhat) : State :=
  if s.mgmtReady n && (s.link n).mgmt.isEmpty then s.onLink n (fun x => x.send (s.linkDtb n) 3 1 what)
  else (s.onLink n (fun x => { x with mgmt := x.mgmt ++ [what] })).linkHolds n

/-- MGMT packets that wait leave, as many as can. -/
def State.pumpMgmt (s : State) (n : Nat) : Nat → State
  | 0 => s
  | fuel + 1 =>
    match (s.link n).mgmt with
    | [] => s
    | m :: ms => if s.mgmtReady n then (s.onLink n (fun x => { x with mgmt := ms }.send (s.linkDtb n) 3 1 m)).pumpMgmt n fuel else s.linkHolds n

/-- Retraining starts (R425, R436): more often in a row than the count for LACE without one packet acknowledged, the link is retired with cause REPLAY. -/
def State.linkRetrain (s : State) (n : Nat) : State :=
  if s.linkSt n ≠ 2 then s
  else
    let r := (s.link n).retrains + 1
    if s.retryCount 8 < r then s.retireLink n 6
    else
      let s1 := ((s.setLinkSt n 3).advSat (lreg R.LACE_LCNT n) F.LACE_LCNT.RETRAINS 1).onLink n (fun x => { x with retrains := r })
      s1.trainStart n 15

/-- The link layer wants the link retrained: the warden starts, the other end asks (R424, R425). -/
def State.wantRetrain (s : State) (n : Nat) : State :=
  if s.linkSt n ≠ 2 then s
  else if s.on (lreg R.LACE_LSTAT n) F.LACE_LSTAT.WARDEN then s.linkRetrain n
  else (s.sendMgmt n .retrain).onLink n (fun x => { x with asked := x.asked.or (some (s.linkDtb n)) })

/-- Every unacknowledged packet is replayed in order (R419): a transient event; past the count for LACE the link enters RETRAIN. -/
def State.replayAll (s : State) (n : Nat) : State :=
  let x := s.link n
  if x.replay.isEmpty ∨ s.linkSt n ≠ 2 then s
  else
    let z := x.replay.foldl (fun z p => z.emit (s.linkDtb n) (some p.seq) (some p.what)) x
    let y := { z with replay := x.replay.map (fun p => { p with count := p.count + 1, sentAt := s.linkDtb n }) }
    let m := y.replay.foldl (fun m p => Nat.max m p.count) 0
    let s1 := ((s.setLink n y).advSat (lreg R.LACE_LCNT n) F.LACE_LCNT.REPLAYS 1).laceTransient n 0xF m
    if s1.retryCount 8 < m then s1.wantRetrain n else s1

/-- Replay resumes after training, from the oldest unacknowledged packet (R419): it is the end of the retraining, no replay of its own, and its packets count afresh
(DESIGN CHOICE, notes/assumptions/58.md). -/
def State.resume (s : State) (n : Nat) : State :=
  let x := s.link n
  let z := x.replay.foldl (fun z p => z.emit (s.linkDtb n) (some p.seq) (some p.what)) x
  s.setLink n { z with replay := x.replay.map (fun p => { p with count := 0, sentAt := s.linkDtb n }) }

/-- A tag of link n whose packet is one of those acknowledged. -/
def tagAck (n : Nat) (gone : List Nat) (t : LaceTag) : LaceTag :=
  match t.link, t.seq with
  | some l, some q => { t with acked := t.acked || (l == n && gone.contains q) }
  | _, _ => t

/-- An acknowledgement up to a sequence number frees the packets it covers (R415, R417). -/
def State.ackTo (s : State) (n seq : Nat) : State :=
  let x := s.link n
  if x.replay.any (fun p => p.seq == seq) then
    let rest := (x.replay.dropWhile (fun p => p.seq != seq)).drop 1
    let gone := (x.replay.take (x.replay.length - rest.length)).map (·.seq)
    let t := s.setLink n { x with replay := rest, quiet := s.linkDtb n, retrains := 0 }
    (t.withNet (t.net.map (fun r => { r with lace := r.lace.map (tagAck n gone) }))).withSigOut (t.sigOut.map (fun g => { g with lace := g.lace.map (tagAck n gone) }))
  else s

/-- What every good packet's header says (R414, R415, R419): acknowledgement, credits, NAK. -/
def State.hdrIn (s : State) (n : Nat) (ackv nak : Bool) (ackseq cvc credits : Nat) : State :=
  let s1 := if ackv then s.ackTo n ackseq else s
  let s2 := s1.onLink n (fun x =>
    if cvc = 0 then { x with crReq := x.crReq + credits } else if cvc = 1 then { x with crRsp := x.crRsp + credits }
    else if cvc = 2 then { x with crFwd := x.crFwd + credits } else x)
  if nak then s2.replayAll n else s2

/-- A DATA or MGMT packet is judged (R415, R418): whether it is accepted. A bad one, or one out of order, is answered with one NAK; a duplicate is acknowledged again. -/
def State.seqIn (s : State) (n seq : Nat) (good : Bool) : State × Bool :=
  let x := s.link n
  if good && seq == x.expect then (s.setLink n { x with expect := (x.expect + 1) % 4096, nakked := false, taken := true, oweAck := true }, true)
  else if good && decide (2048 ≤ (seq + 4096 - x.expect) % 4096) then (s.setLink n { x with oweAck := true }, false)
  else if x.nakked then (s, false)
  else (s.setLink n { x with nakked := true, oweAck := true, oweNak := true }, false)

/-! ### Routes and what waits to leave (R428–R430) -/

/-- The links of package p's entry that count. -/
def State.routeLinks (s : State) (p : Nat) : List Nat :=
  let v := s.rd (R.LACE_RT p)
  if v.getLsbD 31 then
    ([fget v F.LACE_RT.L0, fget v F.LACE_RT.L1, fget v F.LACE_RT.L2]).filter (fun n => decide (n < 48) && s.linkLive n)
  else []

/-- The link a packet takes. -/
def State.routePick (s : State) (p x : Nat) : Option Nat :=
  let l := s.routeLinks p
  if l.isEmpty then none else l[x % l.length]?

/-- The payload of a request. -/
def reqPayload (q : Req) : Nat := match q.kind with
  | .write | .atomic => q.len
  | _ => 0

/-- A handle of another package as it reads in this one (R265, R266). -/
def localHandle (h : W32) : W32 := h &&& 0x0000FFFF ||| (h &&& 0x00FE0000)

/-- A link can carry DATA now. -/
def State.linkReady (s : State) (n vc units : Nat) : Bool :=
  let x := s.link n
  s.linkSt n == 2 && x.crIn && !x.tx && decide (units ≤ x.credit vc) && x.room units

/-- The DATA packet of a request for address a of package p, and of a signal: neither has crossed a link (R414, R430, R431). -/
def State.reqPkt (s : State) (n : NetReq) (p a : Nat) (tag : BitVec 16) : LData :=
  let o := n.atom.getD (.swap, 0)
  ⟨BitVec.ofNat 8 p, BitVec.ofNat 8 s.pkgId, 0, iniId n.req.ini, tag, BitVec.ofNat 4 n.req.cls,
   .req n.req.kind (BitVec.ofNat 64 a) (BitVec.ofNat 9 n.req.len) n.req.posted n.req.early n.data o.1 o.2⟩
def State.sigPkt (s : State) (g : RemoteSig) (tag : BitVec 16) : LData :=
  ⟨(g.handle >>> 24).setWidth 8, BitVec.ofNat 8 s.pkgId, 0, iniId g.ini, tag, BitVec.ofNat 4 g.cls, .sig g.handle g.add⟩

/-- Give a request or signal its tag and its link. -/
def State.newTag (s : State) (p x : Nat) : State × LaceTag :=
  (s.withLace { s.io.lace with nextTag := s.io.lace.nextTag + 1 }, ⟨s.io.lace.nextTag, s.tb.master, s.routePick p x, none, false⟩)

/-- Hand request k to the cluster, and send it if its link can carry it. -/
def State.pumpReq (s : State) (k : Nat) : State :=
  match s.net[k]? with
  | none => s
  | some n =>
    match n.abroad with
    | none => s
    | some (p, a) =>
      let t := match n.lace with
        | some t => (s, t)
        | none => s.newTag p (a / 4096 % 256)
      let u := t.1.withNet (t.1.net.set k { n with lace := some t.2 })
      match t.2.link, t.2.seq with
      | some l, none =>
        let units := laceUnits (reqPayload n.req)
        if u.linkReady l 0 units then
          let x := u.link l
          ((u.setLink l (x.send (u.linkDtb l) 0 units (.data (u.reqPkt n p a t.2.tag)))).withNet (u.net.set k { n with lace := some { t.2 with seq := some x.nextSeq } }))
        else u.linkHolds l
      | _, _ => u

/-- The same for signal k (R266). -/
def State.pumpSig (s : State) (k : Nat) : State :=
  match s.sigOut[k]? with
  | none => s
  | some g =>
    let t := match g.lace with
      | some t => (s, t)
      | none => s.newTag (g.handle >>> 24).toNat (g.handle.toNat % 256)
    let u0 := match g.lace, t.2.link with
      | none, some l => t.1.sigOutward g.ini g.cls (some 3) (g.handle.toNat % 4096) 0xF ⟨1 + l / 12, linkRouter (l % 12), 0⟩
      | _, _ => t.1
    let u := u0.withSigOut (u0.sigOut.set k { g with lace := some t.2 })
    match t.2.link, t.2.seq with
    | some l, none =>
      if u.linkReady l 0 1 then
        let x := u.link l
        ((u.setLink l (x.send (u.linkDtb l) 0 1 (.data (u.sigPkt g t.2.tag)))).withSigOut (u.sigOut.set k { g with lace := some { t.2 with seq := some x.nextSeq } }))
      else u.linkHolds l
    | _, _ => u

/-- Send what waits of responses and forwarded packets; one whose package has no link is dropped. -/
def State.pumpOut (s : State) : List LOut → State
  | [] => s
  | o :: os =>
    let l := match o.link with
      | some n => some n
      | none => s.routePick o.pkt.dpkg.toNat o.x
    match l with
    | none => ((s.freeBuf o.src (dataUnits o.pkt)).bounce o.pkt).pumpOut os
    | some n =>
      if s.linkReady n o.vc (dataUnits o.pkt) then
        ((s.onLink n (fun x => x.send (s.linkDtb n) o.vc (dataUnits o.pkt) (.data o.pkt))).freeBuf o.src (dataUnits o.pkt)).pumpOut os
      else
        let t := s.linkHolds n
        (t.withLace { t.io.lace with out := t.io.lace.out ++ [{ o with link := some n }] }).pumpOut os

/-- Link n sends a separate ACK where it owes one and has sent nothing that carried it (R415). -/
def State.ackOut (s : State) (n : Nat) : State :=
  let x := s.link n
  if !x.owes || s.linkSt n != 2 then s else if x.tx then s.linkHolds n else s.setLink n (x.emit (s.linkDtb n) none none)

/-- Signals to this package's own ID are delivered here, whatever its route entry says (R431): each handle is judged as a local one (R265, R266). -/
def State.ownSigs (s : State) : Nat → State
  | 0 => s
  | fuel + 1 =>
    match (List.range s.sigOut.length).find? (fun k => match s.sigOut[k]? with
      | some g => (g.handle >>> 24).toNat == s.pkgId && g.lace.isNone
      | none => false) with
    | none => s
    | some k =>
      match s.sigOut[k]? with
      | none => s
      | some g =>
        (match s.handle (localHandle g.handle) false with
         | .counter r => (s.withSigOut (s.sigOut.eraseIdx k)).addCounter r g.add
         | _ => s.undeliverSig k 8).ownSigs fuel

/-- Everything that waits for the cluster moves as far as it can; what has no link ends undelivered (R429). -/
def State.lacePump (s00 : State) : State :=
  let s0 := s00.each (fun t n => t.pumpMgmt n (t.link n).mgmt.length) (s00.io.lace.links.map (·.1))
  let s := s0.ownSigs s0.sigOut.length
  let s1 := (s.withLace { s.io.lace with out := [] }).pumpOut s.io.lace.out
  let s2 := s1.each State.pumpReq (List.range s1.net.length)
  let s3 := s2.each State.pumpSig (List.range s2.sigOut.length)
  (s3.undeliverWhere (fun t => t.link.isNone) (s3.net.length + s3.sigOut.length)).each State.ackOut (s3.io.lace.links.map (·.1))

/-! ### Registers -/

/-- A tap setting meets R391. -/
def tapsOk (v : W32) : Bool :=
  let p := fget v F.LACE_TX.PRE
  let m := fget v F.LACE_TX.MAIN
  let q := fget v F.LACE_TX.POST
  p + m + q == 48 && decide (16 + p + q ≤ m) && decide (p ≤ 8) && decide (q ≤ 16)

/-- A write of LACE_TXi (R392). -/
def State.tapWrite (s : State) (n i a : Nat) (v : W32) (acc : State → Nat → W32 → State) : State :=
  if tapsOk v then acc s a v
  else (s.putBit (lreg R.LACE_PHY_EVT n) 15 true).setFld (lreg R.LACE_PHY_EVT n) F.LACE_PHY_EVT.TAPSUM_LANE i

/-- The rate that LACE_TEST.RATE names is the one trained. -/
def State.testRateTrained (s : State) (n : Nat) (v : W32) : Bool :=
  s.fld (lreg R.LACE_PHY_STAT n) F.LACE_PHY_STAT.RATE == fget v F.LACE_TEST.RATE + 1

/-- The checkers and counts of a test start afresh. -/
def State.testClear (s : State) (n : Nat) : State :=
  let s1 := s.each (fun t i => (((t.wr (lnreg R.LACE_SYMERR n i) 0).wr (lnreg R.LACE_PRBS_ERR n i) 0).wr (lnreg R.LACE_PRBS_BITS_HI n i) 0).setFld (lnreg R.LACE_LNSTAT n i)
    F.LACE_LNSTAT.PRBS_SYNC 0) [0, 1, 2, 3]
  s1.withLace { s1.io.lace with prbs := tabKeep (fun k => k / 4 != n) s1.io.lace.prbs
                                gens := tabKeep (fun k => k / 4 != n) s1.io.lace.gens
                                bits := tabKeep (fun k => k / 4 != n) s1.io.lace.bits }

/-- The named lanes, trained, enter a test at the trained rate; every other lane goes to electrical idle (R405, R408). -/
def State.testLanes (s : State) (n : Nat) (ls : List Nat) : State :=
  (s.each (fun t i => if ls.contains i then (t.setLaneSt n i 7).putBit (lreg R.LACE_PHY_STAT n) (8 + i) false
    else if t.laneRetired n i then t else (t.setLaneSt n i 0).laneDark n i) [0, 1, 2, 3]).onLink n (fun x => { x with order := [] })

/-- A write of LACE_TEST (R405–R408). -/
def State.testWrite (s : State) (n a : Nat) (v : W32) (acc : State → Nat → W32 → State) : State :=
  let now := s.fld a F.LACE_TEST.MODE
  let mode := fget v F.LACE_TEST.MODE
  let mask := fget v F.LACE_TEST.LANES
  let ls := s.lanesIn n mask
  let refuse := s.putBit (lreg R.LACE_PHY_EVT n) 18 true
  let free := s.linkSt n = 0 ∧ !s.linkLive n
  if v.getLsbD 7 then
    if mode = 7 ∧ now = 7 ∧ mask ≠ 0 ∧ (bitsOf mask 4).all (fun i => s.laneSt n i == 3) then
      ((acc s a v).putBit a 7 false).onLink n (fun x => { x.sendsOn (bitsOf mask 4) setLPB with lpb := mask, slots := 0, skipped := false })
    else refuse
  else if mode = 0 then
    let t := acc s a v
    if now = 0 then t else t.lanesOff n
  else if !free then refuse
  else
    let s1 := (acc s a v).onLink n (fun x => { x with lpb := 0 })
    if mode = 7 then (s1.testClear n).trainStart n mask
    else if now = 7 ∧ 4 ≤ mode ∧ s.testRateTrained n v ∧ ls.all (fun i => s.laneSt n i == 3) then
      s1.testClear n |>.testLanes n ls
    else
      let s2 := ((s1.testClear n).lanesOff n).setRate n (fget v F.LACE_TEST.RATE + 1)
      ls.foldl (fun t i => t.setLaneSt n i 7) s2

/-- A write of LACE_LCFG (R413, R434). -/
def State.lcfgWrite (s : State) (n a : Nat) (v : W32) (acc : State → Nat → W32 → State) : State :=
  let was := s.bit a 0
  let st := s.linkSt n
  let t := acc s a v
  if v.getLsbD 0 then
    if (!was ∧ st = 0) ∨ st = 4 then
      let u := (((t.setFld (lreg R.LACE_TEST n) F.LACE_TEST.MODE 0).setLink n { Link.init with fails := (t.link n).fails }).setLinkSt n 1).setFld (lreg R.LACE_LSTAT n) F.LACE_LSTAT.CAUSE 0
      u.trainStart n 15
    else t
  else if st = 0 ∨ st = 5 then t
  else (t.linkDown n 0 0).syncLive s

/-- Record FIRMWARE's retirement of link n (LACE_LCTL.RETIRE, R434, R450). -/
def State.linkRetireCmd (s : State) (n : Nat) : State :=
  if s.linkSt n = 5 then s
  else
    let r := s.mkRetired 0x2B (linkUnit n) 0xF 0 4 0
    (s.retireWith (linkUnit n) 4 r).setFld (lreg R.LACE_LSTAT n) F.LACE_LSTAT.CAUSE 7

/-- A record of class REPAIRED (R450). -/
def State.repairRec (s : State) (u : BitVec 16) (sub : Nat) : Rec := ⟨s.tb.master, 0, 0x2B, 4, 0, 0, u, BitVec.ofNat 16 sub, 0, 0, []⟩

/-- Return the retired lanes of link n to OFF. -/
def State.lanesReadmit (s : State) (n : Nat) : State :=
  ((bitsOf 15 4).filter (fun i => s.laneRetired n i)).foldl (fun t i =>
    let t1 := (t.withFlt { t.flt with lanesRetired := t.flt.lanesRetired.filter (· != 4 * n + i) }).onLink n (fun x => { x with fails := tabPut natZero i 0 x.fails })
    let r := t1.repairRec (linkUnit n) i
    ((t1.queueSummary ⟨linkUnit n, some (4 * n + i), false, none, 0, some (t1.recSeq r)⟩).logRec r).permEvent (linkUnit n)) s

/-- A unit is admitted to service (R451): its bits in the summary, its LIVE_ bits, LIVE_SEQ, its bank count, and its record, with the unit code the action names (R450) and SUB
0xF for a whole link (R438). -/
def State.admitUnit (s : State) (u named : BitVec 16) : State :=
  let s1 := s.withFlt { s.flt with retired := s.flt.retired.filter (· != u), causes := tabPut natZero u.toNat 0 s.flt.causes,
                                   bankUe := tabPut natZero u.toNat 0 s.flt.bankUe }
  let s2 := s1.liveWords.seqAdvance
  let r := s2.repairRec named (if u.toNat / 4096 = 7 then 0xF else 0)
  ((s2.queueSummary ⟨u, none, false, none, 0, some (s2.recSeq r)⟩).logRec r).permEvent u

/-- LACE_LCTL.READMIT: a RETIRED link and its retired lanes return to DISABLED; it has the effect of ADMIT (R450). -/
def State.linkReadmit (s : State) (n : Nat) : State :=
  if !s.dieLive (n / 12) then s
  else
    let t := s.lanesReadmit n
    if s.linkSt n = 5 then (((t.setLinkSt n 0).setFld (lreg R.LACE_LSTAT n) F.LACE_LSTAT.CAUSE 0).lanesOff n |>.setFld (lreg R.LACE_LCFG n) F.LACE_LCFG.EN 0) |>.admitUnit (linkUnit n) (linkUnit n)
    else t

/-- A swap request of this end (R426): it belongs to the window of the last MARK, and travels as MGMT SWAP, once the link is UP; refused in the other states. -/
def State.linkSwap (s : State) (n : Nat) : State :=
  if s.linkSt n = 2 ∨ s.linkSt n = 3 then
    (s.onLink n (fun x => { x with swaps := x.swaps ++ [(x.mark, true)] })).sendMgmt n .swap
  else (s.setFld (lreg R.LACE_LSTAT n) F.LACE_LSTAT.SWAP 3).putBit (lreg R.LACE_LEVT n) 2 true

/-- A write of LACE_LCTL: retrain, swap, retire, readmit, in this order. -/
def State.lctlWrite (s : State) (n : Nat) (v : W32) : State :=
  let s1 := if v.getLsbD 0 then s.wantRetrain n else s
  let s2 := if v.getLsbD 1 then s1.linkSwap n else s1
  let s3 := if v.getLsbD 2 then s2.linkRetireCmd n else s2
  if v.getLsbD 3 then s3.linkReadmit n else s3

/-- A write of a link's block: offset o of link n. -/
def State.laceWrite (s : State) (a : Nat) (v : W32) (acc : State → Nat → W32 → State) : State :=
  let o := (a - 0x080000000000) % 0x10000000 - 0x60000
  let n := 12 * ((a - 0x080000000000) / 0x10000000) + o / 0x1000
  let r := o % 0x1000
  if r = 0x10 then s.testWrite n a v acc
  else if r = 0x800 then s.lcfgWrite n a v acc
  else if r = 0x804 then s.lctlWrite n v
  else if 0x100 ≤ r ∧ r < 0x200 ∧ r % 0x40 = 0 then s.tapWrite n ((r - 0x100) / 0x40) a v acc
  else if 0x100 ≤ r ∧ r < 0x200 ∧ r % 0x40 = 4 then
    let t := acc s a v
    if v.getLsbD 4 then t.setCtle n ((r - 0x100) / 0x40) (v.toNat % 16) else t
  else acc s a v

/-- Every link is DISABLED, FAILED or RETIRED (R427). -/
def State.linksIdle (s : State) : Bool := (List.range 48).all (fun n => !s.diePowered (n / 12) || s.linkSt n == 0 || s.linkSt n == 4 || s.linkSt n == 5)

/-- A write of the cluster block (R427, R428, R432). -/
def State.clusterWrite (s : State) (a : Nat) (v : W32) (acc : State → Nat → W32 → State) : State :=
  if a = R.LACE_PKG then
    let t := if v.getLsbD 9 then s.putBit a 9 false else s
    if s.linksIdle then (t.setFld a F.LACE_PKG.ID (v.toNat % 256)).putBit a 8 true else t.putBit a 9 true
  else if R.LACE_WIN_LO 0 ≤ a ∧ a < R.LACE_RT 0 then
    let w := (a - R.LACE_WIN_LO 0) / 8
    let on := s.windowEn w
    if a % 8 = 0 then (if on then s else acc s a (v &&& 0xFFFFF000))
    else if on then acc s a ((v &&& 0xC0000000) ||| (s.rd a &&& 0x00FFFFFF)) else acc s a v
  else acc s a v

/-! ### Views -/

/-- LACE_LSTATi.STATE as it reads: IDLE while the lane's transmitter is idle or its receiver in idle hold, EXITING while it looks for COM. -/
def State.laneView (s : State) (n i : Nat) : Nat :=
  let c := s.laneSt n i
  let x := s.link n
  if c = 3 then
    let r := tabGet natZero x.rx i
    if r = 2 then 5 else if x.tx ∨ r = 1 then 4 else 3
  else c

/-- Reads of a link's block that are views or latches. -/
def State.laceRead (s : State) (a : Nat) : Option (State × W32) :=
  let o := (a - 0x080000000000) % 0x10000000 - 0x60000
  let n := 12 * ((a - 0x080000000000) / 0x10000000) + o / 0x1000
  let r := o % 0x1000
  let i := (r - 0x100) / 0x40
  if r = 0x808 then some (s, fput (s.rd a) F.LACE_LSTAT.STATE (s.linkSt n))
  else if 0x100 ≤ r ∧ r < 0x200 ∧ r % 0x40 = 0xC then some (s, fput (s.rd a) F.LACE_LNSTAT.STATE (s.laneView n i))
  else if 0x100 ≤ r ∧ r < 0x200 ∧ r % 0x40 = 4 then some (s, fput (s.rd a) F.LACE_RX.CTLE (tabGet natZero s.io.lace.ctle (4 * n + i)))
  else if 0x100 ≤ r ∧ r < 0x200 ∧ r % 0x40 = 8 ∧ s.laneView n i = 3 ∧ s.on (lreg R.LACE_PHY_CFG n) F.LACE_PHY_CFG.CONT then
    let t := s.dfeRun n i
    some (t, t.rd a)
  else if 0x100 ≤ r ∧ r < 0x200 ∧ r % 0x40 = 0x18 then
    let b := tabGet wordZero s.io.lace.bits (4 * n + i)
    some (s.wr (a + 4) ((b >>> 32).setWidth 32), b.setWidth 32)
  else none


end Sys2Proof.Machine
end

