-- ==== Sys2Proof/Machine/FaultCtl.lean ====
section
/-! DEFINITION. Machine/FaultCtl.lean: the fault manager's registers: the repair actions and the log's (17_faults.md R450–R453). -/
namespace Sys2Proof.Machine

/-- FLT_ACT_STAT codes. -/
def actOk : Nat := 0
def actBadUnit : Nat := 1
def actState : Nat := 2
def actNotLive : Nat := 3
def actFull : Nat := 4

/-- A unit is in service: its LIVE_ bit, or where it has none, that it is not retired (R450). A link is in service in UP and RETRAIN (R412). -/
def State.unitLive (s : State) (u : BitVec 16) : Bool :=
  let ix := u.toNat % 4096
  !s.isRetired u &&
  (match u.toNat / 4096 with
   | 1 => s.dieLive ix
   | 2 => s.larderState ix == 3
   | 3 => s.engineLive ix
   | 4 => s.engineLive (ix / 4)
   | 5 => s.engineLive (ix / 16)
   | 6 => s.larderState (ix / 64) == 3
   | 7 => s.linkLive ix
   | 8 => s.bridgeLive ix
   | 9 => s.regionLive ix
   | _ => true)

/-- The units that contain a unit are in service. -/
def State.containersLive (s : State) (u : BitVec 16) : Bool := (containers u).all s.unitLive

/-- The action's record (R450): KIND ACTION, the unit code it names. -/
def State.actRec (s : State) (u : BitVec 16) (cls cause : Nat) : Rec := ⟨s.tb.master, 0, 0x2B, cls, 0, cause, u, 0, 0, 0, []⟩

/-- RETIRE of a unit (R445, R450); the mesh takes its die (R446). -/
def State.actRetire (s : State) (u : BitVec 16) : State × Nat :=
  let v := retiredUnit u
  if s.isRetired v then (s, actState)
  else if !s.containersLive v then (s, actNotLive)
  else if !s.unitLive v then (s, actState)
  else if v.toNat / 4096 = 7 then (s.linkRetireCmd (v.toNat % 4096), actOk)
  else (s.retireWith v 4 (s.actRec u 3 4), actOk)

/-- Lines of a bank are written with zeros and valid tags (R451). -/
def State.zeroBank (s : State) (u : BitVec 16) : State :=
  let ix := u.toNat % 4096
  match u.toNat / 4096 with
  | 5 =>
    let b := 0x300000000000 + ix / 128 * 0x10000000 + ix / 16 % 8 * 0x01000000 + ix % 16 * 0x100000
    s.clearMem b (b + 0x100000)
  | 6 =>
    let b := 0x200000000000 + ix / 64 * 0x100000000 + ix % 64 * 0x4000000
    s.clearMem b (b + 0x4000000)
  | _ => s

/-- TEST (R450, R451). -/
def State.actTest (s : State) (u : BitVec 16) : State × Nat :=
  let ty := u.toNat / 4096
  if !(ty == 3 || ty == 4 || ty == 5 || ty == 6 || ty == 9) || !s.isRetired u || s.testing u then (s, actState)
  else if !s.containersLive u then (s, actNotLive)
  else match [0, 1, 2, 3].find? (fun n => !s.bit (R.FLT_TEST n) 31) with
    | none => (s, actFull)
    | some n =>
      let s1 := (s.zeroBank u).wr (R.FLT_TEST n) (BitVec.ofNat 32 (0x80000000 + u.toNat))
      let s2 := (s1.setFld R.FLT_STAT F.FLT_STAT.TESTS (s1.fld R.FLT_STAT F.FLT_STAT.TESTS + 1)).queuesOn
      (s2.logRec (s2.actRec u 5 0), actOk)

/-- What an admitted unit is when it returns (R451); an engine's units are IDLE with empty slots, whatever its test left in them (R337), and a fabric region is EMPTY. -/
def State.admitAs (s : State) (u : BitVec 16) : State :=
  let ix := u.toNat % 4096
  match u.toNat / 4096 with
  | 1 => s.setDieState ix 1
  | 2 => s.setLarderState ix 1
  | 3 => s.stopEngine ix
  | 0xB => (s.setCore (.sole (Fin.ofNat 10 (8 + ix))) (Core.init .held)).putBit R.CORE_PAIR_STAT (16 + ix) false
  | 9 => s.setRgnState ix 0
  | 0xC | 0xD | 0xE => s.heelUnitAdmit u
  | _ => s.zeroBank u

/-- ADMIT (R451); its record names the unit code of the write, the summary the unit. The re-admission of the Sole ↔ Heel
link judges its pair of images (R119), and brings the Heel's waiting reports. A compute die is admitted whether or not its Sole bridge is (DESIGN CHOICE,
notes/assumptions/115.md). -/
def State.actAdmit (s : State) (u : BitVec 16) : State × Nat :=
  let v := retiredUnit u
  if (containers v).any s.isRetired then (s, actNotLive)
  else if !s.isRetired v then (s, actState)
  else if !s.containersLive v then (s, actNotLive)
  else if v.toNat / 4096 = 7 then (s.linkReadmit (v.toNat % 4096), actOk)
  else
    let t := ((s.endTest v).admitAs v).admitUnit v u
    (if v = unitCode 8 16 then t.judgeHi.flushReports else t, actOk)

/-- ABANDON (R450). -/
def State.actAbandon (s : State) (u : BitVec 16) : State × Nat :=
  if !s.testing u then (s, actState)
  else (s.testFail u 4 (s.actRec u 3 4), actOk)

/-- REVOKE (R450): holds of package p. -/
def State.actRevoke (s : State) (u : BitVec 16) : State × Nat :=
  let p := u.toNat % 4096
  if u.toNat / 4096 ≠ 0xF ∨ 255 < p then (s, actBadUnit)
  else
    let t := s.revokeHolds (fun o => o.toNat / 4096 == 0xF && o.toNat / 16 % 256 == p)
    (t.logRec (t.actRec u 0 0), actOk)

/-- A write of FLT_ACT (R450): ignored without its KEY, and for an ACTION that the table does not name. -/
def State.fltAct (s : State) (v : W32) : State :=
  let u : BitVec 16 := v.setWidth 16
  let act := fget v F.FLT_ACT.ACTION
  let ty := u.toNat / 4096
  if fget v F.FLT_ACT.KEY ≠ 0x5A ∨ act = 0 ∨ 5 < act then s
  else
    let p :=
      if act = 5 then s.actRevoke u
      else if ty = 0 ∨ ty = 0xF ∨ !s.unitPresent u then (s, actBadUnit)
      else if act = 1 then s.actRetire u
      else if act = 2 then s.actTest u
      else if act = 3 then s.actAdmit u
      else s.actAbandon u
    (p.1.setFld R.FLT_ACT_STAT F.FLT_ACT_STAT.CODE p.2).setEvt 5

/-- A write in the fault block. -/
def State.faultWrite (s : State) (a : Nat) (v : W32) (acc : State → Nat → W32 → State) : State :=
  if a = R.FLT_ACT then s.fltAct v
  else if a = R.FLT_LOG_CFG then
    let t := acc s a v
    (t.withFlt { t.flt with refused := false }).drainRecs 64
  else if a = R.FLT_LOG_TAIL then (acc s a v).drainRecs 64
  else if a = R.FLT_CFG then (acc s.recurRoll a v).recurLowered (s.fld R.FLT_CFG F.FLT_CFG.RECUR_THR)
  else acc s a v

end Sys2Proof.Machine
end

