-- ==== Sys2Proof/Machine/OutOps.lean ====
section
/-! DEFINITION. Machine/OutOps.lean: what the output stages do: commands taken, shutdowns and restarts, diagnosis, patterns, keep paths, and their registers
(18_outputs.md, 05_images.md R123). -/
namespace Sys2Proof.Machine

/-! ### Set-up fields -/

/-- RESTART of a stage; 0 is treated as 1 (R464). -/
def State.restartMax (s : State) (x : Nat) : Nat :=
  let n := if x < 40 then s.fld (R.HSO_DCFG x) F.HSO_DCFG.RESTART else if x < 48 then s.fld (R.HBR_HPER (x - 40)) F.HBR_HPER.RESTART
    else s.fld (R.HBR_PPER (x - 48)) F.HBR_PPER.RESTART
  if n = 0 then 1 else n

/-- RDLY in ticks. -/
def State.restartDelay (s : State) (x : Nat) : Nat :=
  let n := if x < 40 then s.fld (R.HSO_DCFG x) F.HSO_DCFG.RDLY else if x < 48 then s.fld (R.HBR_HPER (x - 40)) F.HBR_HPER.RDLY
    else s.fld (R.HBR_PPER (x - 48)) F.HBR_PPER.RDLY
  100000 * (if n = 0 then 1 else n)

/-- TRIP in ticks. -/
def State.tripTime (s : State) (x : Nat) : Nat :=
  let n := if x < 40 then s.fld (R.HSO_DCFG x) F.HSO_DCFG.TRIP else s.fld (R.HBR_HPER (x - 40)) F.HBR_HPER.TRIP
  if n = 0 then 10000 else if n = 1 then 100000 else if n = 2 then 1000000 else 5000000

def State.restarts (s : State) (x : Nat) : Nat := s.fld (diagReg x) F.HSO_DIAG.RESTARTS

/-- The VPWR rail of a channel or half-bridge (R457, R476). -/
def stageRail (x : Nat) : Nat := if x < 8 then 0 else if x < 24 then 1 else 2

/-! ### On edges (R460) -/

/-- A PWM period of a drive is in force. -/
def Stage.inPwm (y : Stage) (x : Nat) : Bool := pwmMode x y.cur.mode

/-- Another on edge fell on the stage's rail less than 0.5 µs ago (R460). -/
def State.edgeBusy (s : State) (x : Nat) : Bool :=
  decide (x < 48) && (match tabGet noCount s.io.outs.edges (stageRail x) with
    | some t => decide (s.tb.body < t + 50)
    | none => false)

/-- When the on edge of a stage is due, in 1/1,024 of 10 ns: PHASE × PERIOD / 1,024 after its period's start (R458), but with DUTY 1,024 at it, and of a static drive when
it was commanded. -/
def State.edgeAt (s : State) (x : Nat) : Nat :=
  let y := s.stage x
  if y.inPwm x && y.cur.duty != 1024 && (s.owner x).isNone then 1024 * y.start + y.cur.phase * y.cur.period * perUnit x else 1024 * y.start

/-- The on edge of a stage is still to come, and nothing keeps it from coming. -/
def State.edgeWaits (s : State) (x : Nat) : Bool := !s.stageBlocked x && (s.stage x).fresh

/-- A stage of a lower number on the same rail has its on edge due at the same instant (R460). -/
def State.edgeBehind (s : State) (x : Nat) : Bool :=
  decide (x < 48) && (List.range x).any (fun z => stageRail z == stageRail x && s.edgeWaits z && s.edgeAt z == s.edgeAt x)

/-- An on edge has fallen on the stage's rail. -/
def State.edged (s : State) (x : Nat) : State :=
  if x < 48 then s.withOuts { s.io.outs with edges := tabPut noCount (stageRail x) (some s.tb.body) s.io.outs.edges } else s

/-- Close the switches m outside a PWM on-phase. Where that closes a high side on a rail, it is an on edge, which waits where one of the rail is too near (R460). -/
def State.edgeOn (s : State) (x m : Nat) : State :=
  let y := s.stage x
  if 48 ≤ x ∨ !m.testBit 0 ∨ y.closed.testBit 0 ∨ y.after = some m then s.goTo x m
  else
    let t := s.onStage x (fun z => { z with start := if z.inPwm x && (s.owner x).isNone then z.start else s.tb.body })
    if t.edgeBusy x || t.edgeBehind x then (t.goTo x (y.closed &&& m)).onStage x (fun z => { z with fresh := true })
    else (t.goTo x m).edged x

/-- The switches that the pattern of an owned stage closes, or the stage's own drive. -/
def State.wantMask (s : State) (x : Nat) : Nat :=
  match s.owner x with
  | some k =>
    let d := s.fld (R.HBR_PATSTEP k (s.fld (R.HBR_PATSTAT k) F.HBR_PATSTAT.STEP)) F.HBR_PATSTEP.DRIVE
    driveMask (decide (48 ≤ x)) ((s.patStages k).headD 0 != x) d
  | none => onMask x (s.stage x).cur.mode

/-! ### Commands -/

/-- A stage takes the drive its registers command (R459, R464): a static one at once; a PWM one at the first period start from a DTB on. -/
def State.takeDrive (s : State) (x : Nat) (from_ : Word) : State :=
  let d := s.desired x
  if pwmMode x d.mode then s.onStage x (fun y => { y with pend := y.pend ++ [(d, from_)] })
  else
    let u := if turns x (s.stage x).cur.mode d.mode then s.openAll x else s
    let t := u.onStage x (fun y => { y with cur := d, pend := [], fresh := false })
    if t.stageBlocked x then t else t.edgeOn x (onMask x d.mode)

/-- A stage that is no longer blocked goes back to what it is commanded to do: its pattern's drive, or its registers'. -/
def State.reapply (s : State) (x : Nat) : State :=
  match s.owner x with
  | some _ =>
    let t := s.onStage x (fun y => { y with fresh := false })
    if t.stageBlocked x then t else t.edgeOn x (t.wantMask x)
  | none => (s.onStage x (fun y => { y with cur := ⟨0, 0, 0, 0⟩, pend := [], fresh := false })).takeDrive x s.heelDtb

/-- A write of a drive register of a stage has been performed (R459, R465, R483): refused to an owned or retired stage. -/
def State.stageCmd (s : State) (x : Nat) (set : State → State) : State :=
  if s.stageRetired x ∨ (s.owner x).isSome then s.stageEvt x else (set s).takeDrive x (s.heelDtb + 200)

/-- A channel's periods are numbered anew (R466). -/
def State.renumber (s : State) (x : Nat) : State := s.onStage x (fun y => { y with next := 0 })

/-- The keep path of HS24 or HS25 hands over to the main switch (R474). -/
def State.keepOver (s : State) (x : Nat) : State := if x = 24 ∨ x = 25 then s.setKeep (x - 24) (keepDefault 0) else s

/-- A write of HSO_CTLi. -/
def State.hsoCtl (s : State) (x : Nat) (set : State → State) : State := ((s.keepOver x).stageCmd x set).renumber x

/-! ### Shutdown and restart (R464) -/

/-- A stage whose restarts are used up stays off, and the fault manager retires it on its report (R464). -/
def State.stageFail (s : State) (x : Nat) : State :=
  (s.onStage x (fun y => { y with dead := true })).heelReport .permanent (s.mkRetired 0xA (stageUnit x) 0 (s.restartMax x) 1 0)

/-- A protection shutdown of a stage: cause is the PROT code of a channel or half-bridge, the STATE code of a pre-driver. -/
def State.shutdown (s : State) (x cause : Nat) : State :=
  let s1 := match s.owner x with
    | some k => s.patEnd k 5
    | none => s
  let s2 := (s1.openAll x).onStage x (fun y => { y with trip := 0, since := none, limited := false, shutAt := some s.heelDtb, fresh := false })
  let n := s2.restarts x + 1
  let s3 := s2.setFld (diagReg x) F.HSO_DIAG.RESTARTS (Nat.min n 15)
  let s4 := (if x < 48 then (s3.setFld (diagReg x) F.HSO_DIAG.PROT cause) else s3.setFld (diagReg x) F.HBR_PSTAT.STATE cause).stageEvt x
  if s4.restartMax x < n then s4.stageFail x
  else s4.onStage x (fun y => { y with due := some (s.heelDtb + BitVec.ofNat 64 (s.restartDelay x)) })

/-- The stage restarts. -/
def State.restart (s : State) (x : Nat) : State :=
  let s1 := s.onStage x (fun y => { y with due := none, first := true })
  let s2 := if x < 48 then s1.setProt x 0 else s1.setFld (diagReg x) F.HBR_PSTAT.STATE 0
  s2.reapply x

/-! ### Diagnosis (R466–R471) -/

/-- The diagnosis clock in ticks: the DTB, but for the time VBAT_LOW or VBAT_OV has been set. -/
def State.diagNow (s : State) : Nat :=
  (match s.io.outs.stopped with
   | some t => t.toNat
   | none => s.heelDtb.toNat) - s.io.outs.lost

/-- Measurements are taken. -/
def State.diagOn (s : State) : Bool := s.io.outs.stopped.isNone

/-- AGE in ms, and whether 2 s have passed. -/
def State.ageOf (s : State) (m : Option Nat) : Nat :=
  match m with
  | some t => Nat.min ((s.diagNow - t) / 100000) 0xFFFF
  | none => 0xFFFF
def State.ageOut (s : State) (m : Option Nat) : Bool :=
  match m with
  | some t => decide (200000000 ≤ s.diagNow - t)
  | none => true

/-- STATE changes, with its event. -/
def State.setDiag (s : State) (x c : Nat) : State :=
  if s.fld (diagReg x) F.HSO_DIAG.STATE = c then s else (s.setFld (diagReg x) F.HSO_DIAG.STATE c).stageEvt x

/-- 2 s without a measurement (R468). -/
def State.untested (s : State) (x : Nat) : State :=
  if s.ageOut (s.stage x).meas then (s.setDiag x 0).onStage x (fun y => { y with val := 0, cnt := 0 }) else s

/-- A measurement of a stage by a path: 1 on-state, 2 probe, 3 off-state. It reads 1 OK, 2 OPEN or 3 SHORT_VBAT; an on-phase spent in limit leaves STATE unchanged. -/
def State.measured (s0 : State) (x src v : Nat) : State :=
  let s := s0.untested x
  let y := s.stage x
  let n := s.fld R.HSO_CFG F.HSO_CFG.OL_FILT
  let t := s.onStage x (fun z => { z with meas := some s.diagNow })
  let u := if x < 40 then t.setFld (diagReg x) F.HSO_DIAG.SRC src else t
  if y.limited ∧ src ≠ 3 then u
  else
    let c := if y.val = v then y.cnt + 1 else 1
    let w := u.onStage x (fun z => { z with val := v, cnt := c })
    if (if n = 0 then 1 else n) ≤ c then w.setDiag x v else w

/-- A sample of the load current (R471, R477). -/
def State.sampleCur (s : State) (x : Nat) (ma : BitVec 16) : State :=
  (s.setFld (if x < 40 then R.HSO_CUR x else R.HBR_HCUR (x - 40)) F.HSO_CUR.CUR ma.toNat).onStage x (fun z => { z with sampled := some s.diagNow })

def State.onDiag (s : State) (x : Nat) : Bool := if x < 40 then s.on (R.HSO_DCFG x) F.HSO_DCFG.ONDIAG else s.on (R.HBR_HPER (x - 40)) F.HBR_HPER.ONDIAG

/-- The on-phase of a drive lasts at least 40 µs: DUTY × PERIOD / 1,024, or a static mode. -/
def longOn (x : Nat) (d : Drive) : Bool := !pwmMode x d.mode || d.duty == 1024 || decide (40 * 1024 ≤ d.duty * d.period)

/-- VBAT_LOW or VBAT_OV has changed: the diagnosis clock stops or runs on (R469). -/
def State.diagGate (s : State) : State :=
  let o := s.io.outs
  if s.sup.vbatLow ∨ s.sup.vbatOv then
    (if o.stopped.isSome then s else s.withOuts { o with stopped := some s.heelDtb })
  else match o.stopped with
    | some t => s.withOuts { o with stopped := none, lost := o.lost + (s.heelDtb.toNat - t.toNat) }
    | none => s

/-! ### Patterns -/

/-- The switch level that ends the present step is there. -/
def State.patSwitch (s : State) (k : Nat) : Bool :=
  let w := s.rd (R.HBR_PATSTEP k (s.fld (R.HBR_PATSTAT k) F.HBR_PATSTAT.STEP))
  fget w F.HBR_PATSTEP.END == 2 && s.swLevel (fget w F.HBR_PATSTEP.SW) == w.getLsbD 4

/-- Drive the target as the present step says. -/
def State.patDrive (s : State) (k : Nat) : State := s.each State.reapply (s.patStages k)

/-- The present step has ended: the next one, whose switch may already have its level, or DONE. -/
def State.patNext (s : State) (k : Nat) : Nat → State
  | 0 => s
  | fuel + 1 =>
    let a := R.HBR_PATSTAT k
    let n := s.fld a F.HBR_PATSTAT.STEP
    if s.fld (R.HBR_PATCFG k) F.HBR_PATCFG.NSTEPS ≤ n then s.patEnd k 2
    else
      let t := ((s.setFld a F.HBR_PATSTAT.STEP (n + 1)).setPat k (some s.heelDtb)).patDrive k
      if t.patSwitch k then t.patNext k fuel else t

/-- START (R481). -/
def State.patStart (s : State) (k : Nat) : State :=
  let a := R.HBR_PATSTAT k
  let xs := s.patStages k
  if (s.pat k).isSome then s
  else if xs.eraseDups.length ≠ xs.length ∨ xs.any (fun x => s.stageRetired x || (s.owner x).isSome) then s.setFld a F.HBR_PATSTAT.STATE 6
  else
    let s1 := ((s.setFld a F.HBR_PATSTAT.STATE 1).setFld a F.HBR_PATSTAT.STEP 0).setFld a F.HBR_PATSTAT.ELAPSED 0
    let s2 := s1.each (fun t x => t.onStage x (fun y => { y with cur := ⟨0, 0, 0, 0⟩, pend := [], fresh := false })) xs
    let s3 := (s2.setPat k (some s.heelDtb)).patDrive k
    if s3.patSwitch k then s3.patNext k 4 else s3

/-- Switch levels have changed: every SWITCH step whose level is there ends (R482). -/
def State.patSwitches (s : State) : State :=
  s.each (fun t k => if (t.pat k).isSome && t.patSwitch k then t.patNext k 4 else t) [0, 1, 2, 3]

/-! ### Keep paths (R473–R475) -/

/-- K24 or K25 of HSO_KEEP as a word gives it; 3 is OFF. -/
def keepMode (v : W32) (k : Nat) : Nat :=
  let m := fget v (if k = 0 then F.HSO_KEEP.K24 else F.HSO_KEEP.K25)
  if m = 3 then 0 else m

/-- The keep path drives now; v is HSO_KEEP. -/
def State.keepActive (s : State) (v : W32) (k : Nat) : Bool :=
  let y := s.keep k
  let m := keepMode v k
  y.armed && !y.tripped && !s.sup.ovOff && (m == 1 || (m == 2 && y.lit))

/-! ### Registers -/

/-- The index of a register family's block at an offset. -/
def blk (o base stride : Nat) : Nat := (o - base) / stride

/-- A write of the HSO block. -/
def State.hsoWrite (s : State) (a : Nat) (v : W32) (acc : State → Nat → W32 → State) : State :=
  let o := a - 0x2000A000
  if 0x100 ≤ o ∧ o < 0x600 then
    let x := blk o 0x100 0x20
    let r := o % 0x20
    if r = 0 then s.hsoCtl x (fun t => acc t a v)
    else if r = 4 then
      let t := acc s a v
      if s.stageRetired x then s.stageEvt x else if pwmMode x (t.desired x).mode then t.takeDrive x (t.heelDtb + 200) else t
    else if r = 8 then (if s.stageRetired x then s.stageEvt x else (acc s a v).renumber x)
    else acc s a v
  else acc s a v

/-- A write of the HBR block. -/
def State.hbrWrite (s : State) (a : Nat) (v : W32) (acc : State → Nat → W32 → State) : State :=
  let o := a - 0x2000B000
  let per (x : Nat) : State :=
    if s.stageRetired x ∨ (s.owner x).isSome then s.stageEvt x
    else
      let t := acc s a v
      if pwmMode x (t.desired x).mode then t.takeDrive x (t.heelDtb + 200) else t
  if 0x100 ≤ o ∧ o < 0x200 then
    let x := 40 + blk o 0x100 0x20
    if o % 0x20 = 0 then s.stageCmd x (fun t => acc t a v) else if o % 0x20 = 4 then per x else acc s a v
  else if 0x400 ≤ o ∧ o < 0x500 then
    let x := 48 + blk o 0x400 0x40
    if o % 0x40 = 0 then s.stageCmd x (fun t => acc t a v) else if o % 0x40 = 8 then per x
    else if o % 0x40 = 4 ∧ (s.stageRetired x ∨ (s.owner x).isSome) then s.stageEvt x else acc s a v
  else if 0x800 ≤ o ∧ o < 0x900 then
    let k := blk o 0x800 0x40
    if o % 0x40 = 0x14 then
      let t := if v.getLsbD 0 then s.patStart k else s
      if v.getLsbD 1 then t.patEnd k 4 else t
    else if (s.pat k).isSome then s
    else acc s a v
  else acc s a v

/-- Reads of these blocks that are views. -/
def State.outRead (s : State) (a : Nat) : Option W32 :=
  if a < 0x2000A000 ∨ 0x2000C000 ≤ a then none
  else if a = R.HSO_KEEP_STAT then
    let v := s.rd R.HSO_KEEP
    some (fput (s.rd a) F.HSO_KEEP_STAT.ACTIVE ((s.keepActive v 0).toNat + 2 * (s.keepActive v 1).toNat))
  else
    let diag (x : Nat) : W32 :=
      let m := (s.stage x).meas
      let v := fput (s.rd a) F.HSO_DIAG.AGE (s.ageOf m)
      if s.stageRetired x then fput v F.HSO_DIAG.STATE 4 else if s.ageOut m then fput v F.HSO_DIAG.STATE 0 else v
    let cur (x : Nat) : W32 := fput (s.rd a) F.HSO_CUR.VALID (!s.ageOut (s.stage x).sampled).toNat
    let o := a % 0x1000
    if a < 0x2000B000 then
      if 0x100 ≤ o ∧ o < 0x600 then
        let x := blk o 0x100 0x20
        if o % 0x20 = 0xC then some (diag x) else if o % 0x20 = 0x10 then some (cur x) else none
      else none
    else if 0x100 ≤ o ∧ o < 0x200 then
      let x := 40 + blk o 0x100 0x20
      if o % 0x20 = 8 then some (fput (diag x) F.HBR_HDIAG.OWNED (s.owner x).isSome.toNat) else if o % 0x20 = 0xC then some (cur x) else none
    else if 0x400 ≤ o ∧ o < 0x500 then
      let x := 48 + blk o 0x400 0x40
      if o % 0x40 = 0xC then
        let v := fput (s.rd a) F.HBR_PSTAT.OWNED (s.owner x).isSome.toNat
        some (if s.stageRetired x then fput v F.HBR_PSTAT.STATE 4 else if (s.stage x).uv then fput v F.HBR_PSTAT.STATE 3 else v)
      else if o % 0x40 = 0x10 then
        some (fput (s.rd a) F.HBR_PCUR.VALID (s.on (R.HBR_PCFG (x - 48)) F.HBR_PCFG.SHUNT && !s.stageRetired x).toNat)
      else none
    else if 0x800 ≤ o ∧ o < 0x900 ∧ o % 0x40 = 0x18 then
      match s.pat (blk o 0x800 0x40) with
      | some t => some (fput (s.rd a) F.HBR_PATSTAT.ELAPSED (s.patElapsed t))
      | none => none
    else none

/-! ### The epoch-0 commands OUT_SET, OUT_CLEAR and OUT_PWM (R123, R461) -/

/-- The stage of a channel code: 0x00–0x27, 0x40–0x47. -/
def hcmdStage (w : W32) : Option Nat :=
  if w.toNat < 40 then some w.toNat else if 0x40 ≤ w.toNat ∧ w.toNat < 0x48 then some (40 + (w.toNat - 0x40)) else none

/-- A command of the port on a stage: BAD_ARG for a bad channel or one that a pattern owns, RETIRED for a retired one; a channel's mode is m, a half-bridge's h. -/
def State.hcmdOut (s : State) (ops : List W32) (n m h : Nat) (ok : W32 → Bool) (set : State → Nat → W32 → State) : State × Nat × List W32 :=
  match ops with
  | w :: rest =>
    match hcmdStage w with
    | some x =>
      if rest.length + 1 ≠ n ∨ !ok (rest.headD 0) then (s, 2, [])
      else if s.stageRetired x then (s, 5, [])
      else if (s.owner x).isSome then (s, 2, [])
      else
        let act (t : State) : State := (set t x (rest.headD 0)).setFld (ctlReg x) (if x < 40 then F.HSO_CTL.MODE else F.HBR_HCTL.MODE) (if x < 40 then m else h)
        (if x < 40 then s.hsoCtl x act else s.stageCmd x act, 0, [])
    | none => (s, 2, [])
  | [] => (s, 2, [])

/-- DUTY and PERIOD of OUT_PWM are in range. -/
def pwmOk (v : W32) : Bool := decide (fget v ⟨0, 11⟩ ≤ 1024) && decide (100 ≤ fget v ⟨16, 16⟩)

/-- OUT_PWM puts DUTY and PERIOD into the stage's registers. -/
def State.pwmSet (s : State) (x : Nat) (v : W32) : State :=
  let t := s.setFld (ctlReg x) F.HSO_CTL.DUTY (fget v ⟨0, 11⟩)
  if x < 40 then t.setFld (R.HSO_PER x) F.HSO_PER.PERIOD (fget v ⟨16, 16⟩) else t.setFld (R.HBR_HPER (x - 40)) F.HBR_HPER.PERIOD (fget v ⟨16, 16⟩)

/-! ### Supplies -/

/-- Overvoltage (R62, R463, R483): everything turns off, patterns end ABORTED. -/
def State.ovEnter (s : State) : State :=
  let s1 := s.each (fun t k => t.patEnd k 4) [0, 1, 2, 3]
  (s1.each State.openAll (List.range 52)).withSup { s1.sup with vbatOv := true, ovOff := true, ovWait := none }

/-- The commanded output states are restored. -/
def State.ovRestore (s : State) : State :=
  let s1 := s.withSup { s.sup with ovOff := false, ovWait := none }
  s1.each (fun t x => if t.stageBlocked x then t else t.reapply x) (List.range 52)

end Sys2Proof.Machine
end

