-- ==== Sys2Proof/Machine/InOps.lean ====
section
/-! DEFINITION. Machine/InOps.lean: switch inputs and quadrature decoders: samples and registers (19_inputs.md). -/
namespace Sys2Proof.Machine

/-! ### Switch inputs (R487–R493) -/

/-- FILT; 0 is treated as 1. -/
def filtOf (n : Nat) : Nat := if n = 0 then 1 else n

/-- The filtered level of input i changes (R488). -/
def State.swChange (s : State) (i : Nat) (v : Bool) : State :=
  let e := s.fld (R.SWI_CFG i) F.SWI_CFG.IRQEDGE
  let t := s.putBit (swReg R.SWI_LVL_LO R.SWI_LVL_HI i) (i % 32) v
  if e.testBit (if v then 0 else 1) then t.putBit (swReg R.SWI_EVT_LO R.SWI_EVT_HI i) (i % 32) true else t

/-- Nominal thresholds of THR in mV, falling and rising; 3 is treated as 0 (R486). -/
def swThr (n : Nat) : Int × Int := if n = 1 then (3500, 4500) else if n = 2 then (6000, 8000) else (2000, 3000)

/-- The level of a pin at so many mV whose last level was cur: 1 above the threshold that applies, and within its ±0.3 V what the device finds, which is free. -/
def swCompare (thr : Nat) (cur : Bool) (mv : Int) (free : Bool) : Bool :=
  let t := if cur then (swThr thr).1 else (swThr thr).2
  decide (t + 300 < mv) || (decide (t - 300 < mv) && free)

/-- The levels of the 64 pins at their voltages in mV (R487, R492). -/
def State.swLevels (s : State) (pins : List Int) : BitVec 64 :=
  (List.range 64).foldl (fun w i =>
    let v := swCompare (fget (s.aonRd (R.SWI_CFG i)) F.SWI_CFG.THR) (s.io.swi.raw.getLsbD i) (pins.getD i 0) (s.draw.getLsbD i)
    if v then w ||| 1#64 <<< i else w) 0

/-- The levels are the last ones sampled. -/
def State.swTaken (s : State) (w : BitVec 64) : State := s.drawn.withSwi { s.io.swi with raw := w }

/-- A conversion of so many mV in units of 10 mV, 0 to 4,095: within ±1% ±50 mV, where in that range is free (R489). -/
def adcOf (mv : Int) (free : Nat) : BitVec 12 :=
  let e := mv.natAbs / 100 + 50
  let lo := mv - e
  BitVec.ofInt 12 (Max.max 0 (Min.min 4095 ((lo + (free % (2 * e + 1) : Nat)) / 10)))

/-- A sample is due: in the first 20 µs of a millisecond of the body count, once (R487). -/
def State.swDue (s : State) : Bool :=
  decide (s.tb.body % 100000 < 2000) && (match s.io.swi.last with
    | some t => t / 100000 != s.tb.body / 100000
    | none => true)

/-- Input i is sampled. -/
def State.swSample (s : State) (i : Nat) (v : Bool) : State :=
  let n := tabGet natZero s.io.swi.cand i + 1
  let put (t : State) (c : Nat) : State := t.withSwi { t.io.swi with cand := tabPut natZero i c t.io.swi.cand }
  if v = s.swLevel i then put s 0
  else if filtOf (s.fld (R.SWI_CFG i) F.SWI_CFG.FILT) ≤ n then (put s 0).swChange i v
  else put s n

/-- Input i is converted (R489). -/
def State.swConvert (s : State) (i : Nat) (mv : Int) : State :=
  if s.on (R.SWI_CFG i) F.SWI_CFG.ANA then s.drawn.wr (R.SWI_ADC i) (BitVec.ofNat 32 ((adcOf mv s.draw.toNat).toNat + 2 ^ 31)) else s

/-- Period P of cyclic sensing in XTAL32 ticks, the nearest whole number to PER's milliseconds (R492). -/
def State.cycPeriod (s : State) : Nat :=
  let ms := match fget (s.aonRd R.SWI_CYC_CFG) F.SWI_CYC_CFG.PER with
    | 0 => 5
    | 1 => 10
    | 2 => 20
    | 3 => 50
    | 4 => 100
    | 5 => 200
    | 6 => 500
    | _ => 1000
  (ms * 32768 + 500) / 1000

/-- A cyclic sample is due: P after the last (R492). -/
def State.cycDue (s : State) : Bool :=
  s.io.swi.cyclic && (match s.io.swi.cycAt with
    | some t => decide (s.cycPeriod ≤ (s.tb.rtc - t).toNat)
    | none => true)

/-- One cyclic sample of input i (R492, R493). -/
def State.swCyclic (s : State) (i : Nat) (v : Bool) : State :=
  let n := tabGet natZero s.io.swi.diff i + 1
  let put (t : State) (c : Nat) : State := t.withSwi { t.io.swi with diff := tabPut natZero i c t.io.swi.diff }
  if !s.swNamed i then s
  else if v = s.bit (swReg R.SWI_CYC_REF_LO R.SWI_CYC_REF_HI i) (i % 32) then put s 0
  else
    let t := put s n
    if fget (s.aonRd R.SWI_CYC_CFG) F.SWI_CYC_CFG.CFILT + 1 ≤ n then t.putBit (swReg R.SWI_WCHG_LO R.SWI_WCHG_HI i) (i % 32) true else t

/-- Inputs confirmed changed since the commit. -/
def State.swMoved (s : State) : List Nat := (List.range 64).filter (fun i => s.bit (swReg R.SWI_WCHG_LO R.SWI_WCHG_HI i) (i % 32))

/-! ### Quadrature decoders (R495–R502) -/

def qdecUnit (n : Nat) : BitVec 16 := unitCode 0xE n

/-- One line's filter: the filtered value and the count of samples that disagree. -/
def lineFilt (filt : Nat) (cur : Bool) (c : Nat) (v : Bool) : Bool × Nat :=
  if v = cur then (cur, 0) else if filt ≤ c + 1 then (v, 0) else (cur, c + 1)

/-- The step forward from a pair (R496). -/
def stepFwd (a b : Bool) : Bool × Bool := if a = b then (!a, b) else (a, !b)

/-- A count in a direction (R496). -/
def State.qdecCount (s : State) (n : Nat) (rev : Bool) : State :=
  let y := s.qdec n
  let now := s.heelDtb
  let p := R.QDEC_POS n
  let s1 := (s.wr p (if rev then s.rd p - 1 else s.rd p + 1)).setFld (R.QDEC_STAT n) F.QDEC_STAT.DIR rev.toNat
  let d := now.toNat - y.last.toNat
  let s2 := if y.counts = 0 then s1 else s1.wr (R.QDEC_PERIOD n) (BitVec.ofNat 32 (Nat.min d 0xFFFFFFFF))
  s2.setQdec n { y with counts := Nat.min (y.counts + 1) 2, last := now }

/-- Both lines have changed in one sample (R497). -/
def State.qdecError (s : State) (n : Nat) : State :=
  let a := R.QDEC_STAT n
  (((s.advSat a F.QDEC_STAT.ERRCNT 1).setFld a F.QDEC_STAT.UNCERTAIN 1).setFld a F.QDEC_STAT.REF_VALID 0).putBit R.QDEC_EVT n true

/-- LEARN at a sample boundary (R498). -/
def State.qdecLearn (s : State) (n : Nat) : State :=
  if (s.qdec n).learn then
    let a := R.QDEC_STAT n
    let s1 := ((s.wr (R.QDEC_POS n) (s.rd (R.QDEC_REFPOS n))).setFld a F.QDEC_STAT.REF_VALID 1).setFld a F.QDEC_STAT.UNCERTAIN 0
    (s1.putBit (R.QDEC_CTL n) 0 false).setQdec n { s1.qdec n with learn := false }
  else s

/-- A decoder's SAMP interval in 10 ns (R495). -/
def State.qdecSamp (s : State) (n : Nat) : Nat :=
  match s.fld (R.QDEC_CFG n) F.QDEC_CFG.SAMP with
  | 0 => 10
  | 1 => 100
  | _ => 1000

/-- A sample of decoder n is due: one in each SAMP interval of the body count (R495). -/
def State.qdecDue (s : State) (n : Nat) : Bool :=
  match (s.qdec n).samp with
  | some t => t / s.qdecSamp n != s.tb.body / s.qdecSamp n
  | none => true

/-- A decoder samples its pins. -/
def State.qdecSample (s : State) (n : Nat) (pa pb : Bool) : State :=
  let y := s.qdec n
  let c := s.rd (R.QDEC_CFG n)
  let f := filtOf (fget c F.QDEC_CFG.FILT)
  let fa := lineFilt f y.a y.ca pa
  let fb := lineFilt f y.b y.cb pb
  let s1 := s.setQdec n { y with a := fa.1, b := fb.1, ca := fa.2, cb := fb.2, samp := some s.tb.body }
  let old := if c.getLsbD 8 then (y.b, y.a) else (y.a, y.b)
  let new := if c.getLsbD 8 then (fb.1, fa.1) else (fa.1, fb.1)
  let s2 := if !c.getLsbD 0 || old == new then s1
    else if old.1 != new.1 && old.2 != new.2 then s1.qdecError n
    else s1.qdecCount n (stepFwd old.1 old.2 != new)
  s2.qdecLearn n

/-- A write of the QDEC block (R498, R500). -/
def State.qdecWrite (s : State) (a : Nat) (v : W32) (acc : State → Nat → W32 → State) : State :=
  let o := a - 0x2000D000
  if 0x100 ≤ o ∧ o < 0x200 then
    let n := (o - 0x100) / 0x40
    let r := o % 0x40
    let en := s.bit (R.QDEC_CFG n) 0
    if r = 0 then
      let t := acc s a v
      if v.getLsbD 0 && !en then (t.wr (R.QDEC_PERIOD n) 0xFFFFFFFF).setQdec n { t.qdec n with counts := 0 } else t
    else if r = 4 then
      (if en then s.putBit R.QDEC_EVT (4 + n) true else (s.wr a v).setFld (R.QDEC_STAT n) F.QDEC_STAT.REF_VALID 0)
    else if r = 0x14 then
      let t := if v.getLsbD 0 && !s.isRetired (qdecUnit n) then (s.putBit a 0 true).setQdec n { s.qdec n with learn := true } else s
      if v.getLsbD 1 then t.setFld (R.QDEC_STAT n) F.QDEC_STAT.ERRCNT 0 else t
    else acc s a v
  else acc s a v

/-- A write of the SWI block: clearing ANA ends an input's conversions. -/
def State.swiWrite (s : State) (a : Nat) (v : W32) (acc : State → Nat → W32 → State) : State :=
  let t := acc s a v
  if 0x2000C100 ≤ a ∧ a < 0x2000C200 ∧ !v.getLsbD 12 then t.putBit (a + 0x100) 31 false else t

/-- Reads that are views. -/
def State.inRead (s : State) (a : Nat) : Option W32 :=
  if 0x2000D100 ≤ a ∧ a < 0x2000D200 ∧ a % 0x40 = 8 then some (fput (s.rd a) F.QDEC_STAT.RETIRED (s.isRetired (qdecUnit ((a - 0x2000D100) / 0x40))).toNat) else none

end Sys2Proof.Machine
end

