-- ==== Sys2Proof/Machine/FabCtl.lean ====
section
/-! DEFINITION. Machine/FabCtl.lean: the states of fabric regions, and what ends a call or a load (14_fabric.md R366–R381). A region is named by its key
x = 8·d + r. -/
namespace Sys2Proof.Machine

/-- FAB_STAT.STATE of a region: 0 EMPTY, 1 LOADING, 2 LOADED, 3 RESTARTING, 4 RETIRED. A region under test is as its register says (R451). -/
def State.rgnState (s : State) (x : Nat) : Nat :=
  let c := s.fld (R.FAB_STAT (x / 8)) ⟨3 * (x % 8), 3⟩
  if s.testing (unitCode 9 x) then (if c = 4 then 0 else c) else if s.isRetired (unitCode 9 x) then 4 else c

/-! ### The preamble of a load (R366) -/

def bodyNat (b : List Byte) (o n : Nat) : Nat := leNat ((b.drop o).take n)

/-- The whole frames of a body as read. -/
def framesOf (b : List Byte) : List (List Byte) := (List.range ((b.length - 256) / 72)).map (fun i => (b.drop (256 + 72 * i)).take 72)

/-- A bit of USE: 0 P0, 1 P1, 2 TPORT, 3 DN, 4 UP, 5 AUTO. -/
def Rgn.uses (r : Rgn) (n : Nat) : Bool := (bodyNat r.body 0x0B 1).testBit n

/-- Entry of the function table: its flags and MAXTIME. -/
def bodyFunc (b : List Byte) (f : Nat) : Option (Nat × Nat) :=
  ((List.range (Nat.min (bodyNat b 0x24 1) 16)).find? (fun i => bodyNat b (0x40 + 8 * i) 1 == f)).map (fun i =>
    (bodyNat b (0x41 + 8 * i) 1, bodyNat b (0x42 + 8 * i) 2))

/-! ### Outcomes -/

/-- FAB_RSTAT.CAUSE of a region: 1 PREAMBLE, 2 PIN, 3 ROLLBACK, 4 FRAME, 5 DIGEST, 6 NOLOAD, 7 TIMEOUT, 8 EMPTIED, 9 CONFIG, 10 FUNC. -/
def State.fabCause (s : State) (x c : Nat) : State := s.setFld (R.FAB_RSTAT (x / 8) (x % 8)) F.FAB_RSTAT.CAUSE c

/-- The region becomes EMPTY by FAB_RCTL.EMPTY, a FORCE swap or the patrol: a call running in it ends FABRIC with the cause, an entry that waits for its
restart ends with its own status (R128, R372, R379, R381). -/
def State.rgnEmpty (s : State) (x cause : Nat) : State :=
  let r := s.rgn x
  let s1 := s.rgnClear x
  let s2 := match r.call with
    | some k => (s1.endEntry k 0xC).fabCause x cause
    | none => s1
  match r.ending with
  | some (k, st) => s2.endEntry k st
  | none => s2

/-- The restart is complete: every storage element holds its load-time value (R372). -/
def State.rgnRestarted (s : State) (x : Nat) : State :=
  let r := s.rgn x
  let s1 := (s.setRgn x { r with ending := none }).setRgnState x 2
  match r.ending with
  | some (k, st) => s1.endEntry k st
  | none => s1

/-- A region of die d holds, or reloads, a load whose FI differs from fi (R127, R128). -/
def State.fiDiffersAt (s : State) (x : Nat) (fi : BitVec 16) : Bool :=
  (s.rgnState x == 2 || s.rgnState x == 3) && s.fld (R.FAB_RINFO (x / 8) (x % 8)) F.FAB_RINFO.FI != fi.toNat

/-! ### Pins (R377) -/

/-- The region that drives pin n of die d: it owns the pin and is LOADED. At every other time the pin is at high impedance. -/
def State.pinDriver (s : State) (d n : Nat) : Option Nat :=
  let o := s.fld (R.FAB_IO_OWN d (n / 8)) ⟨4 * (n % 8), 4⟩
  if o < 8 ∧ s.rgnState (8 * d + o) = 2 ∧ (s.rgn (8 * d + o)).oe.getLsbD n then some (8 * d + o) else none

/-- Levels of die d's pins: what drives them, or what the board shows. -/
def State.pinLevels (s : State) (d : Nat) (board : W32) : W32 :=
  BitVec.ofNat 32 (bitsWord 32 (fun n => match s.pinDriver d n with
    | some x => (s.rgn x).drive.getLsbD n
    | none => board.getLsbD n))

/-! ### The fabric window (R375–R377) -/

/-- The region that serves an address of die d's window. -/
def windowRgn (d a : Nat) : Nat := 8 * d + (a - 0x380000000000) % 0x40000000 / 0x08000000

/-- A region serves its window while it is LOADED with TPORT set (R376). -/
def State.fabServes (s : State) (d a : Nat) : Bool := s.rgnState (windowRgn d a) == 2 && (s.rgn (windowRgn d a)).uses 2

/-- Targets that refuse a fabric port's request (R375). -/
def fabBarred : Region → Bool
  | .bootRom | .trace | .store | .insole | .soleReg | .heelReg | .dieReg _ | .heelRam | .keeperRam _ => true
  | _ => false

/-- An initiator is a fabric region. -/
def iniFabric : Ini → Bool
  | .region _ _ _ => true
  | _ => false

/-- A region may issue requests on port p: LOADED, the port declared, and a call running or AUTO set (R368, R374). -/
def State.rgnIssues (s : State) (x p : Nat) : Bool :=
  s.rgnState x == 2 && decide (p < 2) && (s.rgn x).uses p && ((s.rgn x).started.isSome || (s.rgn x).uses 5)

/-- A write of FAB_RCTL (R372, R380): RESTART is ignored unless LOADED, EMPTY while LOADING. What a RESTART in the middle of a call does to its entry is not
stated: the call ends FABRIC, with a free CAUSE (notes/assumptions/21.md). -/
def State.rctlWrite (s : State) (x : Nat) (v : W32) : State :=
  let s1 := if v.getLsbD 0 ∧ s.rgnState x = 2 then
      (match (s.rgn x).call with
       | some _ => (s.drawn.rgnRestart x 0xC).fabCause x (s.draw.toNat % 16)
       | none => s.rgnRestart x 0xC)
    else s
  if v.getLsbD 1 ∧ s1.rgnState x ≠ 1 ∧ s1.rgnState x ≠ 4 then s1.rgnEmpty x 8 else s1

end Sys2Proof.Machine
end

