-- ==== Sys2Proof/Machine/UnitCtl.lean ====
section
/-! DEFINITION. Machine/UnitCtl.lean: what ends the work of an engine's units: a stream that fails, streams cancelled, a running entry aborted
(10_engines.md R280, 12_streams.md R332–R337, 13_training.md R348, R352, 14_fabric.md R372). -/
namespace Sys2Proof.Machine

/-! ### Streams -/

/-- The initiator of a stream unit (R249, R316), by its key 16·g + s. -/
def streamIni (u : Nat) : Ini := .engine (Fin.ofNat 4 (u / 128)) (Fin.ofNat 8 (u / 16 % 8)) (BitVec.ofNat 6 (u % 16))

/-- Lines among buffered bytes whose fault is held, but the one whose fault is raised (R332). -/
def heldCount (l : List Chunk) (raised : Option Word) : Nat :=
  ((l.filterMap (fun c => match c.st with
    | .held _ _ => c.line
    | .ok => none)).eraseDups.filter (fun a => some a != raised)).length

/-- Different lines of a window. -/
def winLines (l : List Chunk) : Nat := (l.filterMap (·.line)).eraseDups.length

/-- The window may take another line: the demand line is in front of it, with DIST lines beyond; while zeros are in front, no line read is the demand line (R328). -/
def Stream.roomy (x : Stream) : Bool :=
  match x.chunks with
  | [] => true
  | c :: _ => if c.line.isSome then decide (winLines x.chunks ≤ x.dist) else decide (winLines x.chunks < x.dist)

def addDropped (x : Stream) (n : Nat) : Stream := { x with dropped := Nat.min (x.dropped + n) 0xFFFF }

/-- A stream unit has requests in flight. -/
def State.streamOut (s : State) (u : Nat) : Bool :=
  s.net.any (fun n => n.req.ini == streamIni u) || s.resp.any (fun r => !r.here && r.req.ini == streamIni u)

/-- Every entry that binds a unit ends STREAM (R291, R334); a fabric call among them restarts its region first. -/
def State.boundFail (s : State) (ks : List (Nat × Nat)) : State :=
  ks.foldl (fun t b => if b.2 < 4 then t.endEntry b.1 0xE else t.fabAbort b.1 0xE) s

/-- A STR_RUN that waits for the unit's NEXT slot ends STREAM (R326). -/
def State.runFail (s : State) (u : Nat) : State :=
  s.each (fun t q =>
    let k := 4 * (u / 16) + q
    match (t.queue k).entry with
    | some w => if opIs 0x20 w && (wd w 3).toNat % 16 == u % 16 && (t.queue k).fin.isNone then t.endEntry k 0xE else t
    | none => t) [0, 1, 2, 3]

/-- A unit ends with a status other than OK (R332, R334): it enters ERROR and discards NEXT; held faults but the one raised are dropped; what binds it ends STREAM. -/
def State.strError (s : State) (u status reason : Nat) (addr : Word) (raised : Option Word) : State :=
  let x := s.stream u
  let y := addDropped { x with error := true, status := status, reason := reason, errAddr := addr, next := none, chunks := [], last := none, buf := [],
                               run := none, left := none, tensor := false, row := false, shy := none } (heldCount x.chunks raised)
  (((s.dropHere (fun q => q.ini == streamIni u)).setStream u y).boundFail x.bound).runFail u

/-- A unit has nothing to run and nothing buffered. -/
def Stream.idle (x : Stream) : Bool := x.cur.isNone && x.next.isNone && !x.error && !x.cancelling && x.chunks.isEmpty && x.buf.isEmpty && x.run.isNone

/-- Cancel one stream unit (R335): slots emptied, buffered data and held faults dropped; it reads IDLE once nothing of it is in flight. -/
def State.cancelStream (s : State) (u : Nat) : State :=
  let x := s.stream u
  let y := addDropped { streamOff x with bound := x.bound, status := 7, reason := 0 } (heldCount x.chunks none)
  (s.dropHere (fun q => q.ini == streamIni u)).setStream u { y with cancelling := s.streamOut u || (x.cancelling || (x.cur.isSome && !x.error)) }

/-- Cancel stream units of engine g (R280, R335). -/
def State.strCancel (s : State) (g : Nat) (us : List Nat) : State := s.each (fun t n => t.cancelStream (16 * g + n)) us

/-- The units that queue k's STR_RUN entries started and that are still running (R280, notes/assumptions/20.md). -/
def State.queueStreams (s : State) (k : Nat) : List Nat :=
  (List.range 16).filter (fun n =>
    let x := s.stream (16 * (k / 4) + n)
    let mine (p : Option StrProg) : Bool := match p with
      | some y => y.queue == k % 4
      | none => false
    mine x.cur || mine x.next)

/-- A unit that queue k's entries bind no longer; one that served it serves the next, for which it has used no Larder yet. -/
def unbound (k : Nat) (x : Stream) : Stream :=
  { x with bound := x.bound.filter (fun b => b.1 != k), used := if x.bound.head?.map (·.1) = some k then 0 else x.used }

/-- An entry of queue k no longer binds any unit. -/
def State.unbind (s : State) (k : Nat) : State := s.each (fun t n => t.onStream (16 * (k / 4) + n) (unbound k)) (List.range 16)

/-! ### Checkpoint trackers (R351–R353) -/

def State.trkState (s : State) (n : Nat) : Nat := s.fld (R.TRN_CK_STAT n) F.TRN_CK_STAT.STATE

/-- The OPEN tracker of a CKPT_ID. -/
def State.trkOpen (s : State) (id : W32) : Option Nat :=
  if s.sup.soleHeld then none else [0, 1, 2, 3].find? (fun n => s.trkState n == 1 && s.rd (R.TRN_CK_ID n) == id)

/-- A tracker becomes FAILED with a cause: 1 MIRROR, 2 PIECE, 3 OVER, 4 SEAL. -/
def State.trkFail (s : State) (n cause : Nat) : State :=
  let s1 := (s.setFld (R.TRN_CK_STAT n) F.TRN_CK_STAT.STATE 4).setFld (R.TRN_CK_STAT n) F.TRN_CK_STAT.CAUSE cause
  (s1.putBit R.TRN_CK_EVT (4 + n) true).withEng { s1.eng with sealLocal := s1.eng.sealLocal.filter (· != n) }

/-- Open tracker n (R351), with its counts cleared; refused with DUP where another open or sealing tracker has its ID, or PIECES is 0. A tracker already OPEN or
SEALING stays as it is. -/
def State.trkOpenCmd (s : State) (n : Nat) : State :=
  if s.trkState n = 1 ∨ s.trkState n = 2 then s
  else if s.fld (R.TRN_CK_PIECES n) F.TRN_CK_PIECES.PIECES = 0 ∨
      [0, 1, 2, 3].any (fun m => m != n && (s.trkState m == 1 || s.trkState m == 2) && s.rd (R.TRN_CK_ID m) == s.rd (R.TRN_CK_ID n)) then
    s.putBit (R.TRN_CK_STAT n) 3 true
  else
    let s1 := (s.setFld (R.TRN_CK_STAT n) F.TRN_CK_STAT.STATE 1).setFld (R.TRN_CK_STAT n) F.TRN_CK_STAT.CAUSE 0
    (s1.setFld (R.TRN_CK_PIECES n) F.TRN_CK_PIECES.DONE 0).wr2 (R.TRN_CK_BYTES_LO n) (R.TRN_CK_BYTES_HI n) 0

/-- Abort tracker n if it is OPEN. -/
def State.trkAbortCmd (s : State) (n : Nat) : State := if s.trkState n = 1 then s.setFld (R.TRN_CK_STAT n) F.TRN_CK_STAT.STATE 5 else s

/-- A write of the tracker block: opens, then aborts; the identity of a tracker that is OPEN or SEALING cannot change; seal addresses name lines. -/
def State.trkWrite (s : State) (a : Nat) (v : W32) (acc : State → Nat → W32 → State) : State :=
  let o := a - 0x1000F000
  if o = 0 then (s.each State.trkOpenCmd (bitsOf v.toNat 4)).each State.trkAbortCmd (bitsOf (v.toNat / 16) 4)
  else if 0x100 ≤ o ∧ o < 0x200 then
    let n := (o - 0x100) / 0x40
    let r := o % 0x40
    if r < 0xC ∧ (s.trkState n = 1 ∨ s.trkState n = 2) then s
    else if r = 0x10 ∨ r = 0x18 then acc s a (v &&& 0xFFFFFFC0)
    else acc s a v
  else acc s a v

/-- A CKPT entry of a CKPT_ID has ended with an error or by a cancel (R352). -/
def State.ckptFail (s : State) (id : W32) (status : Nat) : State :=
  match s.trkOpen id with
  | some n => s.trkFail n (if status = 0xB then 1 else 2)
  | none => s

/-! ### The pipeline sequencer -/

/-- The micro-batch of the offload, or of the prefetch, that comes next or runs (R341, R343). -/
def Pipe.offNext (p : Pipe) : Nat := p.offDone
def Pipe.pfNext (p : Pipe) : Nat := p.moved - 1 - p.pfDone


/-- TRN_PCOUNT and TRN_PSTAT's fields follow the running PIPE. -/
def State.pipeShow (s : State) (g : Nat) : State :=
  match s.pipe g with
  | some p =>
    let a := R.TRN_PSTAT (g / 8) (g % 8)
    let c := R.TRN_PCOUNT (g / 8) (g % 8)
    let mbi := if p.phase = 3 then (if p.bwdSub = 0 then p.mb - 1 else p.mb - p.bwdSub) else p.fwdSub - 1
    let x := match p.xfer with
      | some true => p.pfNext
      | some false => p.offNext
      | none => s.fld a F.TRN_PSTAT.XFER
    let s1 := (((s.setFld a F.TRN_PSTAT.QUEUE (p.key % 4)).setFld a F.TRN_PSTAT.MBI mbi).setFld a F.TRN_PSTAT.XFER x).setFld a F.TRN_PSTAT.XBUSY p.xfer.isSome.toNat
    let s2 := match p.xfer with
      | some d => s1.setFld a F.TRN_PSTAT.XDIR d.toNat
      | none => s1
    s2.wr c (BitVec.ofNat 32 (p.fwdEnd + 256 * p.bwdEnd + 65536 * p.offDone + 16777216 * p.pfDone))
  | none => s.setFld (R.TRN_PSTAT (g / 8) (g % 8)) F.TRN_PSTAT.XBUSY 0

/-- The PIPE that queue k runs. -/
def State.pipeOf (s : State) (k : Nat) : Option Pipe :=
  match s.pipe (k / 4) with
  | some p => if p.key = k then some p else none
  | none => none

/-- A transfer of queue k's PIPE has failed, and the queue has still to stop for it (R347). -/
def State.xferFailed (s : State) (k : Nat) : Bool :=
  match s.pipeOf k with
  | some p => p.xfail.isSome
  | none => false

/-- A pipeline list has ended (R341, R343). -/
def State.pipeListEnd (s : State) (p : Pipe) : State :=
  let q := if p.phase = 3 then { p with bwdEnd := p.bwdEnd + 1 }
    else { p with fwdEnd := p.fwdEnd + 1, phase := if p.fwdEnd + 1 = p.mb ∧ p.offDone < p.moved then 2 else 1 }
  (s.setPipe (p.key / 4) (some q)).pipeShow (p.key / 4)

/-! ### Cancel -/

/-- The running entry of queue k, and its PIPE, are ended by a cancel, beside what the queue itself holds (R280, R348, R352, R372). -/
def State.abortEntry (s : State) (k : Nat) : State :=
  let s1 := match (s.queue k).entry with
    | some w => if opIs 0x11 w then s.ckptFail (wd w 10) 9 else s
    | none => s
  let s2 := ((s1.fabAbort k 9).setMat k none).unbind k
  match s2.pipeOf k with
  | some _ => s2.pipeDrop (k / 4)
  | none => s2

/-- The streams that queue k cancelled have stopped, and the region it called has restarted (R280, R372). -/
def State.cancelOver (s : State) (k : Nat) : Bool :=
  (s.queue k).streams.all (fun n => !(s.stream (16 * (k / 4) + n)).cancelling) &&
    (List.range 8).all (fun r => match (s.rgn (8 * (k / 32) + r)).ending with
      | some (x, _) => x != k
      | none => true)

end Sys2Proof.Machine
end

