-- ==== Sys2Proof/Machine/EngRegs.lean ====
section
/-! DEFINITION. Machine/EngRegs.lean: the registers of cubes, the decode batcher, streams, the sequencer and the fabric that show or change more than they hold
(11_cubes.md, 12_streams.md, 13_training.md, 14_fabric.md). -/
namespace Sys2Proof.Machine

/-! ### The decode ring (R298) -/

/-- Descriptors of an engine's decode ring: 0 while disabled; SIZE 11–15 are treated as 10. -/
def State.dqCap (s : State) (g : Nat) : Nat :=
  let n := s.fld (R.CUBE_DQ_CFG (g / 8) (g % 8)) F.CUBE_DQ_CFG.SIZE
  if n = 0 then 0 else 2 ^ (if 10 < n then 10 else n)

def State.dqHead (s : State) (g : Nat) : Nat := s.fld (R.CUBE_DQ_PTR (g / 8) (g % 8)) F.CUBE_DQ_PTR.HEAD
def State.dqTail (s : State) (g : Nat) : Nat := s.fld (R.CUBE_DQ_PTR (g / 8) (g % 8)) F.CUBE_DQ_PTR.TAIL

def noStamps (_ : Nat) : List Word := []

/-- Arrival stamps of the requests from HEAD on. -/
def State.stamps (s : State) (g : Nat) : List Word := tabGet noStamps s.eng.stamps g

def State.setStamps (s : State) (g : Nat) (l : List Word) : State := s.withEng { s.eng with stamps := tabPut noStamps g l s.eng.stamps }

/-- A write of TAIL to CUBE_DQ_TAIL. -/
def State.dqDoorbell (s : State) (g tail : Nat) : State :=
  let a := R.CUBE_DQ_STAT (g / 8) (g % 8)
  let used := (s.dqTail g + 65536 - s.dqHead g) % 65536
  let want := (tail + 65536 - s.dqHead g) % 65536
  if s.dqCap g < want then s.putBit a 0 true
  else if want < used then s.putBit a 2 true
  else
    let now := s.copy (1 + g / 8)
    (s.setFld (R.CUBE_DQ_PTR (g / 8) (g % 8)) F.CUBE_DQ_PTR.TAIL tail).setStamps g (s.stamps g ++ List.replicate (want - used) now)

/-- A DECODE entry runs on an engine. -/
def State.decodeRuns (s : State) (g : Nat) : Bool := [0, 1, 2, 3].any (fun q => (s.queue (4 * g + q)).op == some 0x32)

/-! ### Writes -/

/-- A write in an engine's block beyond its queues: offset o of engine g. -/
def State.unitWriteReg (s : State) (g o a : Nat) (v : W32) (acc : State → Nat → W32 → State) : Option State :=
  if o = 0x42C then some (s.dqDoorbell g (v.toNat % 65536))
  else if o = 0x420 ∨ o = 0x424 ∨ o = 0x428 then
    if s.decodeRuns g then some (s.putBit (R.CUBE_DQ_STAT (g / 8) (g % 8)) 1 true)
    else some (acc s a (if o = 0x420 then v &&& 0xFFFFFFC0 else v))
  else if 0x800 ≤ o ∧ o < 0xC00 ∧ o % 0x40 = 8 then
    some (if v.getLsbD 0 then s.cancelStream (16 * g + (o - 0x800) / 0x40) else s)
  else none

/-- A write of FAB_RCTL. -/
def State.fabWrite (s : State) (a : Nat) (v : W32) : Option State :=
  let o := (a - 0x080000000000) % 0x10000000
  let d := (a - 0x080000000000) / 0x10000000
  if 0xC100 ≤ o ∧ o < 0xC300 ∧ o % 0x40 = 0xC then some (s.rctlWrite (8 * d + (o - 0xC100) / 0x40) v) else none

/-! ### Reads -/

/-- CUBE_QSTAT. -/
def State.cubeQstat (s : State) (g : Nat) : W32 :=
  let live := (List.range 4).foldl (fun w q => if s.isRetired (unitCode 4 (4 * g + q)) then w else w + 2 ^ q) 0
  let spare := (List.range 4).foldl (fun w q => if tabGet natZero s.eng.spares (4 * g + q) = 0 then w else w + 2 ^ (4 + q)) 0
  let busy := (List.range 4).foldl (fun w q =>
    match (List.range 4).find? (fun k => (s.queue (4 * g + k)).quarters.testBit q) with
    | some k => w + 2 ^ (8 + q) + k * 2 ^ (16 + 2 * q)
    | none => w) 0
  BitVec.ofNat 32 (live + spare + busy)

/-- CUBE_LIVE. -/
def State.cubeLive (s : State) (d : Nat) : W32 :=
  BitVec.ofNat 32 (bitsWord 32 (fun i => s.engineLive (8 * d + i / 4) && !s.isRetired (unitCode 4 (32 * d + i))))

/-- A unit waits for its consumer or producer: its program has ended or its window is full, or its producer has given nothing. -/
def Stream.waits (x : Stream) : Bool :=
  if x.write then x.buf.isEmpty && !x.ended
  else x.ended || !x.roomy

/-- STR_STAT (R325, R334, R335). -/
def State.strStat (s : State) (u : Nat) : W32 :=
  let x := s.stream u
  let st := if x.error then 3 else if x.cancelling then 4 else if x.cur.isNone then 0 else if x.waits then 2 else 1
  let q := match x.cur with
    | some p => p.queue
    | none => 0
  BitVec.ofNat 32 (st + 8 * x.next.isSome.toNat + 16 * x.status + 256 * x.reason + 4096 * q + 16384 * x.tensor.toNat + 32768 * x.row.toNat)

/-- FAB_STAT. -/
def State.fabStat (s : State) (d : Nat) : W32 :=
  BitVec.ofNat 32 ((List.range 8).foldl (fun w r => w + s.rgnState (8 * d + r) * 2 ^ (3 * r)) 0)

/-- TRN_PSTAT.STATE: IDLE, FORWARD, DRAIN, BACKWARD, or STOPPED while the PIPE's queue is. -/
def State.pipeStat (s : State) (g : Nat) : W32 :=
  let st := match s.pipe g with
    | some p => if s.fld (R.ENG_QSTAT (g / 8) (g % 8) (p.key % 4)) F.ENG_QSTAT.STATE = 4 then 4 else p.phase
    | none => 0
  fput (s.rd (R.TRN_PSTAT (g / 8) (g % 8))) F.TRN_PSTAT.STATE st

/-- Low and high word of a 48-bit address. -/
def lo32 (w : Word) : W32 := w.setWidth 32
def hi16 (w : Word) : W32 := ((w >>> 32).setWidth 16).setWidth 32

/-- Reads of a stream unit's registers, by their offset. -/
def State.strRead (s : State) (u o a : Nat) : Option (State × W32) :=
  let x := s.stream u
  match o with
  | 0x04 => some (s, s.strStat u)
  | 0x08 => some (s, 0)
  | 0x0C => some (s, lo32 x.pc)
  | 0x10 => some (s, hi16 x.pc)
  | 0x14 => some (s, lo32 x.errAddr)
  | 0x18 => some (s, hi16 x.errAddr)
  | 0x1C => some (s, BitVec.ofNat 32 x.dropped)
  | 0x20 => some (s.wr (a + 4) ((x.lines >>> 32).setWidth 32), lo32 x.lines)
  | _ => none

/-- Reads in compute die blocks that are views or latches. -/
def State.unitReadReg (s : State) (a : Nat) : Option (State × W32) :=
  if a < 0x080000000000 then none
  else
    let o := (a - 0x080000000000) % 0x10000000
    let d := (a - 0x080000000000) / 0x10000000
    if o = 0xB000 then some (s, s.cubeLive d)
    else if o = 0xC000 then some (s, s.fabStat d)
    else if o = 0xC020 then some (s.drawn, s.pinLevels d (s.draw.setWidth 32))
    else if 0x60000 ≤ o ∧ o < 0x6C000 then s.laceRead a
    else if 0x100000 ≤ o ∧ o < 0x108000 then
      let g := 8 * d + (o - 0x100000) / 0x1000
      let e := o % 0x1000
      if e = 0x400 then some (s, s.cubeQstat g)
      else if e = 0x40C then
        let n := tabGet wordZero s.eng.steps g
        some (s.wr (a + 4) ((n >>> 32).setWidth 32), lo32 n)
      else if e = 0xC00 then some (s, s.pipeStat g)
      else if 0x800 ≤ e ∧ e < 0xC00 then s.strRead (16 * g + (e - 0x800) / 0x40) (e % 0x40) a
      else none
    else none

end Sys2Proof.Machine
end

