-- ==== Sys2Proof/Machine/QueueCtl.lean ====
section
/-! DEFINITION. Machine/QueueCtl.lean: the registers of the engines' queues, counters and holds: doorbells, stops, resumes and cancels (10_engines.md
R248–R282). A queue is named by its key k = 4·g + q. -/
namespace Sys2Proof.Machine

/-! ### Queue registers -/

/-- Slots of a queue's ring: 0 while it is disabled; SIZE 13–15 are treated as 12 (ENG_QCFG). -/
def State.qCap (s : State) (k : Nat) : Nat :=
  let n := s.fld (qreg R.ENG_QCFG k) F.ENG_QCFG.SIZE
  if n = 0 then 0 else 2 ^ (if 12 < n then 12 else n)

def State.qHead (s : State) (k : Nat) : Nat := s.fld (qreg R.ENG_QPTR k) F.ENG_QPTR.HEAD
def State.qTail (s : State) (k : Nat) : Nat := s.fld (qreg R.ENG_QPTR k) F.ENG_QPTR.TAIL

/-- (a − b) mod 65,536. -/
def sub16 (a b : Nat) : Nat := (a + 65536 - b) % 65536

/-- An engine is LIVE or under test. -/
def State.engUsable (s : State) (g : Nat) : Bool := s.engineLive g || s.testing (unitCode 3 g)

/-- A write of TAIL to ENG_QDB (R105, R252, R280). A queue that is OFF ignores it (notes/assumptions/17.md). -/
def State.doorbell (s : State) (k tail : Nat) : State :=
  let st := s.qState k
  let head := s.qHead k
  let q := qreg R.ENG_QSTAT k
  if st = 0 then s
  else if st = 5 then s.putBit q 8 true
  else if s.qCap k < sub16 tail head then s.putBit q 8 true
  else if sub16 tail head < sub16 (s.qTail k) head then s.putBit q 11 true
  else if tail = s.qTail k then s
  else
    let s1 := (s.setFld (qreg R.ENG_QPTR k) F.ENG_QPTR.TAIL tail).putBit R.PWR_GATE_STAT (k / 4) false
    if st = 1 then s1.setQState k 2 else s1

/-- Update the record of a queue. -/
def State.onQueue (s : State) (k : Nat) (f : Queue → Queue) : State := s.setQueue k (f (s.queue k))

/-! ### Stops (R278, R279) -/

/-- ENG_QCUR: the address of the running or failed entry. -/
def State.qCur (s : State) (k : Nat) (a : Word) : State :=
  (s.wr (qreg R.ENG_QCUR_LO k) (a.setWidth 32 &&& 0xFFFFFFC0)).wr (qreg R.ENG_QCUR_HI k) (((a >>> 32).setWidth 16).setWidth 32)

/-- ENG_QERR and ENG_QERR_ADDR capture a failure. -/
def State.qErr (s : State) (k status reason : Nat) (addr : Word) (op tag : Nat) : State :=
  let s1 := s.wr (qreg R.ENG_QERR k) (BitVec.ofNat 32 (status + 256 * (reason % 16) + 65536 * (op % 256) + 2 ^ 31))
  (s1.wr (qreg R.ENG_QERR_ADDR_LO k) (addr.setWidth 32)).wr (qreg R.ENG_QERR_ADDR_HI k)
    (BitVec.ofNat 32 (((addr >>> 32).setWidth 16).toNat + 65536 * (tag % 65536)))

/-- They capture the failure of an entry, by its words and its address: the address of what was refused or poisoned, else the entry's own. -/
def State.qErrOf (s : State) (k : Nat) (w : List W32) (a : Word) (e : EntryEnd) : State :=
  s.qErr k e.status e.reason (if e.status = 5 ∨ e.status = 6 then e.addr else a) ((wd w 0).toNat % 256) (fget (wd w 0) ⟨16, 16⟩)

/-- A queue stops in STOPPED: ENG_QERR, ENG_QERR_ADDR and ENG_QCUR captured, ENG_IRQ_PEND.ERR set (R278). -/
def State.qStop (s : State) (k status reason : Nat) (addr : Word) (op tag : Nat) (cur : Word) (fail : Nat × Word) : State :=
  let s2 := s.qErr k status reason addr op tag
  let s3 := (s2.qCur k cur).putBit (R.ENG_IRQ_PEND (queueDie k) (queueEng k)) (queueNo k) true
  (s3.onQueue k (fun q => { q with entry := none, await := none, wait := none, fin := none, fail := some fail, wants := [] })).setQState k 4

/-- The queue's list ends: LDONE, where it was not passed over, as a SIGNAL would; HEAD advances unless a JUMP ended it (R251, R257);
the list of a PIPE is its sequencer's (R338). An LDONE handle that fails
is reported as an alarm's is (notes/assumptions/17.md). -/
def State.listEnd (s : State) (k : Nat) (h : ListHdr) (next : Option Word) : State :=
  let s1 := match h.ldone with
    | some (hd, add) => if h.skip then s else (s.countSig (queueIni k) h.cls hd).signalOrEvent (queueIni k) h.cls hd add
    | none => s
  let s2 := s1.onQueue k (fun q => { q with list := none, idx := 0, next := next })
  match s2.pipeOf k with
  | some p => (s2.pipeListEnd p).setQState k 2
  | none =>
    let s3 := match next with
      | some _ => s2
      | none => s2.setFld (qreg R.ENG_QPTR k) F.ENG_QPTR.HEAD (s2.qHead k + 1)
    if next.isNone && s3.qHead k == s3.qTail k then s3.setQState k 1 else s3.setQState k 2

/-- The list ends where its entries are done. -/
def State.listStep (s : State) (k : Nat) : State :=
  match (s.queue k).list with
  | some h => if h.count ≤ (s.queue k).idx then s.listEnd k h none else s.setQState k 2
  | none => s

/-- A PIPE stopped for a transfer is abandoned: the queue goes on with the entry after it, with no DONE (R347). -/
def State.pipeAbandon (s : State) (k : Nat) : State :=
  match s.pipeOf k with
  | some p =>
    let s1 := (s.setPipe (k / 4) none).pipeShow (k / 4)
    (s1.onQueue k (fun q => { q with fail := none, next := none, entry := none, list := some { p.list with skip := p.list.skip || p.idx + 1 == p.list.count },
                                     idx := p.idx + 1 })).listStep k
  | none => s

/-- RESUME: continue after what failed (R279). A slot or a header that failed is passed over with its list (notes/assumptions/17.md). -/
def State.qResume (s : State) (k : Nat) : State :=
  if s.qState k ≠ 4 then s
  else
    let s1 := s.putBit (qreg R.ENG_QERR k) 31 false
    match (s.queue k).fail, (s.queue k).list with
    | some (3, _), _ => s1.pipeAbandon k
    | some (2, _), some h =>
      (s1.onQueue k (fun q => { q with fail := none, idx := q.idx + 1, list := some { h with skip := h.skip || q.idx + 1 == h.count } })).listStep k
    | _, _ => (s1.onQueue k (fun q => { q with fail := none })).listEnd k ⟨0, 0, none, 0, true⟩ none

/-- RETRY: execute what failed again (R279). -/
def State.qRetry (s : State) (k : Nat) : State :=
  if s.qState k ≠ 4 then s
  else
    let s1 := s.putBit (qreg R.ENG_QERR k) 31 false
    (match (s.queue k).fail with
     | some (1, a) => s1.onQueue k (fun q => { q with fail := none, next := some a })
     | some (3, _) => (match s1.pipeOf k with
       | some p => (s1.setPipe (k / 4) (some { p with xfail := none, xstop := false })).pipeShow (k / 4)
       | none => s1).onQueue k (fun q => { q with fail := none })
     | _ => s1.onQueue k (fun q => { q with fail := none })).setQState k 2

/-- An entry that a CANCEL ends fails nevertheless: ENG_QERR holds its own status ("If an entry fails while CANCEL is pending"), but where IGNERR has it not captured
(R278). -/
def State.dyingBad (s : State) (k : Nat) (e : EntryEnd) : State :=
  match (s.queue k).dying with
  | some (w, a) => (if (wd w 0).getLsbD 9 then s else s.qErrOf k w a e).onQueue k (fun q => { q with dying := none })
  | none => s

/-- The entry that runs as a CANCEL comes, with its address. -/
def Queue.doomed (q : Queue) : Option (List W32 × Word) :=
  match q.entry, q.list with
  | some w, some h => some (w, h.addr + BitVec.ofNat 64 (64 + 64 * q.idx))
  | _, _ => none

/-- CANCEL (R280): in every state but OFF the queue stops, its running entry ends without DONE, its streams are cancelled, its registrations drop, HEAD goes to TAIL,
and with RELHOLDS its holds are revoked. -/
def State.qCancel (s : State) (k : Nat) : State :=
  if s.qState k = 0 then s
  else
    let us := s.queueStreams k
    let s1 := ((s.abortEntry k).dropWaiter k).strCancel (k / 4) us
    let s2 := (s1.dropHere (fun q => q.ini == queueIni k)).setQueue k { Queue.init with streams := us, dying := (s.queue k).doomed }
    let a := qreg R.ENG_QPTR k
    let s3 := (s2.setFld a F.ENG_QPTR.HEAD (s2.fld a F.ENG_QPTR.TAIL)).putBit (qreg R.ENG_QERR k) 31 false
    let s4 := (s3.setFld (qreg R.ENG_QSTAT k) F.ENG_QSTAT.PRODUCERS 0).cenBreak (fun _ r => r.seen.any (fun m => m.id == iniId (queueIni k)))
    let s5 := if s4.bit (qreg R.ENG_QCTL k) 3 then s4.revokeHolds (· == ownerId (queueIni k)) else s4
    let s6 := match (s.queue k).fin with
      | some e => if e.status = 0 then s5 else s5.dyingBad k e
      | none => s5
    (s6.setQState k 5).putBit (qreg R.ENG_QCTL k) 2 true

/-- A write of ENG_QCTL: RELHOLDS is stored, then the actions are taken (R279, R280). -/
def State.qctlWrite (s : State) (k : Nat) (v : W32) : State :=
  let s1 := s.putBit (qreg R.ENG_QCTL k) 3 (v.getLsbD 3)
  let s2 := if v.getLsbD 0 then s1.qResume k else s1
  let s3 := if v.getLsbD 1 then s2.qRetry k else s2
  if v.getLsbD 2 then s3.qCancel k else s3

/-- The engine and the offset in its block of a register of compute die registers, if it lies in one. -/
def engPlace (a : Nat) : Option (Nat × Nat) :=
  let o := (a - 0x080000000000) % 0x10000000
  if 0x080000000000 ≤ a ∧ 0x100000 ≤ o ∧ o < 0x108000 then some (8 * ((a - 0x080000000000) / 0x10000000) + (o - 0x100000) / 0x1000, o % 0x1000) else none

/-- A write of an engine's queue registers. -/
def State.engWrite (s : State) (a : Nat) (v : W32) (acc : State → Nat → W32 → State) : Option State :=
  match engPlace a with
  | none => none
  | some (g, o) =>
    if o < 0x100 ∨ 0x200 ≤ o then s.unitWriteReg g o a v acc
    else
      let k := 4 * g + (o - 0x100) / 0x40
      let r := (o - 0x100) % 0x40
      if r = 0xC then some (s.doorbell k (v.toNat % 65536))
      else if r = 0x18 then some (s.qctlWrite k v)
      else if r < 0xC then
        if s.qState k ≤ 1 then some (acc s a (if r = 0 then v &&& 0xFFFFFFC0 else v)) else some (s.putBit (qreg R.ENG_QSTAT k) 10 true)
      else none

/-- A doorbell of an initiator that R451 keeps out while the engine is under test is refused. -/
def State.doorbellBad (s : State) (i : Ini) (a : Nat) : Bool :=
  match engPlace a with
  | some (g, o) =>
    ((decide (0x100 ≤ o) && decide (o < 0x200) && (o - 0x100) % 0x40 == 0xC) || o == 0x42C) && s.testing (unitCode 3 g) &&
      !(iniPrivSole i || iniKeeper (g / 8) i || (match i with
        | .engine d _ _ => d.val == g / 8
        | _ => false))
  | none => false

/-- The register is a doorbell, which any initiator may write (R250). -/
def isDoorbell (a : Nat) : Bool :=
  match engPlace a with
  | some (_, o) => (decide (0x100 ≤ o) && decide (o < 0x200) && (o - 0x100) % 0x40 == 0xC) || o == 0x42C
  | none => false

/-! ### Counters and holds as registers (R268–R273) -/

/-- The die code and the offset in its counter block, ENG_CNT_EXT block or holds block of an address: 0 counters, 1 EXT, 2 holds. -/
def syncPlace (a : Nat) : Option (Nat × Nat × Nat) :=
  if a < 0x080000000000 then
    if 0x1000B000 ≤ a ∧ a < 0x1000C000 then some (0, 0, a - 0x1000B000)
    else if 0x1000E000 ≤ a ∧ a < 0x1000F000 then some (0, 2, a - 0x1000E000)
    else none
  else
    let c := 8 + (a - 0x080000000000) / 0x10000000
    let o := (a - 0x080000000000) % 0x10000000
    if 0x40000 ≤ o ∧ o < 0x44000 then some (c, 0, o - 0x40000)
    else if 0x50000 ≤ o ∧ o < 0x51000 then some (c, 2, o - 0x50000)
    else none

/-- The hold a REL register frees. -/
def relHold (a : Nat) : Option Nat :=
  match syncPlace a with
  | some (c, 2, o) => if 0x800 ≤ o ∧ o < 0xC00 then some (256 * c + (o - 0x800) / 4) else none
  | _ => none

/-- A write of ENG_HOLD_RELn by an initiator that does not own the hold is refused (R270). -/
def State.relBad (s : State) (i : Ini) (a : Nat) : Bool :=
  match relHold a with
  | some key => !((s.hold key).held && (s.hold key).owner == ownerId i)
  | none => false

/-- A write of a counter, a REL register, a snapshot address, or a census mask: a changed membership restarts its group (R276). -/
def State.syncWrite (s : State) (a : Nat) (v : W32) : Option State :=
  if 0x1000D100 ≤ a ∧ a < 0x1000D300 ∧ a % 0x40 = 0x14 then some (s.wr a (v &&& 0xFFFFFFC0)) else
  if 0x1000D100 ≤ a ∧ a < 0x1000D300 ∧ a % 0x40 < 0x14 then
    let x := if a % 0x40 = 0x10 then v &&& 0x3FFF else v
    some ((if s.rd a = x then s else s.cenBreak (fun k _ => k == (a - 0x1000D100) / 0x40)).wr a x) else
  match syncPlace a with
  | some (_, 0, _) => some (s.setCounter a v)
  | some (_, 2, _) => some (match relHold a with
    | some key => s.freeHold key false
    | none => s)
  | _ => none

/-- A read of a hold register: ENG_HOLDn, or ENG_HOLD_ACQn, which may acquire. -/
def State.syncRead (s : State) (i : Ini) (a : Nat) : Option (State × W32) :=
  match syncPlace a with
  | some (c, 2, o) =>
    if o < 0x400 then some (s, s.holdView (256 * c + o / 4))
    else if o < 0x800 then
      let p := s.acquireRead (256 * c + (o - 0x400) / 4) i
      some (p.2, p.1)
    else some (s, 0)
  | _ => none

end Sys2Proof.Machine
end

