-- ==== Sys2Proof/Machine/Crypto.lean ====
section
/-! DEFINITION. Machine/Crypto.lean: the published primitives that verification is made of (05_images.md R112): SHA-384 (FIPS 180-4),
ECDSA over P-384 (FIPS 186-5) and AES-256-GCM (NIST SP 800-38D). They are the standards' own functions; the manual names them and does not
retell them. -/
namespace Sys2Proof.Machine

/-! ### SHA-384 -/

/-- Rotate a 64-bit word right. -/
def rotr (x : Word) (n : Nat) : Word := (x >>> n) ||| (x <<< (64 - n))

def shaK : List Word :=
  [0x428a2f98d728ae22, 0x7137449123ef65cd, 0xb5c0fbcfec4d3b2f, 0xe9b5dba58189dbbc, 0x3956c25bf348b538, 0x59f111f1b605d019, 0x923f82a4af194f9b, 0xab1c5ed5da6d8118] ++
  [0xd807aa98a3030242, 0x12835b0145706fbe, 0x243185be4ee4b28c, 0x550c7dc3d5ffb4e2, 0x72be5d74f27b896f, 0x80deb1fe3b1696b1, 0x9bdc06a725c71235, 0xc19bf174cf692694] ++
  [0xe49b69c19ef14ad2, 0xefbe4786384f25e3, 0xfc19dc68b8cd5b5, 0x240ca1cc77ac9c65, 0x2de92c6f592b0275, 0x4a7484aa6ea6e483, 0x5cb0a9dcbd41fbd4, 0x76f988da831153b5] ++
  [0x983e5152ee66dfab, 0xa831c66d2db43210, 0xb00327c898fb213f, 0xbf597fc7beef0ee4, 0xc6e00bf33da88fc2, 0xd5a79147930aa725, 0x6ca6351e003826f, 0x142929670a0e6e70] ++
  [0x27b70a8546d22ffc, 0x2e1b21385c26c926, 0x4d2c6dfc5ac42aed, 0x53380d139d95b3df, 0x650a73548baf63de, 0x766a0abb3c77b2a8, 0x81c2c92e47edaee6, 0x92722c851482353b] ++
  [0xa2bfe8a14cf10364, 0xa81a664bbc423001, 0xc24b8b70d0f89791, 0xc76c51a30654be30, 0xd192e819d6ef5218, 0xd69906245565a910, 0xf40e35855771202a, 0x106aa07032bbd1b8] ++
  [0x19a4c116b8d2d0c8, 0x1e376c085141ab53, 0x2748774cdf8eeb99, 0x34b0bcb5e19b48a8, 0x391c0cb3c5c95a63, 0x4ed8aa4ae3418acb, 0x5b9cca4f7763e373, 0x682e6ff3d6b2b8a3] ++
  [0x748f82ee5defb2fc, 0x78a5636f43172f60, 0x84c87814a1f0ab72, 0x8cc702081a6439ec, 0x90befffa23631e28, 0xa4506cebde82bde9, 0xbef9a3f7b2c67915, 0xc67178f2e372532b] ++
  [0xca273eceea26619c, 0xd186b8c721c0c207, 0xeada7dd6cde0eb1e, 0xf57d4f7fee6ed178, 0x6f067aa72176fba, 0xa637dc5a2c898a6, 0x113f9804bef90dae, 0x1b710b35131c471b] ++
  [0x28db77f523047d84, 0x32caab7b40c72493, 0x3c9ebe0a15c9bebc, 0x431d67c49c100d4c, 0x4cc5d4becb3e42b6, 0x597f299cfc657e2a, 0x5fcb6fab3ad6faec, 0x6c44198c4a475817]

def shaIv : List Word :=
  [0xcbbb9d5dc1059ed8, 0x629a292a367cd507, 0x9159015a3070dd17, 0x152fecd8f70e5939, 0x67332667ffc00b31, 0x8eb44a8768581511, 0xdb0c2e0d64f98fa7, 0x47b5481dbefa4fa4]

/-- n further words of the message schedule, newest first. -/
def shaSched : Nat → List Word → List Word
  | 0, l => l
  | n + 1, l =>
    let w2 := l.getD 1 0
    let w7 := l.getD 6 0
    let w15 := l.getD 14 0
    let w16 := l.getD 15 0
    let s0 := rotr w15 1 ^^^ rotr w15 8 ^^^ (w15 >>> 7)
    let s1 := rotr w2 19 ^^^ rotr w2 61 ^^^ (w2 >>> 6)
    shaSched n ((w16 + s0 + w7 + s1) :: l)

/-- The rounds of one block. -/
def shaRounds : List (Word × Word) → List Word → List Word
  | [], v => v
  | kw :: t, v =>
    let a := v.getD 0 0
    let b := v.getD 1 0
    let c := v.getD 2 0
    let d := v.getD 3 0
    let e := v.getD 4 0
    let f := v.getD 5 0
    let g := v.getD 6 0
    let h := v.getD 7 0
    let t1 := h + (rotr e 14 ^^^ rotr e 18 ^^^ rotr e 41) + ((e &&& f) ^^^ (~~~e &&& g)) + kw.1 + kw.2
    let t2 := (rotr a 28 ^^^ rotr a 34 ^^^ rotr a 39) + ((a &&& b) ^^^ (a &&& c) ^^^ (b &&& c))
    shaRounds t [t1 + t2, a, b, c, d + t1, e, f, g]

/-- The big-endian number of a list of bytes. -/
def beNat (l : List Byte) : Nat := leNat l.reverse

/-- The n big-endian bytes of a number. -/
def beBytes (n x : Nat) : List Byte := (leBytes n x).reverse

/-- The 16 words of a 128-byte block. -/
def shaWords (b : List Byte) : List Word :=
  (List.range 16).map (fun i => BitVec.ofNat 64 (beNat ((b.drop (8 * i)).take 8)))

/-- Hash n blocks of a padded message. -/
def shaBlocks : Nat → List Byte → List Word → List Word
  | 0, _, h => h
  | n + 1, m, h =>
    let w := (shaSched 64 (shaWords (m.take 128)).reverse).reverse
    shaBlocks n (m.drop 128) (List.zipWith (· + ·) h (shaRounds (List.zip shaK w) h))

/-- SHA-384 of a message, 48 bytes. -/
def sha384 (m : List Byte) : List Byte :=
  let z := (239 - m.length % 128) % 128
  let p := m ++ [0x80] ++ List.replicate z 0 ++ beBytes 16 (8 * m.length)
  ((shaBlocks (p.length / 128) p shaIv).take 6).flatMap (fun w => beBytes 8 w.toNat)

/-! ### ECDSA over P-384 -/

def p384P : Nat := 0xfffffffffffffffffffffffffffffffffffffffffffffffffffffffffffffffeffffffff0000000000000000ffffffff
def p384N : Nat := 0xffffffffffffffffffffffffffffffffffffffffffffffffc7634d81f4372ddf581a0db248b0a77aecec196accc52973
def p384B : Nat := 0xb3312fa7e23ee7e4988e056be3f82d19181d9c6efe8141120314088f5013875ac656398d8a2ed19d2a85c8edd3ec2aef
def p384G : Nat × Nat :=
  (0xaa87ca22be8b05378eb1c71ef320ad746e1d3b628ba79b9859f741e082542a385502f25dbf55296c3a545e3872760ab7,
   0x3617de4a96262c6f5d9e98bf9292dc29f8f41dbd289a147ce9da3113b5f0b8c00a60b1ce1d7e819d7a431d7c90ea0e5f)

/-- b ^ e mod m over the low k bits of e. -/
def powMod (m : Nat) : Nat → Nat → Nat → Nat
  | 0, _, _ => 1 % m
  | k + 1, b, e => (if e % 2 = 1 then b else 1) * powMod m k (b * b % m) (e / 2) % m

/-- The inverse modulo a 384-bit prime. -/
def invMod (m x : Nat) : Nat := powMod m 384 x (m - 2)

/-- A point of the curve as X, Y, Z: the affine point (X / Z², Y / Z³), or infinity where Z is 0. -/
structure EcPoint where
  x : Nat
  y : Nat
  z : Nat
deriving DecidableEq, Repr

def ecZero : EcPoint := ⟨1, 1, 0⟩

/-- Twice a point. -/
def ecDouble (u : EcPoint) : EcPoint :=
  let yy := u.y * u.y % p384P
  let zz := u.z * u.z % p384P
  let s := 4 * u.x * yy % p384P
  let m := 3 * (u.x + (p384P - zz)) * (u.x + zz) % p384P
  let x := (m * m + 2 * (p384P - s)) % p384P
  ⟨x, (m * (s + (p384P - x)) + 8 * (p384P - yy * yy % p384P)) % p384P, 2 * u.y * u.z % p384P⟩

/-- The sum of two points. -/
def ecAdd (u v : EcPoint) : EcPoint :=
  if u.z = 0 then v
  else if v.z = 0 then u
  else
    let zu := u.z * u.z % p384P
    let zv := v.z * v.z % p384P
    let a := u.x * zv % p384P
    let b := v.x * zu % p384P
    let c := u.y * v.z % p384P * zv % p384P
    let d := v.y * u.z % p384P * zu % p384P
    if a = b then (if c = d then ecDouble u else ecZero)
    else
      let h := (b + (p384P - a)) % p384P
      let r := (d + (p384P - c)) % p384P
      let hh := h * h % p384P
      let hhh := hh * h % p384P
      let w := a * hh % p384P
      let x := (r * r + (p384P - hhh) + 2 * (p384P - w)) % p384P
      ⟨x, (r * (w + (p384P - x)) + c * (p384P - hhh)) % p384P, h * u.z % p384P * v.z % p384P⟩

/-- Scalar multiplication over the low k bits of e. -/
def ecMul : Nat → Nat → EcPoint → EcPoint
  | 0, _, _ => ecZero
  | k + 1, e, p =>
    let r := ecMul k (e / 2) (ecDouble p)
    if e % 2 = 1 then ecAdd p r else r

/-- Whether (r, s) is a valid signature, with SHA-384, of a message under the public key (x, y). -/
def ecdsaOk (x y r s : Nat) (m : List Byte) : Bool :=
  let e := beNat (sha384 m) % p384N
  let onCurve := decide (x < p384P) && decide (y < p384P) &&
    (y * y % p384P == (x * x % p384P * x + (p384P - 3) * x + p384B) % p384P)
  let w := invMod p384N s
  let u1 := e * w % p384N
  let u2 := r * w % p384N
  onCurve && decide (0 < r) && decide (r < p384N) && decide (0 < s) && decide (s < p384N) &&
    (let q := ecAdd (ecMul 384 u1 ⟨p384G.1, p384G.2, 1⟩) (ecMul 384 u2 ⟨x, y, 1⟩)
     q.z != 0 && q.x * invMod p384P (q.z * q.z % p384P) % p384P % p384N == r)

/-! ### AES-256-GCM -/

/-- Multiplication in GF(2^8) with AES's polynomial, over k bits of b. -/
def gfMul8 : Nat → Byte → Byte → Byte
  | 0, _, _ => 0
  | k + 1, a, b =>
    (if b.getLsbD 0 then a else 0) ^^^
      gfMul8 k ((a <<< 1) ^^^ (if a.getLsbD 7 then 0x1B else 0)) (b >>> 1)

/-- x ^ (2^(k+1) − 2) in GF(2^8): the inverse, for k = 7. -/
def gfInv8 : Nat → Byte → Byte
  | 0, _ => 1
  | k + 1, x => let y := gfMul8 8 x x; gfMul8 8 y (gfInv8 k y)

/-- AES's substitution. -/
def aesSub (x : Byte) : Byte :=
  let b := gfInv8 7 x
  b ^^^ b.rotateLeft 1 ^^^ b.rotateLeft 2 ^^^ b.rotateLeft 3 ^^^ b.rotateLeft 4 ^^^ 0x63

def xorBytes (a b : List Byte) : List Byte := List.zipWith (· ^^^ ·) a b

/-- Further four-byte words of the key schedule of a 256-bit key, newest first; i is the number of the next. -/
def aesKeys : Nat → Nat → List (List Byte) → List (List Byte)
  | 0, _, l => l
  | n + 1, i, l =>
    let t := l.getD 0 []
    let u := if i % 8 = 0 then
        xorBytes ((t.drop 1 ++ t.take 1).map aesSub) [BitVec.ofNat 8 (2 ^ (i / 8 - 1)), 0, 0, 0]
      else if i % 8 = 4 then t.map aesSub else t
    aesKeys n (i + 1) (xorBytes (l.getD 7 []) u :: l)

/-- The bytes of a list in groups of n. -/
def groups (n : Nat) : Nat → List Byte → List (List Byte)
  | 0, _ => []
  | k + 1, l => l.take n :: groups n k (l.drop n)

/-- The fifteen round keys, 16 bytes each. -/
def aesRoundKeys (key : List Byte) : List (List Byte) :=
  let ws := (aesKeys 52 8 (groups 4 8 key).reverse).reverse
  groups 16 15 ws.flatten

/-- ShiftRows on the 16 bytes of a block, column by column. -/
def aesShift (b : List Byte) : List Byte :=
  (List.range 16).map (fun i => b.getD ((i + 4 * (i % 4)) % 16) 0)

/-- MixColumns on one column. -/
def aesMixCol (c : List Byte) : List Byte :=
  (List.range 4).map (fun i =>
    gfMul8 8 (c.getD i 0) 2 ^^^ gfMul8 8 (c.getD ((i + 1) % 4) 0) 3 ^^^ c.getD ((i + 2) % 4) 0 ^^^ c.getD ((i + 3) % 4) 0)

/-- The rounds after the first key. -/
def aesRounds : List (List Byte) → List Byte → List Byte
  | [], b => b
  | [k], b => xorBytes (aesShift (b.map aesSub)) k
  | k :: ks, b => aesRounds ks (xorBytes ((groups 4 4 (aesShift (b.map aesSub))).flatMap aesMixCol) k)

/-- AES-256 of one block. -/
def aesBlock (key b : List Byte) : List Byte :=
  match aesRoundKeys key with
  | [] => b
  | k :: ks => aesRounds ks (xorBytes b k)

/-- Multiplication in GF(2^128) as GCM orders its bits: x is read from its most significant bit, k bits left. -/
def gfMul128 : Nat → BitVec 128 → BitVec 128 → BitVec 128
  | 0, _, _ => 0
  | k + 1, x, v =>
    (if x.getLsbD 127 then v else 0) ^^^
      gfMul128 k (x <<< 1) ((v >>> 1) ^^^ (if v.getLsbD 0 then 0xE1000000000000000000000000000000 else 0))

/-- GHASH over a list of blocks. -/
def ghash (h : BitVec 128) : List (List Byte) → BitVec 128 → BitVec 128
  | [], y => y
  | b :: bs, y => ghash h bs (gfMul128 128 (y ^^^ BitVec.ofNat 128 (beNat b)) h)

/-- Bytes padded with zeros to whole blocks. -/
def padded (l : List Byte) : List (List Byte) :=
  let n := (l.length + 15) / 16
  groups 16 n (l ++ List.replicate (16 * n - l.length) 0)

/-- Counter mode over the blocks of a text from counter i. -/
def gctr (key iv : List Byte) : Nat → List (List Byte) → List Byte
  | _, [] => []
  | i, b :: bs => xorBytes b (aesBlock key (iv ++ beBytes 4 i)) ++ gctr key iv (i + 1) bs

/-- The blocks of a text, the last as long as the text leaves it. -/
def textBlocks (l : List Byte) : List (List Byte) := groups 16 ((l.length + 15) / 16) l

/-- AES-256-GCM decryption: the plain text, where the tag agrees. -/
def gcmOpen (key iv aad tag text : List Byte) : Option (List Byte) :=
  let h := BitVec.ofNat 128 (beNat (aesBlock key (List.replicate 16 0)))
  let s := ghash h (padded aad ++ padded text ++ [beBytes 8 (8 * aad.length) ++ beBytes 8 (8 * text.length)]) 0
  let t := xorBytes (beBytes 16 s.toNat) (aesBlock key (iv ++ beBytes 4 1))
  if t = tag then some (gctr key iv 2 (textBlocks text)) else none

end Sys2Proof.Machine
end

