-- ==== Sys2Proof/Machine/Mem.lean ====
section
/-! DEFINITION. Machine/Mem.lean: a request at its network entry and at a target that is a memory (08_memory.md R184–R211, 09_network.md
R232–R237). Register regions are served in Machine/Bus.lean. -/
namespace Sys2Proof.Machine

/-- What a target answers: data (empty for a write), a refusal's reason code (9 POISON), or that the region is not a memory. -/
inductive Served where
  | ok (bytes : List Byte)
  | bad (reason : Nat)
  | other
deriving DecidableEq, Repr

/-- A request at its network entry; a refusal is captured (R205). -/
def State.enter (s : State) (q : Req) : State × Nat × Nat :=
  let p := s.passEntry q
  if p.2.1 ≠ 0 then (p.1.captureRefusal q p.2.1, p.2) else p

/-- The answer to a request at its target reaches nobody but the log where it is refused: a capture, a notice for a posted write; then it goes back (R203, R205). -/
def State.answerBack (s : State) (n : NetReq) (w : Served) : State :=
  match w with
  | .bad e =>
    let u := if e = 9 then s else s.captureRefusal n.req e
    let v := if n.req.posted then u.notice n.req.ini n.req.addr e else u
    (v.respond n e []).sendBack n e []
  | .ok b => (s.respond n 0 b).sendBack n 0 b
  | .other => s

/-- Who may access Insole (R93): privileged Sole firmware and the Heel core. -/
def insoleOk (i : Ini) : Bool := iniPrivSole i || iniHeelCore i

/-- Check 10 for a read or fetch of a memory region (R93, R132, R592). -/
def readOwnerOk (r : Region) (i : Ini) : Bool :=
  !(iniFabric i && fabBarred r) && match r with
  | .insole => insoleOk i
  | .trace => iniPrivSole i
  | _ => localOk r i

/-- The slot whose Heel area holds the image the Heel core executes, and the bytes of that area (R107, R108). -/
def State.inRunningHeel (s : State) (a : Nat) : Bool :=
  match s.boot.heel with
  | some im => decide (0x24000000 + im.slot * 0x01000000 ≤ a) && decide (a < 0x24110000 + im.slot * 0x01000000)
  | none => false

/-- Whether a store write meets R108: its writer, a whole aligned line, WEN, a line that reads all 0xFF, not the running Heel's area. -/
def State.storeWriteOk (s : State) (i : Ini) (a n : Nat) : Bool :=
  (iniPrivSole i || iniHeelCore i) && n == 64 && a % 64 == 0 && s.bit R.BOOT_ST_CTL 0 && (s.bytes a 64).all (· == 0xFF) && !s.inRunningHeel a

/-- Check 10 for a write of a memory region. -/
def State.writeOwnerOk (s : State) (r : Region) (i : Ini) (a n : Nat) : Bool :=
  !(iniFabric i && fabBarred r) && match r with
  | .bootRom => false
  | .insole => insoleOk i && decide (0x28001000 ≤ a) && decide (a + n ≤ 0x28002000)
  | .store => s.storeWriteOk i a n
  | .trace => false
  | .heelReg => iniHeelCore i
  | _ => localOk r i

/-- Insole words of an access (R95). -/
def State.readInsoleWords (s : State) : List Nat → State × Bool
  | [] => (s, true)
  | a :: l =>
    let p := s.readInsole a
    let q := p.1.readInsoleWords l
    (q.1, p.2 && q.2)

/-- First bytes of the 32-bit words of n bytes from a. -/
def wordList (a n : Nat) : List Nat := (List.range ((a + n - 1) / 4 - a / 4 + 1)).map (fun i => (a / 4 + i) * 4)

/-- A line of the image store in n bytes from a that cannot be read correctly (R130). -/
def State.storeBad (s : State) (a n : Nat) : Bool :=
  (lineList a n).any (fun l => s.line l == .uncorrectable || s.line l == .poisoned)

/-- Serve a read of a memory region (check 10 and R207). What a store line that cannot be read correctly returns is not stated: each of the bytes read is free
(notes/assumptions/12.md). -/
def State.memRead (s : State) (i : Ini) (r : Region) (a n : Nat) : State × Served :=
  if !readOwnerOk r i then (s, .bad 8)
  else match r with
    | .sram | .host | .larder _ | .engMem _ _ =>
      let p := s.readLines r (lineList a n)
      if p.2 then (p.1, .ok (p.1.bytes a n)) else (p.1, .bad 9)
    | .insole =>
      let p := s.readInsoleWords (wordList a n)
      if p.2 then (p.1, .ok (p.1.bytes a n)) else (p.1, .bad 9)
    | .store => if s.storeBad a n then ((s.drawBytes n).1, .ok (s.drawBytes n).2) else (s, .ok (s.bytes a n))
    | .bootRom | .heelRam | .trace | .keeperRam _ | .heelReg => (s, .ok (s.bytes a n))
    | .fabric d => (s, if s.fabServes d a then .other else .bad 8)
    | _ => (s, .other)

/-- A write of Insole's keep area (R84, R95): whole words take fresh check bits; a part of a word that is uncorrectable merges and leaves it so,
with a POISON_MERGE notice. Writes after a Winter commit are discarded. -/
def State.writeInsole (s : State) (i : Ini) (a : Nat) (bs : List Byte) : State :=
  if s.sup.winter = .committed ∨ s.sup.winter = .saved then s
  else
    let s1 := s.each (fun t w =>
      if a ≤ w ∧ w + 4 ≤ a + bs.length then t.putLine w .clean
      else match t.line w with
        | .uncorrectable | .poisoned => t.notice i (BitVec.ofNat 64 w) 9
        | _ => (t.readInsole w).1) (wordList a bs.length)
    s1.putBytes a bs

/-- Serve a write of a memory region (check 10 and R209). A store line begins to program: BOOT_ST_CTL is BUSY until STORE_OP_DONE. -/
def State.memWrite (s : State) (i : Ini) (r : Region) (a : Nat) (bs : List Byte) : State × Served :=
  if !s.writeOwnerOk r i a bs.length then (s, .bad 8)
  else match r with
    | .sram | .host | .larder _ | .engMem _ _ => (s.writeTagged i r a bs, .ok [])
    | .insole => (s.writeInsole i a bs, .ok [])
    | .heelRam | .trace | .keeperRam _ => (s.putBytes a bs, .ok [])
    | .store =>
      ((((s.putLine a .clean).putBytes a bs).withBoot { s.boot with storeOps := s.boot.storeOps + 1 }).putBit R.BOOT_ST_CTL 1 true, .ok [])
    | .heelReg => (if s.sup.heelHeld then s else s.msgWrite a bs, .ok [])
    | .fabric d => (s, if s.fabServes d a then .other else .bad 8)
    | _ => (s, .other)

/-- The value an atomic stores. -/
def atomNew (op : AtomOp) (n : Nat) (old v : Word) : Word :=
  match op with
  | .add => BitVec.ofNat 64 ((old + v).toNat % 2 ^ (8 * n))
  | .swap => BitVec.ofNat 64 (v.toNat % 2 ^ (8 * n))
  | .cas e => if old.toNat % 2 ^ (8 * n) = e.toNat % 2 ^ (8 * n) then BitVec.ofNat 64 (v.toNat % 2 ^ (8 * n)) else old

/-- Serve an atomic of n bytes, 4 or 8 (R145, R209): the old value is the answer; a failing line refuses it unchanged. -/
def State.memAtomic (s : State) (_i : Ini) (r : Region) (a n : Nat) (op : AtomOp) (v : Word) : State × Served :=
  match r with
  | .sram | .host | .engMem _ _ =>
    let p := s.readLine r a
    if p.2 then
      let old := BitVec.ofNat 64 (leNat (p.1.bytes a n))
      ((p.1.putBytes a (leBytes n (atomNew op n old v).toNat)), .ok (leBytes n old.toNat))
    else (p.1, .bad 9)
  | _ => (s, .bad 8)

/-! ### Reads whose answers come later (R186, R431) -/

/-- Read r asks what read q asks, early or not. -/
def sameRead (q r : Req) : Bool := r.ini == q.ini && r.kind == Kind.read && r.addr == q.addr && r.len == q.len && r.via == q.via

/-- The answer to a read of an engine or of the security block that has come back to it, by its place. -/
def State.answerTo (s : State) (q : Req) : Option Nat :=
  (List.range s.resp.length).find? (fun j => match s.resp[j]? with
    | some r => r.here && sameRead q r.req
    | none => false)

/-- The read is on its way already, or its answer is. -/
def State.asked (s : State) (q : Req) : Bool := s.net.any (fun n => !n.orphan && sameRead q n.req) || s.resp.any (fun r => sameRead q r.req)

/-- Send a read on its way, once; one that its entry refuses is answered there. -/
def State.ask (s : State) (q : Req) : State :=
  if s.asked q then s
  else
    let p := s.enter q
    if p.2.1 ≠ 0 then p.1.withResp (p.1.resp ++ [{ req := q, reason := p.2.1, data := [], here := true }])
    else p.1.withNet (p.1.net ++ [p.1.inFlight { q with cls := p.2.2 } [] none 0])

/-- An answer's data, as many bytes as were asked for. -/
def fitTo (n : Nat) (bs : List Byte) : List Byte := bs.take n ++ List.replicate (n - bs.length) 0

/-- Take the answer to a read, if it has come. -/
def State.takeAnswer (s : State) (q : Req) : State × Option Served :=
  match s.answerTo q with
  | none => (s, none)
  | some j => match s.resp[j]? with
    | some r => (s.withResp (s.resp.eraseIdx j), some (if r.reason = 0 then .ok (fitTo q.len r.data) else .bad r.reason))
    | none => (s, none)

/-- Send those of some reads that go outward on their way; the Bool says that every answer has come. -/
def State.askAll (s : State) (qs : List Req) : State × Bool :=
  let t := (qs.filter s.outward).foldl State.ask s
  (t, (qs.filter s.outward).all (fun q => (t.answerTo q).isSome))

/-- The requests into which a network interface splits a transfer (R219): none crosses a 256-byte boundary, in ascending order; an atomic is one request. -/
def pieces (atomic : Bool) (a n : Nat) : Nat → List (Nat × Nat)
  | 0 => []
  | fuel + 1 =>
    if n = 0 then []
    else if atomic || n ≤ 256 - a % 256 then [(a, n)]
    else (a, 256 - a % 256) :: pieces atomic (a + (256 - a % 256)) (n - (256 - a % 256)) fuel

/-- The reads of n bytes from a, for an initiator with a label. -/
def readsOf (i : Ini) (cls a n : Nat) : List Req :=
  (pieces false a n (n + 1)).map (fun p => { ini := i, kind := .read, addr := BitVec.ofNat 64 p.1, len := p.2, posted := false, early := false, cls := cls })

/-- A whole read of memory by a unit of the package: entry and target, or the answer that has come from outward. The answer is the data, or the reason (R203). -/
def State.unitRead (s : State) (i : Ini) (a n cls : Nat) : State × Served :=
  let q : Req := { ini := i, kind := .read, addr := BitVec.ofNat 64 a, len := n, posted := false, early := false, cls := cls }
  if s.outward q then
    let w := s.takeAnswer q
    (w.1, w.2.getD .other)
  else
  let p := s.enter q
  if p.2.1 ≠ 0 then (p.1, .bad p.2.1)
  else match p.1.regionOf a with
    | some (r, _, _) =>
      let w := p.1.memRead i r a n
      match w.2 with
      | .bad 8 => (w.1.captureRefusal q 8, .bad 8)
      | x => (w.1, x)
    | none => (p.1, .bad 1)

/-- A whole write of memory by a unit of the package; a posted write that is refused also raises a notice (R203). One for outward goes on its way. -/
def State.unitWrite (s : State) (i : Ini) (a : Nat) (bs : List Byte) (cls : Nat) : State × Served :=
  let q0 : Req := { ini := i, kind := .write, addr := BitVec.ofNat 64 a, len := bs.length, posted := false, early := false, cls := cls }
  let q := { q0 with posted := s.postedTo q0 }
  let report (t : State) (c : Nat) : State × Served := (if q.posted then t.notice i q.addr c else t, .bad c)
  let p := s.enter q
  if p.2.1 ≠ 0 then report p.1 p.2.1
  else match p.1.regionOf a with
    | some (r, _, _) =>
      let w := p.1.memWrite i r a bs
      match w.2 with
      | .bad c => report (w.1.captureRefusal q c) c
      | .other => (w.1.withNet (w.1.net ++ [w.1.inFlight { q with cls := p.2.2 } bs none 0]), .ok [])
      | x => (w.1, x)
    | none => report p.1 1

/-! ### Longer transfers by requests of at most 256 bytes (R219) -/

/-- The security block reads n bytes from a, in order; none once a request is refused or poisoned. -/
def State.unitLoad (s : State) (a n : Nat) : State × Option (List Byte) :=
  (pieces false a n (n + 1)).foldl (fun t p =>
    match t.2 with
    | none => t
    | some b =>
      let w := t.1.unitRead (.soleUnit 0) p.1 p.2 15
      match w.2 with
      | .ok x => (w.1, some (b ++ x))
      | _ => (w.1, none)) (s, some [])

/-- The security block writes bytes from a, in order, until a request is refused; the Bool says that all were taken, the count what was written. -/
def State.unitStore (s : State) (a : Nat) (bs : List Byte) : State × Bool × Nat :=
  (pieces false a bs.length (bs.length + 1)).foldl (fun t p =>
    if t.2.1 then
      let w := t.1.unitWrite (.soleUnit 0) p.1 ((bs.drop (p.1 - a)).take p.2) 15
      match w.2 with
      | .ok _ => (w.1, true, t.2.2 + p.2)
      | _ => (w.1, false, t.2.2)
    else t) (s, true, 0)

end Sys2Proof.Machine
end

