-- ==== Sys2Proof/Machine/BootOps.lean ====
section
/-! DEFINITION. Machine/BootOps.lean: signed objects and their verification, staging, agreement, the live swap and the Heel command port
(05_images.md). -/
namespace Sys2Proof.Machine

/-! ### Headers (R110, R111) -/

/-- A little-endian field of a header. -/
def hdrField (h : List Byte) (off n : Nat) : Nat := leNat ((h.drop off).take n)

def hdrZero (h : List Byte) (off n : Nat) : Bool := ((h.drop off).take n).all (· == 0)

def hdrImg (h : List Byte) (slot : Nat) : Img :=
  { slot := slot, kind := hdrField h 6 1, hi := BitVec.ofNat 16 (hdrField h 8 2), di := BitVec.ofNat 16 (hdrField h 10 2),
    fi := BitVec.ofNat 16 (hdrField h 12 2), svn := BitVec.ofNat 32 (hdrField h 0x10 4), len := BitVec.ofNat 32 (hdrField h 0x14 4),
    load := BitVec.ofNat 32 (hdrField h 0x18 4), entry := BitVec.ofNat 32 (hdrField h 0x1C 4) }

/-- Flags of a header. -/
def hdrEnc (h : List Byte) : Bool := (hdrField h 7 1).testBit 0
def hdrRevoke (h : List Byte) : Bool := (hdrField h 7 1).testBit 1
def hdrImageKey (h : List Byte) : Bool := (hdrField h 7 1).testBit 2

/-- LEN within the limit of R107; a revocation has no body, an enrolment 48 bytes, an image key 32 (R113). -/
def lenOk (h : List Byte) : Bool :=
  let n := hdrField h 0x14 4
  n % 4 == 0 && (match hdrField h 6 1 with
    | 1 => decide (n ≤ 0x100000)
    | 2 => decide (n ≤ 0x400000)
    | 3 => decide (n ≤ 0x200000)
    | 4 => decide (n ≤ 0x800000)
    | _ => decide (n ≤ 48))

/-- Which epochs a kind uses: HI, DI, FI (R111). -/
def usesEpochs (kind : Nat) : Bool × Bool × Bool :=
  match kind with
  | 1 => (true, false, false)
  | 2 => (true, true, false)
  | 3 => (false, true, true)
  | 4 => (false, false, true)
  | _ => (false, false, false)

/-- A header is valid (R111). -/
def hdrValid (h : List Byte) : Bool :=
  let k := hdrField h 6 1
  let e := usesEpochs k
  let used (b : Bool) (off : Nat) : Bool := (hdrField h off 2 != 0) == b
  let load := hdrField h 0x18 4
  let len := hdrField h 0x14 4
  hdrField h 0 4 == 0x4E58494D && hdrField h 4 2 == 1 && decide (1 ≤ k) && decide (k ≤ 5) &&
  used e.1 8 && used e.2.1 10 && used e.2.2 12 && lenOk h &&
  (if k = 2 then decide (0x01000000 ≤ load) && decide (load + len ≤ 0x01E00000)
   else if k = 5 then decide (load < 4) else load == 0) &&
  !(k == 1 && hdrEnc h) && (k == 5 || !(hdrRevoke h || hdrImageKey h)) && decide (hdrField h 7 1 < 8) &&
  hdrZero h 0x0E 2 && hdrZero h 0x34 12 && hdrZero h 0x140 192

/-! ### Verification (R112) -/

/-- The verdict on an object: a code of BOOT_VER_STAT, its header fields, and its plain body. -/
structure Verdict where
  code : Nat
  img : Img
  hdr : List Byte
  body : List Byte
deriving DecidableEq, Repr

/-- Key step: the digest of PUBKEY is in an enrolled slot that is not revoked, or no slot is enrolled. -/
def State.keyOk (s : State) (pub : List Byte) : Bool :=
  s.boot.keys.isEmpty || (List.range 4).any (fun n =>
    !s.boot.revoked.contains n && s.boot.keys.any (fun e => e.1 == n && e.2 == sha384 pub))

/-- The rollback counter of a kind; key records have none (R114). -/
def State.rollback (s : State) (kind : Nat) : Nat :=
  if 1 ≤ kind ∧ kind ≤ 4 then s.fld R.BOOT_ROLL ⟨8 * (kind - 1), 8⟩ else 0

/-- The object's bytes lie in the image store on a line that cannot be read correctly (R130). -/
def State.storeLineBad (s : State) (a n : Nat) : Bool := decide (0x24000000 ≤ a) && decide (a + n ≤ 0x26000000) && s.storeBad a n

/-- Bytes of an object: by the security block through its guard, or by a boot ROM inside its own die. -/
def State.objBytes (s : State) (unit : Bool) (a n : Nat) : State × Option (List Byte) :=
  if n = 0 then (s, some [])
  else if s.storeLineBad a n then (s, none)
  else if unit then s.unitLoad a n
  else (s, some (s.bytes a n))

/-- The slot of the image store an address lies in: 0 for A, 1 for B. -/
def slotOf (a : Nat) : Nat := if 0x25000000 ≤ a ∧ a < 0x26000000 then 1 else 0

/-- Verify the object whose header is at a, of a kind that ok accepts, by the steps of R112 in order; a job that refuses some valid headers by a code of its own does so, by
refuse, once the header is known to be valid (DESIGN CHOICE, notes/assumptions/12.md). A store line that cannot be read correctly fails DIGEST (R130);
another read that is refused fails HEADER for a header and DIGEST for a body (notes/assumptions/12.md), and a KIND that
ok does not accept fails HEADER (DESIGN CHOICE, notes/assumptions/118.md). -/
def State.verifyWith (s : State) (unit : Bool) (a : Nat) (ok : Nat → Bool) (refuse : List Byte → Nat) : State × Verdict :=
  let p := s.objBytes unit a 512
  let h := p.2.getD []
  let img := hdrImg h (slotOf a)
  let fail (t : State) (c : Nat) : State × Verdict := (t, ⟨c, img, h, []⟩)
  if s.storeLineBad a 512 then fail p.1 5
  else if h.length ≠ 512 ∨ !hdrValid h ∨ !ok img.kind then fail p.1 1
  else if refuse h ≠ 0 then fail p.1 (refuse h)
  else if !p.1.keyOk ((h.drop 0x80).take 96) then fail p.1 2
  else if !ecdsaOk (beNat ((h.drop 0x80).take 48)) (beNat ((h.drop 0xB0).take 48)) (beNat ((h.drop 0xE0).take 48))
      (beNat ((h.drop 0x110).take 48)) (h.take 0xE0) then fail p.1 3
  else if img.svn.toNat < p.1.rollback img.kind then fail p.1 4
  else
    let q := p.1.objBytes unit (a + 512) img.len.toNat
    match q.2 with
    | none => fail q.1 5
    | some b =>
      if sha384 b ≠ (h.drop 0x50).take 48 then fail q.1 5
      else if !hdrEnc h then (q.1, ⟨0, img, h, b⟩)
      else match q.1.boot.imageKey with
        | none => fail q.1 6
        | some k => match gcmOpen k ((h.drop 0x28).take 12) (h.take 0x40) ((h.drop 0x40).take 16) b with
          | none => fail q.1 6
          | some t => (q.1, ⟨0, img, h, t⟩)

/-- Verification by the steps of R112 alone. -/
def State.verify (s : State) (unit : Bool) (a : Nat) (ok : Nat → Bool) : State × Verdict := s.verifyWith unit a ok (fun _ => 0)

/-! ### Agreement (R119–R121) -/

/-- A core as it enters its image at a PC: at its reset values; across a swap with WARM set, its interrupt lines pending as they were (R166–R168). -/
def Core.start (x : Core) (warm : Bool) (pc : Word) : Core :=
  if warm then
    { (Core.init .running).putSrBit srStatus stWarm true with
      pc := pcOf pc, notices := x.notices, noteOvf := x.noteOvf, noteLost := x.noteLost, soft := x.soft, dhalt := x.dhalt }
  else { Core.init .running with pc := pcOf pc }

/-- A keeper enters its Die image at ENTRY (R132, R167, R168). -/
def State.keeperEnter (s : State) (d : Nat) (im : Img) (warm : Bool) : State :=
  let c : CoreId := .keeper (Fin.ofNat 4 d)
  s.setCore c ((s.core c).start warm (BitVec.ofNat 64 (dieBase d + 0x08000000) + im.entry.setWidth 64))

/-- Judge die d's image against the running Sole image: LIVE, or UNAGREED with cause MISMATCH (R117, R119, R120). A HALTED keeper stays so (R159). -/
def State.judgeDi (s : State) (d : Nat) (im : Img) (warm enter : Bool) : State :=
  let agree := match s.boot.sole with
    | some a => a.di == im.di
    | none => false
  let c : CoreId := .keeper (Fin.ofNat 4 d)
  let halted := (s.core c).run == .halted
  if agree then
    let s1 := (s.setAgree d 1).setDieState d 3
    if enter && !halted then s1.keeperEnter d im warm else s1
  else
    let s1 := if s.dieLive d then s.stopDie d else s
    let s2 := ((s1.setAgree d 2).setDieState d 4).putBit R.BOOT_AGREE 16 true
    (if halted then s2 else s2.setCore c { s2.core c with run := .held, wait := none }).bootEvent 0x101

/-- Register the epochs of the Die image last offered to keeper d, and the image whose body it has verified, if any. -/
def State.offerDie (s : State) (d : Nat) (im : Img) (held : Option Img) : State :=
  (s.wr (R.BOOT_EPOCH_DIE d) (im.fi ++ im.di)).withBoot { s.boot with die := tabPut (fun _ => none) d held s.boot.die }

/-- Regions of die d that hold a load whose FI differs are emptied by a forced swap, each mismatch with its event (R120, R128, R130); whether one does (R127). -/
def State.fiDiffers (s : State) (d : Nat) (fi : BitVec 16) : Bool := (List.range 8).any (fun r => s.fiDiffersAt (8 * d + r) fi)
def State.emptyRegions (s : State) (d : Nat) (fi : BitVec 16) : State :=
  s.each (fun t r => if t.fiDiffersAt (8 * d + r) fi then ((t.rgnEmpty (8 * d + r) 8).putBit R.BOOT_AGREE 16 true).bootEvent 0x105 else t) (List.range 8)

/-- Die d is UNAGREED with cause NOIMG: nothing is staged, or the staged body's digest fails (R117). -/
def State.dieNoimg (s : State) (d : Nat) : State :=
  let t := if s.dieLive d then s.stopDie d else s
  (((t.withBoot { t.boot with die := tabPut (fun _ => none) d none t.boot.die }).setAgree d 3).setDieState d 4).bootEvent 0x102

/-- Keeper d fetches the staged body (R117, R128): its lines are read, and their digest compared as the bytes staged, then DI; a line that cannot be read fails the digest
(R206, R207). A forced swap empties the regions whose FI differs. -/
def State.dieFetch (s0 : State) (d : Nat) (im : Img) (warm force : Bool) : State :=
  let p := s0.readLines .sram (lineList 0x01E00000 im.len.toNat)
  let s := p.1
  let area := s.bytes 0x01E00000 im.len.toNat
  if p.2 ∧ area = s.boot.stagedBody then
    let t := (s.offerDie d im (some im)).putBytes (dieBase d + 0x08000000) area
    (if force then t.emptyRegions d im.fi else t).judgeDi d im warm true
  else (s.offerDie d im none).dieNoimg d

/-- The start of die d ends with its keeper's check of the staged body (R117). -/
def State.dieImageCheck (s0 : State) (d : Nat) : State :=
  let s := s0.withBoot { s0.boot with dieRom := s0.boot.dieRom.filter (· != d) }
  let s1 := match s.boot.stagedDie with
    | none => s.dieNoimg d
    | some im => s.dieFetch d im false false
  (s1.syncLive s0).summerCheck

/-! ### Staging (R117, R126) -/

/-- Write a verified body to its destination: true, or, where a write is refused, zeros over what was written (R112). -/
def State.deliver (s : State) (a : Nat) (bs : List Byte) : State × Bool :=
  let w := s.unitStore a bs
  if w.2.1 then (w.1, true) else ((w.1.unitStore a (List.replicate w.2.2 0)).1, false)

/-- Zero what a failed verification wrote to its destination (R112): a body is written as it is decrypted with the image key, so that the tag alone fails after it
(notes/assumptions/12.md). -/
def State.wipe (s : State) (a : Nat) (v : Verdict) : State :=
  if v.code = 6 ∧ s.boot.imageKey.isSome then (s.unitStore a (List.replicate v.img.len.toNat 0)).1 else s

/-- Stage the Die image whose header is at a: the plain body goes to the Die staging area (R117). A staging area that does not take the body fails with code
SOURCE, for which the spec names no code (DESIGN CHOICE, notes/assumptions/12.md); no failure leaves an image staged. -/
def State.stageDie (s : State) (a : Nat) : State × Verdict :=
  let p := s.verify true a (· == 3)
  let w := if p.2.code = 0 then p.1.deliver 0x01E00000 p.2.body else (p.1.wipe 0x01E00000 p.2, false)
  if w.2 then (w.1.withBoot { w.1.boot with stagedDie := some p.2.img, stagedBody := p.2.body }, p.2)
  else
    let code := if p.2.code = 0 then 8 else p.2.code
    ((w.1.withBoot { w.1.boot with stagedDie := none, stagedBody := [] }).bootEvent code, { p.2 with code := code })

/-- Header address of a kind's area in a slot (R107). -/
def areaAddr (kind slot : Nat) : Nat :=
  0x24000000 + slot * 0x01000000 + (if kind = 1 then 0 else if kind = 2 then 0x110000 else 0x520000)

/-- The staging of Autumn → Summer: from the slot BOOT_SEL.DIE names, unless an image is staged (R117). -/
def State.stageForSummer (s : State) : State :=
  if s.boot.stagedDie.isSome then s else (s.stageDie (areaAddr 3 (s.fld R.BOOT_SEL F.BOOT_SEL.DIE))).1

/-! ### Boot (R115, R116) -/

/-- The Heel core enters an image at ENTRY, in place (R107, R115). -/
def State.heelEnter (s : State) (im : Img) (fb warm : Bool) : State :=
  let s1 := s.setCore .heel ((s.core .heel).start warm (BitVec.ofNat 64 (areaAddr 1 im.slot + 512) + im.entry.setWidth 64))
  let s2 := s1.withBoot { s1.boot with heel := some im, heelFb := fb, heelRom := false }
  ((s2.putBit R.BOOT_STATUS 0 (im.slot == 1)).putBit R.BOOT_STATUS 2 fb).wr R.BOOT_EPOCH_HEEL (im.hi.setWidth 32)

/-- A failure or a fallback that the Heel meets is an event with its code (R130), reported over the Sole ↔ Heel link (R437). -/
def State.heelEvent (s : State) (code : Nat) : State := s.monitorEvent 0x24 code

/-- Verification of the Heel image ends (R115). -/
def State.heelBoot (s : State) : State :=
  let sel := s.fld R.BOOT_SEL F.BOOT_SEL.HEEL
  let p := s.verify false (areaAddr 1 sel) (· == 1)
  if p.2.code = 0 then (p.1.heelEnter p.2.img false false).judgeHi
  else
    let s1 := p.1.heelEvent p.2.code
    let q := s1.verify false (areaAddr 1 (1 - sel)) (· == 1)
    if q.2.code = 0 then ((q.1.heelEnter q.2.img true false).heelEvent 0x103).judgeHi
    else
      let s2 := q.1.heelEvent q.2.code
      ((s2.withBoot { s2.boot with heel := none, heelRom := false }).wr R.BOOT_EPOCH_HEEL 0).judgeHi

/-- A0 enters a Sole image loaded from a slot (R116). -/
def State.soleEnter (s : State) (v : Verdict) (fb : Bool) : State :=
  let s1 := s.putBytes v.img.load.toNat v.body
  let s2 := s1.setCore (.sole 0) ((s1.core (.sole 0)).start false (v.img.load.setWidth 64 + v.img.entry.setWidth 64))
  let s3 := s2.withBoot { s2.boot with sole := some v.img, soleRom := false }
  (((s3.putBit R.BOOT_STATUS 1 (v.img.slot == 1)).putBit R.BOOT_STATUS 3 fb).wr R.BOOT_EPOCH_SOLE (v.img.di ++ v.img.hi)).judgeHi

/-- Zero what the Sole boot ROM wrote of an image whose tag fails (R112, R116). -/
def State.romWipe (s : State) (v : Verdict) : State :=
  if v.code = 6 ∧ s.boot.imageKey.isSome then s.putBytes v.img.load.toNat (List.replicate v.img.len.toNat 0) else s

/-- Verification and loading of the Sole image ends (R116). -/
def State.soleBoot (s : State) : State :=
  let sel := s.fld R.BOOT_SEL F.BOOT_SEL.SOLE
  let p := s.verify false (areaAddr 2 sel) (· == 2)
  if p.2.code = 0 then p.1.soleEnter p.2 false
  else
    let s1 := (p.1.romWipe p.2).bootEvent p.2.code
    let q := s1.verify false (areaAddr 2 (1 - sel)) (· == 2)
    if q.2.code = 0 then (q.1.soleEnter q.2 true).bootEvent 0x103
    else
      let s2 := ((q.1.romWipe q.2).bootEvent q.2.code).putBit R.BOOT_STATUS 4 true
      (s2.setCore (.sole 0) { s2.core (.sole 0) with run := .halted }).withBoot { s2.boot with sole := none, soleRom := false }

/-! ### Verification jobs (R112, R113, R126) -/

/-- BOOT_VER_CTL with START (notes/assumptions/12.md: a START while a job runs, or with a PURPOSE that names none, starts nothing). -/
def State.verStart (s : State) (v : W32) : State :=
  let s1 := s.setFld R.BOOT_VER_CTL F.BOOT_VER_CTL.PURPOSE (fget v F.BOOT_VER_CTL.PURPOSE)
  if v.getLsbD 31 && s.boot.job.isNone && decide (fget v F.BOOT_VER_CTL.PURPOSE < 5) then
    let a := (s1.rd R.BOOT_VER_SRC_HI).toNat % 65536 * 0x100000000 + (s1.rd R.BOOT_VER_SRC_LO).toNat / 64 * 64
    (s1.putBit R.BOOT_VER_STAT 0 true).withBoot { s1.boot with job := some (fget v F.BOOT_VER_CTL.PURPOSE, a) }
  else s1

/-- Ranges [a, a + n) and [b, b + m) meet. -/
def overlaps (a n b m : Nat) : Bool := decide (a < b + m) && decide (b < a + n) && decide (0 < n) && decide (0 < m)

/-- Program a verified key record (R113): the code, and the state. -/
def State.applyKey (s : State) (v : Verdict) : State × Nat :=
  let n := v.img.load.toNat % 4
  if hdrImageKey v.hdr then
    if s.boot.imageKey.isSome ∨ v.body.length ≠ 32 ∨ hdrRevoke v.hdr then (s, 2)
    else (s.withBoot { s.boot with imageKey := some v.body }, 0)
  else if hdrRevoke v.hdr then
    if !s.boot.keys.any (fun e => e.1 == n) || s.boot.revoked.contains n || v.body.length != 0 then (s, 2)
    else (s.withBoot { s.boot with revoked := s.boot.revoked ++ [n] }, 0)
  else if s.boot.keys.any (fun e => e.1 == n) || v.body.length != 48 then (s, 2)
  else (s.withBoot { s.boot with keys := tabPut (fun _ => []) n v.body s.boot.keys }, 0)

/-- CHECK and REGISTER_FAB fail an encrypted object in the image store with SOURCE. -/
def sourceBad (a : Nat) (h : List Byte) : Nat := if hdrEnc h && decide (0x24000000 ≤ a) && decide (a < 0x26000000) then 8 else 0

/-- A STAGE_SOLE job refuses, with OVERLAP, a load range that meets the running Sole image's or the Die staging area (R126). -/
def State.loadBad (s : State) (h : List Byte) : Nat :=
  let im := hdrImg h 0
  let run := match s.boot.sole with
    | some r => overlaps im.load.toNat im.len.toNat r.load.toNat r.len.toNat
    | none => false
  if run || overlaps im.load.toNat im.len.toNat 0x01E00000 0x200000 then 7 else 0

/-- Decrypt in place: the plain body over the stored one, or zeros where the tag fails; code SOURCE where the write is refused (notes/assumptions/12.md). -/
def State.inPlace (s : State) (a : Nat) (v : Verdict) : State × Nat :=
  if !hdrEnc v.hdr then (s, v.code)
  else if v.code = 0 then
    let w := s.deliver (a + 512) v.body
    (w.1, if w.2 then 0 else 8)
  else (s.wipe (a + 512) v, v.code)

/-- A verification job's work and code, by its purpose. A STAGE_SOLE job whose destination refuses the body fails with code SOURCE, and an earlier staged Sole image
stays staged where the job fails (DESIGN CHOICE, notes/assumptions/12.md). -/
def State.verRun (s : State) (purpose a : Nat) : State × Nat :=
  match purpose with
  | 0 =>
    let p := s.verifyWith true a (fun _ => true) (sourceBad a)
    p.1.inPlace a p.2
  | 1 => let p := s.stageDie a; (p.1, p.2.code)
  | 2 =>
    let p := s.verifyWith true a (· == 2) s.loadBad
    if p.2.code = 0 then
      let w := p.1.deliver p.2.img.load.toNat p.2.body
      if w.2 then (w.1.withBoot { w.1.boot with stagedSole := some p.2.img }, 0) else (w.1, 8)
    else (p.1.wipe p.2.img.load.toNat p.2, p.2.code)
  | 3 =>
    let p := s.verifyWith true a (· == 4) (sourceBad a)
    let x := p.1.inPlace a p.2
    let t := x.1
    if x.2 ≠ 0 then x
    else if 64 ≤ t.boot.fabs.length then (t, 9)
    else
      (((t.withBoot { t.boot with fabs := t.boot.fabs ++ [⟨a, p.2.img, sha384 p.2.body⟩] }).setFld R.BOOT_VER_STAT F.BOOT_VER_STAT.INDEX t.boot.fabs.length), 0)
  | _ =>
    let p := s.verify true a (· == 5)
    if p.2.code ≠ 0 then (p.1, p.2.code) else p.1.applyKey p.2

/-- What a job has still to read from outward before it can end: its header, then, where that is valid, its body; the Bool says that all of it has come (R186). -/
def State.verReady (s : State) (a : Nat) : State × Bool :=
  let hq := readsOf (.soleUnit 0) 15 a 512
  if !hq.any s.outward then (s, true)
  else
    let p := s.askAll hq
    if !p.2 then p
    else
      let h := hq.flatMap (fun q => fitTo q.len (((p.1.answerTo q).bind (fun j => p.1.resp[j]?)).map (·.data) |>.getD []))
      if hdrValid h then p.1.askAll (readsOf (.soleUnit 0) 15 (a + 512) (hdrImg h 0).len.toNat) else p

/-- A verification job ends (R112): BUSY, DONE, CODE, and an event for a failure (R130); one whose object lies outward waits for what it reads there. -/
def State.verDone (s : State) : State :=
  match s.boot.job with
  | none => s
  | some (purpose, a) =>
    let z := s.verReady a
    if !z.2 then z.1
    else
    let p := (z.1.withBoot { z.1.boot with job := none }).verRun purpose a
    let s1 := (((p.1.dropHere (fun q => q.ini == .soleUnit 0)).putBit R.BOOT_VER_STAT 0 false).putBit R.BOOT_VER_STAT 1 true).setFld R.BOOT_VER_STAT F.BOOT_VER_STAT.CODE p.2
    if p.2 = 0 ∨ purpose = 1 then s1 else s1.bootEvent p.2

/-- BOOT_ROLL_COMMIT (R114): each named counter rises to the SVN of its object, at most 127; none falls. -/
def State.rollCommit (s : State) (v : W32) : State :=
  if fget v F.BOOT_ROLL_COMMIT.KEY ≠ 0xC0DE then s
  else
    let svn (k : Nat) : Nat := match k with
      | 0 => (s.boot.heel.map (fun i => i.svn.toNat)).getD 0
      | 1 => (s.boot.sole.map (fun i => i.svn.toNat)).getD 0
      | 2 => (s.boot.stagedDie.map (fun i => i.svn.toNat)).getD 0
      | _ => s.boot.fabs.foldl (fun m f => Nat.max m f.img.svn.toNat) 0
    s.each (fun t k => if v.getLsbD k then t.setFld R.BOOT_ROLL ⟨8 * k, 8⟩ (Nat.max (t.fld R.BOOT_ROLL ⟨8 * k, 8⟩) (Nat.min 127 (svn k))) else t) [0, 1, 2, 3]

/-! ### The live swap (R125–R129) -/

/-- The 100 ms of the handover have passed on the DTB (R127). -/
def State.swapLate (s : State) (w : Swap) : Bool :=
  match w.deadline with
  | some t => decide (t.toNat < s.tb.master.toNat)
  | none => false

/-- A keeper runs, or is held, beside an image that has been judged: its die is LIVE or UNAGREED. -/
def State.dieStarted (s : State) (d : Nat) : Bool := s.dieState d == 3 || s.dieState d == 4

/-- The swap ends with a code. -/
def State.swapEnd (s : State) (code : Nat) : State :=
  let s1 := s.withBoot { s.boot with swap := none }
  ((s1.putBit R.BOOT_SWAP_STAT 0 false).putBit R.BOOT_SWAP_STAT 1 true).setFld R.BOOT_SWAP_STAT F.BOOT_SWAP_STAT.CODE code

/-- The commit (R128): dies that have left service are dropped; the named parts restart in their new images, WARM; agreement is judged. Sole
cores stop at their boundary and enter by SWAP_CORE_ENTER. -/
def State.swapCommit (s : State) (w : Swap) : State :=
  let s0 := s.withBoot { s.boot with swap := none }
  let gone := w.dies.filter (fun d => !s0.dieStarted d)
  let s1 := s0.each (fun t d => t.putBit R.BOOT_SWAP_STAT (8 + d) true) gone
  let dies := w.dies.filter s0.dieStarted
  let s2 := match w.sole, s1.boot.stagedSole with
    | true, some im =>
      let t := s1.withBoot { s1.boot with sole := some im, stagedSole := none, swapEntry := pcOf (im.load.setWidth 64 + im.entry.setWidth 64) }
      let u := (((t.putBit R.BOOT_STATUS 1 (im.slot == 1)).putBit R.BOOT_STATUS 3 false).putBit R.BOOT_STATUS 6 true).wr R.BOOT_EPOCH_SOLE (im.di ++ im.hi)
      u.eachCore (fun c => if c.run = CoreRun.running then { c with swapStop := true, wait := none } else c) (allCores.take 10)
    | _, _ => s1
  let s3 := match w.heel, w.newHeel with
    | true, some im => s2.heelEnter im false true
    | _, _ => s2
  let s4 := if w.heel || w.sole then s3.judgeHi else s3
  let s5 := match s4.boot.stagedDie with
    | some im => s4.each (fun t d => t.dieFetch d im true w.force) dies
    | none => s4
  let rest := (List.range 4).filter (fun d => w.sole && !dies.contains d && s5.dieStarted d)
  let s6 := s5.each (fun t d => match tabGet (fun _ => none) t.boot.die d with
    | some im => t.judgeDi d im false (t.dieState d == 4)
    | none => t) rest
  (s6.syncLive s0).swapEnd 0

/-- Whether the set of images that would result agrees, pair by pair (R119, R127). -/
def State.swapAgrees (s : State) (w : Swap) : Bool :=
  let sole := if w.sole then s.boot.stagedSole else s.boot.sole
  let heel := if w.heel then w.newHeel else s.boot.heel
  let hi := match sole, heel with
    | some a, some b => !(w.sole || w.heel) || a.hi == b.hi
    | _, _ => true
  let di (im : Option Img) : Bool := match sole, im with
    | some a, some b => a.di == b.di
    | _, _ => true
  let named := w.dies.all (fun d => di s.boot.stagedDie && (match s.boot.stagedDie with
    | some im => !s.fiDiffers d im.fi
    | none => true))
  let others := (List.range 4).all (fun d => !w.sole || w.dies.contains d || !s.dieStarted d || di (tabGet (fun _ => none) s.boot.die d))
  hi && named && others

/-- Checks 2 and 3 of R127: every named part is staged (code STAGED, 1), and the set that would result agrees, unless FORCE is set (code EPOCH, 2); 0 where both pass. -/
def State.swapCheck (s : State) (w : Swap) : Nat :=
  if (w.sole && s.boot.stagedSole.isNone) || (!w.dies.isEmpty && s.boot.stagedDie.isNone) then 1
  else if !w.force && !s.swapAgrees w then 2
  else 0

/-- The swap fails a check: its code, and an event for a mismatch (R127, R130). -/
def State.swapFail (s : State) (code : Nat) : State := (if code = 2 then s.bootEvent 0x104 else s).swapEnd code

/-- The handover is made in time (R127, R128): the swap commits. What is staged may have changed since the request, so checks 2 and 3 are made again on it (DEDUCED,
notes/assumptions/76.md). -/
def State.swapGo (s : State) (w : Swap) : State := if s.swapCheck w = 0 then s.swapCommit w else s.swapFail (s.swapCheck w)

/-- BOOT_SWAP with its key (R127): the checks in order; with the Heel named the handover interrupt and its 100 ms, else the commit. A request while
a swap runs is ignored (DESIGN CHOICE, notes/assumptions/118.md). -/
def State.swapRequest (s : State) (v : W32) : State :=
  if fget v F.BOOT_SWAP.KEY ≠ 0xA5C3 ∨ s.boot.swap.isSome then s
  else
    let heel := v.getLsbD 0
    let dies := (List.range 4).filter (fun d => v.getLsbD (4 + d) && decide (d < variantDies s.variant))
    let s0 := s.setFld R.BOOT_SWAP_STAT F.BOOT_SWAP_STAT.DROPPED 0
    let other := 1 - (s0.boot.heel.map (·.slot)).getD 0
    let p := if heel then s0.verify false (areaAddr 1 other) (· == 1) else (s0, ⟨0, hdrImg [] 0, [], []⟩)
    let w : Swap := { heel := heel, sole := v.getLsbD 1, dies := dies, force := v.getLsbD 8, newHeel := if heel then some p.2.img else none,
                      deadline := if heel then some (p.1.tb.master + 10000000) else none }
    if p.2.code ≠ 0 then (p.1.heelEvent p.2.code).swapEnd 3
    else if p.1.swapCheck w ≠ 0 then p.1.swapFail (p.1.swapCheck w)
    else if heel then (p.1.putBit R.BOOT_SWAP_STAT 0 true).withBoot { p.1.boot with swap := some w }
    else p.1.swapCommit w

/-- A Sole core stopped for a swap enters the new image (R168). -/
def State.swapEnter (s : State) (n : Fin 10) : State :=
  let c : CoreId := .sole n
  let x := s.core c
  if x.swapStop then s.setCore c (x.start true s.boot.swapEntry) else s

/-! ### The Heel command port (R122–R124) -/

/-- The command at the head of the queue, whole: its opcode, tag and further words. -/
def State.hcmdHead (s : State) : Option (Nat × Nat × List W32) :=
  match s.boot.tx with
  | [] => none
  | w :: ws =>
    let n := fget w ⟨8, 5⟩
    if n ≤ ws.length then some (fget w ⟨0, 8⟩, fget w ⟨16, 8⟩, ws.take n) else none

/-- The head command leaves the queue, and its response is queued, or lost to a full queue (R122). -/
def State.hcmdAnswer (s : State) (status : Nat) (ws : List W32) : State :=
  match s.hcmdHead with
  | none => s
  | some (_, tag, ops) =>
    let r := BitVec.ofNat 32 (status + ws.length * 256 + tag * 65536) :: ws
    let s1 := s.withBoot { s.boot with tx := s.boot.tx.drop (1 + ops.length) }
    if s1.boot.rx.length + r.length ≤ 32 then s1.withBoot { s1.boot with rx := s1.boot.rx ++ r }
    else s1.putBit R.BOOT_HCMD_STAT 16 true

/-- Execute the head command where its opcode is one that p accepts, which raises HCMD_SEEN (R123); while the Sole ↔ Heel link is out of service the Sole side answers
LINK. -/
def State.hcmdRun (s : State) (p : Nat → Bool) (f : State → List W32 → State × Nat × List W32) : State :=
  match s.hcmdHead with
  | none => s
  | some (op, _, ops) =>
    if !p op then s
    else if !s.bridgeLive 16 then s.hcmdAnswer 7 []
    else
      let r := f s ops
      (r.1.withBoot { r.1.boot with cmdSeen := true }).hcmdAnswer r.2.1 r.2.2

/-- WINTER (R123): the two writes of PWR_WINTER_REQ; REFUSED where the request is not accepted. -/
def State.hcmdWinter (s : State) (ops : List W32) : State × Nat × List W32 :=
  if ops ≠ [] then (s, 2, [])
  else
    let p := (s.withSup { s.sup with winArm := none }).winterRequest
    (p.1, if p.2 then 0 else 6, [])

end Sys2Proof.Machine
end

