-- ==== Sys2Proof/Machine/SoleHeelRegs.lean ====
section
/-! DEFINITION. Machine/SoleHeelRegs.lean: what writing and reading the registers of the time base, supplies, power states, Insole, boot and
the guards does beyond their access codes. A hook answers none where the access codes are all there is. -/
namespace Sys2Proof.Machine

/-- The index i below n at which a register family f lies at address a. -/
def idx (f : Nat → Nat) (n a : Nat) : Option Nat := (List.range n).find? (fun i => f i == a)

/-- A write by access codes alone (R9, R11): RW stores, W1C clears, W1S sets, all other bits stay. -/
def State.accWrite (s : State) (a : Nat) (v : W32) : State :=
  match regRow a with
  | none => s
  | some r =>
    let rw := BitVec.ofNat 32 r.rw
    let c := BitVec.ofNat 32 r.w1c
    let t := BitVec.ofNat 32 r.w1s
    s.wr a ((s.rd a &&& ~~~rw &&& ~~~(v &&& c)) ||| (v &&& rw) ||| (v &&& t))

/-! ### The time base -/

def State.tbaseWrite (s : State) (a : Nat) (v : W32) : Option State :=
  if a = R.TBASE_STATUS then some (s.clearTbStatus v)
  else match idx R.TBASE_ALM_HI 8 a with
    | some n => some (s.commitAlarm n v)
    | none => match idx R.TBASE_ALM_CFG 8 a with
      | some n =>
        let t := s.accWrite a v
        if v.getLsbD 0 && !(s.rd a).getLsbD 0 then
          let u := t.withTb { t.tb with almArm := tabPut boolTrue n true t.tb.almArm, almAt := tabPut noWord n none t.tb.almAt }
          some (if u.alarmDue n then u.fireAlarm n else u)
        else some t
      | none => none

/-- Reads of the time base: NOW_LO and RTC_LO latch their high words (R39, R44). -/
def State.tbaseRead (s : State) (i : Ini) (a : Nat) : State × W32 :=
  if a = R.TBASE_NOW_LO then
    (s.withTb { s.tb with hiLatch := tabPut w32Zero (iniId i).toNat ((s.tb.master >>> 32).setWidth 32) s.tb.hiLatch }, s.tb.master.setWidth 32)
  else if a = R.TBASE_NOW_HI then (s, tabGet w32Zero s.tb.hiLatch (iniId i).toNat)
  else if a = R.TBASE_OFFSET_LO then (s, s.word insOffset)
  else if a = R.TBASE_OFFSET_HI then (s, s.word (insOffset + 4))
  else if a = R.TBASE_RTC_LO then
    (s.withTb { s.tb with rtcHi := ((s.tb.rtc >>> 32).setWidth 16).setWidth 32 }, s.tb.rtc.setWidth 32)
  else if a = R.TBASE_RTC_HI then (s, s.tb.rtcHi)
  else (s, s.rd a)

/-! ### Supplies, PMBus and power states -/

/-- The start of a PMBus transaction (R67): START is ignored while one runs. -/
def State.pmbStart (s : State) (v : W32) : State :=
  let s1 := s.wr R.PWR_PMB_CMD (v &&& 0x3FFFF)
  if v.getLsbD 31 && !s.bit R.PWR_PMB_STAT 0 then
    (s1.putBit R.PWR_PMB_STAT 0 true).withSup { s1.sup with pmbCmd := v &&& 0x3FFFF, pmbData := s.rd R.PWR_PMB_DATA, pmbAt := s.tb.master }
  else s1

/-- PWR_REQ (R80). -/
def State.pwrReq (s : State) (v : W32) : State :=
  let p := s.power
  let bad := s.putBit R.PWR_REQ_STAT 2 true
  if v = 1 then
    if p = psSummer ∨ p = psToSummer then s.autumnEntry else if p = psAutumn ∨ p = psToAutumn then s else bad
  else if v = 2 then
    if p = psAutumn then
      let up := s.presentDies.filter (fun x => s.anyState x != 5)
      let s1 := (up.foldl (fun t x => t.setEn x true) s).setPower psToSummer
      let s2 := s1.withSup { s1.sup with dieRst := up, scrub := [] }
      s2.stageForSummer.summerCheck
    else if p = psSummer ∨ p = psToSummer then s else bad
  else bad

def State.pwrWrite (s : State) (i : Ini) (a : Nat) (v : W32) : Option State :=
  if a = R.PWR_RST_REQ then some (s.rstWrite v)
  else if a = R.PWR_REQ then some (s.pwrReq v)
  else if a = R.PWR_WINTER_REQ then some (s.winterWrite v)
  else if a = R.PWR_HEEL_ACK then some (if s.sup.winter = .grace ∧ iniHeelCore i ∧ (s.copy 0).toNat < s.sup.grace.toNat then s.winterEnd else s)
  else if a = R.PWR_GATE_ENG then
    let m := BitVec.ofNat 32 (2 ^ (8 * variantDies s.variant) - 1)
    some ((s.wr a (v &&& m)).wr R.PWR_GATE_STAT (s.rd R.PWR_GATE_STAT &&& v))
  else match idx R.PWR_WDOG_CFG 2 a with
    | some n => some ((s.accWrite a v).wdogRestart n)
    | none => match idx R.PWR_WDOG_KICK 2 a with
      | some n =>
        some (if v = 0xA55A then s.wdogRestart n
          else if s.bit (R.PWR_WDOG_CFG n) 0 then s.wdogExpire n else s)
      | none => none

/-! ### Wake and Insole control -/

/-- WAKE_RTC_ALM_HI commits both words of the alarm (register table of WAKE_RTC_ALM). -/
def State.wakeWrite (s : State) (a : Nat) (v : W32) : Option State :=
  if a = R.WAKE_RTC_ALM_HI then
    let t := s.accWrite a v
    some (t.withSup { t.sup with rtcAlm := (v.setWidth 16) ++ s.rd R.WAKE_RTC_ALM_LO })
  else none

/-- INS_STATUS, with the brown-out count of the header. -/
def State.insStatus (s : State) : W32 :=
  let bo := (s.word insBrown).toNat
  fput (s.rd R.INS_STATUS) F.INS_STATUS.BO_COUNT (if bo < 255 then bo else 255)

/-! ### Boot -/

/-- Writes of the boot blocks. An erase while BUSY is accepted and counted as the line writes are (R108; DESIGN CHOICE, notes/assumptions/118.md). -/
def State.bootWrite (s : State) (i : Ini) (a : Nat) (v : W32) : Option State :=
  if a = R.BOOT_VER_CTL then some (s.verStart v)
  else if a = R.BOOT_VER_SRC_LO then some (s.wr a (v &&& 0xFFFFFFC0))
  else if a = R.BOOT_SWAP then some (s.swapRequest v)
  else if a = R.BOOT_ROLL_COMMIT then some (s.rollCommit v)
  else if a = R.BOOT_HCMD_TX then some (s.withBoot { s.boot with tx := s.boot.tx ++ [v] })
  else if a = R.BOOT_ST_CTL then
    let s1 := s.wr a ((s.rd a &&& 0xFE00FFFE &&& 0x7FFFFFFF) ||| (v &&& 0x01FF0001))
    let sec := fget v F.BOOT_ST_CTL.SECTOR
    if v.getLsbD 31 then
      let b := 0x24000000 + sec * 0x10000
      some (((s1.clearMem b (b + 0x10000)).putBit a 1 true).withBoot { s1.boot with storeOps := s1.boot.storeOps + 1 })
    else some s1
  else if a = R.BOOT_HEEL_HANDOVER then
    match s.boot.swap with
    | some w => some (if w.heel && iniHeelCore i then (if s.swapLate w then s.swapEnd 4 else s.swapGo w) else s)
    | none => some s
  else none

/-- Whether a register write of the boot blocks is refused although its writer may write the block: a push into a full queue (R122), an erase
of the running Heel image's area (R108). -/
def State.bootRefuses (s : State) (a : Nat) (v : W32) : Bool :=
  (a == R.BOOT_HCMD_TX && decide (32 ≤ s.boot.tx.length)) ||
  (a == R.BOOT_ST_CTL && v.getLsbD 31 && s.inRunningHeel (0x24000000 + fget v F.BOOT_ST_CTL.SECTOR * 0x10000))

/-- Reads of the boot blocks: HCMD_RX pops (R122), OPEN and the port's counts are worked out. -/
def State.bootRead (s : State) (a : Nat) : State × W32 :=
  if a = R.BOOT_HCMD_RX then
    match s.boot.rx with
    | [] => (s, 0)
    | w :: ws => (s.withBoot { s.boot with rx := ws }, w)
  else if a = R.BOOT_STATUS then (s, fput (s.rd a) (bitF 5) s.boot.keys.isEmpty.toNat)
  else if a = R.BOOT_HCMD_STAT then
    (s, fput (fput (s.rd a) F.BOOT_HCMD_STAT.TX_FREE (32 - s.boot.tx.length)) F.BOOT_HCMD_STAT.RX_COUNT s.boot.rx.length)
  else (s, s.rd a)

/-! ### Guards (R198–R205) -/

/-- The guard and region of a guard table register, its offset in the region, and its table's die code. -/
def grdEntry (a : Nat) : Option (Nat × Nat × Nat × Nat) :=
  let at_ (c n : Nat) : Option (Nat × Nat × Nat × Nat) :=
    let b := grdTable c
    if b ≤ a ∧ a < b + 0x400 * n then some (c, (a - b) / 0x400, (a - b) % 0x400 / 0x20, (a - b) % 0x20) else none
  if a < 0x20000000 then at_ 0 16
  else if a < 0x080000000000 then at_ 1 1
  else at_ (8 + (a - 0x080000000000) / 0x10000000) 18

/-- Region n of guard j covers a line that region m, enabled, covers too. -/
def State.grdOverlap (s : State) (t j n m : Nat) : Bool :=
  let lo (k : Nat) : Nat := (s.rd2 (R.GRD_BASE_LO t j k) (R.GRD_BASE_HI t j k)).toNat
  let hi (k : Nat) : Nat := (s.rd2 (R.GRD_LIMIT_LO t j k) (R.GRD_LIMIT_HI t j k)).toNat
  n != m && s.bit (R.GRD_PERM t j m) 0 && decide (lo n ≤ hi n) && decide (lo m ≤ hi m) && decide (lo n ≤ hi m) && decide (lo m ≤ hi n)

/-- Record a refused guard configuration. -/
def State.grdCfgStat (s : State) (c bit n j : Nat) : State :=
  let b := R.GRD_CFG_STAT (grdBase c)
  ((s.putBit b bit true).setFld b F.GRD_CFG_STAT.REGION n).setFld b F.GRD_CFG_STAT.GUARD j

/-- A write of a guard table register (R195, R198, R199). -/
def State.grdTableWrite (s : State) (a : Nat) (v : W32) : Option State :=
  match grdEntry a with
  | none => none
  | some (c, j, n, o) =>
    let t := grdTable c
    if o = 0x10 then
      if v.getLsbD 0 && (List.range 32).any (s.grdOverlap t j n) then
        some ((s.wr a (v &&& 0xFE)).grdCfgStat c 0 n j)
      else some (s.wr a (v &&& 0xFF))
    else if o < 0x10 ∧ s.bit (R.GRD_PERM t j n) 0 then some (s.grdCfgStat c 1 n j)
    else if o = 0 then some (s.wr a (v &&& 0xFFFFFFC0))
    else if o = 8 then some (s.wr a (v ||| 0x3F))
    else none

/-- The die code of a guard control block. -/
def grdCode (a : Nat) : Nat := if a < 0x20000000 then 0 else if a < 0x080000000000 then 1 else 8 + (a - 0x080000000000) / 0x10000000

/-- Guards of a die: GRD_CTL's bits beyond the last read zero. -/
def grdCount (c : Nat) : Nat := if c = 0 then 14 else if c = 1 then 1 else 18

/-- The core whose notice queue an initiator reads at a die's guard control block. -/
def noteCore (c : Nat) : Ini → Option CoreId
  | .core k _ => if coreDie k = c then some k else none
  | _ => none

/-- A write of a guard control block (R204, R205). -/
def State.grdCtlWrite (s : State) (i : Ini) (a : Nat) (v : W32) : Option State :=
  let c := grdCode a
  let b := grdBase c
  if a = R.GRD_CTL b then some (s.wr a (BitVec.ofNat 32 (v.toNat % 2 ^ grdCount c)))
  else if a = R.GRD_VIOL_INFO b then
    some (if v.getLsbD 31 then (s.putBit a 31 false).wr (R.GRD_VIOL_COUNT b) 0 else s)
  else if a = R.GRD_NOTE_POP b then
    match noteCore c i with
    | some k => some (s.setCore k { s.core k with notices := (s.core k).notices.drop 1 })
    | none => some s
  else if a = R.GRD_NOTE_STAT b then
    match noteCore c i with
    | some k => some (if v.getLsbD 8 then s.setCore k { s.core k with noteOvf := false, noteLost := 0 } else s)
    | none => some s
  else none

/-- The notice registers as a core reads them: its own queue (R204). -/
def State.noteRead (s : State) (i : Ini) (a : Nat) : Option W32 :=
  let c := grdCode a
  let b := grdBase c
  let x := (noteCore c i).map s.core
  let h := x.bind (fun k => k.notices.head?)
  if a = R.GRD_NOTE_ADDR_LO b then some ((h.map (fun n => n.addr.setWidth 32)).getD 0)
  else if a = R.GRD_NOTE_ADDR_HI b then some ((h.map (fun n => ((n.addr >>> 32).setWidth 16).setWidth 32)).getD 0)
  else if a = R.GRD_NOTE_INFO b then
    some ((h.map (fun n => BitVec.ofNat 32 (n.ini.toNat + n.reason % 16 * 65536 + 0x80000000))).getD 0)
  else if a = R.GRD_NOTE_STAT b then
    some ((x.map (fun k => BitVec.ofNat 32 (k.notices.length + k.noteOvf.toNat * 256 + k.noteLost * 65536))).getD 0)
  else none

/-! ### Capabilities -/

/-- The CAP_ registers, by the variant of the package record (R17, R19). -/
def capRead (v : Variant) (a : Nat) : Option W32 :=
  let pick (w x y z : W32) : W32 := match v with
    | .nx848 => w
    | .nx524 => x
    | .nx312 => y
    | .nx200 => z
  if a = R.CAP_DIES then some (pick 0x084801FF 0x0524014F 0x03120207 0x02000203)
  else if a = R.CAP_ENGINES then some (pick 0xFFFFFFFF 0xFFFF 0xFF 0)
  else if a = R.CAP_LACE_LO then some (pick 0xFFFFFFFF 0xFFFFFF 0xFFF 0)
  else if a = R.CAP_LACE_HI then some (pick 0xFFFF 0 0 0)
  else if a = R.CAP_LARDER then some (pick 0x403 0x401 0 0)
  else if a = R.CAP_FABRIC then some (pick 0x60408F 0x604083 0x604081 0)
  else none

/-- LIVE_DIE_STATE with absent dies reading ABSENT. -/
def State.dieStates (s : State) : W32 :=
  BitVec.ofNat 32 ((List.range 4).foldl (fun w d => w + s.dieState d * 16 ^ d) 0 + 65536 * (s.larderState 0 + 16 * s.larderState 1))

/-- CORE_STATE: two bits a core, 0 HELD, 1 RUNNING, 2 HALTED, 3 RETIRED. -/
def runCode : CoreRun → Nat
  | .held => 0
  | .running => 1
  | .halted => 2
  | .retired => 3

def State.coreStates (s : State) : W32 :=
  BitVec.ofNat 32 ((List.range 10).foldl (fun w n => w + runCode (s.core (.sole (Fin.ofNat 10 n))).run * 4 ^ n) 0)

end Sys2Proof.Machine
end

