-- ==== Sys2Proof/Machine/Bus.lean ====
section
/-! DEFINITION. Machine/Bus.lean: a register access at its target: who may write (R618 and the chapters' own rules), the hook of the block,
and a whole access of any address from its network entry to its report. -/
namespace Sys2Proof.Machine

/-- What a register does with a write of an initiator: takes it, refuses it with reason OWNER, or ignores it. -/
inductive Writer where
  | allow | refuse | ignore
deriving DecidableEq, Repr

def writerIf (b : Bool) : Writer := if b then .allow else .refuse

/-- The writers that a chapter names for a register (R618); none where it names none. -/
def State.writerRule (_s : State) (i : Ini) (a : Nat) : Option Writer :=
  if a = R.PWR_RST_REQ then some (writerIf (iniPrivSole i))
  else if a = R.PWR_WDOG_CFG 0 ∨ a = R.PWR_WDOG_KICK 0 then some (writerIf (iniHeelCore i))
  else if a = R.PWR_WDOG_CFG 1 ∨ a = R.PWR_WDOG_KICK 1 then some (writerIf (iniPrivSole i))
  else if a = R.PWR_REQ ∨ a = R.PWR_WINTER_REQ then some (writerIf (iniPrivSole i && i != .debug))
  else if a = R.PWR_HEEL_ACK ∨ a = R.BOOT_HEEL_HANDOVER then some (if iniHeelCore i then .allow else .ignore)
  else if 0x20002000 ≤ a ∧ a < 0x20003000 then some (writerIf (iniPrivSole i))
  else if (0x20006000 ≤ a ∧ a < 0x20007000) ∨ (0x20008000 ≤ a ∧ a < 0x20009000) then some (writerIf (iniHeelCore i))
  else if 0x080000000000 ≤ a ∧ (a - 0x080000000000) % 0x10000000 = 0xD000 then some (writerIf (iniKeeper ((a - 0x080000000000) / 0x10000000) i))
  else if 0x2000A000 ≤ a ∧ a < 0x20048000 then some (writerIf (iniHeelCore i))
  else if 0x20009008 ≤ a ∧ a < 0x20009028 then some (writerIf (i == .debug))
  else if a = R.FLT_HEVT then some (writerIf (iniHeelCore i))
  else if isDoorbell a ∨ (relHold a).isSome then some .allow
  else none

/-- The writers of R618 where no chapter names any, by the region of the block. -/
def defaultWriter (i : Ini) : Region → Writer
  | .soleReg => writerIf (iniPrivSole i)
  | .heelReg => writerIf (iniPrivSole i || iniHeelCore i)
  | .dieReg d => writerIf (iniPrivSole i || iniKeeper d i)
  | _ => .refuse

def State.writer (s : State) (i : Ini) (r : Region) (a : Nat) : Writer := (s.writerRule i a).getD (defaultWriter i r)

/-- Whether a register region's die is powered and out of reset; its registers otherwise read zero and ignore writes (R2,
notes/assumptions/9.md). A retired Sole ↔ Heel link leaves the Heel's as they are (DESIGN CHOICE, notes/assumptions/115.md). -/
def State.regsUp (s : State) : Region → Bool
  | .soleReg => !s.sup.soleHeld
  | .heelReg => !s.sup.heelHeld
  | .dieReg d => s.diePowered d
  | _ => true

/-- The write of a register by its block's hook, else by its access codes; an offset that lists none takes no write (R11). -/
def State.regHook (s : State) (i : Ini) (a : Nat) (v : W32) : State :=
  let h : Option State :=
    if a < 0x20000000 then
      if a < 0x10004000 then s.tbaseWrite a v
      else if a = R.PWR_PMB_CMD then some (s.pmbStart v)
      else if a < 0x10006000 then s.bootWrite i a v
      else if a < 0x10007000 then s.coreCtlWrite a v
      else if 0x10007000 ≤ a ∧ a < 0x10008000 then s.grdCtlWrite i a v
      else if 0x10009000 ≤ a ∧ a < 0x1000A000 then s.awlWrite a v State.accWrite
      else if 0x1000B000 ≤ a ∧ a < 0x1000F000 then s.syncWrite a v
      else if 0x1000F000 ≤ a ∧ a < 0x10010000 then some (s.trkWrite a v State.accWrite)
      else if 0x10010000 ≤ a ∧ a < 0x10014000 then s.grdTableWrite a v
      else if 0x10014000 ≤ a ∧ a < 0x10015000 then some (s.clusterWrite a v State.accWrite)
      else if 0x10015000 ≤ a ∧ a < 0x10016000 then some (s.faultWrite a v State.accWrite)
      else if 0x10016000 ≤ a ∧ a < 0x10017000 then some (s.traceWrite a v State.accWrite)
      else none
    else if a < 0x080000000000 then
      if a < 0x20003000 then s.pwrWrite i a v
      else if a < 0x20004000 then s.wakeWrite a v
      else if 0x20005000 ≤ a ∧ a < 0x20006000 then s.bootWrite i a v
      else if 0x20006000 ≤ a ∧ a < 0x20007000 then s.grdCtlWrite i a v
      else if 0x20008000 ≤ a ∧ a < 0x20009000 then s.grdTableWrite a v
      else if 0x20009000 ≤ a ∧ a < 0x2000A000 then some (s.dbgWrite a v State.accWrite)
      else if 0x2000A000 ≤ a ∧ a < 0x2000B000 then some (s.hsoWrite a v State.accWrite)
      else if 0x2000B000 ≤ a ∧ a < 0x2000C000 then some (s.hbrWrite a v State.accWrite)
      else if 0x2000C000 ≤ a ∧ a < 0x2000D000 then some (s.swiWrite a v State.accWrite)
      else if 0x2000D000 ≤ a ∧ a < 0x2000E000 then some (s.qdecWrite a v State.accWrite)
      else if 0x2000E000 ≤ a ∧ a < 0x2000F000 then some (s.xcvWrite a v State.accWrite)
      else if 0x2000F000 ≤ a ∧ a < 0x20010000 then some (s.angWrite a v State.accWrite)
      else if 0x20010000 ≤ a ∧ a < 0x20018000 then some (s.mbcWrite a v State.accWrite)
      else if 0x20030000 ≤ a ∧ a < 0x20040000 then some (s.lastWrite a v State.accWrite)
      else if 0x20040000 ≤ a ∧ a < 0x20048000 then some (s.linWrite a v State.accWrite)
      else none
    else
      let o := (a - 0x080000000000) % 0x10000000
      if 0x7000 ≤ o ∧ o < 0x8000 then s.grdCtlWrite i a v
      else if 0x9000 ≤ o ∧ o < 0xA000 then s.awlWrite a v State.accWrite
      else if 0x10000 ≤ o ∧ o < 0x18000 then s.grdTableWrite a v
      else if 0x20000 ≤ o ∧ o < 0x21100 then s.routeWrite a v
      else if 0x40000 ≤ o ∧ o < 0x51000 then s.syncWrite a v
      else if 0xC100 ≤ o ∧ o < 0xC300 then s.fabWrite a v
      else if 0x60000 ≤ o ∧ o < 0x6C000 then some (s.laceWrite a v State.accWrite)
      else if 0x100000 ≤ o ∧ o < 0x108000 then s.engWrite a v State.accWrite
      else none
  if (regRow a).isNone then s else h.getD (s.accWrite a v)

/-- The read of a register: views, latches and pops first, else what it holds; WO bits read zero (R9, R11). What PWR_VBAT has measured on the board, and
the level of SMBALERT_N, no command carries: they are free values (notes/assumptions/1.md). -/
def State.regRead (s : State) (i : Ini) (a : Nat) : State × W32 :=
  if a < 0x10003000 then
    (s, (capRead s.variant a).getD (if a = R.LIVE_DIE_STATE then s.dieStates else s.rd a))
  else if a < 0x10004000 then s.tbaseRead i a
  else if a < 0x10006000 then
    if a = R.PWR_PMB_STAT then (s.drawn.withSup { s.sup with alert := s.draw.getLsbD 0 }, fput (s.rd a) (bitF 8) (s.draw.getLsbD 0).toNat)
    else s.bootRead a
  else if a = R.CORE_STATE then (s, s.coreStates)
  else if a = R.PWR_SUP_STAT then (s, s.supStat)
  else if a = R.PWR_VBAT then (s.drawn, (s.draw.setWidth 16).setWidth 32)
  else if a = R.INS_STATUS then (s, s.insStatus)
  else if a = R.INS_GEN then (s, s.word insGen)
  else if a = R.GRD_SCRUB_CFG (grdBase 0) then
    (s, fput (s.rd a) (bitF 16) (s.on R.GRD_HMEM_STAT F.GRD_HMEM_STAT.READY && s.bit a 0).toNat)
  else if 0x080000000000 ≤ a ∧ (a - 0x080000000000) % 0x10000000 = 0x7040 then
    (s, fput (s.rd a) (bitF 16) (!s.sup.scrub.contains ((a - 0x080000000000) / 0x10000000) && s.bit a 0).toNat)
  else match ((s.outRead a).or (s.inRead a)).or ((s.mbcRead a).or ((s.linRead a).or ((s.angRead a).or (s.dbgRead a)))) with
    | some v => (s, v)
    | none =>
    match s.noteRead i a with
    | some v => (s, v)
    | none =>
      match (s.linReadPop a).or (s.angReadLatch a) with
      | some p => p
      | none =>
      match s.syncRead i a with
      | some p => p
      | none =>
      match s.unitReadReg a with
      | some p => p
      | none =>
        match regRow a with
        | some r => (s, s.rd a &&& ~~~(BitVec.ofNat 32 r.wo))
        | none => (s, 0)

/-- Whether a block refuses this write although the initiator may write it. -/
def State.regRefuses (s : State) (i : Ini) (a : Nat) (v : W32) : Bool := s.bootRefuses a v || s.doorbellBad i a || s.relBad i a

/-- A register write at its target (check 10). -/
def State.regWriteAt (s : State) (i : Ini) (r : Region) (a : Nat) (v : W32) : State × Served :=
  if !s.regsUp r then (s, .ok [])
  else match s.writer i r a with
    | .refuse => (s, .bad 8)
    | .ignore => (s, .ok [])
    | .allow => if s.regRefuses i a v then (s, .bad 8) else (s.regHook i a v, .ok [])

/-- A register read at its target. -/
def State.regReadAt (s : State) (i : Ini) (r : Region) (a : Nat) : State × W32 :=
  if s.regsUp r then s.regRead i a else (s, 0)

/-! ### Whole accesses -/

/-- Serve a write at its target. -/
def State.serveWrite (s : State) (i : Ini) (r : Region) (a : Nat) (bs : List Byte) : State × Served :=
  if isRegRegion r a then
    if iniFabric i then (s, .bad 8) else s.regWriteAt i r a (BitVec.ofNat 32 (leNat bs))
  else s.memWrite i r a bs

/-- Serve a read at its target. -/
def State.serveRead (s : State) (i : Ini) (r : Region) (a n : Nat) : State × Served :=
  if isRegRegion r a then
    if iniFabric i then (s, .bad 8)
    else
      let p := s.regReadAt i r a
      (p.1, .ok (leBytes 4 p.2.toNat))
  else s.memRead i r a n

/-- Serve a request at its target: the target's liveness is judged again (a bank or a die may have gone since the entry), a device outside the manual
answers with what the command carries. -/
def State.serveAt (s : State) (n : NetReq) (answer : List Byte) (reason : Nat) : State × Served :=
  let a := n.req.addr.toNat
  match s.regionOf a with
  | none => (s, .bad 1)
  | some (r, _, _) =>
    if !s.targetLive n.req.ini r a then (s, .bad 3)
    else
      let w := match n.atom with
        | some (op, v) => s.memAtomic n.req.ini r a n.req.len op v
        | none => if n.req.kind = Kind.write then s.serveWrite n.req.ini r a n.data else s.serveRead n.req.ini r a n.req.len
      match w.2 with
      | .other => (w.1, if reason = 0 then .ok answer else .bad reason)
      | _ => w

/-- Serve a request that its target's queue has granted, and send its answer back. -/
def State.serveNet (s : State) (n : NetReq) (answer : List Byte) (reason : Nat) : State :=
  let p := s.serveAt n answer reason
  p.1.answerBack n p.2

/-- Serve what comes before a request that arrives now, one after another. -/
def State.drain (s : State) (q : Req) : Nat → State
  | 0 => s
  | fuel + 1 =>
    match s.firstAt q with
    | none => s
    | some k => match s.net[k]? with
      | some n => if s.outward n.req then s else ((s.grant k n).serveNet n [] 0).drain q fuel
      | none => s

/-- A request arrives at a target that serves it at once: after what comes before it there, as the target's next grant (R221, R222). -/
def State.arrive (s : State) (q : Req) : State :=
  if s.outward q then s
  else
    let t := s.drain q (s.net.length + 1)
    t.passOver (t.keyOf q) t.net.length (t.targetVc q)

/-- A request passes its entry and reaches its target; or the reason that refuses it at its entry. -/
def State.reach (s : State) (q : Req) : State × Nat :=
  let p := s.enter q
  if p.2.1 ≠ 0 then (p.1, p.2.1) else (p.1.arrive { q with cls := p.2.2 }, 0)

/-- A whole write of an initiator, entry to report (R196, R203). -/
def State.busWrite (s : State) (q : Req) (bs : List Byte) : State × Served :=
  let p := s.reach q
  if p.2 ≠ 0 then
    let t := if q.posted then p.1.notice q.ini q.addr p.2 else p.1
    (t, .bad p.2)
  else match p.1.regionOf q.addr.toNat with
    | none => (p.1, .bad 1)
    | some (r, _, _) =>
      let w := p.1.serveWrite q.ini r q.addr.toNat bs
      match w.2 with
      | .bad c =>
        let t := w.1.captureRefusal q c
        (if q.posted then t.notice q.ini q.addr c else t, .bad c)
      | x => (w.1, x)

/-- A whole read of an initiator. -/
def State.busRead (s : State) (q : Req) : State × Served :=
  let p := s.reach q
  if p.2 ≠ 0 then (p.1, .bad p.2)
  else match p.1.regionOf q.addr.toNat with
    | none => (p.1, .bad 1)
    | some (r, _, _) =>
      let w := p.1.serveRead q.ini r q.addr.toNat q.len
      match w.2 with
      | .bad c => (if c = 9 then w.1 else w.1.captureRefusal q c, .bad c)
      | x => (w.1, x)

/-- A read of an engine (R186): at once where its target is within the package, else it goes on its way, and its answer is taken once it has come; until then there is none. -/
def State.engRead (s : State) (q : Req) : State × Option Served :=
  if s.outward q then (s.ask q).takeAnswer q
  else
    let p := s.busRead q
    (p.1, some p.2)

/-- What a refused access of a core raises (R157, R203); other initiators' error completions are their own. -/
def State.faultOf (s : State) (q : Req) (reason : Nat) : State :=
  match q.ini with
  | .core c _ =>
    if q.posted then s
    else s.except c (match q.kind with
      | .read => excLoad
      | .fetch => excFetch
      | .write => excStore
      | .atomic => if reason = 9 then excLoad else excStore) (reasonSub reason) q.addr
  | _ => s

/-- A register write as a command: an aligned 32-bit access of register a by an initiator, refusals reported. -/
def State.regWrite (s : State) (i : Ini) (a : Nat) (v : W32) : State :=
  let q : Req := { ini := i, kind := .write, addr := BitVec.ofNat 64 a, len := 4, posted := false, early := false, cls := s.iniLabel i }
  let p := s.busWrite q (leBytes 4 v.toNat)
  match p.2 with
  | .bad c => p.1.faultOf q c
  | _ => p.1

/-- A register read as a command: its data is what the command returns. -/
def State.regReadCmd (s : State) (i : Ini) (a : Nat) : State :=
  let q : Req := { ini := i, kind := .read, addr := BitVec.ofNat 64 a, len := 4, posted := false, early := false, cls := s.iniLabel i }
  let p := s.busRead q
  match p.2 with
  | .ok b => p.1.withRet (BitVec.ofNat 64 (leNat b))
  | .bad c => (p.1.withRet 0).faultOf q c
  | .other => p.1

end Sys2Proof.Machine
end

