-- ==== Sys2Proof/Machine/Angle.lean ====
section
/-! DEFINITION. Machine/Angle.lean: the commands of the angle unit (22_angle.md). volts are the voltages at the switch inputs, which a channel with SAMP converts (R574). -/
namespace Sys2Proof.Machine

/-- The angle unit runs. -/
def State.angUp (s : State) : Bool := !s.sup.heelHeld && s.angSt != 0

/-- A level change of CRK is its active edge (R558): CRKEDGE clear takes the rising one, set the falling one. -/
def State.crkActive (s : State) (rising : Bool) : Bool := rising != s.bit R.ANG_CTL 4

/-- The interpolated angle can reach an angle ahead ticks past the last edge before the next edge (R567). -/
def State.reaches (s : State) (ahead : Nat) : Bool := decide (ahead < 64 * s.pitches)

/-- ANG_CRANK_EDGE (R558–R571): an edge of CRK passes the filter; cam is the filtered CAM level. -/
def execAngCrankEdge (rising cam : Bool) (volts : List (BitVec 12)) (s : State) : Host.Outcome State Fault Refusal :=
  done (if s.angUp && s.crkActive rising then s.crankEdge cam volts else s)

/-- ANG_TRAILING_EDGE (R562): before DIRTH has elapsed the tooth is forward. -/
def execAngTrailingEdge (s : State) : Host.Outcome State Fault Refusal :=
  done (if s.angUp && s.ang.judge && decide (s.angStamp < s.lastStamp + s.dirth) then s.toothForward else s)

/-- ANG_DIRTH_EXPIRE (R562, R564): DIRTH has elapsed by the stamp that an edge would have now, so that one edge judges one tooth. -/
def execAngDirthExpire (s : State) : Host.Outcome State Fault Refusal :=
  done (if s.angUp && s.ang.judge && decide (s.lastStamp + s.dirth ≤ s.angStamp) then s.toothReverse else s)

/-- ANG_STALL (R561). -/
def execAngStall (s : State) : Host.Outcome State Fault Refusal :=
  match s.ang.stallFrom with
  | none => done s
  | some t =>
    done (if s.angUp && decide (t.toNat + 100000 * Nat.max 1 (s.fld R.ANG_CONF F.ANG_CONF.STALL) ≤ s.heelDtb.toNat) then s.angStall else s)

/-- ANG_OCCURRENCE_BEGIN (R567, R568, R574): channel c's begin time has come, and, outside DWELL mode, the interpolated angle reaches its begin angle. -/
def execAngOccurrenceBegin (c : Fin 24) (volts : List (BitVec 12)) (s : State) : Host.Outcome State Fault Refusal :=
  let x := s.angCh c.val
  let at_ := x.at_.toNat
  done (if s.angUp && s.chSt c.val == 1 && decide (at_ ≤ s.heelDtb.toNat) && (s.chMode c.val == 2 || s.reaches x.ahead) then (s.chBegin c.val at_ volts).chRun c.val at_ x.ahead 0 else s)

/-- ANG_OCCURRENCE_END (R567, R568, R570): channel c's end time has come, and the interpolated angle reaches an end angle. -/
def execAngOccurrenceEnd (c : Fin 24) (s : State) : Host.Outcome State Fault Refusal :=
  let x := s.angCh c.val
  done (if s.angUp && s.chSt c.val == 2 && decide (x.at_.toNat ≤ s.heelDtb.toNat) && (x.timed || s.reaches x.ahead) then s.chEnd c.val (if x.short then 2 else 1) else s)

/-- ANG_CHANG_WRITE (R573): a write of ANG_CHANGn, or with dur of ANG_CHDURn. -/
def execAngChangWrite (i : Ini) (c : Fin 24) (dur : Bool) (v : W32) (s : State) : Host.Outcome State Fault Refusal :=
  done (s.regWrite i (if dur then R.ANG_CHDUR c.val else R.ANG_CHANG c.val) v)

/-- ANG_CHCFG_WRITE (R573). -/
def execAngChcfgWrite (i : Ini) (c : Fin 24) (v : W32) (s : State) : Host.Outcome State Fault Refusal := done (s.regWrite i (R.ANG_CHCFG c.val) v)

/-- ANG_CTL_WRITE (R560, R576). -/
def execAngCtlWrite (i : Ini) (v : W32) (s : State) : Host.Outcome State Fault Refusal := done (s.regWrite i R.ANG_CTL v)

/-- ANG_TSTAMP_READ (R575). -/
def execAngTstampRead (i : Ini) (s : State) : Host.Outcome State Fault Refusal := done (s.regReadCmd i R.ANG_TSTAMP_LO)

end Sys2Proof.Machine
end

