-- ==== Sys2Proof/Machine/CubeMath.lean ====
section
/-! DEFINITION. Machine/CubeMath.lean: the number formats and the arithmetic of a cube step (11_cubes.md R303–R306), and the shapes and tile orders of a
logical array (R262, R284–R296). -/
namespace Sys2Proof.Machine

/-! ### Formats (R303): 0 INT8, 1 UINT8, 2 E4M3, 3 E5M2, 4 W16, 5 FP32, 6 INT32 -/

/-- A floating-point value: a number in units that the context fixes, an infinity by its sign, or NaN. -/
inductive Fp where
  | fin (n : Int)
  | inf (neg : Bool)
  | nan
deriving DecidableEq, Repr

/-- A format: exponent bits, fraction bits, bias. -/
def fpShape (f : Nat) : Nat × Nat × Nat :=
  match f with
  | 2 => (4, 3, 7)
  | 3 => (5, 2, 15)
  | 4 => (8, 7, 127)
  | _ => (8, 23, 127)

/-- The value of bits in a format, in units of 2^−unit; unit is at least the format's own smallest exponent. -/
def fpDecode (f unit bits : Nat) : Fp :=
  let (eb, mb, bias) := fpShape f
  let frac := bits % 2 ^ mb
  let e := bits / 2 ^ mb % 2 ^ eb
  let neg := bits / 2 ^ (mb + eb) % 2 == 1
  let sgn (n : Nat) : Fp := .fin (if neg then -(n : Int) else n)
  let d := unit + 1 - bias - mb
  if f = 2 ∧ e = 15 ∧ frac = 7 then .nan
  else if f ≠ 2 ∧ e = 2 ^ eb - 1 then (if frac = 0 then .inf neg else .nan)
  else if e = 0 then sgn (frac * 2 ^ d)
  else sgn ((2 ^ mb + frac) * 2 ^ (d + e - 1))

/-- n divided by 2^d, rounded to nearest with ties to even. -/
def rneShift (n d : Nat) : Nat :=
  let q := n / 2 ^ d
  let r := n % 2 ^ d
  if 2 ^ d < 2 * r ∨ (2 * r = 2 ^ d ∧ 0 < d ∧ q % 2 = 1) then q + 1 else q

/-- Bits in the binary form of n. -/
def bitLen (n : Nat) : Nat := if n = 0 then 0 else Nat.log2 n + 1

/-- The exponent and fraction bits of a magnitude in units of 2^−unit, rounded to nearest with ties to even, as if exponents had no upper end. -/
def fpRound (f unit n : Nat) : Nat :=
  let (_, mb, bias) := fpShape f
  let d0 := unit + 1 - bias - mb
  let d := Nat.max (bitLen n - (mb + 1)) d0
  (d - d0) * 2 ^ mb + rneShift n d

/-- A sum in units of 2^−266 as FP32 bits, rounded once; a magnitude that overflows becomes infinite (R305). zneg is the sign of a zero. -/
def fpSum (n : Int) (zneg : Bool) : Nat :=
  let b := fpRound 5 266 n.natAbs
  let sg := if n < 0 ∨ (n = 0 ∧ zneg) then 2 ^ 31 else 0
  sg + (if 0x7F800000 ≤ b then 0x7F800000 else b)

def fpNan32 : Nat := 0x7FC00000

/-- Product of two operand values in units of 2^−133, in units of 2^−266 (R305). -/
def fpMul : Fp → Fp → Fp
  | .nan, _ | _, .nan => .nan
  | .inf x, .inf y => .inf (x != y)
  | .inf x, .fin n => if n = 0 then .nan else .inf (x != decide (n < 0))
  | .fin n, .inf x => if n = 0 then .nan else .inf (x != decide (n < 0))
  | .fin a, .fin b => .fin (a * b)

def fpAdd : Fp → Fp → Fp
  | .nan, _ | _, .nan => .nan
  | .inf x, .inf y => if x = y then .inf x else .nan
  | .inf x, .fin _ | .fin _, .inf x => .inf x
  | .fin a, .fin b => .fin (a + b)

/-- The sign bit of an operand of a format. -/
def fpNeg (f bits : Nat) : Bool :=
  let (eb, mb, _) := fpShape f
  bits / 2 ^ (mb + eb) % 2 == 1

/-- One position's step on the floating-point path: accumulator and products summed exactly, rounded once (R305). A zero sum is negative only where every addend is a
negative zero, as IEEE 754 adds (PRESUMED, notes/assumptions/23.md). -/
def fpStep (fa fb acc : Nat) (ps : List (Nat × Nat)) : Nat :=
  let start : Fp := fpDecode 5 266 acc
  let sum := ps.foldl (fun t p => fpAdd t (fpMul (fpDecode fa 133 p.1) (fpDecode fb 133 p.2))) start
  match sum with
  | .nan => fpNan32
  | .inf neg => if neg then 0xFF800000 else 0x7F800000
  | .fin n => fpSum n (fpNeg 5 acc && ps.all (fun p => fpNeg fa p.1 != fpNeg fb p.2))

/-- An integer operand. -/
def intOperand (f bits : Nat) : Int := if f = 0 ∧ 128 ≤ bits then (bits : Int) - 256 else bits

/-- One position's step on the integer path: the sum of the products is added, saturating; the Bool is ISAT (R304). -/
def intStep (fa fb : Nat) (acc : W32) (ps : List (Nat × Nat)) : W32 × Bool :=
  let n := acc.toInt + ps.foldl (fun t p => t + intOperand fa p.1 * intOperand fb p.2) 0
  if 2 ^ 31 ≤ n then (0x7FFFFFFF, true) else if n < -(2 ^ 31) then (0x80000000, true) else (BitVec.ofInt 32 n, false)

/-- The flags of CUBE_STAT that a narrowing sets: 1 OSAT, 2 FOVF, 4 NAN in one number's bits. -/
abbrev NarrowFlags := Nat

/-- An accumulator narrowed to an integer output (R304). -/
def narrowInt (f sh : Nat) (acc : W32) : Nat × NarrowFlags :=
  if f = 6 then (acc.toNat, 0)
  else
    let x := acc.toInt
    let d : Int := (2 ^ sh : Nat)
    let q := x.fdiv d
    let r := x.fmod d
    let y := if d < 2 * r ∨ (2 * r = d ∧ sh ≠ 0 ∧ q % 2 ≠ 0) then q + 1 else q
    let lo : Int := if f = 0 then -128 else 0
    let hi : Int := if f = 0 then 127 else 255
    if y < lo then (lo.toNat + (if f = 0 then 128 else 0), 1) else if hi < y then (hi.toNat, 1) else ((y % 256).toNat, 0)

/-- An FP32 accumulator narrowed to a floating-point output (R306). -/
def narrowFp (f : Nat) (acc : W32) : Nat × NarrowFlags :=
  let (eb, mb, _) := fpShape f
  let w := eb + mb
  let nanBits := if f = 4 then 0x7FC0 else if f = 5 then fpNan32 else 0x7F
  let infBits := if f = 4 then 0x7F80 else if f = 5 then 0x7F800000 else 0x7C
  let sg := if acc.msb then 2 ^ w else 0
  match fpDecode 5 149 acc.toNat with
  | .nan => (nanBits, 4)
  | .inf _ => if f = 2 then (nanBits, 4) else (sg + infBits, 0)
  | .fin n =>
    if f = 5 then (acc.toNat, 0)
    else if f = 2 then
      if 448 * 2 ^ 149 < n.natAbs then (sg + 0x7E, 2) else (sg + fpRound 2 149 n.natAbs, 0)
    else
      let b := fpRound f 149 n.natAbs
      if infBits ≤ b then (sg + infBits, 2) else (sg + b, 0)

/-- Bytes of an element of a format. -/
def fmtBytes (f : Nat) : Nat := if f = 4 then 2 else if f = 5 ∨ f = 6 then 4 else 1

/-! ### Fields of a matrix entry (R262) -/

def matFmtA (w : List W32) : Nat := fget (wd w 5) ⟨0, 4⟩
def matFmtB (w : List W32) : Nat := fget (wd w 5) ⟨4, 4⟩
def matFmtO (w : List W32) : Nat := fget (wd w 5) ⟨8, 4⟩
def matFlow (w : List W32) : Nat := fget (wd w 5) ⟨12, 2⟩
def matQmask (w : List W32) : Nat := fget (wd w 5) ⟨16, 4⟩
def matGang (w : List W32) : Bool := (wd w 5).getLsbD 20
def matAccum (w : List W32) : Bool := (wd w 5).getLsbD 21
def matShift (w : List W32) : Nat := fget (wd w 5) ⟨25, 6⟩
/-- Stream unit of a port: 0 SA, 1 SB, 2 SC, 3 SO. -/
def matUnit (w : List W32) (p : Nat) : Nat := fget (wd w 6) ⟨4 * p, 4⟩

/-- Both operands are integers. -/
def matInt (w : List W32) : Bool := matFmtA w < 2

/-- Quarters of the logical array. -/
def matQ (w : List W32) : Nat := ((List.range 4).filter (fun i => (matQmask w).testBit i)).length

/-! ### CONV (R295, R296) -/

def convH (w : List W32) : Nat := fget (wd w 3) ⟨0, 16⟩
def convW (w : List W32) : Nat := fget (wd w 3) ⟨16, 16⟩
def convCin (w : List W32) : Nat := fget (wd w 4) ⟨0, 16⟩
def convCout (w : List W32) : Nat := fget (wd w 4) ⟨16, 16⟩
def convKh (w : List W32) : Nat := fget (wd w 7) ⟨0, 8⟩
def convKw (w : List W32) : Nat := fget (wd w 7) ⟨8, 8⟩
def convSh (w : List W32) : Nat := fget (wd w 7) ⟨16, 4⟩
def convSw (w : List W32) : Nat := fget (wd w 7) ⟨20, 4⟩
def convDh (w : List W32) : Nat := fget (wd w 7) ⟨24, 4⟩
def convDw (w : List W32) : Nat := fget (wd w 7) ⟨28, 4⟩
def convPt (w : List W32) : Nat := fget (wd w 8) ⟨0, 8⟩
def convPb (w : List W32) : Nat := fget (wd w 8) ⟨8, 8⟩
def convPl (w : List W32) : Nat := fget (wd w 8) ⟨16, 8⟩
def convPr (w : List W32) : Nat := fget (wd w 8) ⟨24, 8⟩
def convBatch (w : List W32) : Nat := fget (wd w 9) ⟨0, 16⟩
def convGroups (w : List W32) : Nat := fget (wd w 9) ⟨16, 16⟩

/-- HO and WO. -/
def convHo (w : List W32) : Int := ((convH w + convPt w + convPb w : Nat) - (convDh w * (convKh w - 1) + 1 : Nat) : Int).fdiv (convSh w) + 1
def convWo (w : List W32) : Int := ((convW w + convPl w + convPr w : Nat) - (convDw w * (convKw w - 1) + 1 : Nat) : Int).fdiv (convSw w) + 1

/-- The dimensions of a CONV are ones R262 and R295 accept. -/
def convOk (w : List W32) : Bool :=
  [convH w, convW w, convCin w, convCout w, convKh w, convKw w, convSh w, convSw w, convDh w, convDw w, convBatch w, convGroups w].all (0 < ·) &&
    convCin w % convGroups w == 0 && convCout w % convGroups w == 0 && decide (1 ≤ convHo w) && decide (1 ≤ convWo w)

/-! ### Shape (R287, R288, R293) -/

/-- What the shape of an entry comes from: m is M of a DECODE. -/
structure Shape where
  m : Nat
  n : Nat
  k : Nat
  groups : Nat
  mt : Nat
  nt : Nat
  kt : Nat
  /-- Elements of a tile along k: 8, or 4 in W16. -/
  kel : Nat
deriving DecidableEq, Repr

def ceilDiv (a b : Nat) : Nat := (a + b - 1) / b

/-- The smallest power of two at least x, at most cap (a power of two up to 8). -/
def powCap (x cap : Nat) : Nat := Nat.min cap (if x ≤ 1 then 1 else if x ≤ 2 then 2 else if x ≤ 4 then 4 else 8)

def matShape (w : List W32) (m : Nat) : Shape :=
  let q := matQ w
  let g := if opIs 0x31 w then convGroups w else 1
  let mm := if opIs 0x30 w then fget (wd w 3) ⟨0, 16⟩ else if opIs 0x31 w then convBatch w * (convHo w).toNat * (convWo w).toNat else m
  let nn := if opIs 0x30 w then fget (wd w 3) ⟨16, 16⟩ else if opIs 0x31 w then convCout w / g else fget (wd w 3) ⟨0, 16⟩
  let kk := if opIs 0x30 w then fget (wd w 4) ⟨0, 24⟩ else if opIs 0x31 w then convKh w * convKw w * (convCin w / g) else fget (wd w 3) ⟨16, 16⟩
  let nt := if q = 4 then 8 else 4
  let mt := powCap (ceilDiv mm 8) (if q = 1 then 4 else 8)
  ⟨mm, nn, kk, g, mt, nt, 16 * q / (mt * nt), if matFmtA w = 4 then 4 else 8⟩

def Shape.mb (x : Shape) : Nat := 8 * x.mt
def Shape.nb (x : Shape) : Nat := 8 * x.nt
def Shape.kb (x : Shape) : Nat := x.kel * x.kt
/-- Blocks along M and N, and K steps. -/
def Shape.bi (x : Shape) : Nat := ceilDiv x.m x.mb
def Shape.bj (x : Shape) : Nat := ceilDiv x.n x.nb
def Shape.bs (x : Shape) : Nat := ceilDiv x.k x.kb
/-- Tiles along k. -/
def Shape.kTiles (x : Shape) : Nat := ceilDiv x.k x.kel
/-- Tiles along k of step s that hold any k of the product (notes/assumptions/24.md). -/
def Shape.kv (x : Shape) (s : Nat) : Nat := Nat.min x.kt (x.kTiles - s * x.kt)

/-- Tile units of a stationary block (R293): flow 0 B, flow 2 A; none in flow 1. -/
def Shape.u (x : Shape) (flow : Nat) : Nat := if flow = 0 then x.kTiles * x.nt else if flow = 2 then x.kTiles * x.mt else 0

/-- Stationary blocks of an entry in all. -/
def Shape.blocks (x : Shape) (flow : Nat) : Nat := x.groups * (if flow = 0 then x.bj else x.bi)

/-! ### Operands of a step (R289, R290, R292) -/

/-- Element e of bytes, of size b. -/
def elemAt (bs : List Byte) (b e : Nat) : Nat := leNat ((bs.drop (b * e)).take b)

/-- The A bytes of step s within a stationary A block: its tiles lie step by step, for mt, then kt. -/
def statA (x : Shape) (s : Nat) (bs : List Byte) : List Byte := (bs.drop (64 * (s * x.kt * x.mt))).take (64 * (x.kv s * x.mt))

/-- The B bytes of step s within a stationary B block: for kt, then nt. -/
def statB (x : Shape) (s : Nat) (bs : List Byte) : List Byte := (bs.drop (64 * (s * x.kt * x.nt))).take (64 * (x.kv s * x.nt))

/-- A element of a step at row r of the block and column c of the step: tiles for mt, then kt, kts of them along k; zero beyond M and K. -/
def elA (x : Shape) (kts i s e : Nat) (bs : List Byte) (r c : Nat) : Nat :=
  if x.m ≤ i * x.mb + r ∨ x.k ≤ s * x.kb + c then 0
  else elemAt (bs.drop (64 * (r / 8 * kts + c / x.kel))) e (r % 8 * x.kel + c % x.kel)

/-- B element at row c of the step and column n of the block: tiles for kt, then nt; zero beyond K and N. -/
def elB (x : Shape) (j s e : Nat) (bs : List Byte) (c n : Nat) : Nat :=
  if x.k ≤ s * x.kb + c ∨ x.n ≤ j * x.nb + n then 0
  else elemAt (bs.drop (64 * (c / x.kel * x.nt + n / 8))) e (c % x.kel * 8 + n % 8)

/-- The accumulators after a step, and whether any saturated. -/
def stepAcc (w : List W32) (x : Shape) (i j s kta : Nat) (la lb : List Byte) (acc : List W32) : List W32 × Bool :=
  let e := fmtBytes (matFmtA w)
  let rs := (List.range (x.mb * x.nb)).map (fun p =>
    let r := p / x.nb
    let n := p % x.nb
    let ps := (List.range x.kb).map (fun c => (elA x kta i s e la r c, elB x j s e lb c n))
    let a := acc.getD p 0
    if matInt w then intStep (matFmtA w) (matFmtB w) a ps else (BitVec.ofNat 32 (fpStep (matFmtA w) (matFmtB w) a.toNat ps), false))
  (rs.map (·.1), rs.any (·.2))

/-! ### Output (R289, R290, R304, R306) -/

/-- Row and column in the block of element p of its emission: tiles for mt, then nt, row-major within each. -/
def outPos (x : Shape) (p : Nat) : Nat × Nat := (p / 64 / x.nt * 8 + p % 64 / 8, p / 64 % x.nt * 8 + p % 8)

/-- One output element. -/
def narrow (w : List W32) (a : W32) : Nat × NarrowFlags := if matInt w then narrowInt (matFmtO w) (matShift w) a else narrowFp (matFmtO w) a

/-- A block as it leaves on SO: invalid elements carry no byte; and the flags of those that are valid. -/
def emitBlock (w : List W32) (x : Shape) (i j : Nat) (acc : List W32) : List (Option Byte) × NarrowFlags :=
  let b := fmtBytes (matFmtO w)
  (List.range (x.mb * x.nb)).foldl (fun t p =>
    let q := outPos x p
    if i * x.mb + q.1 < x.m ∧ j * x.nb + q.2 < x.n then
      let v := narrow w (acc.getD (q.1 * x.nb + q.2) 0)
      (t.1 ++ (leBytes b v.1).map some, t.2 ||| v.2)
    else (t.1 ++ List.replicate b none, t.2)) ([], 0)

/-- The initial accumulators of a block, out of SC's bytes: 4 bytes an element in the order of the output (R289). -/
def accOf (x : Shape) (bs : List Byte) : List W32 :=
  (List.range (x.mb * x.nb)).map (fun p =>
    let r := p / x.nb
    let n := p % x.nb
    BitVec.ofNat 32 (elemAt bs 4 ((r / 8 * x.nt + n / 8) * 64 + r % 8 * 8 + n % 8)))

/-! ### A elements by coordinate (R292, R296, R322, R323) -/

/-- Row and column of the product, and the group, of A element e of an entry in the order of delivery; none past the last. -/
def aElem (x : Shape) (flow e : Nat) : Option (Nat × Nat × Nat) :=
  let per := 8 * x.kel
  let t := e / per
  let y := e % per
  if flow = 2 then
    let u := x.u 2
    let blk := t / u
    let tt := t % u
    let s := tt / (x.kt * x.mt)
    let z := tt - s * (x.kt * x.mt)
    let kv := x.kv s
    if u = 0 ∨ x.groups * x.bi ≤ blk then none
    else some (blk / x.bi, blk % x.bi * x.mb + z / kv * 8 + y / x.kel, (s * x.kt + z % kv) * x.kel + y % x.kel)
  else
    let one := x.mt * x.kt
    let st := t / one
    let z := t % one
    let s := st % x.bs
    let blk := st / x.bs
    let i := if flow = 0 then blk % x.bi else blk / x.bj % x.bi
    if x.groups * x.bi * x.bj ≤ blk then none
    else some (blk / (x.bi * x.bj), i * x.mb + z / x.kt * 8 + y / x.kel, (s * x.kt + z % x.kt) * x.kel + y % x.kel)

/-- Byte offset from AR0 of an A element of a CONV, or that it is zero (R296, R322). -/
def convOffset (w : List W32) (x : Shape) (stride : Nat → Int) (g m k : Nat) : Option Int :=
  if x.m ≤ m ∨ x.k ≤ k then none
  else
    let wo := (convWo w).toNat
    let ho := (convHo w).toNat
    let cg := convCin w / x.groups
    let ox := m % wo
    let oy := m / wo % ho
    let b := m / wo / ho
    let ci := k % cg
    let kx := k / cg % convKw w
    let ky := k / cg / convKw w
    let iy : Int := (oy * convSh w + ky * convDh w : Nat) - (convPt w : Nat)
    let ix : Int := (ox * convSw w + kx * convDw w : Nat) - (convPl w : Nat)
    if iy < 0 ∨ (convH w : Int) ≤ iy ∨ ix < 0 ∨ (convW w : Int) ≤ ix then none
    else some (b * stride 2 + iy * stride 1 + ix * stride 0 + ((g * cg + ci) * fmtBytes (matFmtA w) : Nat))

/-- Row and column of the product of output element e of a DECODE in the order of emission. -/
def oElem (x : Shape) (flow e : Nat) : Nat × Nat :=
  let blk := e / (x.mb * x.nb)
  let q := outPos x (e % (x.mb * x.nb))
  let i := if flow = 0 then blk % x.bi else blk / x.bj
  let j := if flow = 0 then blk / x.bi else blk % x.bj
  (i * x.mb + q.1, j * x.nb + q.2)

/-! ### Acceptance (R262, R263, R286, R293, R304, R306) -/

/-- The format combination is one R263 accepts, with no marked E4M3. -/
def fmtOk (w : List W32) : Bool :=
  let a := matFmtA w
  let b := matFmtB w
  let o := matFmtO w
  ((a < 2 && b < 2 && (o < 2 || o == 6)) || (((2 ≤ a && a < 4 && 2 ≤ b && b < 4) || (a == 4 && b == 4)) && 2 ≤ o && o < 6)) &&
    !((wd w 5).getLsbD 22 && a == 2) && !((wd w 5).getLsbD 23 && b == 2) && !((wd w 5).getLsbD 24 && o == 2)

/-- QMASK and GANG (R286). -/
def maskOk (w : List W32) : Bool :=
  if matGang w then matQmask w == 3 || matQmask w == 12 || matQmask w == 15 else matQ w == 1

/-- OSHIFT (R304, R306). -/
def shiftOk (w : List W32) : Bool := matFmtO w == 0 || matFmtO w == 1 || matShift w == 0

/-- The ports that an entry uses: SC only with ACCUM. -/
def matPorts (w : List W32) : List Nat := if matAccum w then [0, 1, 2, 3] else [0, 1, 3]

/-- No unit stands in two of an entry's fields (R313). -/
def portsOk (w : List W32) : Bool := ((matPorts w).map (matUnit w)).eraseDups.length == (matPorts w).length

/-- The fields common to the three matrix opcodes. -/
def matFieldsOk (w : List W32) : Bool :=
  fget (wd w 5) ⟨14, 2⟩ == 0 && !(wd w 5).getLsbD 31 && wd w 6 >>> 16 == 0 && matFlow w != 3 && maskOk w && portsOk w

/-- The stationary block fits the store (R293). -/
def storeFits (w : List W32) (m : Nat) : Bool := (matShape w m).u (matFlow w) ≤ 1024 * matQ w

end Sys2Proof.Machine
end

