-- ==== Sys2Proof/Machine/StreamOps.lean ====
section
/-! DEFINITION. Machine/StreamOps.lean: how a stream unit fetches and runs its program, fills its window, hands bytes to its consumer, and writes what its
producer gives (12_streams.md R313–R337). A unit is named by its key u = 16·g + s. -/
namespace Sys2Proof.Machine

/-! ### The unit and its program -/

/-- The binding a unit serves: the first of the entries that name it (R313). -/
def Stream.port (x : Stream) : Option (Nat × Nat) := x.bound.head?

/-- Label of the program that runs (R316). -/
def Stream.cls (x : Stream) : Nat :=
  match x.cur with
  | some p => p.cls
  | none => 15

/-- A program moves to CURRENT: the generator stands at its first instruction, and nothing is fetched of it yet (R318, R319, R326). -/
def Stream.start (x : Stream) (p : StrProg) : Stream :=
  { x with cur := some p, next := none, pc := p.addr, begun := false, dist := 0, ar := [], loops := [], stride := [], left := none, ended := false, chain := false,
           status := 0, reason := 0, tensor := false, row := false, last := none, code := [], shy := none }

/-- The generator goes on to the next instruction. -/
def Stream.step (x : Stream) : Stream := { x with pc := x.pc + 8, left := none }

/-- A write unit accepts bytes: a write program runs in it that has not reached END (R314). -/
def Stream.accepts (x : Stream) : Bool := x.cur.isSome && x.begun && x.write && !x.ended && !x.error && !x.cancelling

/-- A unit's generator executes: it has a program that has not reached END, in an engine in service. -/
def State.strRuns (s : State) (u : Nat) : Bool :=
  let x := s.stream u
  x.cur.isSome && !x.error && !x.cancelling && !x.ended && (s.engineLive (u / 16) || s.testing (unitCode 3 (u / 16)))

/-- A read request of a unit. -/
def State.strReq (s : State) (u : Nat) (k : Kind) (a n : Nat) (early : Bool) : Req :=
  { ini := streamIni u, kind := k, addr := BitVec.ofNat 64 a, len := n, posted := k == .write, early := early, cls := (s.stream u).cls }

/-- The bits of Larders that a line lies in. -/
def State.larderBit (s : State) (a : Nat) : Nat :=
  match s.regionOf a with
  | some (.larder l, _, _) => 2 ^ l
  | _ => 0

/-- Count a line read or write request issued (STR_LINES), and the Larder it used (R260). -/
def State.strLineCount (s : State) (u a : Nat) : State :=
  let b := s.larderBit a
  s.onStream u (fun x => { x with lines := x.lines + 1, used := x.used ||| b })

/-! ### Reading lines (R316, R328–R331) -/

/-- The answer to a line's read: its data, a fault to hold or raise, that it was returned EARLY, or that it has not come yet. -/
inductive LineRead where
  | ok (data : List Byte)
  | fault (status reason : Nat)
  | early
  | wait
deriving DecidableEq, Repr

/-- Read one line. It counts as its request is issued (STR_LINES); one that its entry returns EARLY has not been, though it may have been relabelled there (R233). -/
def State.strLine (s : State) (u line : Nat) (early : Bool) : State × LineRead :=
  let q := s.strReq u .read line 64 early
  let p := s.engRead q
  let t := if s.outward q && s.asked q then p.1 else p.1.strLineCount u line
  match p.2 with
  | none | some .other => (t, .wait)
  | some (.ok b) => (t, .ok b)
  | some (.bad 10) => (if s.outward q && s.asked q then t else p.1, .early)
  | some (.bad 9) => (t, .fault 4 0)
  | some (.bad e) => (t, .fault 3 e)

/-- The data of a line that is in the buffer. -/
def Stream.buffered (x : Stream) (line : Word) : Option Chunk :=
  match x.chunks.find? (fun c => c.line == some line) with
  | some c => some c
  | none => match x.last with
    | some (l, d) => if l = line then some ⟨some line, 0, 0, d, .ok⟩ else none
    | none => none

/-- Add bytes of a line to a window. -/
def Stream.push (x : Stream) (c : Chunk) : Stream := { x with chunks := x.chunks ++ [c] }

/-- Generate n bytes from an address, all within one line: from the buffer, by a demand read, or by an early read within the distance, which stops at a line returned EARLY
(R328, R330), as it waits at one whose answer has not come. The Bool says that they were generated. -/
def State.strGen (s : State) (u a n : Nat) : State × Bool :=
  let x := s.stream u
  let line := a / 64 * 64
  let w := BitVec.ofNat 64 line
  let pf := s.postedTo (s.strReq u .read line 64 false)
  match (if pf then x.buffered w else none) with
  | some c => (s.setStream u (x.push { c with off := a % 64, len := n }), true)
  | none =>
    let demand := x.chunks.isEmpty
    if demand || (x.roomy && x.shy != some w) then
      let p := s.strLine u line (!demand)
      match p.2 with
      | .ok d => (p.1.onStream u (fun y => { y with shy := none }.push ⟨some w, a % 64, n, d, .ok⟩), true)
      | .early => (p.1.onStream u (fun y => { y with shy := some w }), false)
      | .wait => (p.1, false)
      | .fault st r =>
        if demand then (p.1.strError u st r w none, false)
        else (p.1.onStream u (fun y => y.push ⟨some w, a % 64, n, [], .held st r⟩), true)
    else (s, false)

/-- Generate the bytes left of a MOVE, as far as the window allows: a is where the MOVE ends. -/
def State.strGenMove (s : State) (u a : Nat) : Nat → State
  | 0 => s
  | fuel + 1 =>
    match (s.stream u).left with
    | some left =>
      if left = 0 then s
      else
        let at_ := (a + 2 ^ 48 - left) % 2 ^ 48
        let n := Nat.min left (64 - at_ % 64)
        let p := s.strGen u at_ n
        if p.2 then (p.1.onStream u (fun x => { x with left := some (left - n) })).strGenMove u a fuel else p.1
    | none => s

/-! ### Delivering bytes -/

/-- Take up to n bytes from a window, stopping at a held fault: the bytes, the window, and the line last taken from. -/
def takeChunks : Nat → List Chunk → List Byte × List Chunk × Option (Word × List Byte)
  | _, [] => ([], [], none)
  | n, c :: cs =>
    if n = 0 then ([], c :: cs, none)
    else match c.st with
      | .held _ _ => ([], c :: cs, none)
      | .ok =>
        let m := Nat.min n c.len
        let b := match c.line with
          | some _ => (c.data.drop c.off).take m
          | none => List.replicate m 0
        let last := c.line.map (fun l => (l, c.data))
        if m = c.len then
          let p := takeChunks (n - m) cs
          (b ++ p.1, p.2.1, match p.2.2 with
            | some l => some l
            | none => last)
        else (b, { c with off := c.off + m, len := c.len - m } :: cs, last)

/-- A program that has ended, with every byte delivered or written and nothing to follow, leaves the unit IDLE, with no line in its buffer (R316, R326). -/
def State.strSettle (s : State) (u : Nat) : State :=
  let x := s.stream u
  if x.ended && x.chunks.isEmpty && x.run.isNone && x.next.isNone && !s.streamOut u then
    s.setStream u { x with cur := none, ended := false, chain := false, last := none }
  else s

/-- TRUN ends once every byte of A has been generated and delivered (R322); while it waits for that, left is 0. -/
def Stream.trunEnd (x : Stream) : Stream := if x.tensor && x.left == some 0 && x.chunks.isEmpty then { x.step with tensor := false } else x

/-- The consumer takes up to n bytes. -/
def State.strTake (s : State) (u n : Nat) : State × List Byte :=
  let x := s.stream u
  if x.error || x.cancelling then (s, [])
  else
    let p := takeChunks n x.chunks
    ((s.setStream u { x with chunks := p.2.1, last := match p.2.2 with
      | some l => some l
      | none => x.last }.trunEnd).strSettle u, p.1)

/-! ### Writing (R316, R317) -/

/-- The open run becomes a request. -/
def State.strFlush (s : State) (u : Nat) : State :=
  match (s.stream u).run with
  | none => s
  | some (a, bs) =>
    let s1 := (s.onStream u (fun x => { x with run := none })).strLineCount u a.toNat
    let q := s1.strReq u .write a.toNat bs.length false
    let p := s1.busWrite q bs
    match p.2 with
    | .ok _ => p.1
    | .bad e => p.1.strError u 3 e (BitVec.ofNat 64 (a.toNat / 64 * 64)) none
    | .other => p.1.withNet (p.1.net ++ [p.1.inFlight (s1.carried q) bs none 0])

/-- Place one byte at an address; an invalid one ends the run and is not written. -/
def State.strPlace (s : State) (u a : Nat) (b : Option Byte) : State :=
  match b with
  | none => s.strFlush u
  | some v =>
    let s1 := match (s.stream u).run with
      | some (r, bs) => if r.toNat + bs.length = a ∧ a % 64 ≠ 0 then s else s.strFlush u
      | none => s
    let x := s1.stream u
    let run := match x.run with
      | some (r, bs) => (r, bs ++ [v])
      | none => (BitVec.ofNat 64 a, [v])
    let s2 := s1.setStream u { x with run := some run }
    if a % 64 = 63 then s2.strFlush u else s2

/-- Place bytes from an address until the unit fails. -/
def State.strPlaceAll (s : State) (u a : Nat) : List (Option Byte) → State
  | [] => s
  | b :: bs =>
    if (s.stream u).error then s
    else (s.strPlace u (a % 2 ^ 48) b).strPlaceAll u (a + 1) bs

/-- Room in the two halves of the line buffer, in bytes (R325). -/
def bufRoom (x : Stream) : Nat := 8192 - x.buf.length

/-- SO accepts, while a write program runs in it (R314), what it has room for of the block that queue k's array emits (R289, R291); a MATMUL or CONV whose last result is accepted has ended its operation
(R261). -/
def State.soPump (s : State) (k : Nat) : State :=
  match s.mat k, (s.queue k).entry with
  | some m, some w =>
    let u := 16 * (k / 4) + fget (wd w 6) ⟨12, 4⟩
    let x := s.stream u
    if x.port = some (k, 3) ∧ x.accepts then
      let n := bufRoom x
      let s1 := (s.setStream u { x with buf := x.buf ++ m.emit.take n }).setMat k (some { m with emit := m.emit.drop n })
      if m.finished ∧ (m.emit.drop n).isEmpty ∧ !opIs 0x32 w then s1.endEntry k 0 else s1
    else s
  | _, _ => s

/-- The region in which queue k's call runs (R370). -/
def State.calledRgn (s : State) (k : Nat) : Option Nat := ((List.range 8).map (8 * (k / 32) + ·)).find? (fun x => (s.rgn x).call == some k)

/-- The whole 64-byte units of n bytes, in bytes. -/
def unitBytes (n : Nat) : Nat := n / 64 * 64

/-- The producer of a write unit hands over what it can: the array, or the function whose call runs, which gives ext in whole 64-byte units (R371). -/
def State.strAccept (s : State) (u : Nat) (ext : List Byte) : State :=
  match (s.stream u).port with
  | some (k, 3) => s.soPump k
  | some (k, 5) =>
    if (s.stream u).accepts && (s.calledRgn k).isSome then
      s.onStream u (fun x => { x with buf := x.buf ++ (ext.take (Nat.min (unitBytes (bufRoom x)) (unitBytes ext.length))).map some })
    else s
  | _ => s

/-- The function whose call runs takes what its read unit has, in 64-byte units: bytes that make no whole unit yet wait in the region (R371). -/
def State.strFeed (s : State) (u : Nat) : State :=
  match (s.stream u).port with
  | some (k, 4) =>
    match s.calledRgn k with
    | some x =>
      let p := s.strTake u 16384
      let l := (p.1.rgn x).part ++ p.2
      if (p.1.rgn x).call = some k then p.1.setRgn x { p.1.rgn x with part := l.drop (unitBytes l.length) } else p.1
    | none => s
  | _ => s

/-! ### Fetching and executing (R318–R324) -/

/-- The unit's direction fits its binding (R324). -/
def bindOk (x : Stream) : Bool :=
  match x.port with
  | some (_, p) => !x.begun || (x.write == (p == 3 || p == 5))
  | none => true

/-- The unit ends with a status at its instruction: the instructions before it stand, so a write unit's open run is written first (R320, R324). -/
def State.strFail (s0 : State) (u status reason : Nat) : State :=
  let s := s0.strFlush u
  if (s.stream u).error then s else s.strError u status reason (s.stream u).pc none

/-- A unit whose binding and program do not match ends BIND. -/
def State.bindCheck (s : State) (u : Nat) : State := if bindOk (s.stream u) || (s.stream u).error || (s.stream u).cur.isNone then s else s.strFail u 6 0

/-- Bits of word 0 and word 1 that an instruction may set (R319). -/
def strFields (op : Nat) : W32 × W32 :=
  match op with
  | 0x00 => (0xFF, 0)
  | 0x01 => (0x007F10FF, 0)
  | 0x02 => (0xFFFF03FF, 0xFFFFFFFF)
  | 0x03 => (0x3FF, 0xFFFFFFFF)
  | 0x04 => (0xFF, 0xFFFFFF)
  | 0x05 => (0xFFF, 0)
  | 0x06 => (0x3FF, 0xFFFFFF)
  | 0x07 => (0xFF, 0xFFFFFF)
  | 0x08 => (0xFFFF00FF, 0xFFFFFFFF)
  | 0x09 => (0x3FF, 0xFFFFFFFF)
  | _ => (0xFF, 0)

/-- The unit ends ILLEGAL at its instruction. -/
def State.strIllegal (s : State) (u : Nat) : State := s.strFail u 1 0

def noCode (_ : Nat) : List Byte := []

/-- The line of its program that the generator stands in: the unit holds it, or fetches it by an early read and holds it until another program starts (R318,
notes/assumptions/111.md); its bytes, the reason that refuses it, or nothing yet. -/
def State.strFetch (s : State) (u : Nat) (p : StrProg) : State × Option (List Byte ⊕ Nat) :=
  let x := s.stream u
  let n := (x.pc.toNat - p.addr.toNat) / 64
  let b := tabGet noCode x.code n
  if !b.isEmpty then (s, some (.inl b))
  else
    let f := s.engRead (s.strReq u .read (x.pc.toNat / 64 * 64) 64 true)
    match f.2 with
    | some (.ok l) => (f.1.onStream u (fun y => { y with code := tabPut noCode n l y.code }), some (.inl l))
    | some (.bad e) => (f.1, some (.inr e))
    | _ => (f.1, none)

/-- Execute the instruction at the generator's position, where it is the one that the command names: fetch it, check it, run it. A program whose instruction is not one
of R319, or whose START is missing or out of place, ends ILLEGAL whatever the command names. -/
def State.strExec (s : State) (u op : Nat) (run : State → W32 → W32 → State) : State :=
  if !s.strRuns u then s
  else
    let x := s.stream u
    match x.cur with
    | none => s
    | some p =>
      if 8 * 1024 ≤ x.pc.toNat - p.addr.toNat then s.strIllegal u
      else
        let f := s.strFetch u p
        match f.2 with
        | none => f.1
        | some (.inr e) => f.1.strFail u 2 e
        | some (.inl b) =>
          let w := leWords (b.drop (x.pc.toNat % 64))
          let o := (wd w 0).toNat % 256
          if 0xB < o ∨ (o = 1 ∧ x.begun) ∨ (o ≠ 1 ∧ !x.begun) then f.1.strIllegal u
          else if o ≠ op then s
          else if wd w 0 &&& ~~~(strFields o).1 ≠ 0 ∨ wd w 1 &&& ~~~(strFields o).2 ≠ 0 then f.1.strIllegal u
          else run f.1 (wd w 0) (wd w 1)

/-- Address register r, 48 bits. -/
def Stream.areg (x : Stream) (r : Nat) : Word := tabGet wordZero x.ar r
def Stream.setAreg (x : Stream) (r : Nat) (v : Word) : Stream := { x with ar := tabPut wordZero r (BitVec.ofNat 64 (v.toNat % 2 ^ 48)) x.ar }

end Sys2Proof.Machine
end

