-- ==== Sys2Proof/Machine/TrackOps.lean ====
section
/-! DEFINITION. Machine/TrackOps.lean: the checkpoint trackers: pieces counted, seals written (13_training.md R351–R355). The trackers' seal writes pass as the
fault manager's (DESIGN CHOICE, notes/assumptions/22.md: no rule names their initiator). -/
namespace Sys2Proof.Machine

/-- The 64-byte seal record (R353). -/
def State.sealBytes (s : State) (n : Nat) : List Byte :=
  leBytes 4 0x5345414C ++ leBytes 4 (s.rd (R.TRN_CK_ID n)).toNat ++ leBytes 4 (s.rd (R.TRN_CK_STEP n)).toNat ++
  leBytes 4 ((s.rd R.LACE_PKG).toNat % 256) ++ leBytes 8 s.tb.master.toNat ++
  leBytes 8 (s.rd2 (R.TRN_CK_BYTES_LO n) (R.TRN_CK_BYTES_HI n)).toNat ++ leBytes 4 (s.fld (R.TRN_CK_PIECES n) F.TRN_CK_PIECES.PIECES) ++ leBytes 28 0

def State.sealAddr (s : State) (n : Nat) : Nat := ((s.rd (R.TRN_CK_SEAL_HI n)).toNat % 65536) * 2 ^ 32 + (s.rd (R.TRN_CK_SEAL_LO n)).toNat / 64 * 64
def State.msealAddr (s : State) (n : Nat) : Nat := ((s.rd (R.TRN_CK_MSEAL_HI n)).toNat % 65536) * 2 ^ 32 + (s.rd (R.TRN_CK_MSEAL_LO n)).toNat / 64 * 64

/-- Host memory or Sole SRAM, where a seal lies; a remote window, where its mirror does. -/
def State.inHostOrSram (s : State) (a : Nat) : Bool :=
  match s.regionOf a with
  | some (.sram, _, _) | some (.host, _, _) => true
  | _ => false

def State.inWindow (s : State) (a : Nat) : Bool :=
  match s.regionOf a with
  | some (.window _, _, _) => true
  | _ => false

/-- The record being sealed by tracker n, and the request that carries it to the mirror (R353). -/
def State.sealNow (s : State) (n : Nat) : Seal := tabGet noSeal s.eng.seals n

/-- Write the local seal, with the record's bytes as they were at sealing; a refused one fails the tracker. Its acknowledgement is an event of its own. -/
def State.localSeal (s : State) (n : Nat) : State :=
  if s.inHostOrSram (s.sealAddr n) then
    let p := s.busWrite (s.lineReq (s.sealAddr n)) (s.sealNow n).bytes
    match p.2 with
    | .ok _ => p.1.withEng { p.1.eng with sealLocal := p.1.eng.sealLocal ++ [n] }
    | _ => p.1.trkFail n 4
  else s.trkFail n 4

/-- SEALING begins: the record is made as it then stands, with the request that will carry it to the mirror, where there is one. -/
def State.makeSeal (s : State) (n : Nat) : State :=
  let t := s.setFld (R.TRN_CK_STAT n) F.TRN_CK_STAT.STATE 2
  let a := t.msealAddr n
  t.withEng { t.eng with seals := tabPut noSeal n ⟨t.sealBytes n, if a = 0 then none else some (t.carried (t.lineReq a))⟩ t.eng.seals }

/-- A record goes to the mirror. -/
def State.sendSeal (s : State) (n : Nat) (q : Req) : State :=
  let p := s.busWrite q (s.sealNow n).bytes
  match p.2 with
  | .other => p.1.withNet (p.1.net ++ [p.1.inFlight (s.carried q) (s.sealNow n).bytes none 0])
  | _ => p.1.trkFail n 4

/-- A tracker seals: the mirror's seal first, where there is one. -/
def State.beginSeal (s0 : State) (n : Nat) : State :=
  let s := s0.makeSeal n
  let a := s.msealAddr n
  if a = 0 then s.localSeal n else if !s.inWindow a then s.trkFail n 4 else s.sendSeal n (s.lineReq a)

/-- A CKPT entry has completed with OK (R352). -/
def State.ckptOk (s : State) (id : W32) (len : Nat) : State :=
  match s.trkOpen id with
  | none => s
  | some n =>
    let d := s.fld (R.TRN_CK_PIECES n) F.TRN_CK_PIECES.DONE + 1
    let m := s.fld (R.TRN_CK_PIECES n) F.TRN_CK_PIECES.PIECES
    if m < d then s.trkFail n 3
    else
      let s1 := s.setFld (R.TRN_CK_PIECES n) F.TRN_CK_PIECES.DONE d
      let s2 := s1.wr2 (R.TRN_CK_BYTES_LO n) (R.TRN_CK_BYTES_HI n) (s1.rd2 (R.TRN_CK_BYTES_LO n) (R.TRN_CK_BYTES_HI n) + BitVec.ofNat 64 len)
      if d = m then s2.beginSeal n else s2

/-- The tracker whose mirror seal a response answers. -/
def State.sealOf (s : State) (r : NetResp) : Option Nat :=
  [0, 1, 2, 3].find? (fun n => s.trkState n == 2 && !s.eng.sealLocal.contains n && (s.sealNow n).mirror == some r.req)

/-- The mirror's seal has been answered: the local one follows, or the tracker fails. -/
def State.mirrorSealed (s : State) (n reason : Nat) : State := if reason = 0 then s.localSeal n else s.trkFail n 4

/-- The local seal is acknowledged: SEALED. -/
def State.localSealed (s : State) (n : Nat) : State :=
  let s1 := s.withEng { s.eng with sealLocal := s.eng.sealLocal.filter (· != n) }
  let s2 := (s1.setFld (R.TRN_CK_STAT n) F.TRN_CK_STAT.STATE 3).putBit R.TRN_CK_EVT n true
  (s2.wr R.TRN_LAST_ID (s2.rd (R.TRN_CK_ID n))).wr R.TRN_LAST_STEP (s2.rd (R.TRN_CK_STEP n))

end Sys2Proof.Machine
end

