-- ==== Sys2Proof/Machine/QueueOps.lean ====
section
/-! DEFINITION. Machine/QueueOps.lean: the engines' lists, the start and the end of an entry, copies and the holds of a queue (10_engines.md R248–R282). -/
namespace Sys2Proof.Machine

/-! ### Fetches (R251, R253, R256) -/

/-- A read of a queue: its data, or the status and the reason that it ends with; none until an answer from outward has come. -/
def State.qAnswer (s : State) (q : Req) : State × Option (List Byte ⊕ (Nat × Nat)) :=
  let p := s.engRead q
  (p.1, match p.2 with
    | some (.ok b) => some (.inl b)
    | some (.bad 9) => some (.inr (6, 9))
    | some (.bad e) => some (.inr (5, e))
    | _ => none)

/-- An early read of a queue, 64 bytes at most (R253). -/
def State.qFetch (s : State) (k : Nat) (a : Word) (n cls : Nat) : State × Option (List Byte ⊕ (Nat × Nat)) :=
  s.qAnswer { ini := queueIni k, kind := .read, addr := a, len := n, posted := false, early := true, cls := cls }

/-- The header is one R257 accepts. -/
def headerOk (w : List W32) : Bool :=
  (wd w 0).setWidth 16 == 0x4C48#16 && wd w 0 >>> 21 == 0 && wd w 1 >>> 16 == 0 && wd w 1 != 0 && (w.drop 6).all (· == 0)

/-- Open the list whose header is at an address (R256, R257); until the header has come from outward, it is what the queue reads next. -/
def State.openList (s : State) (k : Nat) (a : Word) : State :=
  let p := s.qFetch k a 64 (s.fld (qreg R.ENG_QCFG k) F.ENG_QCFG.HCLASS)
  match p.2 with
  | none => p.1.onQueue k (fun q => { q with next := some a })
  | some (.inr (st, r)) => p.1.qStop k st r a 0 0 a (1, a)
  | some (.inl b) =>
    let w := leWords b
    if headerOk w then
      p.1.onQueue k (fun q => { q with
        list := some { addr := a, cls := fget (wd w 0) ⟨16, 4⟩, ldone := if (wd w 0).getLsbD 20 then some (wd w 2, wd w 3) else none,
                       count := (wd w 1).toNat, skip := false }
        next := none, idx := 0 })
    else p.1.qStop k 0xD 0 a 0 0 a (1, a)

/-- Start the next list: a JUMP's, or the slot at HEAD's (R251). -/
def State.listStart (s : State) (k : Nat) : State :=
  if s.qState k ≠ 2 ∨ (s.queue k).list.isSome ∨ !s.engUsable (k / 4) ∨ s.xferFailed k ∨ ((s.pipeOf k).isSome ∧ (s.queue k).next.isNone) then s
  else match (s.queue k).next with
    | some a => s.openList k a
    | none =>
      if s.qHead k = s.qTail k then s
      else
        let a := s.rd2 (qreg R.ENG_QRING_LO k) (qreg R.ENG_QRING_HI k) + BitVec.ofNat 64 (8 * (s.qHead k % s.qCap k))
        let p := s.qFetch k a 8 (s.fld (qreg R.ENG_QCFG k) F.ENG_QCFG.HCLASS)
        match p.2 with
        | none => p.1
        | some (.inr (st, r)) => p.1.qStop k st r a 0 0 a (0, a)
        | some (.inl b) => p.1.openList k (BitVec.ofNat 64 (leNat b))

/-! ### Entries (R254, R258–R261) -/

/-- The operation of the running entry has ended, with a status, a reason and an address. -/
def State.qFin (s : State) (k status reason : Nat) (a : Word) : State :=
  (s.onQueue k (fun q => { q with fin := some ⟨status, reason, a⟩, wait := none })).setQState k 2

def State.qOk (s : State) (k : Nat) : State := s.qFin k 0 0 0

/-- The running entry waits. -/
def State.qWait (s : State) (k : Nat) (w : QWait) : State := (s.onQueue k (fun q => { q with wait := some w })).setQState k 3

/-- The bandwidth class of a queue's list. -/
def State.qCls (s : State) (k : Nat) : Nat :=
  match (s.queue k).list with
  | some h => h.cls
  | none => 0

/-- The entry at the head waits for resources, with the words it was fetched with (R254). -/
def State.qWants (s : State) (k : Nat) (r : List Nat) : State := (s.onQueue k (fun q => { q with entry := none, await := q.entry, wants := r })).setQState k 3

/-- Another queue of the engine waits for one of these resources and comes first: a higher PRIO, or among equal PRIO the earlier in rotation after the one last
served (R254). -/
def State.beaten (s : State) (k : Nat) (r : List Nat) : Bool :=
  let g := k / 4
  let last := tabGet natZero s.rot g
  let turn (q : Nat) : Nat := (q + 3 - last) % 4
  let prio (q : Nat) : Nat := s.fld (qreg R.ENG_QCFG (4 * g + q)) F.ENG_QCFG.PRIO
  [0, 1, 2, 3].any (fun q =>
    q != k % 4 && (s.queue (4 * g + q)).wants.any r.contains &&
      (decide (prio (k % 4) < prio q) || (prio q == prio (k % 4) && decide (turn q < turn (k % 4)))))

/-- Take resources for the entry at the head of queue k, where free says each is free; else the entry waits. -/
def State.qTake (s : State) (k : Nat) (r : List Nat) (free : Bool) (f : State → State) : State :=
  if free && !s.beaten k r then f ((s.onQueue k (fun q => { q with wants := [] })).withRot (tabPut natZero (k / 4) (k % 4) s.rot))
  else s.qWants k r

/-- Words 3–15 an opcode does not use are zero, and so is word 0's reserved field (R258). -/
def entryReserved (w : List W32) (used : List Nat) : Bool :=
  fget (wd w 0) ⟨11, 5⟩ == 0 && (List.range 13).all (fun j => used.contains (j + 3) || wd w (j + 3) == 0)

/-- DONE_HANDLE, checked when the entry starts (R258, R265). -/
def State.doneOk (s : State) (w : List W32) : Bool :=
  if (wd w 0).getLsbD 8 then
    match s.handle (wd w 1) true with
    | .counter _ | .remote => true
    | _ => false
  else true

/-- The queue is about to start an entry: its list is open and its entry before has completed. -/
def State.entryDue (s : State) (k : Nat) : Bool :=
  (s.qState k == 2 || s.qState k == 3) && (s.queue k).list.isSome && (s.queue k).entry.isNone && s.engUsable (k / 4) && !s.xferFailed k

/-- The words of the entry at the head of queue k: those it waits for resources with, else as an early read fetches them (R253, R254). -/
def State.entWords (s : State) (k : Nat) (a : Word) (cls : Nat) : State × Option (List W32 ⊕ (Nat × Nat)) :=
  match (s.queue k).await with
  | some w => (s, some (.inl w))
  | none =>
    let p := s.qFetch k a 64 cls
    (p.1, match p.2 with
      | none => none
      | some (.inr e) => some (.inr e)
      | some (.inl b) => some (.inl (leWords b)))

/-- The entry at the head of queue k runs: its words, and ENG_QCUR. -/
def State.entBegin (s : State) (k : Nat) (w : List W32) (a : Word) : State :=
  ((s.onQueue k (fun q => { q with entry := some w, await := none, fin := none, copied := 0 })).setQState k 2).qCur k a

/-- Start the entry at the head of queue k, if it satisfies sel: fetch it, check it, and begin its operation (R253, R254, R258). ok checks the opcode's own
fields; body begins the operation. -/
def State.entStart (s : State) (k : Nat) (sel : List W32 → Bool) (used : List Nat) (ok : List W32 → Bool) (body : State → List W32 → State) : State :=
  match s.entryDue k, (s.queue k).list with
  | true, some h =>
    let a := h.addr + BitVec.ofNat 64 (64 + 64 * (s.queue k).idx)
    let p := s.entWords k a h.cls
    match p.2 with
    | none => p.1
    | some (.inr (st, r)) => p.1.qStop k st r a 0 0 a (2, a)
    | some (.inl w) =>
      if sel w then
        let t := p.1.entBegin k w a
        if !entryReserved w used || !ok w then t.qFin k 1 0 0
        else if !t.doneOk w then t.qFin k 3 0 0
        else body t w
      else s
  | _, _ => s

/-- Requests of a queue's entry, or (x) of its PIPE's running transfer, whose via is 1, that are on their way, or its writes that have not been acknowledged or refused. -/
def State.writesOut (s : State) (k : Nat) (x : Bool) : Bool :=
  s.net.any (fun n => n.req.ini == queueIni k && (n.req.via == 1) == x) ||
    s.resp.any (fun r => r.req.ini == queueIni k && r.req.kind == Kind.write && (r.req.via == 1) == x)

def State.qOut (s : State) (k : Nat) : Bool := s.writesOut k false

/-- Units that queue k's entry writes through and is being served by: SO, or SOUT. -/
def State.outUnits (s : State) (k : Nat) : List Nat :=
  ((List.range 16).map (16 * (k / 4) + ·)).filter (fun u => (s.stream u).port == some (k, 3) || (s.stream u).port == some (k, 5))

/-- A region whose call queue k's entry made has writes in flight (R371). -/
def State.rgnOut (s : State) (k : Nat) : Bool :=
  match (s.queue k).entry with
  | some w =>
    let i (x : Ini) : Bool := match x with
      | .region d r _ => d.val == k / 32 && r.val == (wd w 3).toNat % 8
      | _ => false
    opIs 0x41 w && (s.net.any (fun n => i n.req.ini && n.req.kind == Kind.write) || s.resp.any (fun r => i r.req.ini && r.req.kind == Kind.write))
  | none => false

/-- What a CKPT entry's end means to its tracker (R352). -/
def State.ckptEnd (s : State) (w : List W32) (status : Nat) : State :=
  if opIs 0x11 w then (if status = 0 then s.ckptOk (wd w 10) (wd w 7).toNat else s.ckptFail (wd w 10) status) else s

/-- The entry binds no unit any longer; what waited to be served now is (R313, R324). -/
def State.release (s : State) (k : Nat) : State :=
  (s.unbind k).each (fun t n => (t.bindCheck (16 * (k / 4) + n)).strFeed (16 * (k / 4) + n)) (List.range 16)

/-- The entry completes or stops its queue (R257, R259, R260, R278, R315): once every write it made is acknowledged or refused. -/
def State.entryComplete (s0 : State) (k : Nat) : State :=
  let us := s0.outUnits k
  if us.any (fun u => !(s0.stream u).buf.isEmpty) then s0
  else
    let s := us.foldl State.strFlush s0
    let q := s.queue k
    match q.entry, q.fin, q.list with
    | some w, some e, some h =>
      if s.qOut k || us.any s.streamOut || s.rgnOut k then s
      else
        let t := ((s.ckptEnd w e.status).setMat k none).release k
        if e.status = 0 ∨ (wd w 0).getLsbD 9 then
          let s1 := if e.status = 0 then t else t.advSat (qreg R.ENG_QSTAT k) F.ENG_QSTAT.SOFTERR 1
          let s2 := if (wd w 0).getLsbD 8 && e.status != 3 then (s1.countSig (queueIni k) h.cls (wd w 1)).signalOrEvent (queueIni k) h.cls (wd w 1) (wd w 2) else s1
          let s3 := s2.onQueue k (fun x => { x with entry := none, fin := none, wait := none, idx := x.idx + 1 })
          if e.status = 0 ∧ opIs 5 w then s3.listEnd k h (some (wdAddr w 3)) else s3.listStep k
        else
          let a := h.addr + BitVec.ofNat 64 (64 + 64 * q.idx)
          t.qStop k e.status e.reason (if e.status = 5 ∨ e.status = 6 then e.addr else a) ((wd w 0).toNat % 256) (fget (wd w 0) ⟨16, 16⟩) a (2, a)
    | _, _, _ => s

/-! ### Resources (R248) -/

/-- Copy channels of engine g held: by COPY and CKPT entries, and channel 1 by a PIPE (R248, R338). -/
def State.chanUsed (s : State) (g : Nat) : Nat :=
  ([0, 1, 2, 3].filter (fun q => match (s.queue (4 * g + q)).op with
    | some 0x10 | some 0x11 => true
    | _ => false)).length + (s.pipe g).isSome.toNat

/-- Quarters of engine g that MATMUL, CONV and DECODE entries of queues other than k hold, by QMASK. -/
def State.quartersUsed (s : State) (g k : Nat) : Nat :=
  [0, 1, 2, 3].foldl (fun m q => if 4 * g + q = k then m else m ||| (s.queue (4 * g + q)).quarters) 0

/-- An entry of another queue than k holds the fabric call port of engine g. -/
def State.fabPortUsed (s : State) (g k : Nat) : Bool :=
  [0, 1, 2, 3].any (fun q => 4 * g + q != k && (match (s.queue (4 * g + q)).op with
    | some 0x40 | some 0x41 => true
    | _ => false))

/-! ### Copies (R219, R259) -/

/-- Bytes of the next request of a copy: within 256-byte blocks of both sides. -/
def copyStep (src dst left : Nat) : Nat := Nat.min left (Nat.min (256 - src % 256) (256 - dst % 256))

/-- Read bytes for a copy of a queue's entry, or (via 1) of its PIPE. -/
def State.qRead (s : State) (k via : Nat) (a : Word) (n cls : Nat) : State × Option (List Byte ⊕ (Nat × Nat)) :=
  s.qAnswer { ini := queueIni k, kind := .read, addr := a, len := n, posted := false, early := false, cls := cls, via := via }

/-- Write bytes for a queue: always posted for a CKPT and for a PIPE's transfer (R344, R350), else to a prefetchable target (R624); toward the outside the request goes on its
way. None, or a reason. -/
def State.qWrite (s : State) (k via : Nat) (a : Word) (bs : List Byte) (cls : Nat) (always : Bool) : State × Option Nat :=
  let q0 : Req := { ini := queueIni k, kind := .write, addr := a, len := bs.length, posted := false, early := false, cls := cls, via := via }
  let q := { q0 with posted := always || s.postedTo q0 }
  let p := s.busWrite q bs
  match p.2 with
  | .ok _ => (p.1, none)
  | .bad e => (p.1, some e)
  | .other => (p.1.withNet (p.1.net ++ [p.1.inFlight (s.carried q) bs none 0]), none)

/-- A copy in ascending order, in requests that cross no 256-byte boundary: how many bytes are left, and how it ends, and where it failed; it has not ended while it waits
for an answer from outward. -/
def State.copyRun (s : State) (k via cls : Nat) (src dst left : Nat) (always : Bool) : Nat → State × Nat × Option EntryEnd
  | 0 => (s, left, some ⟨0, 0, 0⟩)
  | fuel + 1 =>
    if left = 0 then (s, 0, some ⟨0, 0, 0⟩)
    else
      let n := copyStep src dst left
      let p := s.qRead k via (BitVec.ofNat 64 src) n cls
      match p.2 with
      | none => (p.1, left, none)
      | some (.inr (st, r)) => (p.1, left, some ⟨st, r, BitVec.ofNat 64 src⟩)
      | some (.inl b) =>
        let w := p.1.qWrite k via (BitVec.ofNat 64 dst) b cls always
        match w.2 with
        | some r => (w.1, left, some ⟨5, r, BitVec.ofNat 64 dst⟩)
        | none => w.1.copyRun k via cls (src + n) (dst + n) (left - n) always fuel

/-- A copying entry of LEN n, of which so many bytes are left, has ended its operation so, or waits (R259). -/
def State.copyEnd (s : State) (k n left : Nat) (e : Option EntryEnd) : State :=
  match e with
  | some e => s.qFin k e.status e.reason e.addr
  | none => s.onQueue k (fun q => { q with copied := n - left })

/-- COPY and CKPT's LEN: a multiple of 4, from 4 to 2^31 (R261). -/
def copyLenOk (v : W32) : Bool := v.toNat % 4 == 0 && decide (4 ≤ v.toNat) && decide (v.toNat ≤ 2 ^ 31)

/-! ### Holds of a queue (R269–R273) -/

/-- The key of a hold reference, or that it is malformed or not live (R265, R269). -/
def State.holdRef (s : State) (v : W32) : Option Nat :=
  let c := fget v ⟨12, 4⟩
  if fget v ⟨8, 4⟩ = 0 ∧ handleDie c ∧ s.dieCodeLive c then some (256 * c + fget v ⟨0, 8⟩) else none

/-- The physical address of a hold's register. -/
def holdAddr (key off : Nat) : Word := BitVec.ofNat 64 (holdBase (key / 256) + off + 4 * (key % 256))

/-- A queue's hold access at its entry (R249): none, or the reason it is refused. -/
def State.holdEntry (s : State) (k : Nat) (kind : Kind) (a : Word) : State × Option Nat :=
  let q : Req := { ini := queueIni k, kind := kind, addr := a, len := 4, posted := false, early := false, cls := s.qCls k }
  let p := s.enter q
  (p.1, if p.2.1 = 0 then none else some p.2.1)

/-- ACQ (R271, R273): acquired, owned already, or waiting in arrival order. -/
def State.acq (s : State) (k : Nat) (w : List W32) : State :=
  match s.holdRef (wd w 3) with
  | none => s.qFin k 3 0 0
  | some key =>
    let p := s.holdEntry k .read (holdAddr key 0x400)
    match p.2 with
    | some r => p.1.qFin k 5 r (holdAddr key 0x400)
    | none =>
      let t := p.1
      let h := t.hold key
      let me := ownerId (queueIni k)
      let dl := ((wd w 6) ++ (wd w 5)).setWidth 64
      if !h.held then t.grantHold key k h.waiters h.revoked
      else if h.owner = me then t.qOk k
      else if dl ≠ 0 ∧ dl.toNat ≤ (t.copy (1 + queueDie k)).toNat then t.qFin k 4 0 0
      else (t.setHold key { h with waiters := h.waiters ++ [k] }).qWait k (.hold (wd w 3) (if dl = 0 then none else some dl))

/-- REL (R270, R271). -/
def State.rel (s : State) (k : Nat) (w : List W32) : State :=
  match s.holdRef (wd w 3) with
  | none => s.qFin k 3 0 0
  | some key =>
    let p := s.holdEntry k .write (holdAddr key 0x800)
    match p.2 with
    | some r => p.1.qFin k 5 r (holdAddr key 0x800)
    | none =>
      let h := p.1.hold key
      if h.held && h.owner == ownerId (queueIni k) then (p.1.freeHold key false).qOk k else p.1.qFin k 0x10 0 0

/-! ### Who may issue, and the label (R232, R371, R374) -/

/-- The die an initiator is on is powered and out of reset; a fabric region may issue requests (R374). -/
def State.iniUp (s : State) (i : Ini) : Bool :=
  match i with
  | .core c _ => s.domainUp c
  | .soleUnit _ => !s.sup.soleHeld
  | .engine d _ _ | .package _ d => s.diePowered d
  | .region d r p => s.diePowered d && s.rgnIssues (8 * d.val + r.val) p.toNat
  | .debug => true

/-- The label of a fabric region's requests: the list label of the call that runs in it, else DEFAULT (R371, R374). -/
def State.rgnLabel (s : State) (i : Ini) : Nat :=
  match i with
  | .region d r _ => (match (s.rgn (8 * d.val + r.val)).call with
    | some k => s.qCls k
    | none => s.iniLabel i)
  | _ => s.iniLabel i

/-- The label of an initiator's requests (R232): an engine's and another package's come with them. -/
def State.reqLabel (s : State) (i : Ini) (cls : Nat) : Nat :=
  match i with
  | .engine _ _ _ | .package _ _ => cls
  | _ => s.rgnLabel i

end Sys2Proof.Machine
end

