-- ==== Sys2Proof/Machine/CubeOps.lean ====
section
/-! DEFINITION. Machine/CubeOps.lean: how a matrix entry starts, takes its operands, steps and emits, and how a decode batch is gathered (11_cubes.md
R286–R301, R309–R311). -/
namespace Sys2Proof.Machine

/-! ### Start (R262, R263, R286) -/

/-- A quarter of QMASK is retired, and not under test. -/
def State.quarterGone (s : State) (g : Nat) (w : List W32) : Bool :=
  (List.range 4).any (fun q => (matQmask w).testBit q && s.isRetired (unitCode 4 (4 * g + q)) && !s.testing (unitCode 4 (4 * g + q)))

/-- An entry binds its units and its array is ready (R313). -/
def State.matBegin (s : State) (k : Nat) (w : List W32) (m0 : Mat) : State :=
  let m := { m0 with since := s.copy (1 + queueDie k) }
  let s1 := (matPorts w).foldl (fun t p => t.onStream (16 * (k / 4) + matUnit w p) (fun x => { x with bound := x.bound ++ [(k, p)] })) (s.setMat k (some m))
  (matPorts w).foldl (fun t p => t.bindCheck (16 * (k / 4) + matUnit w p)) s1

/-- The checks made before any access, then the resources, then the binding. rows is M where the entry gives it, and the most it can be for a DECODE, whose
ring it takes as well. -/
def State.matStart (s : State) (k : Nat) (w : List W32) (fits : Bool) (m : Mat) (decode : Bool) : State :=
  let g := k / 4
  if !fmtOk w then s.qFin k 2 0 0
  else if !shiftOk w || !fits then s.qFin k 1 0 0
  else if s.quarterGone g w then s.qFin k 0xA 0 0
  else
    let wants := (bitsOf (matQmask w) 4).map (· + 2) ++ (if decode then [6] else [])
    let ring := decode && [0, 1, 2, 3].any (fun q => 4 * g + q != k && (s.queue (4 * g + q)).op == some 0x32)
    s.qTake k wants (s.quartersUsed g k &&& matQmask w == 0 && !ring) (fun t => t.matBegin k w m)

/-! ### Operands (R289–R292) -/

/-- Fill a latch from a unit, as far as its bytes and its binding allow. -/
def State.latch (s : State) (k p : Nat) (w : List W32) (have_ : List Byte) (need : Nat) : State × List Byte :=
  let u := 16 * (k / 4) + matUnit w p
  if (s.stream u).port = some (k, p) then
    let r := s.strTake u (need - have_.length)
    (r.1, have_ ++ r.2)
  else (s, have_)

/-- The geometry of a running entry. -/
def matGeom (w : List W32) (m : Mat) : Shape := matShape w (m.batch.getD 0)

/-- Tiles along k that the A latch holds for the step. -/
def matKta (w : List W32) (x : Shape) (m : Mat) : Nat := if matFlow w = 2 then x.kv m.s else x.kt

/-- Bytes of the latches that the next step needs: A, B and the initial accumulators. -/
def matNeed (w : List W32) (x : Shape) (m : Mat) : Nat × Nat × Nat :=
  (if matFlow w = 2 then 0 else 64 * x.mt * x.kt, if matFlow w = 0 then 0 else 64 * x.nt * x.kt,
   if matAccum w && !m.accIn then 256 * x.mt * x.nt else 0)

/-- Take the operands of the next step (R291). -/
def State.matPull (s : State) (k : Nat) (w : List W32) (x : Shape) (m : Mat) : State × Mat :=
  let n := matNeed w x m
  let a := if n.1 = 0 then (s, m.la) else s.latch k 0 w m.la n.1
  let b := if n.2.1 = 0 then (a.1, m.lb) else a.1.latch k 1 w m.lb n.2.1
  let c := if n.2.2 = 0 then (b.1, m.lc) else b.1.latch k 2 w m.lc n.2.2
  (c.1, { m with la := a.2, lb := b.2, lc := c.2 })

/-- The step's operands are there, and so is room for the block that it may complete. -/
def matReady (w : List W32) (x : Shape) (m : Mat) : Bool :=
  let n := matNeed w x m
  m.la.length == n.1 && m.lb.length == n.2.1 && m.lc.length == n.2.2 && (matFlow w == 1 || m.stat.isSome) &&
    (m.s + 1 != x.bs || m.emit.isEmpty)

/-- Stationary blocks begun and done before the present one. -/
def matBlock (w : List W32) (x : Shape) (m : Mat) : Nat := if matFlow w = 0 then m.grp * x.bj + m.j else m.grp * x.bi + m.i

/-- One step time of stationary loading: 8 tile units a quarter (R293, R294). next is the block to load, by the loops as they stood before the step time; a block of
more than half the store loads only while none is in use. -/
def State.matLoad (s : State) (k : Nat) (w : List W32) (x : Shape) (m : Mat) (next : Nat) (inUse : Bool) : State × Mat :=
  let u := x.u (matFlow w)
  if m.finished || u = 0 || decide (x.blocks (matFlow w) ≤ next) || (inUse && decide (512 * matQ w < u)) then (s, m)
  else
    let n := Nat.min (64 * u) (m.load.length + 512 * matQ w)
    let p := s.latch k (if matFlow w = 0 then 1 else 0) w m.load n
    (p.1, { m with load := p.2 })

/-- A block loaded whole comes into use when the one before is done with. -/
def matSwap (w : List W32) (x : Shape) (m : Mat) : Mat :=
  if m.stat.isNone && matFlow w != 1 && m.load.length == 64 * x.u (matFlow w) && !m.finished then { m with stat := some m.load, load := [] } else m

/-! ### Steps (R286, R288, R292) -/

/-- After a block: the next one in the dataflow's order, and whether the stationary block is done with. -/
def matNext (w : List W32) (x : Shape) (m : Mat) : Mat :=
  let inner := if matFlow w = 0 then m.i + 1 < x.bi else m.j + 1 < x.bj
  let outer := if matFlow w = 0 then m.j + 1 < x.bj else m.i + 1 < x.bi
  if inner then (if matFlow w = 0 then { m with i := m.i + 1 } else { m with j := m.j + 1 })
  else if outer then (if matFlow w = 0 then { m with i := 0, j := m.j + 1, stat := none } else { m with j := 0, i := m.i + 1, stat := none })
  else if m.grp + 1 < x.groups then { m with grp := m.grp + 1, i := 0, j := 0, stat := none }
  else { m with finished := true, stat := none }

/-- Set bits of CUBE_STAT. -/
def State.cubeFlags (s : State) (g v : Nat) : State :=
  let a := R.CUBE_STAT (g / 8) (g % 8)
  s.wr a (s.rd a ||| BitVec.ofNat 32 v)

/-- One compute step, and the block it may complete. -/
def State.matStep (s : State) (k : Nat) (w : List W32) (x : Shape) (m : Mat) : State × Mat :=
  let g := k / 4
  let acc0 := if matAccum w && !m.accIn then accOf x m.lc else if m.acc.isEmpty then List.replicate (x.mb * x.nb) 0 else m.acc
  let la := if matFlow w = 2 then statA x m.s (m.stat.getD []) else m.la
  let lb := if matFlow w = 0 then statB x m.s (m.stat.getD []) else m.lb
  let r := stepAcc w x m.i m.j m.s (matKta w x m) la lb acc0
  let s1 := s.withEng { s.eng with steps := tabPut wordZero g (tabGet wordZero s.eng.steps g + BitVec.ofNat 64 (matQ w)) s.eng.steps }
  let s2 := if r.2 then s1.cubeFlags g 1 else s1
  let m1 := { m with acc := r.1, accIn := true, la := [], lb := [], lc := [] }
  if m.s + 1 < x.bs then (s2, { m1 with s := m.s + 1 })
  else
    let e := emitBlock w x m.i m.j r.1
    (s2.cubeFlags g (2 * e.2), matNext w x { m1 with s := 0, acc := [], accIn := false, emit := e.1 })

/-- One step time of queue k's logical array: it takes operands, steps if it can, loads its store, and hands results to SO. -/
def State.cubeStep (s : State) (k : Nat) : State :=
  match s.mat k, (s.queue k).entry with
  | some m0, some w =>
    if (s.queue k).fin.isSome || m0.finished || (opIs 0x32 w && m0.batch.isNone) || !s.engUsable (k / 4) then s
    else
      let x := matGeom w m0
      let p := s.matPull k w x m0
      let q := if matReady w x p.2 then p.1.matStep k w x p.2 else p
      let r := q.1.matLoad k w x q.2 (matBlock w x p.2 + p.2.stat.isSome.toNat) p.2.stat.isSome
      (r.1.setMat k (some (matSwap w x r.2))).soPump k
  | _, _ => s

/-! ### The decode batcher (R298–R301) -/

def decodeFill (w : List W32) : Nat := fget (wd w 4) ⟨0, 7⟩
def decodeWait (w : List W32) : Nat := fget (wd w 4) ⟨16, 16⟩

/-- The first tick at which R300 closes a batch that is gathered from a tick on: the FILL-th request has arrived, or MAXWAIT has passed since the first. -/
def closeTick (l : List Word) (since fill wait : Nat) : Option Nat :=
  match l with
  | [] => none
  | t :: _ =>
    let late := t.toNat + 100 * wait
    some (Nat.max since (match l[fill - 1]? with
      | some u => Nat.min u.toNat late
      | none => late))

/-- How many requests the batch holds: those that had arrived at the tick at which it closes; none before that tick. -/
def State.batchNow (s : State) (g : Nat) (w : List W32) (since : Word) : Option Nat :=
  match closeTick (s.stamps g) since.toNat (decodeFill w) (decodeWait w) with
  | none => none
  | some t =>
    if (s.copy (1 + g / 8)).toNat < t then none
    else some (Nat.min ((s.stamps g).filter (fun x => decide (x.toNat ≤ t))).length (decodeFill w))

/-- Address of the descriptor of ring index i. -/
def State.dqAddr (s : State) (g i : Nat) : Word :=
  (((s.rd (R.CUBE_DQ_BASE_HI (g / 8) (g % 8))).setWidth 16 ++ s.rd (R.CUBE_DQ_BASE_LO (g / 8) (g % 8))).setWidth 64) + BitVec.ofNat 64 (64 * (i % s.dqCap g))

/-- Read the descriptors of a batch, in ring order; or the address and the status of the first that cannot be read. -/
def State.readReqs (s : State) (k : Nat) : List Nat → State × Option (List DqReq ⊕ (Word × Nat × Nat))
  | [] => (s, some (.inl []))
  | i :: is =>
    let a := s.dqAddr (k / 4) i
    let p := s.qFetch k a 64 (s.qCls k)
    match p.2 with
    | none => (p.1, none)
    | some (.inr (st, r)) => (p.1, some (.inr (a, st, r)))
    | some (.inl b) =>
      let w := leWords b
      let rest := p.1.readReqs k is
      (rest.1, match rest.2 with
        | some (.inl l) => some (.inl (⟨wdAddr w 0, wdAddr w 2, wd w 4, wd w 5⟩ :: l))
        | x => x)

/-- The batch of queue k's DECODE closes (R300, R301), once the descriptors that lie outward have come. -/
def State.batchClose (s : State) (k : Nat) : State :=
  let g := k / 4
  match s.mat k, (s.queue k).entry with
  | some m, some w =>
    if !opIs 0x32 w || m.batch.isSome || (s.queue k).fin.isSome then s
    else match s.batchNow g w m.since with
      | none => s
      | some n =>
        if !storeFits w n then s.qFin k 1 0 0
        else
          let is := (List.range n).map (fun i => (s.dqHead g + i) % 65536)
          let z := s.askAll (is.map (fun i =>
            { ini := queueIni k, kind := .read, addr := s.dqAddr g i, len := 64, posted := false, early := true, cls := s.qCls k }))
          if !z.2 then z.1
          else
          let p := z.1.readReqs k is
          match p.2 with
          | none => p.1
          | some (.inr (a, st, r)) => p.1.qFin k st r a
          | some (.inl l) => p.1.setMat k (some { m with batch := some n, reqs := l })
  | _, _ => s

/-- A served request's signal (R301). -/
def State.dqSignal (s : State) (k : Nat) (r : DqReq) : State :=
  match s.handle r.handle false with
  | .counter a => (s.countSig (queueIni k) (s.qCls k) r.handle).addCounter a r.add
  | _ => (s.advSat (R.CUBE_DQ_STAT (queueDie k) (queueEng k)) F.CUBE_DQ_STAT.BADH 1).event 0x26 0 0 0 [r.handle]

/-- SO has accepted the last result of the batch, and every write is acknowledged: signals, HEAD, then the entry's end (R301). -/
def State.batchDone (s0 : State) (k : Nat) : State :=
  match s0.mat k, (s0.queue k).entry with
  | some m, some w =>
    let u := 16 * (k / 4) + matUnit w 3
    if !opIs 0x32 w || !m.finished || !m.emit.isEmpty || (s0.queue k).fin.isSome || !(s0.stream u).buf.isEmpty then s0
    else
      let s := s0.strFlush u
      if s.streamOut u || (s.stream u).error then s
      else
        let g := k / 4
        let s1 := m.reqs.foldl (fun t r => t.dqSignal k r) s
        let s2 := s1.advWrap (R.CUBE_DQ_PTR (g / 8) (g % 8)) F.CUBE_DQ_PTR.HEAD m.reqs.length
        let s3 := (s2.setStamps g ((s2.stamps g).drop m.reqs.length)).setFld (R.CUBE_DQ_STAT (g / 8) (g % 8)) F.CUBE_DQ_STAT.LAST_COUNT m.reqs.length
        s3.endEntry k 0
  | _, _ => s0

/-! ### Cube faults (R309–R311) -/

/-- The spare of a quarter takes a failed cube's position (R310): logged SPARED, recorded in the summary. -/
def State.spareIn (s : State) (x pos retries : Nat) : State :=
  let u := unitCode 4 x
  let r := { s.mkRetired 2 u pos retries 0 0 with cls := 2 }
  let s1 := s.withEng { s.eng with spares := tabPut natZero x (pos + 1) s.eng.spares }
  ((s1.queueSummary ⟨u, none, true, some pos, 0, some (s1.recSeq r)⟩).logRec r).permEvent u

/-- A cube of quarter x flags a step: n retries fail before one that succeeds. The Bool says that the step goes on. -/
def State.cubeFault (s : State) (x pos n : Nat) : State × Bool :=
  let g := x / 4
  let c := s.retryCount 2
  let s1 := s.advSat (R.CUBE_RETRY (g / 8) (g % 8)) ⟨8 * (x % 4), 8⟩ (if n < c then n + 1 else c)
  if n < c then (s1.faultOrRetry 2 (unitCode 4 x) pos n 0, true)
  else if tabGet natZero s1.eng.spares x = 0 && decide (pos < 16) && !s1.testing (unitCode 4 x) then (s1.spareIn x pos c, true)
  else (s1.permanent 2 (unitCode 4 x) pos c 0, false)

end Sys2Proof.Machine
end

