-- ==== Sys2Proof/Machine/Cubes.lean ====
section
/-! DEFINITION. Machine/Cubes.lean: the commands of the cube arrays and of the decode batcher (11_cubes.md). g is a global engine 0–31, q one of its queues. -/
namespace Sys2Proof.Machine

/-- MATMUL (R262, R286–R294). -/
def execEntMatmul (g : Fin 32) (q : Fin 4) (s : State) : Host.Outcome State Fault Refusal :=
  let k := 4 * g.val + q.val
  done (s.entStart k (opIs 0x30) [3, 4, 5, 6]
    (fun w => matFieldsOk w && fget (wd w 3) ⟨0, 16⟩ != 0 && fget (wd w 3) ⟨16, 16⟩ != 0 && fget (wd w 4) ⟨0, 24⟩ != 0 && wd w 4 >>> 24 == 0)
    (fun t w => t.matStart k w (storeFits w 0) Mat.init false))

/-- CONV (R295–R297). -/
def execEntConv (g : Fin 32) (q : Fin 4) (s : State) : Host.Outcome State Fault Refusal :=
  let k := 4 * g.val + q.val
  done (s.entStart k (opIs 0x31) [3, 4, 5, 6, 7, 8, 9] (fun w => matFieldsOk w && convOk w)
    (fun t w => t.matStart k w (storeFits w 0) Mat.init false))

/-- DECODE (R298, R300): it takes the decode ring and gathers. -/
def execEntDecode (g : Fin 32) (q : Fin 4) (s : State) : Host.Outcome State Fault Refusal :=
  let k := 4 * g.val + q.val
  done (s.entStart k (opIs 0x32) [3, 4, 5, 6]
    (fun w => matFieldsOk w && wd w 3 &&& 0xFFFF != 0 && wd w 3 >>> 16 != 0 && fget (wd w 4) ⟨7, 9⟩ == 0 && decide (1 ≤ decodeFill w) &&
      decide (decodeFill w ≤ 64) && !matAccum w)
    (fun t w => t.matStart k w (t.dqCap g.val != 0) Mat.init true))

/-- CUBE_STEP (R284, R288, R291–R294): one step time of the logical array of queue q's entry. -/
def execCubeStep (g : Fin 32) (q : Fin 4) (s : State) : Host.Outcome State Fault Refusal := done (s.cubeStep (4 * g.val + q.val))

/-- The step checker finds an error (R441): a residue modulo 255, the exponents' parity, or the rounding stage's results differ. -/
def stepCaught : StepErr → Bool
  | .sum e => e % 255 != 0
  | .product e => e % 255 != 0
  | .exponent f => onesIn 16 f.toNat % 2 == 1
  | .rounding a b => a != b

/-- CUBE_STEP_ERROR (R309–R311, R441): an error of cube position pos of quarter x in a step, which its checker may find; n retries fail before one that succeeds. -/
def execCubeStepError (g : Fin 32) (x : Fin 4) (pos : Fin 17) (e : StepErr) (n : Nat) (s : State) : Host.Outcome State Fault Refusal :=
  if !stepCaught e then done s else
  match [0, 1, 2, 3].find? (fun q => (s.queue (4 * g.val + q)).quarters.testBit x.val && (s.mat (4 * g.val + q)).isSome) with
  | none => done s
  | some q =>
    let p := s.cubeFault (4 * g.val + x.val) pos.val n
    done (if p.2 then p.1.cubeStep (4 * g.val + q) else p.1)

/-- DQ_DOORBELL (R298): a write of TAIL to CUBE_DQ_TAIL. -/
def execDqDoorbell (i : Ini) (g : Fin 32) (tail : BitVec 16) (s : State) : Host.Outcome State Fault Refusal :=
  done (s.regWrite i (R.CUBE_DQ_TAIL (g.val / 8) (g.val % 8)) (tail.setWidth 32))

/-- DECODE_BATCH_CLOSE (R300, R301). -/
def execDecodeBatchClose (g : Fin 32) (q : Fin 4) (s : State) : Host.Outcome State Fault Refusal := done (s.batchClose (4 * g.val + q.val))

/-- DECODE_BATCH_DONE (R301). -/
def execDecodeBatchDone (g : Fin 32) (q : Fin 4) (s : State) : Host.Outcome State Fault Refusal := done (s.batchDone (4 * g.val + q.val))

/-- CUBE_STEPS_READ (CUBE_STEPS_LO): a read latches HI. -/
def execCubeStepsRead (i : Ini) (g : Fin 32) (s : State) : Host.Outcome State Fault Refusal :=
  done (s.regReadCmd i (R.CUBE_STEPS_LO (g.val / 8) (g.val % 8)))

end Sys2Proof.Machine
end

