-- ==== Sys2Proof/Machine/Debug.lean ====
section
/-! DEFINITION. Machine/Debug.lean: the commands of the debug port, the debug wake and the trace unit (23_debug.md). -/
namespace Sys2Proof.Machine

/-- The TAP is powered and not in Test-Logic-Reset: it can take an instruction. -/
def State.tapUp (s : State) : Bool := !s.sup.heelHeld && !s.tapReset

/-- The TAP loads an instruction (R579). -/
def State.tapInstr (s : State) (ir : Byte) : State := if s.tapUp then s.withDbg { s.io.dbg with ir := ir } else s

/-- IDCODE of each variant (R580). -/
def idcode : Variant → W32
  | .nx848 => 0x10848000 ||| 0x58F
  | .nx524 => 0x10524000 ||| 0x58F
  | .nx312 => 0x10312000 ||| 0x58F
  | .nx200 => 0x10200000 ||| 0x58F

/-- The TAP leaves Test-Logic-Reset, no Winter entry being past its commit; an attach where ATTACHED is clear (R588). -/
def State.tapLeave (s : State) : State :=
  if s.sup.heelHeld || !s.tapReset || s.sup.winter == .committed || s.sup.winter == .saved then s
  else
    let t := (s.putBit R.DBG_STAT 2 false).withDbg { s.io.dbg with tlrAt := none }
    if t.bit R.DBG_STAT 0 then t
    else (((t.putBit R.DBG_STAT 0 true).attachCount).dbgRecord 1 t.tb.rtc).withDbg { t.io.dbg with live := true }

/-- DBG_ATTACH (R588). -/
def execDbgAttach (s : State) : Host.Outcome State Fault Refusal := done s.tapLeave

/-- The TAP has stayed in Test-Logic-Reset for 10 ms after an attach (R589). -/
def State.detachDue (s : State) : Bool :=
  match s.io.dbg.tlrAt with
  | some t => !s.sup.heelHeld && s.io.dbg.live && decide (t.toNat + 1000000 ≤ s.heelDtb.toNat)
  | none => false

/-- DBG_DETACH (R589). -/
def execDbgDetach (s : State) : Host.Outcome State Fault Refusal :=
  done (if s.detachDue then ((s.dbgRecord 2 s.tb.rtc).putBit R.DBG_STAT 1 true).withDbg { s.io.dbg with live := false } else s)

/-- DBG_ATTACHED_CLEAR (R588): a write of DBG_STAT with bit 0. -/
def execDbgAttachedClear (i : Ini) (s : State) : Host.Outcome State Fault Refusal := done (s.regWrite i R.DBG_STAT 1)

/-- TAP_RESET (R578). -/
def execTapReset (s : State) : Host.Outcome State Fault Refusal :=
  done (if s.tapUp then (s.putBit R.DBG_STAT 2 true).withDbg { s.io.dbg with tlrAt := some s.heelDtb, ir := 1 } else s)

/-! ### The debug access register (R582) -/

/-- What Capture-DR loads: STATUS, read data and reason; BUSY while an access is in progress and after a discarded request. -/
def Dbg.capture (x : Dbg) : Word :=
  if x.busy.isSome || x.dropped then 1
  else BitVec.ofNat 64 (x.out.status + 4 * x.out.data.toNat + 2 ^ 34 * x.out.reason)

/-- One DAP scan: the capture, then the request, discarded while the previous one is in progress. -/
def State.dapScan (s : State) (act : State → State) : State :=
  if !s.tapUp || s.io.dbg.ir != 0x10 then s
  else
    let t := (s.withRet s.io.dbg.capture).withDbg { s.io.dbg with dropped := false }
    if t.io.dbg.busy.isSome then t.withDbg { t.io.dbg with dropped := true } else act t

/-- The request of a DAP access, by its via: an aligned 32-bit access, non-posted. -/
def State.dapReq (s : State) (kind : Kind) (addr : BitVec 48) : Req :=
  { ini := .debug, kind := kind, addr := (addr &&& ~~~3).setWidth 64, len := 4, posted := false, early := false, cls := s.iniLabel .debug, via := 1 }

/-- An access begins: what it came to, or that its request goes on its way, and its answer comes later. -/
def State.dapBegin (s : State) (q : Req) (data : List Byte) : State :=
  let p := if q.kind = Kind.write then s.busWrite q data else s.busRead q
  match p.2 with
  | .ok b => p.1.withDbg { p.1.io.dbg with busy := some (some ⟨0, BitVec.ofNat 32 (leNat b), 0⟩) }
  | .bad c => p.1.withDbg { p.1.io.dbg with busy := some (some ⟨2, 0, c⟩) }
  | .other => (p.1.withNet (p.1.net ++ [p.1.inFlight (s.carried q) data none 0])).withDbg { p.1.io.dbg with busy := some none }

/-- DAP_READ (R582). -/
def execDapRead (addr : BitVec 48) (s : State) : Host.Outcome State Fault Refusal := done (s.dapScan (fun t => t.dapBegin (t.dapReq .read addr) []))

/-- DAP_WRITE (R582). -/
def execDapWrite (addr : BitVec 48) (data : W32) (s : State) : Host.Outcome State Fault Refusal :=
  done (s.dapScan (fun t => t.dapBegin (t.dapReq .write addr) (leBytes 4 data.toNat)))

/-- DAP_NOP (R582): the capture alone; a NOP asks for nothing that could be discarded. -/
def execDapNop (s : State) : Host.Outcome State Fault Refusal :=
  done (if s.tapUp && s.io.dbg.ir == 0x10 then (s.withRet s.io.dbg.capture).withDbg { s.io.dbg with dropped := false } else s)

/-- DAP_ACCESS_DONE (R582): the access in progress has been answered. -/
def execDapAccessDone (s : State) : Host.Outcome State Fault Refusal :=
  done (match s.io.dbg.busy with
    | some (some o) => s.withDbg { s.io.dbg with busy := none, out := o }
    | _ => s)

/-! ### Instructions of the TAP (R579–R581) -/

/-- JTAG_EXTEST: the drivable balls follow the boundary cells while it is loaded. -/
def execJtagExtest (s : State) : Host.Outcome State Fault Refusal := done (s.tapInstr 0x00)

/-- JTAG_IDCODE (R580): the identity register is what the command returns. -/
def execJtagIdcode (s : State) : Host.Outcome State Fault Refusal :=
  done (if s.tapUp then (s.tapInstr 0x01).withRet ((idcode s.variant).setWidth 64) else s)

/-- JTAG_SAMPLE_PRELOAD: cells is what the scan leaves in the boundary register's update latches. -/
def execJtagSamplePreload (cells : List Bool) (s : State) : Host.Outcome State Fault Refusal :=
  done (if s.tapUp then (s.tapInstr 0x02).withDbg { s.io.dbg with ir := 0x02, cells := cells } else s)

/-- JTAG_CLAMP. -/
def execJtagClamp (s : State) : Host.Outcome State Fault Refusal := done (s.tapInstr 0x03)

/-- JTAG_HIGHZ. -/
def execJtagHighz (s : State) : Host.Outcome State Fault Refusal := done (s.tapInstr 0x04)

/-- JTAG_BYPASS: 0xFF, or a code that R579 does not list. -/
def execJtagBypass (code : Byte) (s : State) : Host.Outcome State Fault Refusal :=
  done (if [0x00, 0x01, 0x02, 0x03, 0x04, 0x10, 0x11].contains code then s else s.tapInstr code)

/-- JTAG_DAP. -/
def execJtagDap (s : State) : Host.Outcome State Fault Refusal := done (s.tapInstr 0x10)

/-- DBG_SYSRESET (R70, R579, R589): the record precedes the reset. -/
def execDbgSysreset (s : State) : Host.Outcome State Fault Refusal :=
  done (if s.tapUp then ((s.tapInstr 0x11).dbgRecord 4 s.tb.rtc).systemReset 4 else s)

/-! ### Core control (R584) -/

/-- DBG_HALT: a write of DBG_CCTL.HALT. -/
def execDbgHalt (i : Ini) (s : State) : Host.Outcome State Fault Refusal := done (s.regWrite i R.DBG_CCTL 1)

/-- DBG_RESUME. -/
def execDbgResume (i : Ini) (s : State) : Host.Outcome State Fault Refusal := done (s.regWrite i R.DBG_CCTL 2)

/-- DBG_STEP. -/
def execDbgStep (i : Ini) (s : State) : Host.Outcome State Fault Refusal := done (s.regWrite i R.DBG_CCTL 4)

/-- DBG_CREG_ACCESS. -/
def execDbgCregAccess (i : Ini) (v : W32) (s : State) : Host.Outcome State Fault Refusal := done (s.regWrite i R.DBG_CREG v)

/-! ### Debug wake and trace (R592, R593) -/

/-- DEBUG_WAKE (R593). -/
def execDebugWake (s : State) : Host.Outcome State Fault Refusal := done (if s.sup.aonHeld then s else s.wake 14 0 none)

/-- TRACE_RECORD (R243, R592): the oldest record on its way reaches the trace unit. -/
def execTraceRecord (s : State) : Host.Outcome State Fault Refusal :=
  match s.traceQ with
  | [] => done s
  | r :: q => done (if s.sup.soleHeld then s else (s.withTraceQ q).traceStore r)

end Sys2Proof.Machine
end

