-- ==== Sys2Proof/Machine/Fabric.lean ====
section
/-! DEFINITION. Machine/Fabric.lean: loading, calling, restarting and emptying fabric regions (14_fabric.md). g is a global engine 0–31, q one of its queues, d a
compute die and r one of its regions. The logic of a loaded design is outside: what it returns comes with the command. -/
namespace Sys2Proof.Machine

/-- The unit code of a region. -/
def rgnUnit (x : Nat) : BitVec 16 := unitCode 9 x

/-- The entry ends FABRIC with a cause (R368–R371). -/
def State.fabFin (s : State) (k x cause : Nat) : State := (s.fabCause x cause).qFin k 0xC 0 0

/-! ### The checks of a load (R366–R368) -/

/-- Read n bytes for a queue in requests that cross no 256-byte boundary, once those that go outward have been answered: what could be read, and how the first request that
failed did. -/
def State.qReadAll (s : State) (k cls a n : Nat) : Nat → State × List Byte × Option EntryEnd
  | 0 => (s, [], none)
  | fuel + 1 =>
    if n = 0 then (s, [], none)
    else
      let m := Nat.min n (256 - a % 256)
      let p := s.qRead k 0 (BitVec.ofNat 64 a) m cls
      match p.2 with
      | none => (p.1, [], none)
      | some (.inr (st, r)) => (p.1, [], some ⟨st, r, BitVec.ofNat 64 a⟩)
      | some (.inl b) =>
        let t := p.1.qReadAll k cls (a + m) (n - m) fuel
        (t.1, b ++ t.2.1, t.2.2)

/-- The bytes of a preamble that no field of R366 names, and the reserved bits of USE, TREF and FUNCS, are zero. -/
def preambleZero (b : List Byte) : Bool :=
  bodyNat b 0x12 2 == 0 && bodyNat b 0x0B 1 < 64 && [0x17, 0x1B, 0x1F, 0x23].all (fun o => bodyNat b o 1 == 0) && bodyNat b 0x25 27 == 0 &&
    (List.range 16).all (fun i => bodyNat b (0x41 + 8 * i) 1 < 4 && bodyNat b (0x44 + 8 * i) 4 == 0) && bodyNat b 0xC0 64 == 0

/-- Check 5 (R368). -/
def preambleOk (b : List Byte) (len : Nat) : Bool :=
  let nf := bodyNat b 0x24 1
  b.length == 256 && bodyNat b 0 4 == 0x46414252 && decide (1 ≤ bodyNat b 4 4) && decide (bodyNat b 4 4 ≤ 116504) && 256 + 72 * bodyNat b 4 4 == len &&
    decide (bodyNat b 8 2 ≤ 750) && decide (nf ≤ 16) && ((List.range nf).map (fun i => bodyNat b (0x40 + 8 * i) 1)).eraseDups.length == nf && preambleZero b

/-- A pin that the preamble asks for is owned by another region that is not EMPTY (check 6). -/
def State.pinTaken (s : State) (x pins : Nat) : Bool :=
  (bitsOf pins 32).any (fun i =>
    let o := s.fld (R.FAB_IO_OWN (x / 8) (i / 8)) ⟨4 * (i % 8), 4⟩
    o != 15 && o != x % 8 && s.rgnState (8 * (x / 8) + o % 8) != 0)

/-- The queue waits for a region, in start order. -/
def State.rgnWait (s : State) (k x : Nat) : State :=
  (s.setRgn x { s.rgn x with waiting := (s.rgn x).waiting ++ [k] }).setQState k 3

/-- Checks 3 to 6; a load on a die that a swap names waits at check 3 (R379). -/
def State.fabChecks (s : State) (k : Nat) (w : List W32) : State :=
  let x := fabX k w
  let d := k / 32
  match s.boot.fabs[(wd w 4).toNat % 64]? with
  | none => s.qFin k 1 0 0
  | some f =>
    let swapping := match s.boot.swap with
      | some z => z.dies.contains d
      | none => false
    if swapping then s.setQState k 3
    else if (tabGet (fun _ => none) s.boot.die d).map (·.fi) ≠ some f.img.fi then
      ((((s.advSat R.BOOT_AGREE F.BOOT_AGREE.FAB_REF 1).putBit R.BOOT_AGREE 16 true)).bootEvent 0x105).qFin k 8 0 0
    else if f.img.svn.toNat < s.fld R.BOOT_ROLL ⟨24, 8⟩ then s.fabFin k x 3
    else
      let z := s.askAll (readsOf (queueIni k) (s.qCls k) f.bodyAddr 256)
      if !z.2 then z.1
      else
      let p := z.1.qReadAll k (s.qCls k) f.bodyAddr 256 2
      match p.2.2 with
      | some e => p.1.qFin k e.status e.reason e.addr
      | none =>
        if !preambleOk p.2.1 f.img.len.toNat then p.1.fabFin k x 1
        else if p.1.pinTaken x (bodyNat p.2.1 0x0C 4) then p.1.fabFin k x 2
        else (p.1.onQueue k (fun q => { q with pins := bodyNat p.2.1 0x0C 4 })).rgnWait k x

/-- A load with the fabric call port: check 1, check 2 and the rest. -/
def State.fabLoadStart (s : State) (k : Nat) (w : List W32) : State :=
  if s.rgnState (fabX k w) = 4 then s.qFin k 0xA 0 0 else s.fabChecks k w

/-- ENT_FAB_LOAD (R368, R379); one that waits at check 3 is judged again. -/
def execEntFabLoad (g : Fin 32) (q : Fin 4) (s : State) : Host.Outcome State Fault Refusal :=
  let k := 4 * g.val + q.val
  match (s.queue k).entry with
  | some w =>
    done (if opIs 0x40 w && (s.queue k).fin.isNone && !(s.rgn (fabX k w)).waiting.contains k && (s.rgn (fabX k w)).loading != some k then s.fabLoadStart k w else s)
  | none =>
    done (s.entStart k (opIs 0x40) [3, 4] (fun w => wd w 3 >>> 3 == 0 && wd w 4 >>> 6 == 0)
      (fun t w => t.qTake k [1] (!t.fabPortUsed g.val k) (fun u => u.fabLoadStart k w)))

/-! ### The load (R367–R369, R381) -/

/-- The queue that comes next for a region. -/
def Rgn.head (r : Rgn) : Option Nat := r.waiting.head?

/-- A request is one of a region's. -/
def ofRgn (x : Nat) (q : Req) : Bool :=
  match q.ini with
  | .region d r _ => 8 * d.val + r.val == x
  | _ => false

/-- FAB_LOAD_BEGIN (R368): no call holds the region; it reads LOADING, its ports issue nothing more, its pins rest and its cells are cleared, which no logic acts on any
longer. The pins that the load asks for are its own from now on (notes/assumptions/25.md). -/
def execFabLoadBegin (g : Fin 32) (q : Fin 4) (s : State) : Host.Outcome State Fault Refusal :=
  let k := 4 * g.val + q.val
  done (match (s.queue k).entry with
    | some w =>
      let x := fabX k w
      let r := s.rgn x
      if opIs 0x40 w && r.head == some k && r.call.isNone && r.ending.isNone && r.loading.isNone && (s.rgnState x == 0 || s.rgnState x == 2) then
        match s.boot.fabs[(wd w 4).toNat % 64]? with
        | none => (s.setRgn x { r with waiting := r.waiting.drop 1 }).qFin k 1 0 0
        | some _ =>
          let pins := (s.queue k).pins
          if s.pinTaken x pins then (s.setRgn x { r with waiting := r.waiting.drop 1 }).fabFin k x 2
          else
            let t := s.rgnClear x
            let u := (t.setRgn x { Rgn.init with waiting := r.waiting.drop 1, loading := some k }).setRgnState x 1
            (u.each (fun v i => v.setFld (R.FAB_IO_OWN (x / 8) (i / 8)) ⟨4 * (i % 8), 4⟩ (x % 8)) (bitsOf pins 32)).setQState k 2
      else s
    | none => s)

/-- A frame names a tile and a plane of R367. -/
def frameOk (b : List Byte) : Bool :=
  let t := bodyNat b 0 2
  let p := bodyNat b 2 1
  bodyNat b 3 1 == 0 && p < 16 && bodyNat b 4 4 == 0 &&
    ((decide (t < 750) && decide (p < 6)) || (decide (768 ≤ t) && decide (t < 776) && (p == 0 || p == 3)))

/-- The load ends with the region EMPTY, and FAB_EVT.FAILED. -/
def State.fabLoadFail (s : State) (x : Nat) : State := (s.rgnClear x).putBit (R.FAB_EVT (x / 8)) (8 + x % 8) true

/-- FAB_LOAD_DONE (R367–R369, R381): once the region's requests in flight are complete, the body is read and its frames are written in order; the readback of so many
frames shows a single-bit error, which is corrected; n retries of a frame's write fail its readback before one succeeds, or none does. -/
def execFabLoadDone (d : Fin 4) (r : Fin 8) (single : Nat) (bad : Option Nat) (s0 : State) : Host.Outcome State Fault Refusal :=
  let x := 8 * d.val + r.val
  let s := s0.advSat (R.FAB_CFG_CE d.val r.val) F.FAB_CFG_CE.COUNT single
  done (match (s0.rgn x).loading with
    | none => s0
    | some k =>
      if s0.net.any (fun n => ofRgn x n.req) || s0.resp.any (fun n => ofRgn x n.req) then s0
      else
      match (s.queue k).entry with
      | none => s0
      | some w =>
        match s.boot.fabs[(wd w 4).toNat % 64]? with
        | none => s0
        | some f =>
          let z := s.askAll (readsOf (queueIni k) (s.qCls k) f.bodyAddr f.img.len.toNat)
          if !z.2 then (s0.askAll (readsOf (queueIni k) (s.qCls k) f.bodyAddr f.img.len.toNat)).1
          else
          let p := z.1.qReadAll k (s.qCls k) f.bodyAddr f.img.len.toNat f.img.len.toNat
          let b := p.2.1
          let t := match bad with
            | some n => p.1.faultOrRetry 5 (rgnUnit x) 0 n 0
            | none => p.1
          if (t.rgn x).loading ≠ some k then t
          else if !(framesOf b).all frameOk then (t.fabLoadFail x).fabFin k x 4
          else match p.2.2 with
            | some e => (t.fabLoadFail x).qFin k e.status e.reason e.addr
            | none =>
              if sha384 b ≠ f.digest then (t.fabLoadFail x).fabFin k x 5
              else
                let u := (t.setRgn x { t.rgn x with body := b, loading := none }).setRgnState x 2
                let v := u.wr (R.FAB_RINFO d.val r.val) (BitVec.ofNat 32 ((wd w 4).toNat % 64 + 128 + 65536 * f.img.fi.toNat))
                (v.putBit (R.FAB_EVT d.val) r.val true).qOk k)

/-! ### Calls (R370, R371) -/

/-- The checks of a call: none where all pass, else what the entry ends with: a status and a FABRIC cause. -/
def State.callCheck (s : State) (x : Nat) (w : List W32) : Option (Nat × Nat) :=
  if s.rgnState x = 4 then some (0xA, 0)
  else if s.rgnState x ≠ 2 then some (0xC, 6)
  else match bodyFunc (s.rgn x).body (fget (wd w 3) ⟨8, 8⟩) with
    | some (flags, _) => if flags % 4 = fget (wd w 4) ⟨8, 2⟩ then none else some (1, 0)
    | none => some (1, 0)

/-- The entry ends as a check says. -/
def State.callFail (s : State) (k x : Nat) (e : Nat × Nat) : State := if e.1 = 0xC then s.fabFin k x e.2 else s.qFin k e.1 0 0

/-- The streams a call binds: SIN as port 4, SOUT as port 5 (R313, R370). -/
def callPorts (w : List W32) : List (Nat × Nat) :=
  (if (wd w 4).getLsbD 8 then [(fget (wd w 4) ⟨0, 4⟩, 4)] else []) ++ (if (wd w 4).getLsbD 9 then [(fget (wd w 4) ⟨4, 4⟩, 5)] else [])

/-- The call of queue k takes its place at the units it names, in the order in which the entries started (R313). -/
def State.callBind (s : State) (k : Nat) (w : List W32) : State :=
  let z := (callPorts w).foldl (fun t p => t.onStream (16 * (k / 4) + p.1) (fun m => { m with bound := m.bound ++ [(k, p.2)] })) s
  (callPorts w).foldl (fun t p => t.bindCheck (16 * (k / 4) + p.1)) z

/-- ENT_FAB_CALL (R370); one that names a unit as SIN and as SOUT is ILLEGAL (R313). -/
def execEntFabCall (g : Fin 32) (q : Fin 4) (s : State) : Host.Outcome State Fault Refusal :=
  let k := 4 * g.val + q.val
  done (s.entStart k (opIs 0x41) [3, 4, 5, 6, 7, 8, 9, 10, 11, 12, 13, 14, 15] (fun w => wd w 3 &&& 0xFFFF00F8 == 0 && wd w 4 >>> 10 == 0 &&
      !(fget (wd w 4) ⟨8, 2⟩ == 3 && fget (wd w 4) ⟨0, 4⟩ == fget (wd w 4) ⟨4, 4⟩))
    (fun t w => t.qTake k [1] (!t.fabPortUsed g.val k) (fun u =>
      match u.callCheck (fabX k w) w with
      | some e => u.callFail k (fabX k w) e
      | none => (u.rgnWait k (fabX k w)).callBind k w)))

/-- What the function of queue k's call receives: FUNC, ARG0 to ARG10, the owner ID of the queue, and the list label (R371). -/
def State.callHands (s : State) (k : Nat) (w : List W32) : List W32 :=
  BitVec.ofNat 32 (fget (wd w 3) ⟨8, 8⟩) :: (List.range 11).map (fun i => wd w (5 + i)) ++ [(ownerId (queueIni k)).setWidth 32, BitVec.ofNat 32 (s.qCls k)]

/-- FAB_FUNC_START (R370, R371): the region is free and this call is next. A region that has changed since the entry started is checked again. -/
def execFabFuncStart (g : Fin 32) (q : Fin 4) (s : State) : Host.Outcome State Fault Refusal :=
  let k := 4 * g.val + q.val
  done (match (s.queue k).entry with
    | some w =>
      let x := fabX k w
      let r := s.rgn x
      if opIs 0x41 w && r.head == some k && r.call.isNone && r.ending.isNone && r.loading.isNone && s.rgnState x != 3 then
        let t := s.setRgn x { r with waiting := r.waiting.drop 1 }
        match t.callCheck x w with
        | some e => t.callFail k x e
        | none =>
          let u := t.setRgn x { t.rgn x with call := some k, started := some (t.copy (1 + k / 32)), handed := t.callHands k w, part := [], used := 0 }
          let a := R.FAB_RSTAT (x / 8) (x % 8)
          let v := (u.setFld a F.FAB_RSTAT.FUNC (fget (wd w 3) ⟨8, 8⟩)).putBit a 16 true
          let y := ((v.setFld a F.FAB_RSTAT.ENGINE (g.val % 8)).setFld a F.FAB_RSTAT.QUEUE q.val).setQState k 2
          (callPorts w).foldl (fun t p => t.strFeed (16 * g.val + p.1)) y
      else s
    | none => s)

/-- FAB_FUNC_RETURN (R371): code 0 ends the entry OK once its writes are acknowledged, any other FABRIC. -/
def execFabFuncReturn (d : Fin 4) (r : Fin 8) (code : W32) (s : State) : Host.Outcome State Fault Refusal :=
  let x := 8 * d.val + r.val
  done (match (s.rgn x).call, (s.rgn x).started with
    | some k, some _ =>
      let t := s.callOver x
      if code = 0 then t.endEntry k 0 else ((t.wr (R.FAB_FCODE d.val r.val) code).fabCause x 10).endEntry k 0xC
    | _, _ => s)

/-- FAB_MAXTIME (R371, R372): the function's MAXTIME has passed since the call's start. -/
def execFabMaxtime (d : Fin 4) (r : Fin 8) (s : State) : Host.Outcome State Fault Refusal :=
  let x := 8 * d.val + r.val
  done (match (s.rgn x).call, (s.rgn x).started with
    | some _, some t0 =>
      match bodyFunc (s.rgn x).body (s.fld (R.FAB_RSTAT d.val r.val) F.FAB_RSTAT.FUNC) with
      | some (_, m) => if m ≠ 0 ∧ t0.toNat + 100 * m ≤ (s.copy (1 + d.val)).toNat then (s.fabCause x 7).rgnRestart x 0xC else s
      | none => s
    | _, _ => s)

/-! ### Restart, empty, patrol -/

/-- FAB_RESTART (R372): FAB_RCTL.RESTART. -/
def execFabRestart (i : Ini) (d : Fin 4) (r : Fin 8) (s : State) : Host.Outcome State Fault Refusal := done (s.regWrite i (R.FAB_RCTL d.val r.val) 1)

/-- FAB_RESTART_DONE (R372): its port requests are complete, and their responses are discarded. -/
def execFabRestartDone (d : Fin 4) (r : Fin 8) (s : State) : Host.Outcome State Fault Refusal :=
  let x := 8 * d.val + r.val
  done (if s.rgnState x = 3 ∧ !s.net.any (fun n => ofRgn x n.req) then
    (s.withResp (s.resp.filter (fun p => !ofRgn x p.req))).rgnRestarted x
  else s)

/-- FAB_EMPTY (R380): FAB_RCTL.EMPTY. -/
def execFabEmpty (i : Ini) (d : Fin 4) (r : Fin 8) (s : State) : Host.Outcome State Fault Refusal := done (s.regWrite i (R.FAB_RCTL d.val r.val) 2)

/-- FAB_PATROL (R381): the patrol of a LOADED region finds single-bit errors in some frames, or an uncorrectable one. -/
def execFabPatrol (d : Fin 4) (r : Fin 8) (single : Nat) (bad : Bool) (s : State) : Host.Outcome State Fault Refusal :=
  let x := 8 * d.val + r.val
  done (if s.rgnState x ≠ 2 then s
  else
    let t := s.advSat (R.FAB_CFG_CE d.val r.val) F.FAB_CFG_CE.COUNT single
    if bad then
      (((t.rgnEmpty x 9).putBit (R.FAB_EVT d.val) (16 + r.val) true)).logTransient ⟨t.tb.master, 0, 5, 1, 0, 0, rgnUnit x, 0, 0, 0, []⟩
    else t)

end Sys2Proof.Machine
end

