-- ==== Sys2Proof/Machine/QuecenOps.lean ====
section
/-! DEFINITION. Machine/QuecenOps.lean: how a core issues an instruction, fetches it, reaches memory, system registers and counters, and how its
waits end (06_quecen.md R135–R168). -/
namespace Sys2Proof.Machine

/-- The command that the words at core c's PC spell (R138–R141, R172–R174, R176). The instruction a core executes comes to the block as its command
(notes/assumptions/5.md); this says which command the bytes in memory stand for. -/
def State.spelled (s : State) (c : CoreId) : Instr :=
  let a := (s.core c).pc.toNat
  decodeCore c (s.word a) (s.word (a + 4))

/-! ### Issue -/

/-- The next instruction follows. -/
def Core.next (x : Core) : Core := { x with pc := x.pc + 4 }

/-- An enabled interrupt is pending above the threshold, which ends WFI (R141). -/
def State.wfiEnds (s : State) (c : CoreId) : Bool := (List.range 32).any (s.irqReady c)

/-- The core is at an instruction boundary and executes (R48, R151, R168, R584). -/
def State.atBoundary (s : State) (c : CoreId) : Bool :=
  let x := s.core c
  s.domainUp c && x.run == .running && x.dhalt.isNone && !x.swapStop

/-- The core executes its next instruction now: no wait is in progress, or a WFI that ends. -/
def State.mayRun (s : State) (c : CoreId) : Bool :=
  s.atBoundary c &&
    (match (s.core c).wait with
     | none => true
     | some .wfi => s.wfiEnds c
     | _ => false)

/-- A WFI whose condition holds retires before the next instruction. -/
def State.settle (s : State) (c : CoreId) : State :=
  match (s.core c).wait with
  | some .wfi => s.onCore c (fun x => { x.next with wait := none })
  | _ => s

/-- A single step, or a halt that waited for an access, takes effect at the boundary after the instruction (R584). -/
def State.boundary (s : State) (c : CoreId) : State :=
  let x := s.core c
  if x.stepping.isSome && x.wait.isNone && x.run == .running then s.setCore c { x with stepping := none, dhalt := x.stepping } else s

/-- A core's request at its present level (R136, R143, R232): a store is posted where its target is prefetchable. -/
def State.coreReq (s : State) (c : CoreId) (k : Kind) (a : Word) (n : Nat) : Req :=
  let i := s.coreIni c
  let q : Req := { ini := i, kind := k, addr := a, len := n, posted := false, early := false, cls := s.iniLabel i }
  if k = .write then { q with posted := s.postedTo q } else q

/-- R144: instructions are fetched from prefetchable regions, local memory and, by the Heel core, the image store. -/
def State.fetchable (s : State) (q : Req) (r : Region) : Bool :=
  match r with
  | .store => iniHeelCore q.ini
  | .heelRam | .keeperRam _ => localOk r q.ini || s.accessAttr q r == .pf
  | _ => s.accessAttr q r == .pf

/-- Fetch the instruction word at an address: none, or the SUB of the FETCH exception (R142, R144, R157). A misaligned address and a region R144 does not permit are judged
before any request. -/
def State.fetch (s : State) (c : CoreId) (a : Word) : State × Option Nat :=
  let q := s.coreReq c .fetch a 4
  if a.toNat % 4 ≠ 0 then (s, some 7)
  else match s.regionOf a.toNat with
  | none => (s, some 8)
  | some (r, _, _) =>
    if !(s.mapped a.toNat && s.fetchable q r) then (s, some 8)
    else
      let t := s.reach q
      if t.2 ≠ 0 then (t.1, some (reasonSub t.2))
      else
        let p := t.1.memRead q.ini r a.toNat 4
        match p.2 with
        | .bad 9 => (p.1, some 4)
        | .bad e => (p.1.captureRefusal q e, some (reasonSub e))
        | _ => (p.1, none)

/-! ### Interrupt entry (R161, R162) -/

/-- Interrupt entry (R158, R161, R162). The spec names no register that clears HCMD_SEEN at its source (R163): it clears as the Heel core takes line 1 (DESIGN CHOICE,
notes/assumptions/14.md). CODE and SUB, which no interrupt gives a value, are free (notes/assumptions/13.md). -/
def State.takeIrq (s : State) (c : CoreId) (n : Nat) : State :=
  let x := s.core c
  let t := s.drawn
  let cause := BitVec.ofNat 32 (s.draw.toNat % 65536 + n * 65536 + 2 ^ 31)
  let y := x.enter cause x.pc 0 false 0x100
  let z := (y.putSrBit srStatus stInwait x.wait.isSome).setSr srThr (fput (y.sr srThr) ⟨8, 4⟩ (x.irqPri n))
  let u := t.setCore c z
  let v := match c with
    | .heel => if n = 1 then u.withBoot { u.boot with cmdSeen := false } else u
    | _ => u
  if x.srAddr srVbaseLo srVbaseHi = 0 then v.drawn.haltCore c (s.draw.toNat % 256) (v.draw.toNat % 256) else v

/-- The line that a core takes at this boundary, or in its WFI, WAITT or WAITGE (R161, R162). -/
def State.irqDue (s : State) (c : CoreId) : Option Nat :=
  let idle := match (s.core c).wait with
    | some (.access _) | some (.drain _) => false
    | _ => true
  if s.atBoundary c && idle && (s.core c).srBit srStatus stIe then s.irqBest c else none

/-- At a boundary the interrupt that is due is taken, and what was to come at the old PC does not happen: CORE_EPC names it (R161, R162). -/
def State.unlessIrq (s : State) (c : CoreId) (f : State → State) : State :=
  match s.irqDue c with
  | some n => s.takeIrq c n
  | none => f s

/-- Issue one instruction on a core: the interrupt that is due comes first (R161); nothing where the core does not execute; FETCH where its fetch fails; else its
effect. -/
def State.issue (s : State) (c : CoreId) (f : State → State) : State :=
  s.unlessIrq c (fun s1 =>
    if s1.mayRun c then
      let t := s1.settle c
      let pc := (t.core c).pc
      let p := t.fetch c pc
      match p.2 with
      | some sub => (p.1.except c excFetch sub pc).boundary c
      | none => (f p.1).boundary c
    else s1)

/-- An instruction that only changes its core and goes on. -/
def State.simple (s : State) (c : CoreId) (f : Core → Core) : State := s.issue c (fun t => t.onCore c (fun x => (f x).next))

/-- ILLEGAL and PRIV (R137, R139, R157). -/
def State.illegal (s : State) (c : CoreId) : State := s.except c excIllegal 0 0
def State.privFault (s : State) (c : CoreId) : State := s.except c excPriv 0 0

/-- An instruction only the privileged level may execute (R137). -/
def State.ifPriv (s : State) (c : CoreId) (f : State → State) : State := if (s.core c).priv then f s else s.privFault c

/-! ### Arithmetic forms (R140, R141) -/

/-- gd = f ga gb. -/
def State.aluRR (s : State) (c : CoreId) (d a b : BitVec 5) (f : Word → Word → Word) : State :=
  s.simple c (fun x => x.setGr d (f (x.gr a) (x.gr b)))

/-- gd = f ga IMM, IMM sign-extended. -/
def State.aluRI (s : State) (c : CoreId) (d a : BitVec 5) (imm : BitVec 16) (f : Word → Word → Word) : State :=
  s.simple c (fun x => x.setGr d (f (x.gr a) (imm.signExtend 64)))

/-- gd = f ga IMM, IMM zero-extended. -/
def State.aluRZ (s : State) (c : CoreId) (d a : BitVec 5) (imm : BitVec 16) (f : Word → Word → Word) : State :=
  s.simple c (fun x => x.setGr d (f (x.gr a) (imm.setWidth 64)))

def boolWord (b : Bool) : Word := if b then 1 else 0

/-- Count of leading zeros, trailing zeros and set bits of a 64-bit value. -/
def clz (w : Word) : Word := BitVec.ofNat 64 ((List.range 64).find? (fun i => w.getLsbD (63 - i)) |>.getD 64)
def ctz (w : Word) : Word := BitVec.ofNat 64 ((List.range 64).find? (fun i => w.getLsbD i) |>.getD 64)
def popc (w : Word) : Word := BitVec.ofNat 64 ((List.range 64).filter (fun i => w.getLsbD i)).length

/-- Signed quotient and remainder, rounded toward zero (R141). -/
def sdivW (a b : Word) : Word := if b = 0 then BitVec.allOnes 64 else BitVec.ofInt 64 (a.toInt.tdiv b.toInt)
def sremW (a b : Word) : Word := if b = 0 then a else BitVec.ofInt 64 (a.toInt.tmod b.toInt)
/-- Unsigned quotient and remainder (R141). -/
def udivW (a b : Word) : Word := if b = 0 then BitVec.allOnes 64 else BitVec.ofNat 64 (a.toNat / b.toNat)
def uremW (a b : Word) : Word := if b = 0 then a else BitVec.ofNat 64 (a.toNat % b.toNat)

/-- High 64 bits of the signed and of the unsigned product. -/
def mulhW (a b : Word) : Word := BitVec.ofInt 64 (a.toInt * b.toInt / (2 ^ 64 : Int))
def mulhuW (a b : Word) : Word := BitVec.ofNat 64 (a.toNat * b.toNat / 2 ^ 64)

/-- A 32-bit result, sign-extended. -/
def sext32 (w : Word) : Word := (w.setWidth 32).signExtend 64

/-- Branch to pc + 4 × OFF where the condition holds (R138, R140). -/
def State.branch (s : State) (c : CoreId) (a b : BitVec 5) (off : BitVec 16) (f : Word → Word → Bool) : State :=
  s.issue c (fun t => t.onCore c (fun x =>
    if f (x.gr a) (x.gr b) then { x with pc := x.pc + 4 * off.signExtend 64 } else x.next))

/-! ### Memory (R142–R149) -/

/-- A value of n bytes, zero- or sign-extended. -/
def extend (n : Nat) (sx : Bool) (v : Nat) : Word :=
  if sx ∧ 2 ^ (8 * n - 1) ≤ v then BitVec.ofInt 64 ((v : Int) - (2 ^ (8 * n) : Int)) else BitVec.ofNat 64 v

/-- What a completed access writes in its core's registers. -/
def Core.finish (x : Core) (op : MemOp) (data : List Byte) : Core :=
  let m := BitVec.ofNat 64 (leNat data)
  match op with
  | .load d n sx => x.setGr d (extend n sx (leNat data))
  | .store => x
  | .atom d n => x.setGr d (extend n true (leNat data))
  | .cld d => x.setCr d.toNat m
  | .lane f d a b => x.laneMem f d.toNat a b.toNat m

/-- Perform an access of a core at its target, or send it on its way to a target whose answer comes from outside (a remote window, a fabric
region). A posted store retires when it enters the network (R146). -/
def State.coreAccess (s : State) (c : CoreId) (q : Req) (op : MemOp) (data : List Byte) : State :=
  let p := if q.kind = Kind.write then s.busWrite q data else s.busRead q
  match p.2 with
  | .ok b => p.1.onCore c (fun x => (x.finish op b).next)
  | .bad e => if q.posted then p.1.onCore c Core.next else p.1.faultOf q e
  | .other =>
    let t := p.1.withNet (p.1.net ++ [p.1.inFlight (s.carried q) data none 0])
    if q.posted then t.onCore c Core.next else t.onCore c (fun x => { x with wait := some (.access op) })

/-- A load of n bytes: ALIGN before any request (R142), then the access. -/
def State.coreLoad (s : State) (c : CoreId) (a : Word) (n : Nat) (op : MemOp) : State :=
  if a.toNat % n ≠ 0 then s.except c excAlign 0 a else s.coreAccess c (s.coreReq c .read a n) op []

/-- A store of n bytes. -/
def State.coreStore (s : State) (c : CoreId) (a : Word) (n : Nat) (v : Word) : State :=
  if a.toNat % n ≠ 0 then s.except c excAlign 0 a
  else s.coreAccess c (s.coreReq c .write a n) .store (leBytes n v.toNat)

/-- gd = memory[ga + IMM] (R140). -/
def State.load (s : State) (c : CoreId) (d a : BitVec 5) (imm : BitVec 16) (n : Nat) (sx : Bool) : State :=
  s.issue c (fun t => t.coreLoad c ((t.core c).gr a + imm.signExtend 64) n (.load d n sx))

/-- memory[ga + IMM] = the low bytes of gd (R140). -/
def State.store (s : State) (c : CoreId) (d a : BitVec 5) (imm : BitVec 16) (n : Nat) : State :=
  s.issue c (fun t => t.coreStore c ((t.core c).gr a + imm.signExtend 64) n ((t.core c).gr d))

/-- A core's posted stores that have not been acknowledged. -/
def State.storesOut (s : State) (c : CoreId) : Bool :=
  let mine (q : Req) : Bool := q.posted && (match q.ini with
    | .core x _ => x == c
    | _ => false)
  s.net.any (fun n => mine n.req) || s.resp.any (fun r => mine r.req)

/-- R145: the regions atomics are permitted on. -/
def atomicRegion : Region → Bool
  | .sram | .host | .engMem _ _ => true
  | _ => false

/-- Perform an atomic once the core's earlier stores are acknowledged (R145, R209). -/
def State.atomicNow (s : State) (c : CoreId) (d : BitVec 5) (a : Word) (n : Nat) (op : AtomOp) (v : Word) : State :=
  let q := s.coreReq c .atomic a n
  let p := s.reach q
  if p.2 ≠ 0 then p.1.faultOf q p.2
  else match p.1.regionOf a.toNat with
    | some (r, _, _) =>
      let w := p.1.memAtomic q.ini r a.toNat n op v
      match w.2 with
      | .ok b => w.1.onCore c (fun x => (x.finish (.atom d n) b).next)
      | .bad e => w.1.faultOf q e
      | .other => w.1
    | none => p.1.faultOf q 1

/-- An atomic: ALIGN, then the region, which the core knows (STORE with SUB ATOMIC), then the request, which follows a FENCE.RW (R142, R145,
R157). An unmapped address is refused by the guard's checks. -/
def State.atomic (s : State) (c : CoreId) (d a : BitVec 5) (n : Nat) (op : Core → AtomOp) (v : Core → Word) : State :=
  s.issue c (fun t =>
    let x := t.core c
    let addr := x.gr a
    if addr.toNat % n ≠ 0 then t.except c excAlign 0 addr
    else
      let bad := match t.regionOf addr.toNat with
        | some (r, _, _) => t.mapped addr.toNat && !atomicRegion r
        | none => false
      if bad then t.except c excStore 5 addr
      else if t.storesOut c then t.onCore c (fun y => { y with wait := some (.drain (.atom d addr n (op x) (v x))) })
      else t.atomicNow c d addr n (op x) (v x))

/-! ### Counters (R149–R153) -/

/-- Perform SIG once earlier stores are acknowledged (R149). -/
def State.sigNow (s : State) (c : CoreId) (h n : W32) : State :=
  let t := s.countSig (s.coreIni c) (s.iniLabel (s.coreIni c)) h
  ((t.signal (s.coreIni c) (s.iniLabel (s.coreIni c)) h n).getD t).onCore c Core.next

/-- Raise HANDLE, or go on with the counter's register (R152). -/
def State.withHandle (s : State) (c : CoreId) (h : W32) (remote : Bool) (f : State → State) : State :=
  match s.handle h remote with
  | .malformed => s.except c excHandle 1 0
  | .notLive => s.except c excHandle 2 0
  | _ => f s

/-- CORE_WAIT.STATUS and gd at the end of a WAITGE (R151): st 0 MET, 1 DEADLINE. -/
def Core.waitgeEnd (x : Core) (d : BitVec 5) (st : Nat) : Core :=
  { ((x.setGr d (BitVec.ofNat 64 st)).setSr srWait (fput (x.sr srWait) (bitF 0) st)).next with wait := none }

/-- WAITGE (R150–R152, R156): gd holds the deadline, none for g0. -/
def State.waitge (s : State) (c : CoreId) (d : BitVec 5) (h target : W32) : State :=
  let x := s.core c
  let dl : Option Word := if d = 0 then none else some (x.gr d)
  let late := match dl with
    | some t => decide (t.toNat ≤ (s.dtbOf c).toNat)
    | none => false
  let s1 := if late then s.onCore c (fun y => y.putSrBit srStatus stPastdl true) else s
  if waitMet (s.rd (handleReg h)) target then s1.onCore c (fun y => y.waitgeEnd d 0)
  else if late then s1.onCore c (fun y => y.waitgeEnd d 1)
  else s1.onCore c (fun y => { y with wait := some (.waitge d h target dl true false) })

end Sys2Proof.Machine
end

