-- ==== Sys2Proof/Machine/Requests.lean ====
section
/-! DEFINITION. Machine/Requests.lean: a request at its entry, at its target and back at its initiator; host memory's training and fill; the patrol
scrubbers; and the guards' registers (08_memory.md). -/
namespace Sys2Proof.Machine

/-! ### The request's path -/

/-- What becomes of a line between two reads of it: the state a read now shows (R206). A valid tag never turns into the poison code. -/
def strikeLine (now found : LineState) : LineState :=
  match now, found with
  | .poisoned, .uncorrectable => .uncorrectable
  | .poisoned, _ => .poisoned
  | .uncorrectable, _ => .uncorrectable
  | x, .clean => x
  | x, .poisoned => x
  | .clean, f => f
  | .single, .single => .single
  | .single, f => f
  | .onceBad, f => f
  | .onceSingle, .onceBad => .onceSingle
  | .onceSingle, f => f

/-- The first line of an access shows a state, where its memory has tagged lines, is Insole, or is the image store, whose lines can turn unreadable (R130). -/
def State.strike (s : State) (r : Region) (a : Nat) (found : LineState) : State :=
  match r with
  | .sram | .host | .larder _ | .engMem _ _ | .store => s.putLine (a / 64 * 64) (strikeLine (s.line (a / 64 * 64)) found)
  | .insole => s.putLine (a / 4 * 4) (strikeLine (s.line (a / 4 * 4)) found)
  | _ => s

/-- A request of a region whose function a call runs uses the Larder its target lies in (R260). -/
def State.rgnUse (s : State) (q : Req) : State :=
  match q.ini with
  | .region d r _ =>
    let x := s.rgn (8 * d.val + r.val)
    if x.call.isSome then s.setRgn (8 * d.val + r.val) { x with used := x.used ||| s.larderBit q.addr.toNat } else s
  | _ => s

/-- One request at its entry: refused, it is answered or noticed; else it is on its way. -/
def State.requestIn (s : State) (q0 : Req) (data : List Byte) (at_ : Option (AtomOp × Word)) : State :=
  let q := if q0.kind = .write then { q0 with posted := s.postedTo q0 } else q0
  let p := s.enter q
  if p.2.1 ≠ 0 then
    if q.posted then p.1.notice q.ini q.addr p.2.1
    else p.1.withResp (p.1.resp ++ [{ req := q, reason := p.2.1, data := [] }])
  else
    let t := p.1.rgnUse q
    t.withNet (t.net ++ [t.inFlight { q with cls := p.2.2 } data at_ 0])

/-- REQUEST_ENTRY (R192, R196, R203, R205, R219, R232–R237, R624): an initiator's transfer reaches its entry. op and v are an atomic's; a write's length is its data's. -/
def execRequestEntry (i : Ini) (k : Kind) (a : Word) (n : Nat) (early : Bool) (cls : BitVec 4) (data : List Byte) (op : AtomOp) (v : Word) (s : State) :
    Host.Outcome State Fault Refusal :=
  let len := if k = .write then data.length else n
  if len = 0 ∨ !s.iniUp i then done s
  else
    let at_ : Option (AtomOp × Word) := if k = .atomic then some (op, v) else none
    done ((pieces (k == .atomic) a.toNat len (len + 1)).foldl (fun t p =>
      t.requestIn { ini := i, kind := k, addr := BitVec.ofNat 64 p.1, len := p.2, posted := false, early := early && (k == .read || k == .fetch) && !iniFabric i,
                    cls := s.reqLabel i cls.toNat } ((data.drop (p.1 - a.toNat)).take p.2) at_) s)

/-- REQUEST_AT_TARGET (R203, R206–R209, R221, R222): request k is served, if its target's queue grants it; found is what its first line shows, answer and reason what a fabric region or another
package answers. -/
def execRequestAtTarget (k : Nat) (found : LineState) (answer : List Byte) (reason : BitVec 4) (s : State) : Host.Outcome State Fault Refusal :=
  match s.net[k]? with
  | none => done s
  | some n =>
    if !s.granting k n || n.lace.isSome || n.abroad.isSome then done s
    else
      let s1 := s.grant k n
      let s2 := match s1.regionOf n.req.addr.toNat with
        | some (r, _, _) => s1.strike r n.req.addr.toNat found
        | none => s1
      done (s2.serveNet n answer reason.toNat)

/-- A core's deferred instruction goes on once its stores are acknowledged (R145, R148, R149). -/
def State.drained (s : State) (c : CoreId) : State :=
  match (s.core c).wait with
  | some (.drain w) =>
    if s.storesOut c then s
    else
      let t := s.onCore c (fun x => { x with wait := none })
      (match w with
       | .fence => t.onCore c Core.next
       | .sig h n => t.sigNow c h n
       | .atom d a n op v => t.atomicNow c d a n op v).boundary c
  | _ => s

/-- The running entry of a queue, or one that a CANCEL is ending, fails by a write that was refused or could not be delivered, unless it has failed already (R259, R260, R280);
a CKPT's mirror makes it MIRROR (R350). -/
def State.queueWriteBad (s : State) (k reason : Nat) (a : Word) (x : Bool) : State :=
  let q := s.queue k
  if x then
    match s.pipe (k / 4) with
    | some p => s.setPipe (k / 4) (some { p with xfail := if p.xfail.isSome then p.xfail else some ⟨5, reason, a⟩ })
    | none => s
  else
  let ok := match q.fin with
    | some e => e.status == 0
    | none => true
  let end_ (w : List W32) : EntryEnd :=
    if opIs 0x11 w && wdAddr w 8 != 0 && decide ((wdAddr w 8).toNat ≤ a.toNat) && decide (a.toNat < (wdAddr w 8).toNat + (wd w 7).toNat) then ⟨0xB, 0, 0⟩ else ⟨5, reason, a⟩
  match q.entry with
  | some w => if ok then s.qFin k (end_ w).status (end_ w).reason (end_ w).addr else s
  | none => match q.dying with
    | some (w, _) => s.dyingBad k (end_ w)
    | none => s

/-- An engine's write has been answered with a reason (R260, R334). -/
def State.engineAnswer (s : State) (r : NetResp) (d : Fin 4) (e : Fin 8) (sub : BitVec 6) : State :=
  let u := 128 * d.val + 16 * e.val + sub.toNat
  if r.reason = 0 ∨ r.req.kind ≠ Kind.write then (if sub.toNat < 16 then s.strSettle u else s)
  else if sub.toNat < 16 then
    if (s.stream u).cancelling || (s.stream u).error then s else s.strError u 3 r.reason (BitVec.ofNat 64 (r.req.addr.toNat / 64 * 64)) none
  else
    let k := 32 * d.val + 4 * e.val + sub.toNat % 4
    s.queueWriteBad k r.reason r.req.addr (r.req.via == 1)

/-- The answer to a read from outward is awaited: by a stream unit that runs, a queue that fetches or whose entry runs, a PIPE's running transfer, or the security block's job. -/
def State.awaits (s : State) (q : Req) : Bool :=
  q.kind == Kind.read && s.outward q && match q.ini with
  | .engine d e sub =>
    if sub.toNat < 16 then
      let x := s.stream (128 * d.val + 16 * e.val + sub.toNat)
      x.cur.isSome && !x.error && !x.cancelling
    else
      let k := 32 * d.val + 4 * e.val + sub.toNat % 4
      if q.via = 1 then (match s.pipeOf k with
        | some p => p.xfer.isSome && p.xfail.isNone
        | none => false)
      else (s.qState k == 2 || s.qState k == 3) && (s.queue k).fin.isNone
  | .soleUnit u => u.val == 0 && s.boot.job.isSome
  | _ => false

/-- The debug access register takes the answer to the request it waits for (R582). -/
def State.dapAnswer (s : State) (r : NetResp) : State :=
  match s.io.dbg.busy with
  | some none => s.withDbg { s.io.dbg with busy := some (some (if r.reason = 0 then ⟨0, BitVec.ofNat 32 (leNat r.data), 0⟩ else ⟨2, 0, r.reason⟩)) }
  | _ => s

/-- RESPONSE_AT_INITIATOR (R146, R148, R203): response k reaches its initiator. A core's waiting access ends in its registers or in the precise exception;
an acknowledgement may end a fence; what an engine, the security block or the debug port has asked for stays until it takes it; another initiator takes the data, and its
error completions are its own chapter's. -/
def execResponseAtInitiator (k : Nat) (s : State) : Host.Outcome State Fault Refusal :=
  match s.resp[k]? with
  | none => done s
  | some r =>
    if r.here then done s
    else if s.awaits r.req then done (s.withResp (s.resp.set k { r with here := true }))
    else
    let s1 := s.withResp (s.resp.eraseIdx k)
    match r.req.ini with
    | .core c _ =>
      if r.req.posted then done (s1.drained c)
      else match (s1.core c).wait with
        | some (.access op) =>
          if r.req.early then done s1
          else
            let t := s1.onCore c (fun x => { x with wait := none })
            done ((if r.reason = 0 then t.onCore c (fun x => (x.finish op r.data).next) else t.faultOf r.req r.reason).boundary c)
        | _ => done s1
    | .engine d e sub => done ((s1.engineAnswer r d e sub).withRet (BitVec.ofNat 64 (leNat r.data)))
    | .soleUnit _ =>
      match s1.sealOf r with
      | some n => done (s1.mirrorSealed n r.reason)
      | none => done (s1.withRet (BitVec.ofNat 64 (leNat r.data)))
    | .package p _ => done (s1.answerPkg p r.orig r.req.cls r.reason r.data)
    | .debug => done (if r.req.via = 1 then s1.dapAnswer r else s1.withRet (BitVec.ofNat 64 (leNat r.data)))
    | _ => done (s1.withRet (BitVec.ofNat 64 (leNat r.data)))

/-! ### Host memory (R187–R189, R211) -/

/-- Addressable host memory in MiB. -/
def State.hostMib (s : State) : Nat := s.hostSize / 0x100000

/-- Host memory training is under way: the Sole is released and no grade and no failure has been reported. -/
def State.training (s : State) : Bool :=
  !s.sup.soleHeld && s.fld R.GRD_HMEM_STAT F.GRD_HMEM_STAT.GRADE == 0 && !s.on R.GRD_HMEM_STAT F.GRD_HMEM_STAT.FAIL

/-- HMEM_TRAIN_DONE (R188, R211): the devices hold 2^(density + 1) GiB a channel, and grade is the one reached, or 0 where 6400 MT/s fails too. -/
def execHmemTrainDone (density : Fin 5) (ranks2 : Bool) (grade : Fin 4) (s : State) : Host.Outcome State Fault Refusal :=
  if !s.training then done s
  else
    let s1 := (s.setFld R.GRD_HMEM_STAT F.GRD_HMEM_STAT.DENSITY (density.val + 1)).setFld R.GRD_HMEM_STAT F.GRD_HMEM_STAT.RANKS2 ranks2.toNat
    if grade = 0 then done (s1.setFld R.GRD_HMEM_STAT F.GRD_HMEM_STAT.FAIL 1)
    else
      let s2 := s1.setFld R.GRD_HMEM_STAT F.GRD_HMEM_STAT.GRADE grade.val
      if s2.on R.GRD_HMEM_STAT F.GRD_HMEM_STAT.KEPT then
        done ((s2.setFld R.GRD_HMEM_STAT F.GRD_HMEM_STAT.READY 1).wr R.GRD_HMEM_FILL (BitVec.ofNat 32 s2.hostMib))
      else done (s2.setFld R.GRD_HMEM_STAT F.GRD_HMEM_STAT.FILLING 1)

/-- HMEM_FILL_DONE (R211): the fill, with zeros and valid tags, has come to mib MiB, and is complete at the addressable size. -/
def execHmemFillDone (mib : Nat) (s : State) : Host.Outcome State Fault Refusal :=
  if !s.on R.GRD_HMEM_STAT F.GRD_HMEM_STAT.FILLING then done s
  else
    let cur := (s.rd R.GRD_HMEM_FILL).toNat
    let upTo := Nat.min mib s.hostMib
    if upTo ≤ cur then done s
    else
      let b := 0x100000000000
      let s1 := (s.clearMem (b + cur * 0x100000) (b + upTo * 0x100000)).wr R.GRD_HMEM_FILL (BitVec.ofNat 32 upTo)
      if upTo = s.hostMib then
        done ((s1.setFld R.GRD_HMEM_STAT F.GRD_HMEM_STAT.FILLING 0).setFld R.GRD_HMEM_STAT F.GRD_HMEM_STAT.READY 1)
      else done s1

/-! ### Scrubbing (R212) -/

/-- The region and the first byte of scrubber m's memory, and its lines. -/
def State.scrubMem (s : State) (m : Nat) : Region × Nat × Nat :=
  if m = 0 then (.sram, 0x01000000, 0x40000)
  else if m = 1 then (.host, 0x100000000000, s.hostSize / 64)
  else if m < 6 then (.engMem (m - 2) 0, 0x300000000000 + (m - 2) * 0x10000000, 0x200000)
  else (.larder (m - 6), 0x200000000000 + (m - 6) * 0x100000000, 0x4000000)

/-- Scrubber m runs: not paused, its memory initialised. -/
def State.scrubbing (s : State) (m : Nat) : Bool :=
  if m = 0 then !s.sup.soleHeld
  else if m = 1 then !s.sup.soleHeld && s.on R.GRD_HMEM_STAT F.GRD_HMEM_STAT.READY && s.bit (R.GRD_SCRUB_CFG (grdBase 0)) 0
  else if m < 6 then s.diePowered (m - 2) && !s.sup.scrub.contains (m - 2) && s.bit (R.GRD_SCRUB_CFG (grdBase (6 + m))) 0
  else s.larderState (m - 6) == 3

/-- SCRUB_LINE (R207, R212): the scrubber reads its next line, which shows a state; after the last line the next pass begins. -/
def execScrubLine (m : Fin 8) (found : LineState) (s : State) : Host.Outcome State Fault Refusal :=
  if !s.scrubbing m.val then done s
  else
    let p := s.scrubMem m.val
    let n := tabGet natZero s.scrubPos m.val
    let a := p.2.1 + 64 * n
    let r := match s.regionOf a with
      | some (r, _, _) => r
      | none => p.1
    let t := ((s.strike r a found).readLine r a).1
    done (t.withScrubPos (tabPut natZero m.val (if n + 1 < p.2.2 then n + 1 else 0) t.scrubPos))

/-! ### Guard registers -/

/-- The die code of a guard control block: 0 the Sole, 1 the Heel, 2 + d compute die d. -/
def grdDie (x : Fin 6) : Nat := if x.val < 2 then x.val else 6 + x.val

/-- SCRUB_CFG_WRITE (R212): x is 0 for host memory, 1 + d for engine memory of die d. -/
def execScrubCfgWrite (i : Ini) (x : Fin 5) (v : W32) (s : State) : Host.Outcome State Fault Refusal :=
  done (s.regWrite i (R.GRD_SCRUB_CFG (grdBase (if x.val = 0 then 0 else 7 + x.val))) v)

/-- GRD_PERM_WRITE (R198, R200, R201). -/
def execGrdPermWrite (i : Ini) (x : Fin 6) (j : BitVec 5) (n : BitVec 5) (v : W32) (s : State) : Host.Outcome State Fault Refusal :=
  done (if j.toNat < grdCount (grdDie x) then s.regWrite i (R.GRD_PERM (grdTable (grdDie x)) j.toNat n.toNat) v else s)

/-- GRD_BOUNDS_WRITE (R195, R199): w is 0 BASE_LO, 1 BASE_HI, 2 LIMIT_LO, 3 LIMIT_HI. -/
def execGrdBoundsWrite (i : Ini) (x : Fin 6) (j : BitVec 5) (n : BitVec 5) (w : Fin 4) (v : W32) (s : State) : Host.Outcome State Fault Refusal :=
  done (if j.toNat < grdCount (grdDie x) then s.regWrite i (R.GRD_BASE_LO (grdTable (grdDie x)) j.toNat n.toNat + 4 * w.val) v else s)

/-- VIOL_CLEAR (R205). -/
def execViolClear (i : Ini) (x : Fin 6) (s : State) : Host.Outcome State Fault Refusal :=
  done (s.regWrite i (R.GRD_VIOL_INFO (grdBase (grdDie x))) 0x80000000)

/-- NOTICE_POP (R204): on the block of the core's own die. -/
def execNoticePop (i : Ini) (x : Fin 6) (s : State) : Host.Outcome State Fault Refusal := done (s.regWrite i (R.GRD_NOTE_POP (grdBase (grdDie x))) 1)

/-- NOTE_OVF_CLEAR (R204). -/
def execNoteOvfClear (i : Ini) (x : Fin 6) (s : State) : Host.Outcome State Fault Refusal :=
  done (s.regWrite i (R.GRD_NOTE_STAT (grdBase (grdDie x))) 0x100)

end Sys2Proof.Machine
end

