-- ==== Sys2Proof/Machine/Faults.lean ====
section
/-! DEFINITION. Machine/Faults.lean: reports to the fault manager, its repair actions, its log and the Insole summary (17_faults.md). -/
namespace Sys2Proof.Machine

/-- The unit type that a fault kind is reported for (R439); BODY has two. -/
def kindFits (kind : Nat) (u : BitVec 16) : Bool :=
  let ty := u.toNat / 4096
  match kind with
  | 2 | 3 => ty == 4
  | 4 => ty == 3
  | 5 => ty == 9
  | 6 => ty == 0xA
  | 7 => ty == 8
  | 8 => ty == 7
  | 9 => ty == 0xB
  | 0xB => ty == 0xD || ty == 0xE
  | _ => false

/-- A unit of the Heel: an output stage, a bus controller or a decoder (R438). -/
def onHeel (u : BitVec 16) : Bool := decide (0xC ≤ u.toNat / 4096) && decide (u.toNat / 4096 ≤ 0xE)

/-- A line is found uncorrectable: k = 0 says that the second read succeeds (R207, R444). -/
def State.lineReport (s : State) (a k : Nat) : State :=
  match s.regionOf a with
  | some (r, _, _) => if (memCode r).isSome then ((s.strike r a (if k = 0 then .onceBad else .uncorrectable)).readLine r a).1 else s
  | none => s

/-- FAULT_REPORT (R437–R440, R444): a report of kind, unit and sub-unit; k retries fail before one that succeeds. An event carries an initiator, an address
and its detail; a lane's event is transient, and R436 retires lanes and links. A report of a Heel unit, or an event of the Heel's monitors, crosses the Sole ↔ Heel link. -/
def execFaultReport (kind : BitVec 8) (u sub : BitVec 16) (k : Nat) (ini : BitVec 16) (addr : Word) (detail : List W32) (s : State) :
    Host.Outcome State Fault Refusal :=
  let n := kind.toNat
  if (n = 0x22 ∨ n = 0x23 ∨ n = 0x29) ∨ (0x20 ≤ n ∧ n ≤ 0x2B ∧ onHeel u) then done (s.heelReport .event (s.mkEvent n u ini addr detail))
  else if n = 0xB ∧ kindFits n u ∧ s.unitPresent u then
    done (s.heelReport .counted { s.mkEvent n u 0 addr [] with sub := sub, retries := k })
  else if s.sup.soleHeld then done s
  else if 0x20 ≤ n ∧ n ≤ 0x2B then
    let t := s.event n u ini addr detail
    done (if n = 0x28 then t.setEvt 2 else t)
  else if n = 1 then done (s.lineReport addr.toNat k)
  else if !kindFits n u ∨ !s.unitPresent u then done s
  else if n = 2 then done (s.cubeFault (u.toNat % 4096) sub.toNat k).1
  else if n = 8 then done (s.laceTransient (u.toNat % 4096) sub.toNat (k + 1))
  else done (s.faultOrRetry n u sub.toNat k addr)

/-- RECUR_WINDOW (R443): at the end of the window in force; the written length comes into force. -/
def execRecurWindow (s : State) : Host.Outcome State Fault Refusal := done (if s.sup.soleHeld then s else s.recurRoll)

/-- A write of FLT_ACT with its KEY. -/
def actWord (act : Nat) (u : BitVec 16) : W32 := BitVec.ofNat 32 (0x5A000000 + act * 65536 + u.toNat)

/-- FLT_RETIRE (R450). -/
def execFltRetire (i : Ini) (u : BitVec 16) (s : State) : Host.Outcome State Fault Refusal := done (s.regWrite i R.FLT_ACT (actWord 1 u))

/-- FLT_TEST (R450, R451). -/
def execFltTest (i : Ini) (u : BitVec 16) (s : State) : Host.Outcome State Fault Refusal := done (s.regWrite i R.FLT_ACT (actWord 2 u))

/-- FLT_ADMIT (R450, R451). -/
def execFltAdmit (i : Ini) (u : BitVec 16) (s : State) : Host.Outcome State Fault Refusal := done (s.regWrite i R.FLT_ACT (actWord 3 u))

/-- FLT_ABANDON (R450). -/
def execFltAbandon (i : Ini) (u : BitVec 16) (s : State) : Host.Outcome State Fault Refusal := done (s.regWrite i R.FLT_ACT (actWord 4 u))

/-- FLT_REVOKE (R450): of package p. -/
def execFltRevoke (i : Ini) (p : BitVec 8) (s : State) : Host.Outcome State Fault Refusal :=
  done (s.regWrite i R.FLT_ACT (actWord 5 (BitVec.ofNat 16 (0xF000 + p.toNat))))

/-- FLT_LOG_CFG_WRITE (R453). -/
def execFltLogCfgWrite (i : Ini) (v : W32) (s : State) : Host.Outcome State Fault Refusal := done (s.regWrite i R.FLT_LOG_CFG v)

/-- FLT_LOG_TAIL_WRITE (R452). -/
def execFltLogTailWrite (i : Ini) (v : W32) (s : State) : Host.Outcome State Fault Refusal := done (s.regWrite i R.FLT_LOG_TAIL v)

/-- SUMMARY_UPDATE (R455, R456): the Heel makes the oldest pending write, or it is held. -/
def execSummaryUpdate (s : State) : Host.Outcome State Fault Refusal :=
  match s.flt.summary with
  | [] => done s
  | x :: xs =>
    if s.bridgeLive 16 then
      let t := (s.withFlt { s.flt with summary := xs }).sumWrite x
      done (if xs.isEmpty then (t.putBit R.FLT_STAT 1 false).putBit R.FLT_HEVT 1 false else t)
    else done s.sumPend

end Sys2Proof.Machine
end

