-- ==== Sys2Proof/Machine/Images.lean ====
section
/-! DEFINITION. Machine/Images.lean: the commands of boot, verification, the image store, the swap and the Heel command port's own
(05_images.md). -/
namespace Sys2Proof.Machine

/-- HEEL_BOOT_VERIFY (R115). -/
def execHeelBootVerify (s : State) : Host.Outcome State Fault Refusal :=
  done (if s.boot.heelRom && !s.sup.heelHeld then s.heelBoot else s)

/-- SOLE_BOOT_VERIFY (R116). -/
def execSoleBootVerify (s : State) : Host.Outcome State Fault Refusal :=
  done (if s.boot.soleRom && !s.sup.soleHeld then s.soleBoot else s)

/-- A BOOT_VER_CTL write with START and a purpose. -/
def verWord (purpose : Nat) : W32 := BitVec.ofNat 32 (0x80000000 + purpose)

/-- VER_CHECK (R112). -/
def execVerCheck (i : Ini) (s : State) : Host.Outcome State Fault Refusal := done (s.regWrite i R.BOOT_VER_CTL (verWord 0))

/-- VER_STAGE_DIE (R117). -/
def execVerStageDie (i : Ini) (s : State) : Host.Outcome State Fault Refusal := done (s.regWrite i R.BOOT_VER_CTL (verWord 1))

/-- VER_STAGE_SOLE (R126). -/
def execVerStageSole (i : Ini) (s : State) : Host.Outcome State Fault Refusal := done (s.regWrite i R.BOOT_VER_CTL (verWord 2))

/-- VER_REGISTER_FAB (R112). -/
def execVerRegisterFab (i : Ini) (s : State) : Host.Outcome State Fault Refusal := done (s.regWrite i R.BOOT_VER_CTL (verWord 3))

/-- VER_APPLY_KEY (R113). -/
def execVerApplyKey (i : Ini) (s : State) : Host.Outcome State Fault Refusal := done (s.regWrite i R.BOOT_VER_CTL (verWord 4))

/-- VER_JOB_DONE (R112). -/
def execVerJobDone (s : State) : Host.Outcome State Fault Refusal := done s.verDone

/-- ROLL_COMMIT (R114). -/
def execRollCommit (i : Ini) (v : W32) (s : State) : Host.Outcome State Fault Refusal := done (s.regWrite i R.BOOT_ROLL_COMMIT v)

/-- SWAP_REQUEST (R127, R128). -/
def execSwapRequest (i : Ini) (v : W32) (s : State) : Host.Outcome State Fault Refusal := done (s.regWrite i R.BOOT_SWAP v)

/-- HEEL_HANDOVER (R127, R128). -/
def execHeelHandover (i : Ini) (v : W32) (s : State) : Host.Outcome State Fault Refusal := done (s.regWrite i R.BOOT_HEEL_HANDOVER v)

/-- HANDOVER_TIMEOUT (R127). -/
def execHandoverTimeout (s : State) : Host.Outcome State Fault Refusal :=
  done (match s.boot.swap with
    | some w => if s.swapLate w then s.swapEnd 4 else s
    | none => s)

/-- SWAP_CORE_ENTER (R168). -/
def execSwapCoreEnter (n : Fin 10) (s : State) : Host.Outcome State Fault Refusal := done (s.swapEnter n)

/-- STORE_LINE_WRITE (R108): a non-posted write to the image store. -/
def execStoreLineWrite (i : Ini) (a : Word) (data : List Byte) (s : State) : Host.Outcome State Fault Refusal :=
  let q : Req := { ini := i, kind := .write, addr := a, len := data.length, posted := false, early := false, cls := s.iniLabel i }
  let p := s.busWrite q data
  done (match p.2 with
    | .bad c => p.1.faultOf q c
    | _ => p.1)

/-- STORE_ERASE (R108): BOOT_ST_CTL with ERASE and SECTOR, WEN as it stands. -/
def execStoreErase (i : Ini) (sector : BitVec 9) (s : State) : Host.Outcome State Fault Refusal :=
  done (s.regWrite i R.BOOT_ST_CTL (BitVec.ofNat 32 (0x80000000 + sector.toNat * 65536 + (s.bit R.BOOT_ST_CTL 0).toNat)))

/-- STORE_OP_DONE (R109). -/
def execStoreOpDone (s : State) : Host.Outcome State Fault Refusal :=
  let n := s.boot.storeOps - 1
  let t := s.withBoot { s.boot with storeOps := n }
  done (if n = 0 then t.putBit R.BOOT_ST_CTL 1 false else t)

/-- HCMD_PUSH (R122). -/
def execHcmdPush (i : Ini) (w : W32) (s : State) : Host.Outcome State Fault Refusal := done (s.regWrite i R.BOOT_HCMD_TX w)

/-- HCMD_WINTER (R123). -/
def execHcmdWinter (s : State) : Host.Outcome State Fault Refusal := done (s.hcmdRun (· == 7) State.hcmdWinter)

/-- HCMD_IMAGE_OPCODE (R124): passed to the Heel image while the epochs agree; the operands are what that image answers. -/
def execHcmdImageOpcode (status : Byte) (ws : List W32) (s : State) : Host.Outcome State Fault Refusal :=
  done (s.hcmdRun (fun op => decide (0x80 ≤ op)) (fun t _ =>
    if t.fld R.BOOT_AGREE F.BOOT_AGREE.HEEL = 1 then (t, status.toNat, ws.take 31) else (t, 1, [])))

/-- HCMD_UNKNOWN_OPCODE (R124). -/
def execHcmdUnknownOpcode (s : State) : Host.Outcome State Fault Refusal :=
  done (s.hcmdRun (fun op => op == 0 || (decide (8 ≤ op) && decide (op < 0x80))) (fun t _ => (t, 2, [])))

/-- HCMD_POP (R122). -/
def execHcmdPop (i : Ini) (s : State) : Host.Outcome State Fault Refusal := done (s.regReadCmd i R.BOOT_HCMD_RX)

end Sys2Proof.Machine
end

