-- ==== Sys2Proof/Machine/Inputs.lean ====
section
/-! DEFINITION. Machine/Inputs.lean: the commands of the switch inputs and the quadrature decoders (19_inputs.md). A sample carries the
pins' voltages. -/
namespace Sys2Proof.Machine

/-- HCMD_IN_READ (R123, R488): the filtered levels. -/
def execHcmdInRead (s : State) : Host.Outcome State Fault Refusal :=
  done (s.hcmdRun (· == 4) (fun t ops => if ops ≠ [] then (t, 2, []) else (t, 0, [t.rd R.SWI_LVL_LO, t.rd R.SWI_LVL_HI])))

/-- SWI_SAMPLE (R486–R489): all inputs are sampled at their pins' voltages, in mV, and filtered; those with ANA set are converted. SWITCH steps of patterns follow the
filtered levels. -/
def execSwiSample (pins : List Int) (s : State) : Host.Outcome State Fault Refusal :=
  if s.sup.heelHeld ∨ !s.swDue then done s
  else
    let w := s.swLevels pins
    let s1 := s.swTaken w
    let t := (s1.withSwi { s1.io.swi with last := some s.tb.body }).each (fun u i => (u.swSample i (w.getLsbD i)).swConvert i (pins.getD i 0)) (List.range 64)
    done t.patSwitches

/-- SWI_CYCLIC_SAMPLE (R491–R493): each named input is compared with its reference; the first confirmation is a wake. -/
def execSwiCyclicSample (pins : List Int) (s : State) : Host.Outcome State Fault Refusal :=
  if !s.cycDue then done s
  else
    let w := s.swLevels pins
    let s1 := s.swTaken w
    let t := (s1.withSwi { s1.io.swi with cycAt := some s.tb.rtc }).each (fun u i => u.swCyclic i (w.getLsbD i)) (List.range 64)
    done (match s.swMoved, t.swMoved with
      | [], i :: _ => t.wake 8 (wakeIndex i) none
      | _, _ => t)

/-- QDEC_SAMPLE (R495–R498): decoder n samples its pins; a retired one does not count. -/
def execQdecSample (n : Fin 4) (a b : Bool) (s : State) : Host.Outcome State Fault Refusal :=
  done (if s.sup.heelHeld ∨ s.isRetired (qdecUnit n.val) ∨ !s.qdecDue n.val then s else s.qdecSample n.val a b)

/-- QDEC_LEARN (R498). -/
def execQdecLearn (i : Ini) (n : Fin 4) (s : State) : Host.Outcome State Fault Refusal := done (s.regWrite i (R.QDEC_CTL n.val) 1)

/-- QDEC_CLRERR (R498). -/
def execQdecClrerr (i : Ini) (n : Fin 4) (s : State) : Host.Outcome State Fault Refusal := done (s.regWrite i (R.QDEC_CTL n.val) 2)

/-- QDEC_POS_WRITE (R500). -/
def execQdecPosWrite (i : Ini) (n : Fin 4) (v : W32) (s : State) : Host.Outcome State Fault Refusal := done (s.regWrite i (R.QDEC_POS n.val) v)

/-- QDEC_SELF_CHECK (R502): the comparators disagree bad times in a row, 0 where they agree at once. -/
def execQdecSelfCheck (n : Fin 4) (bad : Nat) (s : State) : Host.Outcome State Fault Refusal :=
  done (if s.sup.heelHeld ∨ bad = 0 ∨ s.isRetired (qdecUnit n.val) then s else s.bodyReport (qdecUnit n.val) (bad - 1))

end Sys2Proof.Machine
end

