-- ==== Sys2Proof/Machine/Lane.lean ====
section
/-! DEFINITION. Machine/Lane.lean: the signal lane's instructions and RPT (07_signal_lane.md R169–R180). Every lane instruction is ILLEGAL on
the Heel core and the keepers (R169), and on fields its encoding does not admit (R172, R173). -/
namespace Sys2Proof.Machine

/-- Issue a lane instruction: ILLEGAL where the core has no lane or the fields are not admitted. -/
def State.laneIssue (s : State) (c : CoreId) (ok : Bool) (f : State → State) : State :=
  s.issue c (fun t => if hasLane c && ok then f t else t.illegal c)

/-- A register function, once. -/
def State.laneReg (s : State) (c : CoreId) (f : LaneReg) (d a b : BitVec 5) (st : BitVec 3) : State :=
  s.laneIssue c (laneRegOk f d a b st) (fun t => t.onCore c (fun x => (x.laneReg f d.toNat a.toNat b.toNat).next))

/-- A lane instruction that only changes its core. -/
def State.laneMove (s : State) (c : CoreId) (ok : Bool) (f : Core → Core) : State :=
  s.laneIssue c ok (fun t => t.onCore c (fun x => (f x).next))

/-- A memory function, once, at any region a core access may address (R175). -/
def State.laneMem (s : State) (c : CoreId) (f : LaneMem) (d a b : BitVec 5) (st : BitVec 3) : State :=
  s.laneIssue c (laneMemOk f d b st) (fun t => t.coreLoad c ((t.core c).gr a) (laneMemSize f) (.lane f d a b))

/-- Complex register and accumulator fields. -/
def isC (n : BitVec 5) : Bool := decide (n.toNat < 16)
def isA (n : BitVec 5) : Bool := decide (n.toNat < 4)

/-- An exception in repetition k of an RPT unit (R179). -/
def State.rptFault (s : State) (c : CoreId) (k code sub : Nat) (tval : Word) : State :=
  (s.onCore c (fun x => x.setRepdone k)).except c code sub tval

/-- Repetition k of a memory follower (R178, R179): aligned, in Sole SRAM, then read. Where it raises an exception, its CODE and SUB, and no effect on the core. -/
def State.rptRep (s : State) (c : CoreId) (f : LaneMem) (d a b : BitVec 5) (st : BitVec 3) (k : Nat) : State × Option (Nat × Nat) :=
  let addr := (s.core c).gr a
  let n := laneMemSize f
  if addr.toNat % n ≠ 0 then (s, some (excAlign, 0))
  else match s.regionOf addr.toNat with
    | some (.sram, _, _) =>
      let p := s.busRead (s.coreReq c .read addr n)
      match p.2 with
      | .ok m => (p.1.onCore c (fun x => x.laneMem f (stepped d (st.getLsbD 2) k) a (stepped b (st.getLsbD 1) k) (BitVec.ofNat 64 (leNat m))), none)
      | .bad e => (p.1, some (excLoad, reasonSub e))
      | .other => (p.1, none)
    | _ => (s, some (excLoad, 6))

/-- Repetition k of a memory follower, with the exception it raises. The Bool says that it completed. -/
def State.rptMem (s : State) (c : CoreId) (f : LaneMem) (d a b : BitVec 5) (st : BitVec 3) (k : Nat) : State × Bool :=
  let p := s.rptRep c f d a b st k
  match p.2 with
  | none => (p.1, true)
  | some e => (p.1.rptFault c k e.1 e.2 ((s.core c).gr a), false)

/-- Repetitions k, k + 1, … of a unit, n of them; past the last one execution continues after the follower (R176, R177). -/
def State.rptRun (s : State) (c : CoreId) (fw : Follower) (k : Nat) : Nat → State
  | 0 => s.onCore c (fun x => x.next.next)
  | n + 1 =>
    match fw with
    | .reg f d a b st =>
      (s.onCore c (fun x => x.laneReg f (stepped d (st.getLsbD 2) k) (stepped a (st.getLsbD 0) k) (stepped b (st.getLsbD 1) k))).rptRun c fw (k + 1) n
    | .mem f d a b st =>
      let p := s.rptMem c f d a b st k
      if p.2 then p.1.rptRun c fw (k + 1) n else p.1
    | .other => s

/-- The follower is one that may follow RPT, in an encoding its fields admit (R176). -/
def followerOk : Follower → Bool
  | .reg f d a b st => laneRegOk f d a b st
  | .mem f d _ b st => laneMemOk f d b st
  | .other => false

/-- RPT (R139, R176–R179: n is IMM[11:0]; fw stands in the word after the RPT). -/
def execRpt (c : CoreId) (n : BitVec 12) (fw : Follower) (s : State) : Host.Outcome State Fault Refusal := 
  done (s.issue c (fun t =>
    let pc := (t.core c).pc + 4
    let p := t.fetch c pc
    match p.2 with
    | some sub => p.1.except c excFetch sub pc
    | none => if hasLane c && followerOk fw then p.1.rptRun c fw 0 (n.toNat + 1) else p.1.illegal c))

/-- The reads of repetitions k, k + 1, … of a memory follower, n of them, as far as none raises an exception. -/
def State.rptReads (s : State) (c : CoreId) (f : LaneMem) (d a b : BitVec 5) (st : BitVec 3) (k : Nat) : Nat → State
  | 0 => s
  | n + 1 =>
    let p := s.rptRep c f d a b st k
    match p.2 with
    | none => p.1.rptReads c f d a b st (k + 1) n
    | some _ => p.1

/-- A run of an RPT unit whose results the compare unit does not commit: it reads its operands from Sole SRAM, and leaves the pair's registers (R164, R180). -/
def State.rptTry (s : State) (c : CoreId) (u : BitVec 12 × Follower) : State :=
  match u.2 with
  | .mem f d a b st => if followerOk u.2 then (s.rptReads c f d a b st 0 (u.1.toNat + 1)).setCore c (s.core c) else s
  | _ => s

/-- PAIR_MISMATCH (R164, R165, R180): the compare unit of pair p finds a mismatch, and k retries disagree before one agrees; rpt is the RPT unit it retries, if the
instruction is one, whose every run that is not committed reads its operands again. The run that agrees is the instruction's own command. -/
def execPairMismatch (p : Fin 2) (k : Nat) (rpt : Option (BitVec 12 × Follower)) (s : State) : Host.Outcome State Fault Refusal :=
  done (
    let c : CoreId := .sole (Fin.ofNat 10 (8 + p.val))
    if s.domainUp c && (s.core c).run == .running then
      let u := unitCode 0xB p.val
      let n := s.retryCount 9
      let t := match rpt with
        | some r => s.each (fun v _ => v.rptTry c r) (List.range (1 + Nat.min k n))
        | none => s
      if k < n then
        ((t.advSat R.CORE_PAIR_STAT ⟨8 * p.val, 8⟩ 1).queueSummary ⟨u, none, true, none, 0, none⟩).logTransient
          { dtb := s.tb.master, seq := 0, kind := 9, cls := 1, retries := k + 1, cause := 0, unit := u, sub := 0, ini := iniId (s.coreIni c),
            addr := (s.core c).pc, detail := [] }
      else t.permanent 9 u 0 n (s.core c).pc
    else s)

/-- CMUL (R171, R174). -/
def execCmul (c : CoreId) (d a b : BitVec 5) (st : BitVec 3) (s : State) : Host.Outcome State Fault Refusal := done (s.laneReg c .cmul d a b st)

/-- CMAC (R171, R174). -/
def execCmac (c : CoreId) (d a b : BitVec 5) (st : BitVec 3) (s : State) : Host.Outcome State Fault Refusal := done (s.laneReg c .cmac d a b st)

/-- CMSB (R171, R174). -/
def execCmsb (c : CoreId) (d a b : BitVec 5) (st : BitVec 3) (s : State) : Host.Outcome State Fault Refusal := done (s.laneReg c .cmsb d a b st)

/-- CMACJ (R171, R174). -/
def execCmacj (c : CoreId) (d a b : BitVec 5) (st : BitVec 3) (s : State) : Host.Outcome State Fault Refusal := done (s.laneReg c .cmacj d a b st)

/-- CADD (R171, R174). -/
def execCadd (c : CoreId) (d a b : BitVec 5) (st : BitVec 3) (s : State) : Host.Outcome State Fault Refusal := done (s.laneReg c .cadd d a b st)

/-- CSUB (R171, R174). -/
def execCsub (c : CoreId) (d a b : BitVec 5) (st : BitVec 3) (s : State) : Host.Outcome State Fault Refusal := done (s.laneReg c .csub d a b st)

/-- CROT (R171, R174). -/
def execCrot (c : CoreId) (d a b : BitVec 5) (st : BitVec 3) (s : State) : Host.Outcome State Fault Refusal := done (s.laneReg c .crot d a b st)

/-- DOT8 (R171, R174). -/
def execDot8 (c : CoreId) (d a b : BitVec 5) (st : BitVec 3) (s : State) : Host.Outcome State Fault Refusal := done (s.laneReg c .dot8 d a b st)

/-- DOT8SU (R171, R174). -/
def execDot8su (c : CoreId) (d a b : BitVec 5) (st : BitVec 3) (s : State) : Host.Outcome State Fault Refusal := done (s.laneReg c .dot8su d a b st)

/-- CCONJ (R171, R174). -/
def execCconj (c : CoreId) (d a : BitVec 5) (st : BitVec 3) (s : State) : Host.Outcome State Fault Refusal := done (s.laneReg c .cconj d a 0 st)

/-- RDCS (R171, R174). -/
def execRdcs (c : CoreId) (d a : BitVec 5) (sh : BitVec 6) (s : State) : Host.Outcome State Fault Refusal := done (s.laneMove c (isC d && isA a) (fun x => x.rdcs d.toNat a.toNat sh.toNat))

/-- ACLR (R174). -/
def execAclr (c : CoreId) (d : BitVec 5) (s : State) : Host.Outcome State Fault Refusal := done (s.laneMove c (isA d) (fun x => (x.setAcc d.toNat false 0).setAcc d.toNat true 0))

/-- CMOV (R174). -/
def execCmov (c : CoreId) (d a : BitVec 5) (s : State) : Host.Outcome State Fault Refusal := done (s.laneMove c (isC d && isC a) (fun x => x.setCr d.toNat (x.cr a.toNat)))

/-- CFROMG (R174). -/
def execCfromg (c : CoreId) (d a : BitVec 5) (s : State) : Host.Outcome State Fault Refusal := done (s.laneMove c (isC d) (fun x => x.setCr d.toNat (x.gr a)))

/-- GFROMC (R174). -/
def execGfromc (c : CoreId) (d a : BitVec 5) (s : State) : Host.Outcome State Fault Refusal := done (s.laneMove c (isC a) (fun x => x.setGr d (x.cr a.toNat)))

/-- GACCRL (R174). -/
def execGaccrl (c : CoreId) (d a : BitVec 5) (s : State) : Host.Outcome State Fault Refusal := done (s.laneMove c (isA a) (fun x => x.setGr d ((x.acc a.toNat false).setWidth 64)))

/-- GACCRH (R174). -/
def execGaccrh (c : CoreId) (d a : BitVec 5) (s : State) : Host.Outcome State Fault Refusal := done (s.laneMove c (isA a) (fun x => x.setGr d (((x.acc a.toNat false) >>> 64).setWidth 16 |>.signExtend 64)))

/-- GACCIL (R174). -/
def execGaccil (c : CoreId) (d a : BitVec 5) (s : State) : Host.Outcome State Fault Refusal := done (s.laneMove c (isA a) (fun x => x.setGr d ((x.acc a.toNat true).setWidth 64)))

/-- GACCIH (R174). -/
def execGaccih (c : CoreId) (d a : BitVec 5) (s : State) : Host.Outcome State Fault Refusal := done (s.laneMove c (isA a) (fun x => x.setGr d (((x.acc a.toNat true) >>> 64).setWidth 16 |>.signExtend 64)))

/-- ASETR (R174). -/
def execAsetr (c : CoreId) (d a b : BitVec 5) (s : State) : Host.Outcome State Fault Refusal := 
  done (s.laneMove c (isA d) (fun x => x.setAcc d.toNat false ((x.gr b).setWidth 16 ++ x.gr a)))

/-- ASETI (R174). -/
def execAseti (c : CoreId) (d a b : BitVec 5) (s : State) : Host.Outcome State Fault Refusal := 
  done (s.laneMove c (isA d) (fun x => x.setAcc d.toNat true ((x.gr b).setWidth 16 ++ x.gr a)))

/-- LFLAGS (R174). -/
def execLflags (c : CoreId) (d : BitVec 5) (s : State) : Host.Outcome State Fault Refusal := done (s.laneMove c true (fun x => x.setGr d ((x.sr srLane).setWidth 64)))

/-- LCLRF (R174). -/
def execLclrf (c : CoreId) (s : State) : Host.Outcome State Fault Refusal := done (s.laneMove c true (fun x => (x.putSrBit srLane 1 false).putSrBit srLane 2 false))

/-- CLD (R174, R175). -/
def execCld (c : CoreId) (d a : BitVec 5) (imm : BitVec 16) (s : State) : Host.Outcome State Fault Refusal := 
  done (s.laneIssue c (isC d) (fun t => t.coreLoad c ((t.core c).gr a + imm.signExtend 64) 8 (.cld d)))

/-- CLDP (R174, R175). -/
def execCldp (c : CoreId) (d a : BitVec 5) (st : BitVec 3) (s : State) : Host.Outcome State Fault Refusal := done (s.laneMem c .cldp d a 0 st)

/-- CST (R174, R175). -/
def execCst (c : CoreId) (d a : BitVec 5) (st : BitVec 3) (s : State) : Host.Outcome State Fault Refusal := 
  done (s.laneIssue c (isC d && !st.getLsbD 0 && !st.getLsbD 1) (fun t => t.coreStore c ((t.core c).gr a) 8 ((t.core c).cr d.toNat)))

/-- CMACM (R171, R174, R175). -/
def execCmacm (c : CoreId) (d a b : BitVec 5) (st : BitVec 3) (s : State) : Host.Outcome State Fault Refusal := done (s.laneMem c .cmacm d a b st)

/-- CMACR (R171, R174, R175). -/
def execCmacr (c : CoreId) (d a b : BitVec 5) (st : BitVec 3) (s : State) : Host.Outcome State Fault Refusal := done (s.laneMem c .cmacr d a b st)

/-- DOT8M (R171, R174, R175). -/
def execDot8m (c : CoreId) (d a b : BitVec 5) (st : BitVec 3) (s : State) : Host.Outcome State Fault Refusal := done (s.laneMem c .dot8m d a b st)

/-- DOT8MSU (R171, R174, R175). -/
def execDot8msu (c : CoreId) (d a b : BitVec 5) (st : BitVec 3) (s : State) : Host.Outcome State Fault Refusal := done (s.laneMem c .dot8msu d a b st)

end Sys2Proof.Machine
end

