-- ==== Sys2Proof/Machine/Lanes.lean ====
section
/-! DEFINITION. Machine/Lanes.lean: lanes at work: taps, electrical idle and the fast exit, cold training, loopbacks and test patterns (15_lace_lanes.md). n is a
global link, l one of its lanes. -/
namespace Sys2Proof.Machine

/-- A lane's stored state, and what its receiver does: 0 active, 1 idle hold, 2 looking for COM. -/
def State.lanePhase (s : State) (n l : Nat) : Nat := tabGet natZero (s.link n).rx l
def State.setLanePhase (s : State) (n l c : Nat) : State := s.onLink n (fun x => { x with rx := tabPut natZero l c x.rx })

/-- Lane l of link n carries symbols: trained, and not failed since. -/
def State.laneUp (s : State) (n l : Nat) : Bool := s.laneSt n l == 3

/-- The trained rate allows electrical idle: fast exit is not used at 1.25 Gbaud (R398). -/
def State.fastRate (s : State) (n : Nat) : Bool := s.fld (lreg R.LACE_PHY_STAT n) F.LACE_PHY_STAT.RATE != 4

/-- LACE_TX_WRITE (R391, R392). -/
def execLaceTxWrite (i : Ini) (n : Fin 48) (l : Fin 4) (v : W32) (s : State) : Host.Outcome State Fault Refusal :=
  done (s.regWrite i (lnreg R.LACE_TX n.val l.val) v)

/-! ### Electrical idle and fast exit (R395–R400) -/

/-- LANE_IDLE_ENTER (R395): the lanes of link n, whose link layer has requested it, send EIE and enter idle. -/
def execLaneIdleEnter (n : Fin 48) (s : State) : Host.Outcome State Fault Refusal :=
  done (if s.linkSt n.val = 2 ∧ (s.link n.val).idleReq ∧ s.fastRate n.val then
    (s.lanesSend n.val setEIE).onLink n.val (fun x => { x with tx := true })
  else s)

/-- LANE_EIE_RECEIVE (R395): an EIE set takes the receiver into idle hold. -/
def execLaneEieReceive (n : Fin 48) (l : Fin 4) (s : State) : Host.Outcome State Fault Refusal :=
  done (if s.laneUp n.val l.val ∧ s.lanePhase n.val l.val = 0 then s.setLanePhase n.val l.val 1 else s)

/-- LANE_EXIT (R386, R397): the transmitter leaves idle with the fast-exit burst, at negative running disparity, once the link layer has something to send. -/
def execLaneExit (n : Fin 48) (s : State) : Host.Outcome State Fault Refusal :=
  let x := s.link n.val
  done (if x.tx ∧ !x.idleReq then (s.onLink n.val (fun x => { x with tx := false, txRd := [], slots := 0, skipped := false })).lanesSend n.val setBurst else s)

/-- LANE_SQUELCH_EXIT (R395, R400): in idle hold, squelch reports exit and the receiver looks for COM. -/
def execLaneSquelchExit (n : Fin 48) (l : Fin 4) (s : State) : Host.Outcome State Fault Refusal :=
  done (if s.laneUp n.val l.val ∧ s.lanePhase n.val l.val = 1 then s.setLanePhase n.val l.val 2 else s)

/-- LANE_EXIT_ALIGNED (R398): every lane that carries symbols has aligned after the burst. -/
def execLaneExitAligned (n : Fin 48) (s : State) : Host.Outcome State Fault Refusal :=
  let ls := [0, 1, 2, 3].filter (s.laneUp n.val)
  done (if !ls.isEmpty ∧ ls.all (fun i => s.lanePhase n.val i == 2) then
    (s.onLink n.val (fun x => { x with rx := [] })).advSat (lreg R.LACE_EXITS n.val) F.LACE_EXITS.FAST 1
  else s)

/-- A lane no longer passes good symbols: it reports to the fault manager, and the link layer asks for retraining (R399, R410, R424). -/
def State.laneLost (s : State) (n l bit : Nat) : State :=
  let a := lreg R.LACE_PHY_STAT n
  let s1 := (s.putBit (lreg R.LACE_PHY_EVT n) (bit + l) true).putBit a (4 + l) false
  ((s1.setFld (lnreg R.LACE_LNSTAT n l) F.LACE_LNSTAT.LOCK 0).laceTransient n l 1).wantRetrain n

/-- LANE_EXIT_FAIL (R399): a lane is not aligned in time. -/
def execLaneExitFail (n : Fin 48) (l : Fin 4) (s : State) : Host.Outcome State Fault Refusal :=
  done (if s.laneUp n.val l.val ∧ s.lanePhase n.val l.val = 2 then
    (((s.setLaneSt n.val l.val 6).setLanePhase n.val l.val 0).putBit (lreg R.LACE_PHY_STAT n.val) (8 + l.val) false).laneLost n.val l.val 4
  else s)

/-- LANE_FALSE_EXIT (R400): no COM has come. -/
def execLaneFalseExit (n : Fin 48) (l : Fin 4) (s : State) : Host.Outcome State Fault Refusal :=
  done (if s.laneUp n.val l.val ∧ s.lanePhase n.val l.val = 2 then
    (s.setLanePhase n.val l.val 1).advSat (lreg R.LACE_EXITS n.val) F.LACE_EXITS.FALSE 1
  else s)

/-- LANE_LOCK_LOST (R410, "If a lane loses lock while ACTIVE"). -/
def execLaneLockLost (n : Fin 48) (l : Fin 4) (s : State) : Host.Outcome State Fault Refusal :=
  done (if s.laneUp n.val l.val ∧ s.lanePhase n.val l.val = 0 then s.laneLost n.val l.val 0 else s)

/-- Lanes of link n that carry SKIP sets: the active ones of a link that is UP and not idle, and those that fill with D10.2 after an LPB set (R389, R408). -/
def State.skipLanes (s : State) (n : Nat) : List Nat :=
  let x := s.link n
  if s.linkSt n = 2 then (if x.tx then [] else s.activeLanes n) else bitsOf x.lpb 4

/-- SKIP_SET_SEND (R386, R389, R408): beside its packets the link has sent fill in idle symbol slots since the last set; after 4,096 slots, and for the first set after
training or a fast exit no later, a set goes out on every lane, between two symbols. IDL fills a link, in pairs without effect on the disparity; D10.2 has none. -/
def execSkipSetSend (n : Fin 48) (idle : Nat) (s : State) : Host.Outcome State Fault Refusal :=
  let x := s.link n.val
  let ls := s.skipLanes n.val
  let gone := x.slots + idle
  done (if ls.isEmpty ∨ (x.skipped ∧ gone < 4096) then s
  else
    let fill := if s.linkSt n.val = 2 then List.replicate (idle % 2) symIDL else []
    s.onLink n.val (fun x => { (x.sendsOn ls fill).sendsOn ls setSKIP with slots := if x.skipped then gone - 4096 else 0, skipped := true }))

/-- SKIP_SET_RECEIVE (R386, R387, R389): groups are those that lane l has received since the last set, with the set's own: each is judged. The elastic buffer takes the set,
and drops it before the link layer. -/
def execSkipSetReceive (n : Fin 48) (l : Fin 4) (groups : List (BitVec 10)) (s : State) : Host.Outcome State Fault Refusal :=
  done (if s.laneUp n.val l.val ∧ s.lanePhase n.val l.val = 0 then s.rxGroups n.val l.val groups else s)

/-! ### Cold training (R401–R404) -/

/-- A link whose lanes are to train: in TRAINING or RETRAIN, or in test mode 7. -/
def State.trains (s : State) (n : Nat) : Bool :=
  s.linkSt n == 1 || s.linkSt n == 3 || s.fld (lreg R.LACE_TEST n) F.LACE_TEST.MODE == 7

/-- TRAIN_START (R401, R413, R425): cold training starts where none runs; where the link is UP, because the peer has started it. -/
def execTrainStart (n : Fin 48) (s : State) : Host.Outcome State Fault Refusal :=
  if s.linkSt n.val = 2 then done (s.linkRetrain n.val)
  else if s.trains n.val ∧ (s.link n.val).phase = 0 then
    done (s.trainStart n.val (if s.linkSt n.val = 0 then s.fld (lreg R.LACE_TEST n.val) F.LACE_TEST.LANES else 15))
  else done s

def noAgree (_ : Nat) : Option TrainSet × Nat := (none, 0)

/-- TS2 in a row whose fields agree, with the one that lane l receives now (R401). -/
def Link.agrees (x : Link) (l : Nat) (ts : TrainSet) : Link :=
  let p := tabGet noAgree x.agree l
  { x with agree := tabPut noAgree l (if !ts.ts2 then (none, 0) else if p.1 = some ts then (p.1, p.2 + 1) else (some ts, 1)) x.agree }

/-- Lane l hears the number of the lane that sends to it. -/
def Link.hears (x : Link) (l : Nat) (ts : TrainSet) : Link := { x with heard := tabPut natZero l (ts.lane.val + 1) x.heard }

/-- Lane l's receiver has reached the goal of the phase, symbol lock or adaptation, with the first set of the phase that it takes (DESIGN CHOICE,
notes/assumptions/57.md): the lane sends TS2 from here on (R401). -/
def State.reachGoal (s : State) (n l : Nat) : State :=
  if (tabGet noGoal (s.link n).goal l).isSome then s
  else
    let t := s.onLink n (fun x => { x with goal := tabPut noGoal l (some (s.linkDtb n)) x.goal })
    (if (s.link n).phase = 2 then t.adapt n l else t).sendTs n true l

/-- Lane l takes the fields of a TS1 or TS2 of the phase that runs (R390, R401, R402). -/
def State.tsFields (s : State) (n l : Nat) (ts : TrainSet) (inverted : Bool) : State :=
  let x := s.link n
  let a := lnreg R.LACE_LNSTAT n l
  if x.phase = 1 ∧ ts.phase = 0 then
    let p := BitVec.ofNat 32 (ts.pkg.toNat + 256 * ts.link.toNat + 65536 * ts.rates.toNat + 2 ^ 20 * ts.warden.toNat + 2 ^ 21 * ts.felAllow.toNat + 2 ^ 31)
    let s1 := ((s.wr (lreg R.LACE_PEER n) p).setFld a F.LACE_LNSTAT.LOCK 1).setFld a F.LACE_LNSTAT.POLINV inverted.toNat
    ((s1.putBit (lreg R.LACE_PHY_STAT n) (4 + l) true).onLink n (fun y => (y.agrees l ts).hears l ts)).reachGoal n l
  else if x.phase = 2 ∧ ts.phase.toNat = s.trainBit n then
    (((s.setFld a F.LACE_LNSTAT.LOCK 1).putBit (lreg R.LACE_PHY_STAT n) (4 + l) true).onLink n (fun y => y.agrees l ts)).reachGoal n l
  else s

/-- TS_RECEIVE (R386, R390, R401, R402): groups are those that lane l has received up to the end of the set: each is judged; then the set's fields are taken. -/
def execTsReceive (n : Fin 48) (l : Fin 4) (ts : TrainSet) (inverted : Bool) (groups : List (BitVec 10)) (s : State) : Host.Outcome State Fault Refusal :=
  done (if (s.link n.val).part.testBit l.val then (s.rxGroups n.val l.val groups).tsFields n.val l.val ts inverted else s)

/-- DTB ticks in which a lane sends 16 sets of 16 symbols at the rate in force (R382, R401). -/
def State.setsTime (s : State) (n : Nat) : Nat :=
  match s.fld (lreg R.LACE_PHY_STAT n) F.LACE_PHY_STAT.RATE with
  | 1 => 13
  | 2 => 26
  | 3 => 52
  | _ => 205

/-- Lane i has sent 16 TS2 (R401). -/
def State.sentTs2 (s : State) (n i : Nat) : Bool :=
  match tabGet noGoal (s.link n).goal i with
  | some d => decide (d.toNat + s.setsTime n ≤ (s.linkDtb n).toNat)
  | none => false

/-- Lanes that take part, have heard their peer, have sent 16 TS2, and have received 8 TS2 in a row that agree: they have completed the phase (R401). -/
def State.heardIn (s : State) (n : Nat) : List Nat :=
  let x := s.link n
  (bitsOf x.part 4).filter (fun i => tabGet natZero x.heard i != 0 && s.sentTs2 n i && decide (8 ≤ (tabGet noAgree x.agree i).2))

/-- TRAIN_NEGOTIATE_DONE (R402): every lane that takes part has completed NEGOTIATE. -/
def execTrainNegotiateDone (n : Fin 48) (s : State) : Host.Outcome State Fault Refusal :=
  let ls := s.heardIn n.val
  done (if (s.link n.val).phase = 1 ∧ maskOf ls = (s.link n.val).part then s.negotiated n.val ls else s)

/-- TRAIN_RATE_DONE (R403): every lane completes the attempt. -/
def execTrainRateDone (n : Fin 48) (s : State) : Host.Outcome State Fault Refusal :=
  let ls := s.heardIn n.val
  done (if (s.link n.val).phase = 2 ∧ maskOf ls = (s.link n.val).part then s.attemptOver n.val ls else s)

/-- TRAIN_TIMEOUT (R402–R404): TMO has passed; the lanes that have completed the phase or the attempt go on. -/
def execTrainTimeout (n : Fin 48) (s : State) : Host.Outcome State Fault Refusal :=
  let x := s.link n.val
  let ls := s.heardIn n.val
  done (if (s.linkDtb n.val).toNat < x.began.toNat + s.trainTmo n.val then s
  else if x.phase = 1 then s.negotiated n.val ls
  else if x.phase = 2 then s.attemptOver n.val ls
  else s)

/-! ### Tests (R405–R409) -/

/-- LACE_TEST_START (R405, R406). -/
def execLaceTestStart (i : Ini) (n : Fin 48) (v : W32) (s : State) : Host.Outcome State Fault Refusal := done (s.regWrite i (lreg R.LACE_TEST n.val) v)

/-- LACE_TEST_END (R405): a write with MODE 0. -/
def execLaceTestEnd (i : Ini) (n : Fin 48) (v : W32) (s : State) : Host.Outcome State Fault Refusal := done (s.regWrite i (lreg R.LACE_TEST n.val) (v &&& 0xFFFFFF78))

/-- LACE_TEST_LPB (R408): a write that sets LPB and leaves MODE at 7. -/
def execLaceTestLpb (i : Ini) (n : Fin 48) (v : W32) (s : State) : Host.Outcome State Fault Refusal := done (s.regWrite i (lreg R.LACE_TEST n.val) (v ||| 0x87))

/-- LPB_RECEIVE (R407): a lane that receives symbols enters far-end loopback, or ignores the set. -/
def execLpbReceive (n : Fin 48) (l : Fin 4) (s : State) : Host.Outcome State Fault Refusal :=
  done (if !s.laneUp n.val l.val then s
  else if s.linkSt n.val = 0 ∧ s.on (lreg R.LACE_PHY_CFG n.val) F.LACE_PHY_CFG.FEL_ALLOW then
    (s.setLaneSt n.val l.val 7).onLink n.val (fun x => { x with fel := x.fel ||| 2 ^ l.val })
  else s.putBit (lreg R.LACE_PHY_EVT n.val) 19 true)

/-- FEL_END (R407): the receiver has seen electrical idle for 1 µs. -/
def execFelEnd (n : Fin 48) (l : Fin 4) (s : State) : Host.Outcome State Fault Refusal :=
  done (if (s.link n.val).fel.testBit l.val then
    ((s.setLaneSt n.val l.val 0).laneDark n.val l.val).onLink n.val (fun y => { y with fel := y.fel &&& (15 - 2 ^ l.val) })
  else s)

/-- PRBS_BITS_READ (R409). -/
def execPrbsBitsRead (i : Ini) (n : Fin 48) (l : Fin 4) (s : State) : Host.Outcome State Fault Refusal :=
  done (s.regReadCmd i (lnreg R.LACE_PRBS_BITS_LO n.val l.val))

/-- The order of a PRBS and its second tap (R409). -/
def prbsTaps (p : Nat) : Nat × Nat := if p = 0 then (7, 6) else if p = 1 then (15, 14) else if p = 2 then (23, 18) else (31, 28)

/-- A fixed pattern, in the order it is sent (R409). -/
def fixedPat (p : Nat) (pat : W32) : List Bool :=
  if p = 4 then [true, false]
  else if p = 5 then [true, true, true, true, true, false, false, false, false, false]
  else (List.range 20).map pat.getLsbD

/-- A checker that has no synchronisation takes one bit; the Bool says that it has it now. Newest bits stand first; a synchronised fixed pattern is kept in the order
in which its bits are expected. -/
def Prbs.seed (p : Nat) (pat : W32) (x : Prbs) (b : Bool) : Prbs × Bool :=
  let r := b :: x.reg
  if p < 4 then (⟨r, []⟩, r.length == (prbsTaps p).1)
  else
    let f := fixedPat p pat
    if r.take f.length == f.reverse then (⟨f, []⟩, true) else (⟨r.take f.length, []⟩, false)

/-- The bit a synchronised checker expects, and the checker behind it. -/
def Prbs.expect (p : Nat) (x : Prbs) : Bool × List Bool :=
  if p < 4 then
    let t := prbsTaps p
    let b := (x.reg.getD (t.1 - 1) false) != (x.reg.getD (t.2 - 1) false)
    (b, (b :: x.reg).take t.1)
  else (x.reg.headD false, x.reg.drop 1 ++ x.reg.take 1)

/-- The PATTERN in force; 7 is treated as 3. -/
def State.testPattern (s : State) (n : Nat) : Nat :=
  let p := s.fld (lreg R.LACE_TEST n) F.LACE_TEST.PATTERN
  if p = 7 then 3 else p

def noPrbs (_ : Nat) : Prbs := ⟨[], []⟩

/-- One received bit at the checker of lane l (R409): 8 errors in 64 bits end the synchronisation, and the counts are kept. -/
def State.prbsBit (s : State) (n l : Nat) (b : Bool) : State :=
  let k := 4 * n + l
  let p := s.testPattern n
  let a := lnreg R.LACE_LNSTAT n l
  let x := tabGet noPrbs s.io.lace.prbs k
  let put (t : State) (y : Prbs) : State := t.withLace { t.io.lace with prbs := tabPut noPrbs k y t.io.lace.prbs }
  if s.on a F.LACE_LNSTAT.PRBS_SYNC then
    let e := x.expect p
    let bad := b != e.1
    let errs := (bad :: x.errs).take 64
    let s1 := s.withLace { s.io.lace with bits := tabPut wordZero k (tabGet wordZero s.io.lace.bits k + 1) s.io.lace.bits }
    let s2 := if bad then s1.advSat (lnreg R.LACE_PRBS_ERR n l) F.LACE_PRBS_ERR.ERRORS 1 else s1
    if 8 ≤ (errs.filter id).length then put (s2.setFld a F.LACE_LNSTAT.PRBS_SYNC 0) ⟨[], []⟩ else put s2 ⟨e.2, errs⟩
  else
    let q := x.seed p (s.rd (lreg R.LACE_TEST_PAT n)) b
    put (if q.2 then s.setFld a F.LACE_LNSTAT.PRBS_SYNC 1 else s) q.1

def noBits (_ : Nat) : List Bool := []

/-- What a generator of pattern p sends next, n bits of it, and the generator behind them. -/
def genRun (p : Nat) : Nat → List Bool → List Bool × List Bool
  | 0, g => ([], g)
  | n + 1, g =>
    let e := Prbs.expect p ⟨g, []⟩
    let r := genRun p n e.2
    (e.1 :: r.1, r.2)

/-- A generator that has sent nothing: the start of a fixed pattern, or a free value of a PRBS that is not all zeros. -/
def State.genStart (s : State) (n : Nat) : State × List Bool :=
  let p := s.testPattern n
  if p < 4 then
    let g := (List.range (prbsTaps p).1).map s.draw.getLsbD
    (s.drawn, if g.contains true then g else true :: g.drop 1)
  else (s, fixedPat p (s.rd (lreg R.LACE_TEST_PAT n)))

/-- Lane l's generator sends k bits (R406, R409). -/
def State.looped (s : State) (n l k : Nat) : State × List Bool :=
  let i := 4 * n + l
  let g := tabGet noBits s.io.lace.gens i
  let t := if g = [] then s.genStart n else (s, g)
  let r := genRun (s.testPattern n) k t.2
  (t.1.withLace { t.1.io.lace with gens := tabPut noBits i r.2 t.1.io.lace.gens }, r.1)

/-- The last ten bits that lane l has sent uncoded, after these, newest last. -/
def Link.sendsBits (x : Link) (l : Nat) (bits : List Bool) : Link :=
  { x with wire := tabPut wireIdle l (bits.foldl (fun w b => (w <<< 1) ||| BitVec.ofNat 10 b.toNat) (tabGet wireIdle x.wire l)) x.wire }

/-- Lane l of link n retransmits what it receives: MODE 3, or the far end's loopback (R406, R407). -/
def State.loopsBack (s : State) (n l : Nat) : Bool := s.fld (lreg R.LACE_TEST n) F.LACE_TEST.MODE == 3 || (s.link n).fel.testBit l

/-- PRBS_CHECKER_SYNC (R406, R409): as many bits as these pass on lane l. Where the generator runs, it sends as many; a near-end loopback brings them to the checker, else the
checker, where it runs, takes the bits received; a far-end loopback sends these on. The transmitter balls stay idle in a near-end loopback. -/
def execPrbsCheckerSync (n : Fin 48) (l : Fin 4) (bits : List Bool) (s : State) : Host.Outcome State Fault Refusal :=
  let m := s.fld (lreg R.LACE_TEST n.val) F.LACE_TEST.MODE
  let near := m = 1 ∨ m = 2
  done (if s.laneSt n.val l.val ≠ 7 then s
  else if s.loopsBack n.val l.val then s.onLink n.val (fun x => x.sendsBits l.val bits)
  else
    let p := if near ∨ m = 4 ∨ m = 6 then s.looped n.val l.val bits.length else (s, [])
    let t := if m = 4 ∨ m = 6 then p.1.onLink n.val (fun x => x.sendsBits l.val p.2) else p.1
    if near ∨ m = 5 ∨ m = 6 then (if near then p.2 else bits).foldl (fun u b => u.prbsBit n.val l.val b) t else t)

end Sys2Proof.Machine
end

