-- ==== Sys2Proof/Machine/Links.lean ====
section
/-! DEFINITION. Machine/Links.lean: the link layer: packets that arrive, timers, commands, the warden, the cluster's registers and its answers (16_lace_links.md).
n is a global link. -/
namespace Sys2Proof.Machine

/-! ### Actions of a link's registers -/

/-- LINK_ENABLE (R413): a write of LACE_LCFG that sets EN. -/
def execLinkEnable (i : Ini) (n : Fin 48) (v : W32) (s : State) : Host.Outcome State Fault Refusal := done (s.regWrite i (lreg R.LACE_LCFG n.val) (v ||| 1))

/-- LINK_DISABLE (R413, R434): a write of LACE_LCFG that clears EN. -/
def execLinkDisable (i : Ini) (n : Fin 48) (v : W32) (s : State) : Host.Outcome State Fault Refusal :=
  done (s.regWrite i (lreg R.LACE_LCFG n.val) (v &&& 0xFFFFFFFE))

/-- LINK_RETRAIN_CMD (R425). -/
def execLinkRetrainCmd (i : Ini) (n : Fin 48) (s : State) : Host.Outcome State Fault Refusal := done (s.regWrite i (lreg R.LACE_LCTL n.val) 1)

/-- LINK_SWAP_CMD (R426). -/
def execLinkSwapCmd (i : Ini) (n : Fin 48) (s : State) : Host.Outcome State Fault Refusal := done (s.regWrite i (lreg R.LACE_LCTL n.val) 2)

/-- LINK_RETIRE_CMD (R434). -/
def execLinkRetireCmd (i : Ini) (n : Fin 48) (s : State) : Host.Outcome State Fault Refusal := done (s.regWrite i (lreg R.LACE_LCTL n.val) 4)

/-- LINK_READMIT_CMD (R450). -/
def execLinkReadmitCmd (i : Ini) (n : Fin 48) (s : State) : Host.Outcome State Fault Refusal := done (s.regWrite i (lreg R.LACE_LCTL n.val) 8)

/-- PKG_ID_WRITE (R427). -/
def execPkgIdWrite (i : Ini) (v : W32) (s : State) : Host.Outcome State Fault Refusal := done (s.regWrite i R.LACE_PKG v)

/-- ROUTE_WRITE (R428). -/
def execRouteWrite (i : Ini) (p : BitVec 8) (v : W32) (s : State) : Host.Outcome State Fault Refusal := done (s.regWrite i (R.LACE_RT p.toNat) v)

/-- WINDOW_WRITE (R428, R432): the LO or the HI word of descriptor w. -/
def execWindowWrite (i : Ini) (w : Fin 64) (hi : Bool) (v : W32) (s : State) : Host.Outcome State Fault Refusal :=
  done (s.regWrite i (if hi then R.LACE_WIN_HI w.val else R.LACE_WIN_LO w.val) v)

/-! ### Packets that arrive (R414–R422) -/

/-- The link layer receives symbols: no lane of the link is in idle hold, looking for COM, or in EXITFAIL (R395, R399, R400). -/
def State.linkHears (s : State) (n : Nat) : Bool :=
  (bitsOf (s.link n).part 4).all (fun i => s.laneSt n i == 8 || (s.laneSt n i == 3 && tabGet natZero (s.link n).rx i == 0))

/-- No lane passes every symbol marked bad (R410, "If a lane loses lock while ACTIVE"). -/
def State.linkClean (s : State) (n : Nat) : Bool :=
  (bitsOf (s.link n).part 4).all (fun i => s.laneSt n i == 8 || s.on (lnreg R.LACE_LNSTAT n i) F.LACE_LNSTAT.LOCK)

/-- A packet that came as these groups on the lanes holds no symbol marked bad (R386, R418). -/
def State.rxGood (s : State) (n : Nat) (rx : List (List (BitVec 10))) : Bool := s.linkClean n && !s.rxBad n rx

/-- What a good packet's header says. -/
def State.takeHdr (s : State) (n : Nat) (h : LHdr) : State := s.hdrIn n h.ackv h.nak h.ackseq.toNat h.cvc.toNat h.credits.toNat

/-- A sequenced packet that came as these groups: the state once it is judged, and whether it is accepted. Every good packet's header counts, a duplicate's too (R415;
DEDUCED, notes/assumptions/58.md). Links receive in UP. -/
def State.linkTake (s : State) (n : Nat) (rx : List (List (BitVec 10))) (seq : Nat) (good : Bool) (h : LHdr) : State × Bool :=
  if s.linkSt n ≠ 2 ∨ !s.linkHears n then (s, false)
  else
    let ok := good && s.rxGood n rx
    let p := (s.rxLanes n rx).seqIn n seq ok
    if ok then (p.1.takeHdr n h, p.2) else p

/-- LINK_ACK_RECEIVE (R415, R419). -/
def execLinkAckReceive (n : Fin 48) (rx : List (List (BitVec 10))) (h : LHdr) (s : State) : Host.Outcome State Fault Refusal :=
  done (if s.linkSt n.val = 2 ∧ s.linkHears n.val then
    let t := s.rxLanes n.val rx
    if s.rxGood n.val rx then t.takeHdr n.val h else t
  else s)

/-- The link is UP (R413, R422): the credits are set, or across RETRAIN stand as they were and replay resumes; a retrain that has ended so is transient (R436). The end that is
not warden answers. -/
def State.linkUp (s : State) (k : Nat) (req rsp fwd : Nat) : State :=
  let st := s.linkSt k
  let now := s.linkDtb k
  let x := s.link k
  let y := { x with crIn := true, asked := none, quiet := now }
  let z := if st = 1 then { y with crReq := req, crRsp := rsp, crFwd := fwd } else y
  let t := ((s.setLink k (if x.crOut then z else z.creditOut now)).setLinkSt k 2).putBit (lreg R.LACE_LEVT k) (if st = 1 then 0 else 3) true
  if st = 1 then t.syncLive s else ((t.resume k).syncLive s).laceTransient k 0xF x.retrains

/-- LINK_CREDIT_INIT_RECEIVE (R413, R415, R422): after training the peer's credits come, with the header that every packet has. -/
def execLinkCreditInitReceive (n : Fin 48) (rx : List (List (BitVec 10))) (h : LHdr) (req rsp fwd : BitVec 8) (s : State) : Host.Outcome State Fault Refusal :=
  let k := n.val
  let st := s.linkSt k
  let x := s.link k
  done (if x.phase ≠ 0 ∨ s.fld (lreg R.LACE_LSTAT k) F.LACE_LSTAT.WIDTH = 0 ∨ x.crIn ∨ !s.linkHears k ∨ (st ≠ 1 ∧ st ≠ 3) then s
  else
    let t := s.rxLanes k rx
    if s.rxGood k rx then (t.linkUp k req.toNat rsp.toNat fwd.toNat).takeHdr k h else t)

/-- A signal of another package reaches its counter (R266, R433): its handle is judged as a local one. -/
def State.remoteSig (s : State) (d : Fin 4) (p : LData) (h a : W32) : State :=
  let i : Ini := .package p.spkg d
  let l := localHandle h
  match s.handle l false with
  | .counter r => ((s.countSig i p.cls.toNat l).addCounter r a).answerPkg p.spkg (dataOrig p) p.cls.toNat 0 []
  | _ => s.answerPkg p.spkg (dataOrig p) p.cls.toNat 8 []

/-- A request of another package enters through guard 17 (R193, R431): what is refused is answered at once. -/
def State.remoteReq (s : State) (link : Nat) (d : Fin 4) (p : LData) (k : Kind) (addr : Word) (len : Nat) (posted early : Bool) (data : List Byte) (op : AtomOp) (v : Word) : State :=
  let n := if k = Kind.write then data.length else len
  let q : Req := { ini := .package p.spkg d, kind := k, addr := addr, len := n, posted := posted, early := early && (k == Kind.read || k == Kind.fetch), cls := p.cls.toNat, via := link }
  if n = 0 then s
  else
    let t := s.enter q
    if t.2.1 ≠ 0 then (if posted then t.1.notice q.ini addr t.2.1 else t.1).answerPkg p.spkg (dataOrig p) p.cls.toNat t.2.1 []
    else
      let at_ : Option (AtomOp × Word) := if k = Kind.atomic then some (op, v) else none
      t.1.withNet (t.1.net ++ [t.1.inFlight { q with cls := t.2.2 } data at_ (dataOrig p)])

/-- A tag answers an answer: sent, and not answered yet. -/
def tagIs (tag : BitVec 16) (t : Option LaceTag) : Bool :=
  match t with
  | some x => x.tag == tag && x.seq.isSome
  | none => false

/-- An answer comes back (R431, R433): it ends the request or the signal of its tag; one that nothing waits for is late. -/
def State.remoteAnswer (s : State) (tag : BitVec 16) (reason : Nat) (data : List Byte) : State :=
  match (List.range s.net.length).find? (fun k => match s.net[k]? with
      | some n => tagIs tag n.lace
      | none => false) with
  | some k =>
    match s.net[k]? with
    | some n =>
      let s1 := s.withNet (s.net.eraseIdx k)
      let s2 := if reason ≠ 0 ∧ n.req.posted then s1.notice n.req.ini n.req.addr reason else s1
      s2.respond n reason (if reason = 0 then data else [])
    | none => s
  | none =>
    match (List.range s.sigOut.length).find? (fun k => match s.sigOut[k]? with
        | some g => tagIs tag g.lace
        | none => false) with
    | some k => if reason = 0 then s.withSigOut (s.sigOut.eraseIdx k) else s.undeliverSig k reason
    | none => s.advSat R.LACE_CL_STAT F.LACE_CL_STAT.LATE 1

/-- LACE_CL_CFG.MAXHOP. -/
def State.maxHop (s : State) : Nat :=
  let m := s.fld R.LACE_CL_CFG F.LACE_CL_CFG.MAXHOP
  if m = 0 then 1 else m

/-- Link n has a packet's units free in the receive buffer of its VC, of 64 (R421). -/
def State.bufRoom (s : State) (n : Nat) (p : LData) : Bool := decide (tabGet natZero (s.link n).buf (dataVc p) + dataUnits p ≤ 64)

/-- A packet for another package is forwarded (R430): requests on FWD, answers on RSP, from the receive buffer of link n that it lies in until it leaves; discarded where HOPS
would reach MAXHOP. -/
def State.forward (s : State) (n : Nat) (p : LData) : State :=
  let next := { p with hops := p.hops + 1 }
  let vc := dataVc p
  let o : LOut := match p.body with
    | .req _ a _ _ _ _ _ _ => ⟨2, a.toNat / 4096 % 256, none, next, some (n, vc)⟩
    | .sig h _ => ⟨2, h.toNat % 256, none, next, some (n, vc)⟩
    | .resp _ _ => ⟨1, p.tag.toNat % 256, none, next, some (n, vc)⟩
  if s.maxHop ≤ p.hops.toNat + 1 then ((s.oweUnits n vc (dataUnits p)).advSat R.LACE_CL_STAT F.LACE_CL_STAT.HOPDROP 1).bounce p
  else
    let t := s.onLink n (fun x => { x with buf := tabPut natZero vc (tabGet natZero x.buf vc + dataUnits p) x.buf })
    t.withLace { t.io.lace with out := t.io.lace.out ++ [o] }

/-- LINK_DATA_RECEIVE (R418, R421, R430, R431): good says that the packet's CRC is right and it ends with EOP. One that finds its receive buffer full, which a peer never sends,
is discarded as a bad one (DESIGN CHOICE, notes/assumptions/58.md). -/
def execLinkDataReceive (n : Fin 48) (rx : List (List (BitVec 10))) (good : Bool) (seq : BitVec 12) (h : LHdr) (p : LData) (s : State) : Host.Outcome State Fault Refusal :=
  let t := s.linkTake n.val rx seq.toNat (good && s.bufRoom n.val p) h
  if !t.2 then done t.1
  else if p.dpkg.toNat ≠ s.pkgId then done (t.1.forward n.val p)
  else
    let u := t.1.oweUnits n.val (dataVc p) (dataUnits p)
    let d : Fin 4 := Fin.ofNat 4 (n.val / 12)
    match p.body with
    | .req k a len posted early data op v => done (u.remoteReq n.val d p k a len.toNat posted early data op v)
    | .sig c a => done (u.remoteSig d p c a)
    | .resp reason data => done (u.remoteAnswer p.tag reason.toNat data)

/-! ### The warden (R425, R426) -/

/-- A swap outcome takes effect at this end. -/
def State.swapOver (s : State) (n out : Nat) : State :=
  let a := lreg R.LACE_LSTAT n
  let s1 := (s.setFld a F.LACE_LSTAT.SWAP out).putBit (lreg R.LACE_LEVT n) 2 true
  if out = 1 then s1.setFld a F.LACE_LSTAT.WARDEN (1 - s1.fld a F.LACE_LSTAT.WARDEN)
  else if out = 2 then s1.setFld a F.LACE_LSTAT.WARDEN (decide (s1.pkgId < s1.fld (lreg R.LACE_PEER n) F.LACE_PEER.PKG)).toNat
  else s1

/-- The swap requests of windows up to w − 2 are decided with window w. -/
def swapsLeft (w : Nat) (l : List (Nat × Bool)) : List (Nat × Bool) := l.filter (fun x => (w + 65536 - x.1) % 65536 < 2)

/-- MGMT_MARK_RECEIVE (R426): the warden opens window w, and announces the outcome of window w − 2: 0 none. An own request of that window that the warden has not had yet,
because it waited through RETRAIN, stays to be decided. -/
def execMgmtMarkReceive (n : Fin 48) (rx : List (List (BitVec 10))) (seq : BitVec 12) (h : LHdr) (w : BitVec 16) (out : BitVec 2) (s : State) : Host.Outcome State Fault Refusal :=
  let t := s.linkTake n.val rx seq.toNat true h
  if !t.2 then done t.1
  else
    let u := t.1.onLink n.val (fun x => { x with mark := w.toNat, markAt := some (s.linkDtb n.val),
                                                 swaps := if out = 0 then x.swaps.filter (fun y => y.2 || decide ((w.toNat + 65536 - y.1) % 65536 < 2)) else swapsLeft w.toNat x.swaps })
    done (if out = 0 then u else u.swapOver n.val out.toNat)

/-- MGMT_SWAP_RECEIVE (R426): the other end's request belongs to the window of the last MARK. -/
def execMgmtSwapReceive (n : Fin 48) (rx : List (List (BitVec 10))) (seq : BitVec 12) (h : LHdr) (s : State) : Host.Outcome State Fault Refusal :=
  let t := s.linkTake n.val rx seq.toNat true h
  done (if t.2 then t.1.onLink n.val (fun x => { x with swaps := x.swaps ++ [(x.mark, false)] }) else t.1)

/-- MGMT_RETRAIN_RECEIVE (R425): the warden starts cold training. -/
def execMgmtRetrainReceive (n : Fin 48) (rx : List (List (BitVec 10))) (seq : BitVec 12) (h : LHdr) (s : State) : Host.Outcome State Fault Refusal :=
  let t := s.linkTake n.val rx seq.toNat true h
  done (if t.2 ∧ s.on (lreg R.LACE_LSTAT n.val) F.LACE_LSTAT.WARDEN then t.1.linkRetrain n.val else t.1)

/-- 10 µs have passed since the last MARK (R426). -/
def State.markDue (s : State) (n : Nat) : Bool := match (s.link n).markAt with
  | none => true
  | some t => decide (t.toNat + 1000 ≤ (s.linkDtb n).toNat)

/-- WARDEN_MARK (R426): every 10 µs the warden opens the next window and decides the one two back, REFUSED where the link is not UP. -/
def execWardenMark (n : Fin 48) (s : State) : Host.Outcome State Fault Refusal :=
  let st := s.linkSt n.val
  let x := s.link n.val
  if !s.on (lreg R.LACE_LSTAT n.val) F.LACE_LSTAT.WARDEN ∨ (st ≠ 2 ∧ st ≠ 3) ∨ !s.markDue n.val then done s
  else
    let w := (x.mark + 1) % 65536
    let due := x.swaps.filter (fun y => !((swapsLeft w x.swaps).contains y))
    let out := if due.isEmpty then 0 else if st = 3 then 3 else if due.any (·.2) && due.any (fun y => !y.2) then 2 else 1
    let t := (s.onLink n.val (fun y => { y with mark := w, markAt := some (s.linkDtb n.val), swaps := swapsLeft w y.swaps })).sendMgmt n.val (.mark w out)
    done (if out = 0 then t else t.swapOver n.val out)

/-! ### Timers -/

/-- REPLAY_TIMEOUT (R419): the oldest unacknowledged packet has waited RTO. -/
def execReplayTimeout (n : Fin 48) (s : State) : Host.Outcome State Fault Refusal :=
  let r := s.fld (lreg R.LACE_LCFG n.val) F.LACE_LCFG.RTO
  let wait := 100 * (if r = 0 then 1 else r)
  done (match (s.link n.val).replay.head? with
    | some p => if p.sentAt.toNat + wait ≤ (s.linkDtb n.val).toNat then s.replayAll n.val else s
    | none => s)

/-- RETRAIN_REQ_TIMEOUT (R425): 20 µs have passed since this end asked. -/
def execRetrainReqTimeout (n : Fin 48) (s : State) : Host.Outcome State Fault Refusal :=
  done (match (s.link n.val).asked with
    | some t => if t.toNat + 2000 ≤ (s.linkDtb n.val).toNat then (s.onLink n.val (fun x => { x with asked := none })).linkRetrain n.val else s
    | none => s)

/-- Something waits to be sent on link n. -/
def State.linkWaits (s : State) (n : Nat) : Bool :=
  let mine (t : Option LaceTag) : Bool := match t with
    | some x => x.link == some n && x.seq.isNone
    | none => false
  !(s.link n).mgmt.isEmpty || s.net.any (fun r => mine r.lace) || s.sigOut.any (fun g => mine g.lace) || s.io.lace.out.any (fun o => o.link == some n)

/-- LINK_IDLE_AFTER (R424): the direction has had nothing to send, nothing unacknowledged and nothing owed for IDLE_AFTER. -/
def execLinkIdleAfter (n : Fin 48) (s : State) : Host.Outcome State Fault Refusal :=
  let x := s.link n.val
  let after := s.fld (lreg R.LACE_LCFG n.val) F.LACE_LCFG.IDLE_AFTER
  done (if s.linkSt n.val = 2 ∧ after ≠ 0 ∧ s.fld (lreg R.LACE_PHY_STAT n.val) F.LACE_PHY_STAT.RATE ≠ 4 ∧
      x.replay.isEmpty ∧ !s.linkWaits n.val ∧ !x.owes ∧ x.quiet.toNat + after ≤ (s.linkDtb n.val).toNat then
    s.onLink n.val (fun y => { y with idleReq := true })
  else s)

/-- LACE_CL_CFG.RTMO in ticks. -/
def State.remoteTmo (s : State) : Nat :=
  let r := s.fld R.LACE_CL_CFG F.LACE_CL_CFG.RTMO
  10000 * (if r = 0 then 1 else r)

/-- REMOTE_TIMEOUT (R433): request k, or signal k, has had no answer for RTMO. -/
def execRemoteTimeout (k : Nat) (sig : Bool) (s : State) : Host.Outcome State Fault Refusal :=
  let due (t : Option LaceTag) : Bool := match t with
    | some x => decide (x.since.toNat + s.remoteTmo ≤ s.tb.master.toNat)
    | none => false
  done (if sig then
    match s.sigOut[k]? with
    | some g => if due g.lace then s.unreach.undeliverSig k 0xC else s
    | none => s
  else match s.net[k]? with
    | some n => if due n.lace then s.undeliverReq k else s
    | none => s)

end Sys2Proof.Machine
end

