-- ==== Sys2Proof/Machine/MessageBus.lean ====
section
/-! DEFINITION. Machine/MessageBus.lean: the commands of the message bus controllers and the Last matrix (20_message_bus.md), and the epoch-0 bus commands (R123, R513,
R542). -/
namespace Sys2Proof.Machine

/-- HCMD_BUS_TX (R123, R513, R542). -/
def execHcmdBusTx (s : State) : Host.Outcome State Fault Refusal := done (s.hcmdRun (· == 5) State.busTx)

/-- HCMD_BUS_RX (R123, R513, R542). -/
def execHcmdBusRx (s : State) : Host.Outcome State Fault Refusal := done (s.hcmdRun (· == 6) State.busRx)

/-- MBC_INIT_CLEAR (R504, R506): a write of MBC_CTL with INIT 0. -/
def execMbcInitClear (i : Ini) (n : Fin 8) (v : W32) (s : State) : Host.Outcome State Fault Refusal := done (s.regWrite i (R.MBC_CTL n.val) (v &&& ~~~1))

/-- MBC_INIT_SET (R506): a write of MBC_CTL with INIT 1. -/
def execMbcInitSet (i : Ini) (n : Fin 8) (v : W32) (s : State) : Host.Outcome State Fault Refusal := done (s.regWrite i (R.MBC_CTL n.val) (v ||| 1))

/-- MBC_BUS_INTEGRATED (R506): 11 consecutive recessive bits; a frame that was to be taken off the bus is off it. -/
def execMbcBusIntegrated (n : Fin 8) (s : State) : Host.Outcome State Fault Refusal :=
  if !s.mbcUp n.val || s.mbcInit n.val || (s.mbc n.val).joined || decide (2 ≤ s.mbcState n.val) then done s
  else done (((((s.untx n.val).onMbc n.val (fun m => { m with joined := true })).setAct n.val 1).offer n.val))

/-- MBC_RECOVER (R516): RECOVER is written, the other fields as they are. -/
def execMbcRecover (i : Ini) (n : Fin 8) (s : State) : Host.Outcome State Fault Refusal :=
  done (s.regWrite i (R.MBC_CTL n.val) (s.rd (R.MBC_CTL n.val) ||| 0x100))

/-- MBC_RECOVERED (R516, R523): 128 occurrences of 11 recessive bits. -/
def execMbcRecovered (n : Fin 8) (s : State) : Host.Outcome State Fault Refusal :=
  let k := n.val
  if !s.mbcUp k || s.mbcInit k || s.mbcState k != 3 then done s
  else
    let t := ((((s.setFld (R.MBC_STAT k) F.MBC_STAT.STATE 0).wr (R.MBC_ECNT k) 0).mbcEvt k 8).onMbc k (fun m => { m with joined := true })).setAct k 1
    done ((if t.lastRun k && t.lastState k == 4 then t.lastArm k true else t).offer k)

/-- MBC_TXREQ (R509). -/
def execMbcTxreq (i : Ini) (n : Fin 8) (v : W32) (s : State) : Host.Outcome State Fault Refusal := done (s.regWrite i (R.MBC_TXREQ n.val) v)

/-- MBC_TXCAN (R510). -/
def execMbcTxcan (i : Ini) (n : Fin 8) (v : W32) (s : State) : Host.Outcome State Fault Refusal := done (s.regWrite i (R.MBC_TXCAN n.val) v)

/-- The frame on offer may have started at a DTB. -/
def State.sofFits (s : State) (n : Nat) (sof : Word) : Bool :=
  match (s.mbc n).win with
  | some (a, b) => decide (a ≤ sof.toNat) && decide (sof.toNat < b)
  | none => true

/-- An attempt can end so: a frame is acknowledged, and arbitration lost, only over transceivers that are on (R506, R543). -/
def State.endFits (s : State) (n : Nat) : TxEnd → Bool
  | .ok => s.fld (R.MBC_CTL n) F.MBC_CTL.MODE == 3 || (s.txOnBus n && s.rxOnBus n)
  | .lost => s.rxOnBus n
  | .err _ _ _ _ => true

/-- MBC_TX_ATTEMPT_END (R505, R509, R510, R513–R520): the attempt of buffer b, whose SOF was at a DTB, with the loop delay it measured, none where it ended before the
FDF-to-res edge. The buffer is the one on offer, or the one that was to be sent among the requests that stood at the SOF. -/
def execMbcTxAttemptEnd (n : Fin 8) (b : Fin 33) (sof : Word) (tdcv : Option Nat) (e : TxEnd) (s : State) : Host.Outcome State Fault Refusal :=
  let k := n.val
  let t := if (s.mbc k).tx = some b.val then s else (s.untx k).offerOf k ((s.mbc k).stoodAt sof)
  if !s.mbcUp k || (t.mbc k).tx != some b.val || !t.sofFits k sof || !t.endFits k e then done s
  else
    let u := match tdcv with
      | some d => if (txFrame (t.mbc k).snap).fdf && t.bit (R.MBC_DBT k) 18 then t.setFld (R.MBC_STAT k) F.MBC_STAT.TDCV (Nat.min d 127) else t
      | none => t
    done (u.attemptEnd k b.val sof e)

/-- The controller follows the bus. -/
def State.mbcListens (s : State) (n : Nat) : Bool :=
  s.mbcUp n && !s.mbcInit n && (s.mbc n).joined && decide (s.mbcState n < 2) && s.fld (R.MBC_CTL n) F.MBC_CTL.MODE != 3 && s.rxOnBus n

/-- Another node's traffic shows that the frame INIT was to end has not started, so its request ends (R506). -/
def State.initBusy (s : State) (n : Nat) : State := if s.mbcUp n && s.mbcInit n then (s.untx n).setAct n 0 else s

/-- MBC_FRAME_RECEIVED (R511, R512, R515, R517, R520). -/
def execMbcFrameReceived (n : Fin 8) (f : CanFrame) (stamp : Word) (s : State) : Host.Outcome State Fault Refusal :=
  done (if s.mbcListens n.val then ((s.untx n.val).mbcReceive n.val f stamp).offer n.val else s.initBusy n.val)

/-- MBC_RXF_ACK (R511). -/
def execMbcRxfAck (i : Ini) (n : Fin 8) (s : State) : Host.Outcome State Fault Refusal := done (s.regWrite i (R.MBC_RXF_ACK n.val) 0)

/-- MBC_FAIL_POP (R514). -/
def execMbcFailPop (i : Ini) (n : Fin 8) (s : State) : Host.Outcome State Fault Refusal := done (s.regWrite i (R.MBC_FAIL_POP n.val) 0)

/-- What a RAM error ends or discards (R528). -/
def State.ramBad (s : State) (n : Nat) (bad : MbcBad) : State :=
  match bad with
  | .corrected => s.setFld (R.MBC_STAT n) F.MBC_STAT.RAMCE 1
  | .tx b stays =>
    if !stays then s
    else if (s.mbc n).tx = some b.val ∧ !(s.mbc n).orphan then s.onMbc n (fun m => { m with abort := some 10 })
    else if (s.waitingReqs n).contains b.val then s.reqFail n b.val 10
    else s
  | .rx fifo e stays => if !stays then s else if fifo then s.fifoLose n e.val else s.passLose n e.val
  | .engine => if s.mbcInit n then s else s.rejoin n

/-- MBC_RAM_ERROR (R528): k repeats fail before one that succeeds. -/
def execMbcRamError (n : Fin 8) (bad : MbcBad) (k : Nat) (s : State) : Host.Outcome State Fault Refusal :=
  if !s.mbcUp n.val then done s
  else
    let t := (s.ramBad n.val bad).offer n.val
    done (if bad = .corrected then t else t.bodyReport (mbcUnit n.val) k)

/-- MBC_RX_ERROR (R503, R515): an error in another node's frame, or a recessive res bit. -/
def execMbcRxError (n : Fin 8) (bad : RxBad) (s : State) : Host.Outcome State Fault Refusal :=
  let k := n.val
  if !s.mbcListens k then done (s.initBusy k)
  else
    let t := s.untx k
    let err (u : State) (e : BusErr) (data first : Bool) (more : Nat) : State :=
      (u.setLec k e data).setErr k (u.mbcTec k) (u.mbcRec k + 1 + (if first then 8 else 0) + 8 * more)
    done (match bad with
      | .err e data first more => (err t e data first more).offer k
      | .res => if t.bit (R.MBC_CTL k) 4 then (err t .form false false 0).offer k else (t.setFld (R.MBC_STAT k) F.MBC_STAT.PXE 1).rejoin k)

/-! ### The Last matrix -/

/-- LAST_RUN (R520, R521). -/
def execLastRun (i : Ini) (n : Fin 8) (mode : Fin 4) (s : State) : Host.Outcome State Fault Refusal :=
  done (s.regWrite i (R.LAST_CTL n.val) (BitVec.ofNat 32 (1 + 2 * mode.val)))

/-- LAST_STOP (R521). -/
def execLastStop (i : Ini) (n : Fin 8) (s : State) : Host.Outcome State Fault Refusal :=
  done (s.regWrite i (R.LAST_CTL n.val) (s.rd (R.LAST_CTL n.val) &&& 6))

/-- LAST_CYCLE_START (R518, R520, R522): LOCAL and SENDER at the cycle's DTB, a FOLLOWER at the reference it has received. -/
def execLastCycleStart (n : Fin 8) (s : State) : Host.Outcome State Fault Refusal :=
  let k := n.val
  let m := s.mbc k
  let st := s.lastState k
  if !s.mbcUp k || !s.lastRun k || st == 0 || st == 4 then done s
  else if s.lastMode k == 2 then
    match m.ref with
    | none => done s
    | some (row, at_) =>
      let r := match row with
        | some x => x % s.lastCycles k
        | none => (s.fld (R.LAST_STAT k) F.LAST_STAT.ROW + 1) % s.lastCycles k
      let t := s.onMbc k (fun y => { y with ref := none, refAt := at_, k := y.k + 1 })
      done ((if st = 3 then t.lastEvt k 3 else t).cycleStart k r at_)
  else if st == 3 || decide (s.heelDtb.toNat < s.lastStart k m.k) then done s
  else done ((s.onMbc k (fun y => { y with k := y.k + 1 })).cycleStart k (m.k % s.lastCycles k) (BitVec.ofNat 64 (s.lastStart k m.k)))

/-- LAST_SLOT_START (R518, R519): the next slot of the cycle, once its time has come. -/
def execLastSlotStart (n : Fin 8) (s : State) : Host.Outcome State Fault Refusal :=
  let k := n.val
  let m := s.mbc k
  if !s.mbcUp k || s.lastState k != 2 || decide (s.lastSlots k ≤ m.nextSlot) || decide (s.heelDtb.toNat < m.start.toNat + 100 * s.slotOff k m.nextSlot) then done s
  else done (s.slotStart k m.nextSlot)

/-- LAST_WINDOW_END (R514, R519). begun: the frame on offer in the window has started. -/
def execLastWindowEnd (n : Fin 8) (begun : Bool) (s : State) : Host.Outcome State Fault Refusal :=
  let k := n.val
  match (s.mbc k).openSlot with
  | none => done s
  | some c => done (if !s.mbcUp k || decide (s.heelDtb.toNat < (s.slotSpan k c).2) then s else s.windowEnd k begun)

/-- LAST_REF_TIMEOUT (R522): a reference received on the same tick is taken first. -/
def execLastRefTimeout (n : Fin 8) (s : State) : Host.Outcome State Fault Refusal :=
  let k := n.val
  let m := s.mbc k
  let due := m.refAt.toNat + 100 * s.fld (R.LAST_LEN k) F.LAST_LEN.LEN + 1000 * s.fld (R.LAST_CFG k) F.LAST_CFG.REFTMO
  if !s.mbcUp k || !s.lastRun k || s.lastMode k != 2 || !(s.lastState k == 1 || s.lastState k == 2) || m.ref.isSome || decide (s.heelDtb.toNat < due) then done s
  else done ((((s.windowEnd k true).lastEvt k 2).setLast k 3).offer k)

end Sys2Proof.Machine
end

