-- ==== Sys2Proof/Machine/Network.lean ====
section
/-! DEFINITION. Machine/Network.lean: the commands of the network, the bandwidth classes and the Awl probes (09_network.md). x is 0 for the Sole, 1 + d for
compute die d. -/
namespace Sys2Proof.Machine

/-- NOC_RT_ENABLE (R227): a write of NOC_RT_DEST with EN set. -/
def execNocRtEnable (i : Ini) (d : Fin 4) (j : Fin 17) (n : Fin 8) (dest : BitVec 6) (s : State) : Host.Outcome State Fault Refusal :=
  done (s.regWrite i (R.NOC_RT_DEST d.val j.val n.val) (0x80000000 ||| dest.setWidth 32))

/-- NOC_RT_EDIT (R228): a write of the route, or of DEST with EN as given. -/
def execNocRtEdit (i : Ini) (d : Fin 4) (j : Fin 17) (n : Fin 8) (route : Bool) (v : W32) (s : State) : Host.Outcome State Fault Refusal :=
  done (s.regWrite i (if route then R.NOC_RT_ROUTE d.val j.val n.val else R.NOC_RT_DEST d.val j.val n.val) v)

/-- BWC_WINDOW_BOUNDARY (R235, R238): at a DTB value that is a multiple of the window in force. -/
def execBwcWindowBoundary (x : Fin 5) (s : State) : Host.Outcome State Fault Refusal :=
  let c := netDie x.val
  done (if s.netUp x.val && (s.dieDtb c).toNat % s.bwcWindow c == 0 then s.bwcBoundary c else s)

/-- BWC_BUDGET_WRITE (R236, R238). -/
def execBwcBudgetWrite (i : Ini) (x : Fin 5) (cls : Fin 16) (r : Fin 4) (v : W32) (s : State) : Host.Outcome State Fault Refusal :=
  done (s.regWrite i (R.BWC_BUDGET (bwcBase (netDie x.val)) cls.val r.val) v)

/-- BWC_WINDOW_WRITE (R238). -/
def execBwcWindowWrite (i : Ini) (x : Fin 5) (v : W32) (s : State) : Host.Outcome State Fault Refusal :=
  done (s.regWrite i (R.BWC_WINDOW (bwcBase (netDie x.val))) v)

/-- AWL_MATCH (R240–R244): a packet that no request of the model is (a notice, a DTB sync, a fault event, traffic forwarded between packages) passes a port of die x, in a
direction, on a virtual channel that its kind travels on (R220, notes/assumptions/39.md). -/
def execAwlMatch (x : Fin 5) (point : BitVec 6) (port : BitVec 3) (dir : Bool) (k : Pkt) (s : State) : Host.Outcome State Fault Refusal :=
  done (if s.netUp x.val && pktFits k.kind.toNat k.vc.toNat then s.awlPass x.val point port dir k else s)

/-- AWL_TRIG_WRITE (R244). -/
def execAwlTrigWrite (i : Ini) (x : Fin 5) (p : Fin 16) (v : W32) (s : State) : Host.Outcome State Fault Refusal :=
  done (if p.val < awlCount x.val then s.regWrite i (R.AWL_TRIG (awlBase (netDie x.val)) p.val) v else s)

/-- AWL_UNFREEZE (R244). -/
def execAwlUnfreeze (i : Ini) (x : Fin 5) (s : State) : Host.Outcome State Fault Refusal :=
  done (s.regWrite i (R.AWL_STAT (awlBase (netDie x.val))) 0x10000)

/-- AWL_CFG_WRITE (R245): a write of word w of probe p. -/
def execAwlCfgWrite (i : Ini) (x : Fin 5) (p : Fin 16) (w : Fin 12) (v : W32) (s : State) : Host.Outcome State Fault Refusal :=
  done (if p.val < awlCount x.val then s.regWrite i (R.AWL_CFG (awlBase (netDie x.val)) p.val + 4 * w.val) v else s)

/-- MESH_FLIT_ERROR (R246): at a router of die d, k resends fail before one that succeeds. -/
def execMeshFlitError (d : Fin 4) (router : Fin 36) (k : Nat) (s : State) : Host.Outcome State Fault Refusal :=
  if !s.diePowered d.val then done s
  else
    let n := s.retryCount 6
    let s1 := s.advSat (R.NOC_STAT (nocBase (8 + d.val))) F.NOC_STAT.RETRY (if k < n then k + 1 else n)
    done (s1.faultOrRetry 6 (unitCode 0xA d.val) router.val k 0)

/-- WELT_FLIT_ERROR (R28, R231): on bridge b of LIVE_WELT, k resends fail before one that succeeds. -/
def execWeltFlitError (b : Fin 12) (k : Nat) (s : State) : Host.Outcome State Fault Refusal :=
  if !s.bridgeLive b.val then done s
  else
    let n := s.retryCount 7
    let s1 := s.weltRetry b.val (if k < n then k + 1 else n)
    done (s1.faultOrRetry 7 (unitCode 8 b.val) 0 k 0)

end Sys2Proof.Machine
end

