-- ==== Sys2Proof/Machine/NetworkWake.lean ====
section
/-! DEFINITION. Machine/NetworkWake.lean: the commands of the LIN controllers and of the on-die transceivers (21_lin_wake.md). -/
namespace Sys2Proof.Machine

/-! ### LIN controllers -/

/-- LIN_HEADER_SEND (R535). -/
def execLinHeaderSend (i : Ini) (n : Fin 8) (id : BitVec 6) (s : State) : Host.Outcome State Fault Refusal := done (s.regWrite i (R.LIN_HDR n.val) (id.setWidth 32))

/-- LIN_BREAK (R536): a dominant phase, which is a break from 11 bit times on, with the DTB of its start and of its end. -/
def execLinBreak (n : Fin 8) (start stamp : Word) (s : State) : Host.Outcome State Fault Refusal := 
  done (if s.linUp n.val && s.linOnBus n.val then s.linBreak n.val start stamp else s)

/-- LIN_CHAR_RECEIVE (R532–R534, R536, R541): a character by its samples, sample 0 first, true recessive. idle: the line has been recessive since the last stop sample of
the character before, which a start waits for where that sample was dominant. -/
def execLinCharReceive (n : Fin 8) (samples : BitVec 192) (cyc : Nat) (idle : Bool) (s : State) : Host.Outcome State Fault Refusal :=
  let k := n.val
  let uart := s.linMode k == 2
  let c := s.rd (R.LIN_CTL k)
  let par := if uart then fget c F.LIN_CTL.PAR else 0
  let stop2 := uart && c.getLsbD 12
  if !s.linUp k || !s.linOnBus k || ((s.lin k).low && !idle) then done s
  else match charOf samples par stop2 with
    | none => done s
    | some x =>
      let t := s.onLin k (fun y => { y with low := !lastStop samples par stop2 })
      done (if uart then t.uartGot k x else t.linChar k x.1 x.2.1 cyc)

/-- LIN_PID_RECEIVE (R537). -/
def execLinPidReceive (n : Fin 8) (s : State) : Host.Outcome State Fault Refusal := done (if s.linUp n.val then s.linAct n.val else s)

/-- LIN_RESPONSE_END (R537–R539). -/
def execLinResponseEnd (n : Fin 8) (bit : Bool) (s : State) : Host.Outcome State Fault Refusal := done (if s.linUp n.val then s.linRespEnd n.val bit else s)

/-- LIN_FRAME_TIMEOUT (R538). -/
def execLinFrameTimeout (n : Fin 8) (s : State) : Host.Outcome State Fault Refusal := done (if s.linUp n.val then s.linTimeout n.val else s)

/-- LIN_WUTX_SEND (R540). -/
def execLinWutxSend (i : Ini) (n : Fin 8) (dur : Byte) (s : State) : Host.Outcome State Fault Refusal :=
  done (s.regWrite i (R.LIN_WUTX n.val) (BitVec.ofNat 32 (1 + 256 * dur.toNat)))

/-- LIN_WUTX_END (R540): the signal has lasted its time. -/
def execLinWutxEnd (n : Fin 8) (s : State) : Host.Outcome State Fault Refusal := done (if s.linUp n.val && (s.lin n.val).waking && s.linWakeOver n.val then s.linWakeEnd n.val else s)

/-- LIN_BAUD_WRITE (R530). -/
def execLinBaudWrite (i : Ini) (n : Fin 8) (v : W32) (s : State) : Host.Outcome State Fault Refusal := done (s.regWrite i (R.LIN_BAUD n.val) v)

/-- LIN_RQ_POP (R539). -/
def execLinRqPop (i : Ini) (n : Fin 8) (s : State) : Host.Outcome State Fault Refusal := done (s.regWrite i (R.LIN_RQ_POP n.val) 0)

/-- LIN_UART_TX (R541). -/
def execLinUartTx (i : Ini) (n : Fin 8) (c : Byte) (s : State) : Host.Outcome State Fault Refusal := done (s.regWrite i (R.LIN_UART_TX n.val) (c.setWidth 32))

/-- LIN_UART_RX_POP (R541). -/
def execLinUartRxPop (i : Ini) (n : Fin 8) (s : State) : Host.Outcome State Fault Refusal := done (s.regReadCmd i (R.LIN_UART_RX n.val))

/-- LIN_UART_CHAR_SENT (R541). -/
def execLinUartCharSent (n : Fin 8) (s : State) : Host.Outcome State Fault Refusal := done (if s.linUp n.val && s.linMode n.val == 2 then s.uartSent n.val else s)

/-- LIN_SELF_CHECK_ERROR (R556): k repeats fail before one that succeeds. -/
def execLinSelfCheckError (n : Fin 8) (k : Nat) (s : State) : Host.Outcome State Fault Refusal :=
  if s.sup.heelHeld ∨ s.isRetired (linUnit n.val) then done s
  else done ((s.linEnd n.val 6).bodyReport (linUnit n.val) k)

/-! ### Transceivers: 0–3 MB0–MB3, 4–7 LN0–LN3 -/

/-- XCVR_MODE_WRITE (R543, R544): a write of WAKE_XCFGi or LIN_XCVR. -/
def execXcvrModeWrite (i : Ini) (x : Fin 8) (v : W32) (s : State) : Host.Outcome State Fault Refusal :=
  done (s.regWrite i (if x.val < 4 then R.WAKE_XCFG x.val else R.LIN_XCVR (x.val - 4)) v)

/-- XCVR_DOMINANT_TIMEOUT (R545): TXD has been dominant too long, or returns recessive. -/
def execXcvrDominantTimeout (x : Fin 8) (dominant : Bool) (s : State) : Host.Outcome State Fault Refusal :=
  let k := x.val
  let on := !s.sup.heelHeld && (if k < 4 then s.mbState k == 4 else (s.xcv k).st == 2)
  if dominant && !on then done s
  else
    let t := s.setXcv k { s.xcv k with released := dominant }
    done (if k < 4 then t.setFld (R.WAKE_XSTAT k) F.WAKE_XSTAT.DOMTO dominant.toNat else if dominant then t.linEvt (k - 4) 6 else t)

/-- An MB wake with what LASTWK says of it: 1 pattern, 2 frame, 3 FEC. -/
def State.mbWake (s : State) (x why : Nat) (detail : W32) : State :=
  (s.setFld (R.WAKE_XSTAT x) F.WAKE_XSTAT.LASTWK why).wake x detail (if why = 2 then some x else none)

/-- Whether a length in ns is taken as long enough: from hi on always, below lo never, between them as the device finds it, which is free (R547). -/
def phaseCounts (lo hi len : Nat) (free : Bool) : Bool := decide (hi ≤ len) || (decide (lo ≤ len) && free)

/-- t_WAKE in ns (R547). -/
def State.tWake (s : State) (x : Nat) : Nat := if (s.aonRd (R.WAKE_XCFG x)).getLsbD 8 then 8000000 else 1000000

/-- A dominant, a recessive and a dominant phase of lengths in ns are a wake-up pattern (R547): each counts, and the third has come to count within t_WAKE ± 5% of the start of
the first. -/
def State.patternSeen (s : State) (x d1 r d2 : Nat) : Bool :=
  let v := s.draw
  let t := d1 + r + Nat.min d2 1800
  let tw := s.tWake x
  phaseCounts 500 1800 d1 (v.getLsbD 0) && phaseCounts 500 1800 r (v.getLsbD 1) && phaseCounts 500 1800 d2 (v.getLsbD 2) &&
    (decide (100 * t ≤ 95 * tw) || (decide (100 * t ≤ 105 * tw) && v.getLsbD 3))

/-- MB_WAKE_PATTERN (R547): a pattern confirmed in STANDBY wakes, or leads to DECODING. d1, r and d2 are the lengths of its phases in ns. -/
def execMbWakePattern (x : Fin 4) (d1 r d2 : Nat) (s : State) : Host.Outcome State Fault Refusal :=
  let k := x.val
  let t := s.drawn
  if s.sup.aonHeld || s.mbState k != 1 then done s
  else if !s.patternSeen k d1 r d2 then done t
  else if (s.aonRd (R.WAKE_XCFG k)).getLsbD 4 then done ((t.advSat (R.WAKE_SWCNT k) F.WAKE_SWCNT.ENTRIES 1).mbEnter k 2)
  else done (t.mbWake k 1 (wakePattern k))

/-- LIN_BUS_WAKE (R548): a dominant phase of so many LPRC ticks has ended. -/
def execLinBusWake (x : Fin 4) (ticks : Nat) (s : State) : Host.Outcome State Fault Refusal :=
  let k := x.val
  if s.sup.aonHeld ∨ (s.xcv (4 + k)).st ≠ 1 ∨ ticks < fget (s.aonRd R.WAKE_LCFG) ⟨2 * k, 2⟩ + 2 then done s
  else done (s.wake (4 + k) (wakeIndex k) none)

/-- SW_DECODER_READY (R550, R553). -/
def execSwDecoderReady (x : Fin 4) (s : State) : Host.Outcome State Fault Refusal :=
  done (if s.mbState x.val = 2 then s.setXcv x.val { s.xcv x.val with ready := true } else s)

/-- A frame matches the filter (R551). -/
def State.swMatch (s : State) (x : Nat) (f : CanFrame) : Bool :=
  let c := s.aonRd (R.WAKE_XCFG x)
  let id := s.aonRd (R.WAKE_SWID x)
  let mask := (s.aonRd (R.WAKE_SWMASK x)).setWidth 29
  let d := leNat (f.data.take (Nat.min 8 f.dlc.toNat))
  let dm := (s.aonRd (R.WAKE_SWDATA_LO x)).toNat + 0x100000000 * (s.aonRd (R.WAKE_SWDATA_HI x)).toNat
  ((f.id ^^^ id.setWidth 29) &&& mask) == 0 && f.ide == id.getLsbD 29 && !f.rtr &&
    (!c.getLsbD 9 || (f.dlc.toNat == fget c F.WAKE_XCFG.DLC && (Nat.land d dm) != 0))

/-- FEC rises, and overflows at 32 (R550, R552). -/
def State.fecUp (s : State) (x : Nat) : State :=
  let a := R.WAKE_XSTAT x
  let t := (s.advSat (R.WAKE_SWCNT x) F.WAKE_SWCNT.ERRORS 1).setFld a F.WAKE_XSTAT.FEC (s.fld a F.WAKE_XSTAT.FEC + 1)
  if 32 ≤ s.fld a F.WAKE_XSTAT.FEC + 1 then (t.setFld a F.WAKE_XSTAT.FEC 0).mbWake x 3 (wakePattern x) else t

/-- SW_FRAME_DECODE (R550–R552). -/
def execSwFrameDecode (x : Fin 4) (f : SwFrame) (s : State) : Host.Outcome State Fault Refusal :=
  let k := x.val
  let a := R.WAKE_XSTAT k
  if s.mbState k ≠ 2 ∨ !(s.xcv k).ready then done s
  else match f with
    | .bad => done (s.fecUp k)
    | .fd => done (if (s.aonRd (R.WAKE_XCFG k)).getLsbD 5 then s.setFld a F.WAKE_XSTAT.FDSEEN 1 else s.fecUp k)
    | .valid g =>
      let t := (s.advSat (R.WAKE_SWCNT k) F.WAKE_SWCNT.FRAMES 1).setFld a F.WAKE_XSTAT.FEC (s.fld a F.WAKE_XSTAT.FEC - 1)
      if !t.swMatch k g then done t
      else
        let d := g.data.take (Nat.min 8 g.dlc.toNat)
        let idw := g.id.toNat + 0x20000000 * g.ide.toNat
        let u := ((t.wr (R.WAKE_SWCAP_ID k) (BitVec.ofNat 32 (idw + 0x80000000))).wr (R.WAKE_SWCAP_LO k) (BitVec.ofNat 32 (leNat (d.take 4)))).wr (R.WAKE_SWCAP_HI k)
          (BitVec.ofNat 32 (leNat (d.drop 4)))
        done ((u.wr (R.WAKE_SWCAP_DLC k) (g.dlc.setWidth 32)).mbWake k 2 (BitVec.ofNat 32 (idw + 0x80000000)))

/-- DECODING_SILENCE (R552): 1 s of recessive bus. -/
def execDecodingSilence (x : Fin 4) (s : State) : Host.Outcome State Fault Refusal := done (if s.mbState x.val = 2 then s.mbEnter x.val 1 else s)

end Sys2Proof.Machine
end

