-- ==== Sys2Proof/Machine/Outputs.lean ====
section
/-! DEFINITION. Machine/Outputs.lean: the commands of the output stages (18_outputs.md), of VBAT's low and overvoltage conditions (R62), and of the epoch-0 port's
outputs (R123). x is a stage: 0–39 HS00–HS39, 40–47 HB0–HB7, 48–51 HBA–HBD. -/
namespace Sys2Proof.Machine

/-! ### VBAT (R62) -/

/-- VBAT_LOW_ENTER: below 5.8 V. -/
def execVbatLowEnter (s : State) : Host.Outcome State Fault Refusal :=
  let t := s.withSup { s.sup with vbatLow := true }
  done ((if s.sup.vbatLow then t else t.putBit R.PWR_SUP_EVT 1 true).diagGate)

/-- VBAT_LOW_EXIT: above 6.2 V. -/
def execVbatLowExit (s : State) : Host.Outcome State Fault Refusal := done (s.withSup { s.sup with vbatLow := false }).diagGate

/-- VBAT_OV_ENTER: past 38 V. -/
def execVbatOvEnter (s : State) : Host.Outcome State Fault Refusal :=
  done (if s.sup.vbatOv then s else (s.ovEnter.putBit R.PWR_SUP_EVT 2 true).diagGate)

/-- VBAT_OV_EXIT: below 36 V, the 1 ms wait starts. -/
def execVbatOvExit (s : State) : Host.Outcome State Fault Refusal :=
  done (if s.sup.vbatOv then (s.withSup { s.sup with vbatOv := false, ovWait := some s.tb.body }).diagGate else s)

/-- VBAT_OV_RESTORE: 1 ms after recovery. -/
def execVbatOvRestore (s : State) : Host.Outcome State Fault Refusal :=
  done (match s.sup.ovWait with
    | some t => if s.sup.heelHeld ∨ t + 100000 ≤ s.tb.body then s.ovRestore else s
    | none => s)

/-! ### The epoch-0 commands (R123, R461) -/

/-- HCMD_OUT_SET: MODE ON, or HIGH. -/
def execHcmdOutSet (s : State) : Host.Outcome State Fault Refusal :=
  done (s.hcmdRun (· == 1) (fun t ops => t.hcmdOut ops 1 1 1 (fun _ => true) (fun u _ _ => u)))

/-- HCMD_OUT_CLEAR: MODE OFF. -/
def execHcmdOutClear (s : State) : Host.Outcome State Fault Refusal :=
  done (s.hcmdRun (· == 2) (fun t ops => t.hcmdOut ops 1 0 0 (fun _ => true) (fun u _ _ => u)))

/-- HCMD_OUT_PWM: MODE PWM, or PWM_HS, with DUTY and PERIOD. -/
def execHcmdOutPwm (s : State) : Host.Outcome State Fault Refusal :=
  done (s.hcmdRun (· == 3) (fun t ops => t.hcmdOut ops 2 2 3 pwmOk State.pwmSet))

/-! ### Drives -/

/-- HSO_CTL_WRITE (R459, R465, R474). -/
def execHsoCtlWrite (i : Ini) (n : Fin 40) (v : W32) (s : State) : Host.Outcome State Fault Refusal := done (s.regWrite i (R.HSO_CTL n.val) v)

/-- HBR_HCTL_WRITE (R476, R483). -/
def execHbrHctlWrite (i : Ini) (j : Fin 8) (v : W32) (s : State) : Host.Outcome State Fault Refusal := done (s.regWrite i (R.HBR_HCTL j.val) v)

/-- HBR_PCTL_WRITE (R478, R483). -/
def execHbrPctlWrite (i : Ini) (p : Fin 4) (v : W32) (s : State) : Host.Outcome State Fault Refusal := done (s.regWrite i (R.HBR_PCTL p.val) v)

/-- The body count, in the stage's unit, is a multiple of PERIOD: a period starts here (R458, R478). -/
def State.periodHere (s : State) (x : Nat) (d : Drive) : Bool := s.tb.body / perUnit x % d.period == 0

/-- No period of the stage runs: its last has been completed (R459). -/
def State.periodOver (s : State) (x : Nat) : Bool :=
  let y := s.stage x
  !y.inPwm x || decide (y.start + y.cur.period * perUnit x ≤ s.tb.body)

/-- The on-phase: the switches that the stage's drive closes are closed; of a pattern's target, any. -/
def State.onPhase (s : State) (x : Nat) : Bool :=
  let y := s.stage x
  y.closed != 0 && ((s.owner x).isSome || y.closed == onMask x y.cur.mode)

/-- The on-phase, or the dead time that leads into it. -/
def State.inPhase (s : State) (x : Nat) : Bool := s.onPhase x || (s.stage x).after == some (onMask x (s.stage x).cur.mode)

/-- The last on-phase has lasted its time: DUTY × PERIOD / 1,024 from its on edge, a probe pulse 40 µs (R458, R460, R466). -/
def State.phaseOver (s : State) (x : Nat) : Bool := decide ((s.stage x).onFor ≤ 1024 * (s.tb.body - (s.stage x).onAt))

/-- The drive that a period start finds, the last one written in time, and what still waits after it (R459). -/
def State.periodDrive (s : State) (x : Nat) : Drive × List (Drive × Word) :=
  let y := s.stage x
  match (y.pend.filter (fun p => decide (p.2.toNat ≤ s.heelDtb.toNat))).getLast? with
  | some p => (p.1, y.pend.filter (fun q => decide (s.heelDtb.toNat < q.2.toNat)))
  | none => (y.cur, y.pend)

/-- A period starts with a drive (R458): DUTY 1,024 closes the switch, DUTY 0 opens it; one whose on edge comes later opens it where no on-phase runs on from the last
period. -/
def State.periodStart (s : State) (x : Nat) (d : Drive) (pend : List (Drive × Word)) : State :=
  let y := s.stage x
  let runsOn := y.inPwm x && s.inPhase x && !s.phaseOver x
  let u := if turns x y.cur.mode d.mode then s.openAll x else s
  let t := u.onStage x (fun z => { z with cur := d, pend := pend, start := s.tb.body / perUnit x * perUnit x
                                          num := z.next, next := z.next + 1, fresh := d.duty != 0 && d.duty != 1024 })
  if d.duty = 1024 then (t.onStage x (fun z => { z with onAt := s.tb.body, onFor := 1024 * d.period * perUnit x, mark := none })).edgeOn x (onMask x d.mode)
  else if (d.duty = 0 ∨ d.phase ≠ 0) ∧ !runsOn then t.goTo x (offMask x d.mode) else t

/-- PWM_PERIOD_START (R458, R459, R466): where the count is a multiple of PERIOD and the last period is over, a period starts; a pending drive comes into force with the
first at its own PERIOD. -/
def execPwmPeriodStart (x : Fin 52) (s : State) : Host.Outcome State Fault Refusal :=
  let x := x.val
  let p := s.periodDrive x
  done (if s.stageBlocked x ∨ (s.owner x).isSome ∨ !s.periodOver x ∨ !pwmMode x p.1.mode ∨ !s.periodHere x p.1 then s else s.periodStart x p.1 p.2)

/-- Interval N of probe pulses (R466); 0 for none. -/
def probeN (v : W32) : Nat :=
  let n := fget v F.HSO_DCFG.PROBE_N
  if n = 0 then 0 else if n < 16 then 16 else if 1024 < n then 1024 else n

/-- The on-phase of this period is a probe pulse (R466). -/
def State.probeDue (s : State) (x : Nat) : Bool :=
  let y := s.stage x
  let n := probeN (s.rd (R.HSO_DCFG x))
  decide (x < 40) && y.inPwm x && decide (1 ≤ y.cur.duty) && !longOn x y.cur && s.onDiag x && n != 0 && y.num % n == n - 1 && y.trip == 0 && !y.first

/-- STAGE_ON_EDGE (R458, R460, R466): the on edge of this period, PHASE after its start, or one that waits for its rail: in ascending order and no sooner than 0.5 µs after the
last on edge on it. -/
def execStageOnEdge (x : Fin 52) (s : State) : Host.Outcome State Fault Refusal :=
  let x := x.val
  if !s.edgeWaits x ∨ 1024 * s.tb.body < s.edgeAt x ∨ s.edgeBehind x ∨ s.edgeBusy x then done s
  else
    let y := s.stage x
    let long := if s.probeDue x then 1024 * 4000 else y.cur.duty * y.cur.period * perUnit x
    let t := (s.goTo x (s.wantMask x)).onStage x (fun z => { z with fresh := false, onAt := s.tb.body, onFor := long, mark := none, probe := s.probeDue x })
    done (t.edged x)

/-- STAGE_OFF_EDGE (R458): the on-phase ends. -/
def execStageOffEdge (x : Fin 52) (s : State) : Host.Outcome State Fault Refusal :=
  let x := x.val
  let y := s.stage x
  done (if !y.inPwm x ∨ y.cur.duty = 1024 ∨ (s.owner x).isSome ∨ s.stageBlocked x ∨ !s.inPhase x ∨ !s.phaseOver x then s else s.goTo x (offMask x y.cur.mode))

/-- DEADTIME_END (R476, R478): the switches that wait close. -/
def execDeadtimeEnd (x : Fin 52) (s : State) : Host.Outcome State Fault Refusal :=
  let x := x.val
  done (match (s.stage x).after with
    | some m => if s.stageBlocked x ∨ s.needDead x m then s else s.onStage x (fun y => { y.move m s.tb.body with after := none })
    | none => s)

/-! ### Protection (R462, R464, R479) -/

/-- STAGE_CURRENT_LIMIT (R462): a channel or half-bridge reaches I_LIM, or its current falls below it. -/
def execStageCurrentLimit (x : Fin 48) (reached : Bool) (s : State) : Host.Outcome State Fault Refusal :=
  let x := x.val
  let y := s.stage x
  done (if reached then
    (if y.closed = 0 ∨ y.since.isSome then s else (s.setStage x { y with since := some s.heelDtb, limited := true }).setProt x 1)
  else match y.since with
    | some t => (s.setStage x { y with since := none, trip := y.trip + (s.heelDtb.toNat - t.toNat) }).setProt x 0
    | none => s)

/-- STAGE_TRIP (R462): the trip timer has come to TRIP. -/
def execStageTrip (x : Fin 48) (s : State) : Host.Outcome State Fault Refusal :=
  let x := x.val
  let y := s.stage x
  done (match y.since with
    | some t => if s.tripTime x ≤ y.trip + (s.heelDtb.toNat - t.toNat) then s.shutdown x 2 else s
    | none => s)

/-- STAGE_OVERTEMP (R462, R477): the junction of a stage that is commanded on reaches 170 °C. -/
def execStageOvertemp (x : Fin 48) (s : State) : Host.Outcome State Fault Refusal :=
  let x := x.val
  let y := s.stage x
  done (if s.stageBlocked x ∨ (y.cur.mode = 0 ∧ y.closed = 0) then s else s.shutdown x 3)

/-- STAGE_RESTART (R464): RDLY has passed, and for cause OT the junction is below 150 °C, which cool says. -/
def execStageRestart (x : Fin 52) (cool : Bool) (s : State) : Host.Outcome State Fault Refusal :=
  let x := x.val
  done (match (s.stage x).due with
    | some t => if t.toNat ≤ s.heelDtb.toNat ∧ (cool ∨ 48 ≤ x ∨ s.fld (diagReg x) F.HSO_DIAG.PROT ≠ 3) then s.restart x else s
    | none => s)

/-- RESTART_COUNT_CLEAR (R464): 1 s has passed without a shutdown. -/
def execRestartCountClear (x : Fin 52) (s : State) : Host.Outcome State Fault Refusal :=
  let x := x.val
  done (match (s.stage x).shutAt with
    | some t =>
      if s.heelDtb.toNat < t.toNat + 100000000 then s
      else
        let n := s.restarts x
        let u := (s.setFld (diagReg x) F.HSO_DIAG.RESTARTS 0).onStage x (fun y => { y with shutAt := none })
        if n = 0 ∨ s.stageRetired x then u else u.heelReport .transient ⟨u.tb.master, 0, 0xA, 1, n, 0, stageUnit x, 0, 0, 0, []⟩
    | none => s)

/-- A pre-driver fault (R479): cause 1 VDS, 2 current. -/
def State.pdFault (s : State) (p cause : Nat) : State := if s.stageBlocked (48 + p) then s else s.shutdown (48 + p) cause

/-- FET f of a pre-driver is closed, and its gate has been so for 2 µs (R479). -/
def State.vdsSeen (s : State) (x f : Nat) : Bool :=
  (s.stage x).closed.testBit f && (match tabGet noCount (s.stage x).swAt f with
    | some t => decide (t + 200 ≤ s.tb.body)
    | none => true)

/-- PD_VDS_FAULT (R479): of the closed FET f: 0 H0, 1 L0, 2 H1, 3 L1. -/
def execPdVdsFault (p f : Fin 4) (s : State) : Host.Outcome State Fault Refusal :=
  done (if s.vdsSeen (48 + p.val) f.val then
    (s.setFld (R.HBR_PSTAT p.val) F.HBR_PSTAT.VDS_FET (2 ^ f.val)).pdFault p.val 1 else s)

/-- PD_OVERCURRENT (R479, R480): off while SHUNT or OC_LIM is 0. -/
def execPdOvercurrent (p : Fin 4) (s : State) : Host.Outcome State Fault Refusal :=
  let a := R.HBR_PCFG p.val
  done (if s.on a F.HBR_PCFG.SHUNT ∧ s.on a F.HBR_PCFG.OC_LIM ∧ (s.stage (48 + p.val)).closed ≠ 0 then s.pdFault p.val 2 else s)

/-- PD_PUMP_UNDERVOLTAGE (R479). -/
def execPdPumpUndervoltage (p : Fin 4) (s : State) : Host.Outcome State Fault Refusal :=
  let x := 48 + p.val
  done (if s.sup.heelHeld then s else (s.openAll x).onStage x (fun y => { y with uv := true }))

/-- PD_PUMP_RECOVER (R479): the command is applied again, uncounted. -/
def execPdPumpRecover (p : Fin 4) (s : State) : Host.Outcome State Fault Refusal :=
  let x := 48 + p.val
  done (if (s.stage x).uv then
    let t := s.onStage x (fun y => { y with uv := false })
    if t.stageBlocked x then t else t.reapply x
  else s)

/-- The motor current in units of 10 mA: V / (SHUNT × 0.1 mΩ), V from −200 mV to 200 mV (R480). -/
def motorCurrent (uv : Int) (shunt : Nat) : Int := (Max.max (-200000) (Min.min 200000 uv)).tdiv (Int.ofNat shunt)

/-- PD_CURRENT_SAMPLE (R480): the amplifier's voltage in µV, averaged over 10 µs. A current beyond the 16 bits of CUR, for which the manual states no value, is free. -/
def execPdCurrentSample (p : Fin 4) (uv : Int) (s : State) : Host.Outcome State Fault Refusal :=
  let n := s.fld (R.HBR_PCFG p.val) F.HBR_PCFG.SHUNT
  let i := motorCurrent uv n
  done (if s.sup.heelHeld ∨ n = 0 then s
    else if -32768 ≤ i ∧ i < 32768 then s.setFld (R.HBR_PCUR p.val) F.HBR_PCUR.CUR (BitVec.ofInt 16 i).toNat
    else s.drawn.setFld (R.HBR_PCUR p.val) F.HBR_PCUR.CUR (s.draw.setWidth 16).toNat)

/-! ### Diagnosis (R466–R469) -/

/-- An on-state measurement is due (R466): 40 µs after the on edge, once in each on-phase of a period, and every 1 ms while no period runs. -/
def State.onMeasureDue (s : State) (x : Nat) : Bool :=
  let y := s.stage x
  s.onPhase x && decide (y.onAt + 4000 ≤ s.tb.body) && (match y.mark with
    | some t => !y.inPwm x && decide (t + 100000 ≤ s.tb.body)
    | none => true)

/-- An on-state measurement by a path is taken, with its sample of the current (R466, R471). -/
def State.onMeasure (s : State) (x src : Nat) (open_ : Bool) (ma : BitVec 16) : State :=
  ((s.measured x src (if open_ then 2 else 1)).sampleCur x ma).onStage x (fun z => { z with mark := some s.tb.body })

/-- HSO_ON_MEASURE (R466, R471, R477): 40 µs or more into a long on-phase; open says that the current is below the open threshold. -/
def execHsoOnMeasure (x : Fin 48) (open_ : Bool) (ma : BitVec 16) (s : State) : Host.Outcome State Fault Refusal :=
  let x := x.val
  done (if s.diagOn && s.onDiag x && longOn x (s.stage x).cur && s.onMeasureDue x then s.onMeasure x 1 open_ ma else s)

/-- HSO_PROBE_PULSE (R466): the stretched on-phase is measured at its end. -/
def execHsoProbePulse (x : Fin 40) (open_ : Bool) (ma : BitVec 16) (s : State) : Host.Outcome State Fault Refusal :=
  let x := x.val
  done (if (s.stage x).probe && s.diagOn && s.onMeasureDue x then s.onMeasure x 2 open_ ma else s)

/-- HSO_OFF_PULLUP (R466): 100 µs into the off-time. -/
def execHsoOffPullup (x : Fin 40) (s : State) : Host.Outcome State Fault Refusal :=
  let y := s.stage x.val
  done (match y.offAt with
    | some t => if s.on (R.HSO_DCFG x.val) F.HSO_DCFG.OFFDIAG && s.diagOn && y.closed == 0 && y.off == 0 && !s.stageRetired x.val && !s.sup.heelHeld &&
          decide (t + 10000 ≤ s.tb.body) then
        s.setStage x.val { y with off := 1 } else s
    | none => s)

/-- HSO_OFF_OPEN_MEASURE (R466): at 250 µs the output is compared, and the pull-up removed. -/
def execHsoOffOpenMeasure (x : Fin 40) (high : Bool) (s : State) : Host.Outcome State Fault Refusal :=
  let y := s.stage x.val
  done (match y.offAt with
    | some t => if y.off = 1 ∧ t + 25000 ≤ s.tb.body then s.setStage x.val { y with off := if high then 3 else 2 } else s
    | none => s)

/-- HSO_OFF_SHORT_MEASURE (R466): at 300 µs the result stands: SHORT_VBAT, OPEN or OK. The next measurement follows 10 ms after this one. -/
def execHsoOffShortMeasure (x : Fin 40) (high : Bool) (s : State) : Host.Outcome State Fault Refusal :=
  let y := s.stage x.val
  done (match y.offAt with
    | some t =>
      if (y.off = 2 ∨ y.off = 3) ∧ t + 30000 ≤ s.tb.body then
        let u := s.setStage x.val { y with off := 0, offAt := some (s.tb.body + 970000) }
        if s.diagOn then u.measured x.val 3 (if y.off = 2 then 1 else if high then 3 else 2) else u
      else s
    | none => s)

/-- DIAG_AGE_OUT (R468): 2 s without a measurement. -/
def execDiagAgeOut (x : Fin 48) (s : State) : Host.Outcome State Fault Refusal := done (if s.sup.heelHeld ∨ s.stageRetired x.val then s else s.untested x.val)

/-! ### Keep paths (R473, R475) -/

/-- The blink phase of a keep path by the RTC: on for BON × 256 ticks in every BPER × 16,384, counted from where the path came into service; a BON longer than the period keeps
it on (R473). -/
def State.keepLit (s : State) (k : Nat) : Bool :=
  let v := s.aonRd R.HSO_KEEP
  let bon := Nat.max 1 (fget v F.HSO_KEEP.BON)
  let per := Nat.max 1 (fget v F.HSO_KEEP.BPER)
  decide ((s.tb.rtc - (s.keep k).from_).toNat % (16384 * per) < 256 * bon)

/-- KEEP_BLINK (R473): the blink phase of HS24 (0) or HS25 (1) is taken from the RTC. -/
def execKeepBlink (k : Fin 2) (s : State) : Host.Outcome State Fault Refusal :=
  done (if (s.keep k.val).armed ∧ keepMode (s.aonRd R.HSO_KEEP) k.val = 2 then s.setKeep k.val { s.keep k.val with lit := s.keepLit k.val } else s)

/-- KEEP_TRIP (R475): 10 ms in limit. -/
def execKeepTrip (k : Fin 2) (s : State) : Host.Outcome State Fault Refusal :=
  done (if s.keepActive (s.aonRd R.HSO_KEEP) k.val then
    (s.setKeep k.val { s.keep k.val with tripped := true }).putBit R.HSO_KEEP_STAT k.val true else s)

/-! ### Patterns (R481–R483) -/

/-- PATTERN_START (R481). -/
def execPatternStart (i : Ini) (k : Fin 4) (s : State) : Host.Outcome State Fault Refusal := done (s.regWrite i (R.HBR_PATCTL k.val) 1)

/-- PATTERN_ABORT (R483). -/
def execPatternAbort (i : Ini) (k : Fin 4) (s : State) : Host.Outcome State Fault Refusal := done (s.regWrite i (R.HBR_PATCTL k.val) 2)

/-- PATTERN_STEP_TIME (R482): DUR has passed; the switch is judged first. -/
def execPatternStepTime (k : Fin 4) (s : State) : Host.Outcome State Fault Refusal :=
  let k := k.val
  done (match s.pat k with
    | some t =>
      let w := s.rd (R.HBR_PATSTEP k (s.fld (R.HBR_PATSTAT k) F.HBR_PATSTAT.STEP))
      let e := fget w F.HBR_PATSTEP.END
      let d := fget w F.HBR_PATSTEP.DUR
      if s.heelDtb.toNat < t.toNat + 100000 * (if d = 0 then 1 else d) then s
      else if e = 1 ∨ (e = 2 ∧ !s.patSwitch k) then s.patEnd k 3
      else s.patNext k 4
    | none => s)

/-- PATTERN_STALL (R482): the current has stayed above STALL for 5 ms. -/
def execPatternStall (k : Fin 4) (s : State) : Host.Outcome State Fault Refusal :=
  let k := k.val
  done (match s.pat k with
    | some t =>
      if s.fld (R.HBR_PATSTEP k (s.fld (R.HBR_PATSTAT k) F.HBR_PATSTAT.STEP)) F.HBR_PATSTEP.END = 1 ∧ t.toNat + 500000 ≤ s.heelDtb.toNat then s.patNext k 4 else s
    | none => s)

end Sys2Proof.Machine
end

