-- ==== Sys2Proof/Machine/Quecen.lean ====
section
/-! DEFINITION. Machine/Quecen.lean: the base instructions and the events of a Quecen core (06_quecen.md R139–R168). A command is the instruction
the named core executes at its next boundary. -/
namespace Sys2Proof.Machine

/-- ADD (R141). -/
def execAdd (c : CoreId) (d a b : BitVec 5) (s : State) : Host.Outcome State Fault Refusal := done (s.aluRR c d a b (· + ·))

/-- SUB (R141). -/
def execSub (c : CoreId) (d a b : BitVec 5) (s : State) : Host.Outcome State Fault Refusal := done (s.aluRR c d a b (· - ·))

/-- AND (R141). -/
def execAnd (c : CoreId) (d a b : BitVec 5) (s : State) : Host.Outcome State Fault Refusal := done (s.aluRR c d a b (· &&& ·))

/-- OR (R141). -/
def execOr (c : CoreId) (d a b : BitVec 5) (s : State) : Host.Outcome State Fault Refusal := done (s.aluRR c d a b (· ||| ·))

/-- XOR (R141). -/
def execXor (c : CoreId) (d a b : BitVec 5) (s : State) : Host.Outcome State Fault Refusal := done (s.aluRR c d a b (· ^^^ ·))

/-- SLL (R141). -/
def execSll (c : CoreId) (d a b : BitVec 5) (s : State) : Host.Outcome State Fault Refusal := done (s.aluRR c d a b (fun x y => x <<< (y.toNat % 64)))

/-- SRL (R141). -/
def execSrl (c : CoreId) (d a b : BitVec 5) (s : State) : Host.Outcome State Fault Refusal := done (s.aluRR c d a b (fun x y => x >>> (y.toNat % 64)))

/-- SRA (R141). -/
def execSra (c : CoreId) (d a b : BitVec 5) (s : State) : Host.Outcome State Fault Refusal := done (s.aluRR c d a b (fun x y => x.sshiftRight (y.toNat % 64)))

/-- SLT (R141). -/
def execSlt (c : CoreId) (d a b : BitVec 5) (s : State) : Host.Outcome State Fault Refusal := done (s.aluRR c d a b (fun x y => boolWord (x.slt y)))

/-- SLTU (R141). -/
def execSltu (c : CoreId) (d a b : BitVec 5) (s : State) : Host.Outcome State Fault Refusal := done (s.aluRR c d a b (fun x y => boolWord (x.ult y)))

/-- MIN (R141). -/
def execMin (c : CoreId) (d a b : BitVec 5) (s : State) : Host.Outcome State Fault Refusal := done (s.aluRR c d a b (fun x y => if x.slt y then x else y))

/-- MAX (R141). -/
def execMax (c : CoreId) (d a b : BitVec 5) (s : State) : Host.Outcome State Fault Refusal := done (s.aluRR c d a b (fun x y => if x.slt y then y else x))

/-- MINU (R141). -/
def execMinu (c : CoreId) (d a b : BitVec 5) (s : State) : Host.Outcome State Fault Refusal := done (s.aluRR c d a b (fun x y => if x.ult y then x else y))

/-- MAXU (R141). -/
def execMaxu (c : CoreId) (d a b : BitVec 5) (s : State) : Host.Outcome State Fault Refusal := done (s.aluRR c d a b (fun x y => if x.ult y then y else x))

/-- MUL (R141). -/
def execMul (c : CoreId) (d a b : BitVec 5) (s : State) : Host.Outcome State Fault Refusal := done (s.aluRR c d a b (· * ·))

/-- MULH (R141). -/
def execMulh (c : CoreId) (d a b : BitVec 5) (s : State) : Host.Outcome State Fault Refusal := done (s.aluRR c d a b mulhW)

/-- MULHU (R141). -/
def execMulhu (c : CoreId) (d a b : BitVec 5) (s : State) : Host.Outcome State Fault Refusal := done (s.aluRR c d a b mulhuW)

/-- DIV (R141). -/
def execDiv (c : CoreId) (d a b : BitVec 5) (s : State) : Host.Outcome State Fault Refusal := done (s.aluRR c d a b sdivW)

/-- DIVU (R141). -/
def execDivu (c : CoreId) (d a b : BitVec 5) (s : State) : Host.Outcome State Fault Refusal := done (s.aluRR c d a b udivW)

/-- REM (R141). -/
def execRem (c : CoreId) (d a b : BitVec 5) (s : State) : Host.Outcome State Fault Refusal := done (s.aluRR c d a b sremW)

/-- REMU (R141). -/
def execRemu (c : CoreId) (d a b : BitVec 5) (s : State) : Host.Outcome State Fault Refusal := done (s.aluRR c d a b uremW)

/-- CLZ (R141). -/
def execClz (c : CoreId) (d a : BitVec 5) (s : State) : Host.Outcome State Fault Refusal := done (s.simple c (fun x => x.setGr d (clz (x.gr a))))

/-- CTZ (R141). -/
def execCtz (c : CoreId) (d a : BitVec 5) (s : State) : Host.Outcome State Fault Refusal := done (s.simple c (fun x => x.setGr d (ctz (x.gr a))))

/-- POPC (R141). -/
def execPopc (c : CoreId) (d a : BitVec 5) (s : State) : Host.Outcome State Fault Refusal := done (s.simple c (fun x => x.setGr d (popc (x.gr a))))

/-- ADDW (R141). -/
def execAddw (c : CoreId) (d a b : BitVec 5) (s : State) : Host.Outcome State Fault Refusal := done (s.aluRR c d a b (fun x y => sext32 (x + y)))

/-- SUBW (R141). -/
def execSubw (c : CoreId) (d a b : BitVec 5) (s : State) : Host.Outcome State Fault Refusal := done (s.aluRR c d a b (fun x y => sext32 (x - y)))

/-- ADDI (R140). -/
def execAddi (c : CoreId) (d a : BitVec 5) (imm : BitVec 16) (s : State) : Host.Outcome State Fault Refusal := done (s.aluRI c d a imm (· + ·))

/-- ANDI (R140). -/
def execAndi (c : CoreId) (d a : BitVec 5) (imm : BitVec 16) (s : State) : Host.Outcome State Fault Refusal := done (s.aluRZ c d a imm (· &&& ·))

/-- ORI (R140). -/
def execOri (c : CoreId) (d a : BitVec 5) (imm : BitVec 16) (s : State) : Host.Outcome State Fault Refusal := done (s.aluRZ c d a imm (· ||| ·))

/-- XORI (R140). -/
def execXori (c : CoreId) (d a : BitVec 5) (imm : BitVec 16) (s : State) : Host.Outcome State Fault Refusal := done (s.aluRZ c d a imm (· ^^^ ·))

/-- SLLI (R140). -/
def execSlli (c : CoreId) (d a : BitVec 5) (sh : BitVec 6) (s : State) : Host.Outcome State Fault Refusal := done (s.simple c (fun x => x.setGr d (x.gr a <<< sh.toNat)))

/-- SRLI (R140). -/
def execSrli (c : CoreId) (d a : BitVec 5) (sh : BitVec 6) (s : State) : Host.Outcome State Fault Refusal := done (s.simple c (fun x => x.setGr d (x.gr a >>> sh.toNat)))

/-- SRAI (R140). -/
def execSrai (c : CoreId) (d a : BitVec 5) (sh : BitVec 6) (s : State) : Host.Outcome State Fault Refusal := done (s.simple c (fun x => x.setGr d ((x.gr a).sshiftRight sh.toNat)))

/-- SLTI (R140). -/
def execSlti (c : CoreId) (d a : BitVec 5) (imm : BitVec 16) (s : State) : Host.Outcome State Fault Refusal := done (s.aluRI c d a imm (fun x y => boolWord (x.slt y)))

/-- SLTIU (R140). -/
def execSltiu (c : CoreId) (d a : BitVec 5) (imm : BitVec 16) (s : State) : Host.Outcome State Fault Refusal := done (s.aluRI c d a imm (fun x y => boolWord (x.ult y)))

/-- LUI (R140). -/
def execLui (c : CoreId) (d : BitVec 5) (imm : BitVec 16) (s : State) : Host.Outcome State Fault Refusal := done (s.simple c (fun x => x.setGr d (imm.signExtend 64 <<< 16)))

/-- SHORI (R140). -/
def execShori (c : CoreId) (d a : BitVec 5) (imm : BitVec 16) (s : State) : Host.Outcome State Fault Refusal := done (s.aluRZ c d a imm (fun x y => (x <<< 16) ||| y))

/-- LB (R140, R142). -/
def execLb (c : CoreId) (d a : BitVec 5) (imm : BitVec 16) (s : State) : Host.Outcome State Fault Refusal := done (s.load c d a imm 1 true)

/-- LBU (R140, R142). -/
def execLbu (c : CoreId) (d a : BitVec 5) (imm : BitVec 16) (s : State) : Host.Outcome State Fault Refusal := done (s.load c d a imm 1 false)

/-- LH (R140, R142). -/
def execLh (c : CoreId) (d a : BitVec 5) (imm : BitVec 16) (s : State) : Host.Outcome State Fault Refusal := done (s.load c d a imm 2 true)

/-- LHU (R140, R142). -/
def execLhu (c : CoreId) (d a : BitVec 5) (imm : BitVec 16) (s : State) : Host.Outcome State Fault Refusal := done (s.load c d a imm 2 false)

/-- LW (R140, R142). -/
def execLw (c : CoreId) (d a : BitVec 5) (imm : BitVec 16) (s : State) : Host.Outcome State Fault Refusal := done (s.load c d a imm 4 true)

/-- LWU (R140, R142). -/
def execLwu (c : CoreId) (d a : BitVec 5) (imm : BitVec 16) (s : State) : Host.Outcome State Fault Refusal := done (s.load c d a imm 4 false)

/-- LD (R140, R142). -/
def execLd (c : CoreId) (d a : BitVec 5) (imm : BitVec 16) (s : State) : Host.Outcome State Fault Refusal := done (s.load c d a imm 8 true)

/-- SB (R140, R143). -/
def execSb (c : CoreId) (d a : BitVec 5) (imm : BitVec 16) (s : State) : Host.Outcome State Fault Refusal := done (s.store c d a imm 1)

/-- SH (R140, R143). -/
def execSh (c : CoreId) (d a : BitVec 5) (imm : BitVec 16) (s : State) : Host.Outcome State Fault Refusal := done (s.store c d a imm 2)

/-- SW (R140, R143). -/
def execSw (c : CoreId) (d a : BitVec 5) (imm : BitVec 16) (s : State) : Host.Outcome State Fault Refusal := done (s.store c d a imm 4)

/-- SD (R140, R143). -/
def execSd (c : CoreId) (d a : BitVec 5) (imm : BitVec 16) (s : State) : Host.Outcome State Fault Refusal := done (s.store c d a imm 8)

/-- AMOADD_W (R141, R145). -/
def execAmoaddW (c : CoreId) (d a b : BitVec 5) (s : State) : Host.Outcome State Fault Refusal := 
  done (s.atomic c d a 4 (fun _ => .add) (fun x => x.gr b))

/-- AMOADD_D (R141, R145). -/
def execAmoaddD (c : CoreId) (d a b : BitVec 5) (s : State) : Host.Outcome State Fault Refusal := 
  done (s.atomic c d a 8 (fun _ => .add) (fun x => x.gr b))

/-- AMOSWAP_W (R141, R145). -/
def execAmoswapW (c : CoreId) (d a b : BitVec 5) (s : State) : Host.Outcome State Fault Refusal := 
  done (s.atomic c d a 4 (fun _ => .swap) (fun x => x.gr b))

/-- AMOSWAP_D (R141, R145). -/
def execAmoswapD (c : CoreId) (d a b : BitVec 5) (s : State) : Host.Outcome State Fault Refusal := 
  done (s.atomic c d a 8 (fun _ => .swap) (fun x => x.gr b))

/-- CAS_W (R141, R145). -/
def execCasW (c : CoreId) (d a b : BitVec 5) (s : State) : Host.Outcome State Fault Refusal := 
  done (s.atomic c d a 4 (fun x => .cas (x.gr d)) (fun x => x.gr b))

/-- CAS_D (R141, R145). -/
def execCasD (c : CoreId) (d a b : BitVec 5) (s : State) : Host.Outcome State Fault Refusal := 
  done (s.atomic c d a 8 (fun x => .cas (x.gr d)) (fun x => x.gr b))

/-- BEQ (R138, R140). -/
def execBeq (c : CoreId) (a b : BitVec 5) (off : BitVec 16) (s : State) : Host.Outcome State Fault Refusal := 
  done (s.branch c a b off (· == ·))

/-- BNE (R138, R140). -/
def execBne (c : CoreId) (a b : BitVec 5) (off : BitVec 16) (s : State) : Host.Outcome State Fault Refusal := 
  done (s.branch c a b off (· != ·))

/-- BLT (R138, R140). -/
def execBlt (c : CoreId) (a b : BitVec 5) (off : BitVec 16) (s : State) : Host.Outcome State Fault Refusal := 
  done (s.branch c a b off BitVec.slt)

/-- BGE (R138, R140). -/
def execBge (c : CoreId) (a b : BitVec 5) (off : BitVec 16) (s : State) : Host.Outcome State Fault Refusal := 
  done (s.branch c a b off (fun x y => !x.slt y))

/-- BLTU (R138, R140). -/
def execBltu (c : CoreId) (a b : BitVec 5) (off : BitVec 16) (s : State) : Host.Outcome State Fault Refusal := 
  done (s.branch c a b off BitVec.ult)

/-- BGEU (R138, R140). -/
def execBgeu (c : CoreId) (a b : BitVec 5) (off : BitVec 16) (s : State) : Host.Outcome State Fault Refusal := 
  done (s.branch c a b off (fun x y => !x.ult y))

/-- J (R140). -/
def execJ (c : CoreId) (off : BitVec 26) (s : State) : Host.Outcome State Fault Refusal := 
  done (s.issue c (fun t => t.onCore c (fun x => { x with pc := x.pc + 4 * off.signExtend 64 })))

/-- JAL (R140). -/
def execJal (c : CoreId) (off : BitVec 26) (s : State) : Host.Outcome State Fault Refusal := 
  done (s.issue c (fun t => t.onCore c (fun x => { x.setGr 31 (x.pc + 4) with pc := x.pc + 4 * off.signExtend 64 })))

/-- JALR (R140). -/
def execJalr (c : CoreId) (d a : BitVec 5) (imm : BitVec 16) (s : State) : Host.Outcome State Fault Refusal := 
  done (s.issue c (fun t => t.onCore c (fun x => { x.setGr d (x.pc + 4) with pc := (x.gr a + imm.signExtend 64) &&& ~~~3#64 })))

/-- FENCE_RW (R148: it retires once every earlier store is acknowledged or refused). -/
def execFenceRw (c : CoreId) (s : State) : Host.Outcome State Fault Refusal := 
  done (s.issue c (fun t => if t.storesOut c then t.onCore c (fun x => { x with wait := some (.drain .fence) }) else t.onCore c Core.next))

/-- FENCE_W (R148: it retires once every earlier store is acknowledged or refused). -/
def execFenceW (c : CoreId) (s : State) : Host.Outcome State Fault Refusal := 
  done (s.issue c (fun t => if t.storesOut c then t.onCore c (fun x => { x with wait := some (.drain .fence) }) else t.onCore c Core.next))

/-- FENCE_I (R134, R141: the model holds no instruction cache). -/
def execFenceI (c : CoreId) (s : State) : Host.Outcome State Fault Refusal := done (s.simple c id)

/-- ECALL (R141, R157). -/
def execEcall (c : CoreId) (s : State) : Host.Outcome State Fault Refusal := 
  done (s.issue c (fun t => t.except c (if (t.core c).priv then excEcallP else excEcallU) 0 0))

/-- BRK (R141, R157, R584: while a debugger is attached the core halts, with cause 2, once it has retired). -/
def execBrk (c : CoreId) (s : State) : Host.Outcome State Fault Refusal := 
  done (s.issue c (fun t => if t.on R.DBG_STAT F.DBG_STAT.ATTACHED then
    t.onCore c (fun x => { x.next with dhalt := some 2, stepping := none }) else t.except c excBrk 0 0))

/-- ERET (R137, R141). -/
def execEret (c : CoreId) (s : State) : Host.Outcome State Fault Refusal := done (s.issue c (fun t => t.ifPriv c (fun u => u.onCore c Core.eret)))

/-- WFI (R137, R141, R162). -/
def execWfi (c : CoreId) (s : State) : Host.Outcome State Fault Refusal := 
  done (s.issue c (fun t => t.ifPriv c (fun u =>
    if u.wfiEnds c then u.onCore c Core.next else u.onCore c (fun x => { x with wait := some .wfi }))))

/-- SRD (R137, R140: the user level reads CORE_ID and CORE_WAIT alone). -/
def execSrd (c : CoreId) (d : BitVec 5) (n : BitVec 12) (s : State) : Host.Outcome State Fault Refusal := 
  done (s.issue c (fun t =>
    if !sysNamed c n.toNat then t.illegal c
    else if !(t.core c).priv && n != 0 && n.toNat != srWait then t.privFault c
    else t.onCore c (fun x => (x.setGr d ((t.sysRead c n.toNat).setWidth 64)).next)))

/-- SWR (R137, R140). -/
def execSwr (c : CoreId) (a : BitVec 5) (n : BitVec 12) (s : State) : Host.Outcome State Fault Refusal := 
  done (s.issue c (fun t =>
    if !sysNamed c n.toNat then t.illegal c
    else t.ifPriv c (fun u => u.onCore c (fun x => (x.sysWrite c n.toNat ((x.gr a).setWidth 32)).next))))

/-- SSET (R137, R140). -/
def execSset (c : CoreId) (d a : BitVec 5) (n : BitVec 12) (s : State) : Host.Outcome State Fault Refusal := 
  done (s.issue c (fun t =>
    if !sysNamed c n.toNat then t.illegal c
    else t.ifPriv c (fun u => u.onCore c (fun x =>
      ((x.sysSet c n.toNat ((x.gr a).setWidth 32)).setGr d ((u.sysRead c n.toNat).setWidth 64)).next))))

/-- SCLR (R137, R140). -/
def execSclr (c : CoreId) (d a : BitVec 5) (n : BitVec 12) (s : State) : Host.Outcome State Fault Refusal := 
  done (s.issue c (fun t =>
    if !sysNamed c n.toNat then t.illegal c
    else t.ifPriv c (fun u => u.onCore c (fun x =>
      ((x.sysClear c n.toNat ((x.gr a).setWidth 32)).setGr d ((u.sysRead c n.toNat).setWidth 64)).next))))

/-- RDT (R141, R156). -/
def execRdt (c : CoreId) (d : BitVec 5) (s : State) : Host.Outcome State Fault Refusal := done (s.simple c (fun x => x.setGr d (s.dtbOf c)))

/-- WAITT (R48, R156). -/
def execWaitt (c : CoreId) (a : BitVec 5) (s : State) : Host.Outcome State Fault Refusal := 
  done (s.issue c (fun t =>
    let dl := (t.core c).gr a
    if dl.toNat ≤ (t.dtbOf c).toNat then t.onCore c (fun x => (x.putSrBit srStatus stPastdl true).next)
    else t.onCore c (fun x => { x with wait := some (.waitt dl) })))

/-- SIG (R149, R152). -/
def execSig (c : CoreId) (a b : BitVec 5) (s : State) : Host.Outcome State Fault Refusal := 
  done (s.issue c (fun t =>
    let x := t.core c
    let h := (x.gr a).setWidth 32
    let n := (x.gr b).setWidth 32
    t.withHandle c h true (fun u =>
      if u.storesOut c then u.onCore c (fun y => { y with wait := some (.drain (.sig h n)) }) else u.sigNow c h n)))

/-- WAITGE (R150–R152, R156). -/
def execWaitge (c : CoreId) (d a b : BitVec 5) (s : State) : Host.Outcome State Fault Refusal := 
  done (s.issue c (fun t =>
    let x := t.core c
    let h := (x.gr a).setWidth 32
    t.withHandle c h false (fun u => u.waitge c d h ((x.gr b).setWidth 32))))

/-- PREG (R153). -/
def execPreg (c : CoreId) (d a : BitVec 5) (s : State) : Host.Outcome State Fault Refusal := 
  done (s.issue c (fun t =>
    let h := ((t.core c).gr a).setWidth 32
    t.withHandle c h false (fun u => u.onCore c (fun x =>
      if x.producers.contains h then (x.setGr d 0).next
      else if 8 ≤ x.producers.length then (x.setGr d 1).next
      else { (x.setGr d 0).next with producers := x.producers ++ [h] }))))

/-- PUNREG (R153). -/
def execPunreg (c : CoreId) (d a : BitVec 5) (s : State) : Host.Outcome State Fault Refusal := 
  done (s.issue c (fun t =>
    let h := ((t.core c).gr a).setWidth 32
    t.withHandle c h false (fun u => u.onCore c (fun x =>
      if x.producers.contains h then { (x.setGr d 0).next with producers := x.producers.filter (· != h) }
      else (x.setGr d 1).next))))

/-- RDC (R141, R152). -/
def execRdc (c : CoreId) (d a : BitVec 5) (s : State) : Host.Outcome State Fault Refusal := 
  done (s.issue c (fun t =>
    let h := ((t.core c).gr a).setWidth 32
    t.withHandle c h false (fun u => u.onCore c (fun x => (x.setGr d ((u.rd (handleReg h)).setWidth 64)).next))))

/-- ILLEGAL_ENCODING (R139: a word outside the tables). -/
def execIllegalEncoding (c : CoreId) (s : State) : Host.Outcome State Fault Refusal := done (s.issue c (fun t => t.illegal c))

/-- WAITT_END (R48). An interrupt that is due in the wait comes first (R162), here and at the ends of a WAITGE. -/
def execWaittEnd (c : CoreId) (s : State) : Host.Outcome State Fault Refusal := 
  done (match (s.core c).wait with
    | some (.waitt dl) => s.unlessIrq c (fun t =>
      if t.atBoundary c && decide (dl.toNat ≤ (t.dtbOf c).toNat) then (t.onCore c (fun x => { x.next with wait := none })).boundary c else t)
    | _ => s)

/-- WAITGE_MET (R151). -/
def execWaitgeMet (c : CoreId) (s : State) : Host.Outcome State Fault Refusal := 
  done (match (s.core c).wait with
    | some (.waitge d _ _ _ _ true) => s.unlessIrq c (fun t => if t.atBoundary c then (t.onCore c (fun x => x.waitgeEnd d 0)).boundary c else t)
    | _ => s)

/-- WAITGE_DEADLINE (R151). -/
def execWaitgeDeadline (c : CoreId) (s : State) : Host.Outcome State Fault Refusal := 
  done (match (s.core c).wait with
    | some (.waitge d _ _ (some dl) _ false) => s.unlessIrq c (fun t =>
      if t.atBoundary c && decide (dl.toNat ≤ (t.dtbOf c).toNat) then (t.onCore c (fun x => x.waitgeEnd d 1)).boundary c else t)
    | _ => s)

/-- INTERRUPT_ENTRY (R161, R162; a WFI that an enabled line ends while IE is clear goes on). -/
def execInterruptEntry (c : CoreId) (s : State) : Host.Outcome State Fault Refusal := 
  done (s.unlessIrq c (fun t => if t.atBoundary c && (t.core c).wait == some .wfi && t.wfiEnds c then (t.settle c).boundary c else t))

/-- NOTICE_ARRIVE (R146, R203, R204). -/
def execNoticeArrive (c : CoreId) (addr : Word) (ini : BitVec 16) (reason : BitVec 4) (s : State) : Host.Outcome State Fault Refusal := 
  done (if s.domainUp c then
    (s.queueNotice c ⟨addr, ini, reason.toNat⟩).event 0x2A 0 ini addr [BitVec.ofNat 32 reason.toNat] else s)

/-- CORE_START (R166). -/
def execCoreStart (i : Ini) (v : W32) (s : State) : Host.Outcome State Fault Refusal := done (s.regWrite i R.CORE_START v)

/-- CORE_SWI (R163). -/
def execCoreSwi (i : Ini) (v : W32) (s : State) : Host.Outcome State Fault Refusal := done (s.regWrite i R.CORE_SWI v)

end Sys2Proof.Machine
end

