-- ==== Sys2Proof/Machine/Queues.lean ====
section
/-! DEFINITION. Machine/Queues.lean: the commands of the engines' queues, the counters, the holds and the stall census (10_engines.md R248–R283). g is a global
engine 0–31, q one of its queues. -/
namespace Sys2Proof.Machine

/-- The key of queue q of engine g. -/
def qKey (g : Fin 32) (q : Fin 4) : Nat := 4 * g.val + q.val

/-- The deadline in words 5 and 6; zero for none. -/
def wdDeadline (w : List W32) : Option Word :=
  let x : Word := ((wd w 6) ++ (wd w 5)).setWidth 64
  if x = 0 then none else some x

/-- The DTB on the die of queue k. -/
def State.qDtb (s : State) (k : Nat) : Word := s.copy (1 + queueDie k)

/-- A deadline has been reached on the die of queue k. -/
def State.qLate (s : State) (k : Nat) (dl : Option Word) : Bool := reached dl (s.qDtb k)

/-- QUEUE_DOORBELL (R250, R252): a write of TAIL to ENG_QDB. -/
def execQueueDoorbell (i : Ini) (g : Fin 32) (q : Fin 4) (tail : BitVec 16) (s : State) : Host.Outcome State Fault Refusal :=
  done (s.regWrite i (qreg R.ENG_QDB (qKey g q)) (tail.setWidth 32))

/-- LIST_START (R251, R253, R257). -/
def execListStart (g : Fin 32) (q : Fin 4) (s : State) : Host.Outcome State Fault Refusal := done (s.listStart (qKey g q))

/-- NOP (R261). -/
def execEntNop (g : Fin 32) (q : Fin 4) (s : State) : Host.Outcome State Fault Refusal :=
  done (s.entStart (qKey g q) (opIs 0) [] (fun _ => true) (fun t _ => t.qOk (qKey g q)))

/-- SIGNAL (R261, R265, R266). -/
def State.entSignal (s : State) (k : Nat) (w : List W32) : State :=
  match (s.countSig (queueIni k) (s.qCls k) (wd w 3)).signal (queueIni k) (s.qCls k) (wd w 3) (wd w 4) with
  | some t => t.qOk k
  | none => s.qFin k 3 0 0

def execEntSignal (g : Fin 32) (q : Fin 4) (s : State) : Host.Outcome State Fault Refusal :=
  let k := qKey g q
  done (s.entStart k (opIs 1) [3, 4] (fun _ => true) (fun t w => t.entSignal k w))

/-- WAIT (R261, R267): it completes at once where its condition is met, ends TIMEOUT where its deadline has passed, else waits. -/
def State.entWait (s : State) (k : Nat) (w : List W32) : State :=
  match s.handle (wd w 3) false with
  | .counter r =>
    if waitMet (s.rd r) (wd w 4) then s.qOk k
    else if s.qLate k (wdDeadline w) then s.qFin k 4 0 0
    else s.qWait k (.counter (wd w 3) (wd w 4) (wdDeadline w) true false)
  | _ => s.qFin k 3 0 0

def execEntWait (g : Fin 32) (q : Fin 4) (s : State) : Host.Outcome State Fault Refusal :=
  let k := qKey g q
  done (s.entStart k (opIs 2) [3, 4, 5, 6] (fun _ => true) (fun t w => t.entWait k w))

/-- ENT_WAIT_MET (R267): an increment has met the target. -/
def execEntWaitMet (g : Fin 32) (q : Fin 4) (s : State) : Host.Outcome State Fault Refusal :=
  let k := qKey g q
  done (match (s.queue k).wait with
    | some (.counter _ _ _ _ true) => s.qOk k
    | _ => s)

/-- ENT_WAIT_TIMEOUT (R261, R271): the deadline of a WAIT whose target is not met, or of an ACQ, has passed. -/
def execEntWaitTimeout (g : Fin 32) (q : Fin 4) (s : State) : Host.Outcome State Fault Refusal :=
  let k := qKey g q
  done (match (s.queue k).wait with
    | some (.counter _ _ dl _ false) => if s.qLate k dl then s.qFin k 4 0 0 else s
    | some (.hold _ dl) => if s.qLate k dl then (s.dropWaiter k).qFin k 4 0 0 else s
    | _ => s)

/-- WAITT (R48, R261). -/
def State.entWaitt (s : State) (k : Nat) (w : List W32) : State :=
  let dl : Word := ((wd w 6) ++ (wd w 5)).setWidth 64
  if s.qLate k (some dl) then s.qOk k else s.qWait k (.time dl)

def execEntWaitt (g : Fin 32) (q : Fin 4) (s : State) : Host.Outcome State Fault Refusal :=
  let k := qKey g q
  done (s.entStart k (opIs 3) [5, 6] (fun _ => true) (fun t w => t.entWaitt k w))

/-- ENT_WAITT_END (R48). -/
def execEntWaittEnd (g : Fin 32) (q : Fin 4) (s : State) : Host.Outcome State Fault Refusal :=
  let k := qKey g q
  done (match (s.queue k).wait with
    | some (.time dl) => if s.qLate k (some dl) then s.qOk k else s
    | _ => s)

/-- IRQ (R261): ENG_IRQ_PEND.USER. -/
def execEntIrq (g : Fin 32) (q : Fin 4) (s : State) : Host.Outcome State Fault Refusal :=
  let k := qKey g q
  done (s.entStart k (opIs 4) [] (fun _ => true) (fun t _ =>
    (t.putBit (R.ENG_IRQ_PEND (queueDie k) (queueEng k)) (4 + queueNo k) true).qOk k))

/-- JUMP (R257, R261); the list ends when the entry completes. In a pipeline list it is ILLEGAL (R345). -/
def execEntJump (g : Fin 32) (q : Fin 4) (s : State) : Host.Outcome State Fault Refusal :=
  let k := qKey g q
  done (s.entStart k (opIs 5) [3, 4] (fun w => wdAddrOk w 3 && (s.pipeOf k).isNone) (fun t _ => t.qOk k))

/-- ACQ (R261, R271, R273). -/
def execEntAcq (g : Fin 32) (q : Fin 4) (s : State) : Host.Outcome State Fault Refusal :=
  let k := qKey g q
  done (s.entStart k (opIs 6) [3, 5, 6] (fun w => wd w 3 >>> 16 == 0) (fun t w => t.acq k w))

/-- REL (R261, R271). -/
def execEntRel (g : Fin 32) (q : Fin 4) (s : State) : Host.Outcome State Fault Refusal :=
  let k := qKey g q
  done (s.entStart k (opIs 7) [3] (fun w => wd w 3 >>> 16 == 0) (fun t w => t.rel k w))

/-- ENG_QSTAT.PRODUCERS shows the registrations of a queue. -/
def State.setProducers (s : State) (k : Nat) (l : List W32) : State :=
  (s.onQueue k (fun q => { q with producers := l })).setFld (qreg R.ENG_QSTAT k) F.ENG_QSTAT.PRODUCERS l.length

/-- PREG (R260, R261): FULL with eight registrations in use; a second registration of a counter changes nothing. -/
def State.entPreg (s : State) (k : Nat) (w : List W32) : State :=
  match s.handle (wd w 3) false with
  | .counter _ =>
    let l := (s.queue k).producers
    if l.contains (wd w 3) then s.qOk k
    else if 8 ≤ l.length then s.qFin k 0xF 0 0
    else (s.setProducers k (l ++ [wd w 3])).qOk k
  | _ => s.qFin k 3 0 0

def execEntPreg (g : Fin 32) (q : Fin 4) (s : State) : Host.Outcome State Fault Refusal :=
  let k := qKey g q
  done (s.entStart k (opIs 8) [3] (fun _ => true) (fun t w => t.entPreg k w))

/-- PUNREG (R261). -/
def State.entPunreg (s : State) (k : Nat) (w : List W32) : State :=
  match s.handle (wd w 3) false with
  | .counter _ => (s.setProducers k ((s.queue k).producers.filter (· != wd w 3))).qOk k
  | _ => s.qFin k 3 0 0

def execEntPunreg (g : Fin 32) (q : Fin 4) (s : State) : Host.Outcome State Fault Refusal :=
  let k := qKey g q
  done (s.entStart k (opIs 9) [3] (fun _ => true) (fun t w => t.entPunreg k w))

/-- The copy of an entry, once it has a copy channel (R259, R261). -/
def State.entCopyRun (s : State) (k : Nat) (w : List W32) : State :=
  let n := (wd w 7).toNat
  let c := (s.queue k).copied
  let p := s.copyRun k 0 (s.qCls k) ((wdAddr w 3).toNat + c) ((wdAddr w 5).toNat + c) (n - c) false n
  p.1.copyEnd k n p.2.1 p.2.2

/-- COPY (R248, R254, R261): it starts, or one that waits for an answer goes on. -/
def execEntCopy (g : Fin 32) (q : Fin 4) (s : State) : Host.Outcome State Fault Refusal :=
  let k := qKey g q
  match (s.queue k).entry with
  | some w => done (if opIs 0x10 w && (s.queue k).fin.isNone then s.entCopyRun k w else s)
  | none =>
    done (s.entStart k (opIs 0x10) [3, 4, 5, 6, 7] (fun w => wdAddrOk w 3 && wdAddrOk w 5 && copyLenOk (wd w 7)) (fun t w =>
      t.qTake k [0] (decide (t.chanUsed g.val ≤ 2)) (fun u => u.entCopyRun k w)))

/-- The opcodes of R261. -/
def knownOps : List Nat := [0, 1, 2, 3, 4, 5, 6, 7, 8, 9, 0x10, 0x11, 0x20, 0x21, 0x30, 0x31, 0x32, 0x40, 0x41, 0x50]

/-- Every other opcode ends ILLEGAL (R261). -/
def execEntUnknownOpcode (g : Fin 32) (q : Fin 4) (s : State) : Host.Outcome State Fault Refusal :=
  let k := qKey g q
  done (s.entStart k (fun w => !knownOps.contains ((wd w 0).toNat % 256)) [] (fun _ => false) (fun t _ => t))

/-- ENTRY_COMPLETE (R257, R259, R260, R278). -/
def execEntryComplete (g : Fin 32) (q : Fin 4) (s : State) : Host.Outcome State Fault Refusal := done (s.entryComplete (qKey g q))

/-- QUEUE_RESUME (R279): ENG_QCTL written with RESUME, RELHOLDS as it is. -/
def execQueueResume (i : Ini) (g : Fin 32) (q : Fin 4) (s : State) : Host.Outcome State Fault Refusal :=
  let a := qreg R.ENG_QCTL (qKey g q)
  done (s.regWrite i a (1 ||| (s.rd a &&& 8)))

/-- QUEUE_RETRY (R279). -/
def execQueueRetry (i : Ini) (g : Fin 32) (q : Fin 4) (s : State) : Host.Outcome State Fault Refusal :=
  let a := qreg R.ENG_QCTL (qKey g q)
  done (s.regWrite i a (2 ||| (s.rd a &&& 8)))

/-- QUEUE_CANCEL (R280), with RELHOLDS as written. -/
def execQueueCancel (i : Ini) (g : Fin 32) (q : Fin 4) (relholds : Bool) (s : State) : Host.Outcome State Fault Refusal :=
  done (s.regWrite i (qreg R.ENG_QCTL (qKey g q)) (if relholds then 12 else 4))

/-- QUEUE_CANCEL_DONE (R280, R281): once what the queue had in flight is complete and its streams have stopped. -/
def execQueueCancelDone (g : Fin 32) (q : Fin 4) (s : State) : Host.Outcome State Fault Refusal :=
  let k := qKey g q
  done (if s.qState k = 5 ∧ !s.qOut k ∧ !s.writesOut k true ∧ s.cancelOver k then
    ((s.onQueue k (fun x => { x with streams := [], dying := none })).putBit (qreg R.ENG_QCTL k) 2 false).setQState k 1
  else s)

/-- A region's SIG whose handle fails is refused with OWNER (R375): captured, and noticed to its keeper as a posted write is (R374). The address it has there no rule says
(notes/assumptions/121.md). -/
def State.sigRefused (s : State) (i : Ini) (cls : Nat) : State :=
  let q : Req := { ini := i, kind := .write, addr := s.draw &&& 0xFFFFFFFFFFFF, len := 4, posted := true, early := false, cls := cls }
  (s.drawn.captureRefusal q 8).notice i q.addr 8

/-- COUNTER_INCREMENT (R149, R150, R266, R374, R375): a SIG packet for a counter of this package. A fabric region's is counted at its entry, under its label; one whose handle
fails is refused there, and any other changes nothing here. -/
def execCounterIncrement (i : Ini) (h n : W32) (s : State) : Host.Outcome State Fault Refusal :=
  done (if iniFabric i then
    if !s.iniUp i then s
    else
      let t := s.countSig i (s.rgnLabel i) h
      match s.handle h false with
      | .counter r => t.addCounter r n
      | _ => t.sigRefused i (s.rgnLabel i)
  else match s.handle h false with
    | .counter r => s.addCounter r n
    | _ => s)

/-- The die code of x: 0 the Sole, 8 + d for compute die d. -/
def syncDie (x : Fin 5) : Nat := netDie x.val

/-- CNT_WRITE (R268). -/
def execCntWrite (i : Ini) (x : Fin 5) (n : Fin 4096) (v : W32) (s : State) : Host.Outcome State Fault Refusal :=
  done (if x.val = 0 ∧ 1024 ≤ n.val then s else s.regWrite i (R.ENG_CNT (cntBase (syncDie x)) n.val) v)

/-- HOLD_ACQ_READ (R270, R273). -/
def execHoldAcqRead (i : Ini) (x : Fin 5) (n : Fin 256) (s : State) : Host.Outcome State Fault Refusal :=
  done (s.regReadCmd i (R.ENG_HOLD_ACQ (holdBase (syncDie x)) n.val))

/-- HOLD_REL_WRITE (R270, R271). -/
def execHoldRelWrite (i : Ini) (x : Fin 5) (n : Fin 256) (v : W32) (s : State) : Host.Outcome State Fault Refusal :=
  done (s.regWrite i (R.ENG_HOLD_REL (holdBase (syncDie x)) n.val) v)

/-! ### The stall census (R274–R276) -/

/-- What a blocked member waits for: the handle and the target. -/
def queueBlocked (q : Queue) : Option (W32 × W32) :=
  match q.wait with
  | some (.counter h t none _ false) => some (h, t)
  | _ => none

def coreBlocked (c : Core) : Option (W32 × W32) :=
  match c.dhalt, c.wait with
  | none, some (.waitge _ h t none _ false) => some (h, t)
  | _, _ => none

/-- Queues of group k that are evaluated, and its cores (R274). -/
def State.cenQueues (s : State) (k : Nat) : List Nat :=
  (List.range 128).filter (fun n => s.bit (R.ENG_CEN_QMASK k (n / 32)) (n % 32) && s.engineLive (n / 4))

def cenCore (n : Nat) : CoreId := if n < 10 then .sole (Fin.ofNat 10 n) else .keeper (Fin.ofNat 4 (n - 10))

def State.cenCores (s : State) (k : Nat) : List CoreId :=
  ((List.range 14).map (fun n => (n, cenCore n))).filterMap (fun x =>
    let up := match x.2 with
      | .keeper d => s.dieLive d.val
      | _ => true
    if s.bit (R.ENG_CEN_CMASK k) x.1 && up && (s.core x.2).run == .running then some x.2 else none)

/-- An entry names a counter in DONE_HANDLE or in a SIGNAL. -/
def entryNames (h : W32) (w : List W32) : Bool := ((wd w 0).getLsbD 8 && wd w 1 == h) || (opIs 1 w && wd w 3 == h)

/-- The entries of a queue that run or wait for resources. -/
def Queue.begun (q : Queue) : List (List W32) := q.entry.toList ++ q.await.toList

/-- The entries that run or wait (R275): the queues', and those of the running PIPEs. -/
def State.begunEntries (s : State) : List (List W32) :=
  s.queues.flatMap (fun x => x.2.begun) ++ s.eng.pipes.filterMap (fun x => x.2.map (·.entry))

/-- A core has a signal to a counter in flight. -/
def coreSignals (h : W32) (c : Core) : Bool :=
  match c.wait with
  | some (.drain (.sig x _)) => x == h
  | _ => false

/-- A counter has a possible incrementer (R268, R275), where qs and cs are the blocked members. -/
def State.hasIncrementer (s : State) (qs : List Nat) (cs : List CoreId) (h : W32) : Bool :=
  let n := (h.setWidth 12).toNat
  s.queues.any (fun x => x.2.producers.contains h && !qs.contains x.1) || s.begunEntries.any (entryNames h) ||
    allCores.any (fun c => ((s.core c).producers.contains h && !cs.contains c) || coreSignals h (s.core c)) ||
    (List.range 8).any (fun j => s.on (R.TBASE_ALM_CFG j) F.TBASE_ALM_CFG.EN && s.on (R.TBASE_ALM_CFG j) F.TBASE_ALM_CFG.SIG && s.rd (R.TBASE_ALM_SIG j) == h) ||
    s.bit (R.ENG_CNT_EXT (cntExtBase ((h >>> 12).setWidth 4).toNat) (n / 32)) (n % 32)

/-- One member record of a snapshot. -/
def CenWait.record (m : CenWait) : List Byte := leBytes 4 m.id.toNat ++ leBytes 4 m.handle.toNat ++ leBytes 4 m.target.toNat ++ leBytes 4 m.value.toNat

/-- Write bytes for the fault manager, a line at a time; the Bool says that none was refused. -/
def State.fltWrite (s : State) (a : Nat) (bs : List Byte) : Nat → State × Bool
  | 0 => (s, true)
  | fuel + 1 =>
    if bs.isEmpty then (s, true)
    else
      let q0 : Req := { ini := .soleUnit 3, kind := .write, addr := BitVec.ofNat 64 a, len := (bs.take 64).length, posted := false, early := false, cls := 15 }
      let p := s.busWrite { q0 with posted := s.postedTo q0 } (bs.take 64)
      match p.2 with
      | .ok _ => p.1.fltWrite (a + 64) (bs.drop 64) fuel
      | _ => (p.1, false)

/-- Sole SRAM or host memory, where a snapshot may lie (R276). -/
def State.snapPlace (s : State) (a : Nat) : Bool :=
  match s.regionOf a with
  | some (.sram, _, _) | some (.host, _, _) => true
  | _ => false

/-- Group k fires: FIRED, FLT_STALL, then the snapshot (R276). -/
def State.censusFire (s : State) (k : Nat) (ms : List CenWait) : State :=
  let lo := s.rd (R.ENG_CEN_SNAP_LO k)
  let hi := s.rd (R.ENG_CEN_SNAP_HI k)
  let a := (hi.setWidth 16 ++ lo).toNat
  let bs := leBytes 8 s.tb.master.toNat ++ leBytes 1 k ++ leBytes 1 ms.length ++ leBytes 6 0 ++ ms.flatMap CenWait.record
  let s1 := (s.putBit R.ENG_CEN_STAT k true).event 0x28 0 0 0 [BitVec.ofNat 32 k, lo, hi]
  let s2 := s1.setEvt 2
  if s2.snapPlace a then
    let p := s2.fltWrite a bs 40
    if p.2 then p.1 else p.1.putBit R.ENG_CEN_STAT (8 + k) true
  else s2.putBit R.ENG_CEN_STAT (8 + k) true

/-- The members of group k, where its conditions hold now: it is evaluated, it has members, each is blocked, and no counter they await has a possible incrementer
(R274–R276). -/
def State.cenNow (s : State) (k : Nat) : Option (List CenWait) :=
  let qs := s.cenQueues k
  let cs := s.cenCores k
  let ms := qs.map (fun n => (iniId (queueIni n), queueBlocked (s.queue n))) ++ cs.map (fun c => (ownerId (.core c false), coreBlocked (s.core c)))
  let waits := ms.filterMap (fun m => m.2.map (fun x => (⟨m.1, x.1, x.2, s.rd (handleReg x.1)⟩ : CenWait)))
  if !s.sup.soleHeld && s.bit R.ENG_CEN_CTL k && !s.bit R.ENG_CEN_STAT k && !ms.isEmpty && ms.all (fun m => m.2.isSome) &&
      waits.all (fun m => !s.hasIncrementer qs cs m.handle) then some waits
  else none

def cenNone (_ : Nat) : Option CenRun := none

/-- A DTB tick of the census: a group's interval begins, goes on while its members and their counters stay as they are, or ends (R276,
notes/assumptions/110.md). -/
def State.cenTick (s : State) : State :=
  s.each (fun t k =>
    let run := tabGet cenNone t.eng.cen k
    let now : Option CenRun := (t.cenNow k).map (fun l => match run with
      | some r => if r.seen = l then r else ⟨t.tb.master, l⟩
      | none => ⟨t.tb.master, l⟩)
    t.withEng { t.eng with cen := tabPut cenNone k now t.eng.cen }) (List.range 8)

/-- CENSUS_FIRE (R274–R276): group k's conditions hold, and have held without a break for 100 µs. -/
def execCensusFire (k : Fin 8) (s : State) : Host.Outcome State Fault Refusal :=
  done (match s.cenNow k.val, tabGet cenNone s.eng.cen k.val with
    | some l, some r => if r.seen = l ∧ r.since.toNat + 10000 ≤ s.tb.master.toNat then s.censusFire k.val l else s
    | _, _ => s)

end Sys2Proof.Machine
end

