-- ==== Sys2Proof/Machine/Seasons.lean ====
section
/-! DEFINITION. Machine/Seasons.lean: the commands of the power states, Winter entry, Insole and Thaw (04_seasons.md). -/
namespace Sys2Proof.Machine

/-- PWR_REQ_AUTUMN (R80, R85). -/
def execPwrReqAutumn (i : Ini) (s : State) : Host.Outcome State Fault Refusal := done (s.regWrite i R.PWR_REQ 1)

/-- PWR_REQ_SUMMER (R80, R87). -/
def execPwrReqSummer (i : Ini) (s : State) : Host.Outcome State Fault Refusal := done (s.regWrite i R.PWR_REQ 2)

/-- DIE_RESET_RELEASE (R88, R619): x is compute die 0–3, or 4 + l. -/
def execDieResetRelease (x : Fin 6) (s : State) : Host.Outcome State Fault Refusal :=
  done (if s.sup.dieRst.contains x.val && s.dieRails x.val && s.enPin x.val then s.dieRelease x.val else s)

/-- DIE_INIT_SCRUB_DONE (R43, R87): engine memory, or a Larder, holds zeros with valid tags; a keeper may then boot. -/
def execDieInitScrubDone (x : Fin 6) (s : State) : Host.Outcome State Fault Refusal :=
  let n := x.val
  if !s.sup.scrub.contains n then done s
  else
    let t := s.withSup { s.sup with scrub := s.sup.scrub.filter (· != n) }
    if n < 4 then
      if tabGet boolFalse s.tb.loaded (1 + n) then
        done ((t.clearMem (engBase n) (engBase n + 0x10000000)).withBoot { t.boot with dieRom := t.boot.dieRom ++ [n] })
      else done s
    else done ((((t.clearMem (larderBase (n - 4)) (larderBase (n - 4) + 0x100000000)).setLarderState (n - 4) 6).syncLive s).summerCheck)

/-- DIE_IMAGE_CHECK (R117, R119, R120). -/
def execDieImageCheck (d : Fin 4) (s : State) : Host.Outcome State Fault Refusal :=
  done (if s.boot.dieRom.contains d.val then s.dieImageCheck d.val else s)

/-- The register code of a temperature; 0x80 means unpowered or absent (PWR_TEMP_C). -/
def tempCode (powered : Bool) (t : Int) : Nat :=
  if !powered then 0x80
  else ((if t < -127 then -127 else if 127 < t then 127 else t) % 256).toNat

/-- THERMAL_SAMPLE (R89): junction temperatures in °C of C0–C3, L0, L1, the Sole and the Heel. A die above 135 °C in two consecutive samples
forces Autumn. -/
def execThermalSample (t : List Int) (s : State) : Host.Outcome State Fault Refusal :=
  let on (x : Nat) : Bool := if x < 4 then s.diePowered x else s.larderPowered (x - 4)
  let hot := (List.range 6).filter (fun x => on x && decide (135 < t.getD x 0))
  let twice := hot.filter s.sup.hot.contains
  let s1 := s.wr R.PWR_TEMP_C (BitVec.ofNat 32 ((List.range 4).foldl (fun w x => w + tempCode (on x) (t.getD x 0) * 256 ^ x) 0))
  let s2 := s1.wr R.PWR_TEMP_X (BitVec.ofNat 32 (tempCode (on 4) (t.getD 4 0) + 256 * tempCode (on 5) (t.getD 5 0) +
    65536 * tempCode true (t.getD 6 0) + 0x1000000 * tempCode true (t.getD 7 0)))
  let s3 := s2.withSup { s2.sup with hot := hot }
  done (twice.foldl (fun u x => if u.anyState x = 0 then u else
    let bit := 1 + x
    if u.power = psSummer ∨ u.power = psToSummer ∨ u.sup.winter = .committed ∨ u.sup.winter = .saved then
      u.forceAutumn bit (if x < 4 then unitCode 1 x else unitCode 2 (x - 4))
    else u.putBit R.PWR_FORCE bit true) s3)

/-- WINTER_REQ_ARM (R81). -/
def execWinterReqArm (i : Ini) (s : State) : Host.Outcome State Fault Refusal := done (s.regWrite i R.PWR_WINTER_REQ 0xC3C3)

/-- WINTER_REQ (R81, R82). -/
def execWinterReq (i : Ini) (s : State) : Host.Outcome State Fault Refusal := done (s.regWrite i R.PWR_WINTER_REQ 0x3C3C0003)

/-- PWR_HEEL_ACK (R83). -/
def execPwrHeelAck (i : Ini) (v : W32) (s : State) : Host.Outcome State Fault Refusal := done (s.regWrite i R.PWR_HEEL_ACK v)

/-- WINTER_GRACE_EXPIRE (R83). -/
def execWinterGraceExpire (s : State) : Host.Outcome State Fault Refusal :=
  done (if s.sup.winter = .grace ∧ s.sup.grace.toNat ≤ (s.copy 0).toNat then (s.putBit R.PWR_REQ_STAT 3 true).winterEnd else s)

/-- WINTER_SAVE (R91, R94, R456, R474, R622): pending summary writes, the save block, the generation count, the always-on settings. -/
def execWinterSave (s : State) : Host.Outcome State Fault Refusal :=
  if s.sup.winter = .committed then
    let t := (s.sumFlush.saveBlock).loadAon
    let u := t.putWord insGen (t.word insGen + 1)
    done (u.withSup { u.sup with winter := .saved }).keepOn
  else done s

/-- WINTER_CAPTURE (R44, R59, R61, R64, R91): at a rising edge of XTAL32, the capture, INH high impedance, the full-mode regulator off; PWR_FORCE, which else
resets, keeps the causes recorded since the request for firmware to read after the Thaw (R89, R94). A source confirmed since the commit begins a Thaw at once. -/
def execWinterCapture (s : State) : Host.Outcome State Fault Refusal :=
  if s.sup.winter = .saved ∧ s.atXtal then
    let t := ((s.captureDtb).heelReset false).wr R.PWR_FORCE (s.rd R.PWR_FORCE &&& s.sup.forced)
    let aon := s.sup.aon
    let u := (saveList.foldl (fun v p => v.wr p.2 (regReset p.2)) t).setInh false
    let w := u.withSup { u.sup with winter := .winter, aon := aon, fullModeIn := false, rtcAlm := s.sup.rtcAlm }
    done (if w.sup.woken && !w.sup.brownout then w.thawBegin else w)
  else done s

/-- INSOLE_CHECK_DONE (R46, R95, R96, R97). After an always-on power-on reset TBASE_OFFSET is zero, also where Insole's contents are still there. The INSOLE event
of a failed check has DETAIL word 0 and the stamp of the first DTB value after the Heel main release, for which the spec gives nothing (DESIGN CHOICE,
notes/assumptions/105.md). -/
def execInsoleCheckDone (s : State) : Host.Outcome State Fault Refusal :=
  if !s.sup.checking then done s
  else
    let t := (s.withSup { s.sup with checking := false }).insoleCorrect
    if t.insoleGood then
      done ((if t.sup.freshInsole then t.putDword insOffset 0 else t).putBit R.INS_STATUS 0 true)
    else
      let u := (t.insoleReinit.keepsOff).putBit R.INS_STATUS 0 false
      let w := (u.unkeep).withSup { u.unkeep.sup with freshInsole := true, thaw := false, woken := false,
                                                      winter := if u.sup.winter = .thawCheck then .none else u.sup.winter, late := u.sup.late ++ [⟨.event, u.mkEvent 0x23 0 0 0 [0], none⟩] }
      done ((w.wr R.PWR_FORCE 0).withFlt { w.flt with retired := [], causes := [] })

/-- Always-on registers that only an always-on power-on reset changes (R484, R501). -/
def heldInBrownout (a : Nat) : Bool := [R.HSO_KEEP_STAT, R.SWI_CYC_REF_LO, R.SWI_CYC_REF_HI, R.SWI_WCHG_LO, R.SWI_WCHG_HI].contains a

/-- WINTER_BROWNOUT (R60, R70, R104). -/
def execWinterBrownout (s : State) : Host.Outcome State Fault Refusal :=
  if s.sup.winter = .winter ∨ s.sup.winter = .thawCheck then
    let t := s.resetRegs (fun a => regDomain a == some .aon && !heldInBrownout a)
    let u := (t.putBit R.PWR_RST_CAUSE 1 true).putWord insBrown (t.word insBrown + 1)
    let v := (u.loadAon).withSup { u.loadAon.sup with winter := .winter, woken := false, checking := false } |>.keepOn
    done (v.wake 15 0 none)
  else done s

/-- RTC_ALARM_WAKE (R99). -/
def execRtcAlarmWake (s : State) : Host.Outcome State Fault Refusal :=
  done (if s.tb.rtc = s.sup.rtcAlm then s.wake 13 0 none else s)

/-- WAKE_PIN_CONFIRM (R99): a filtered edge of WAKEn, of the polarity PINn selects. -/
def execWakePinConfirm (n : Fin 4) (rising : Bool) (s : State) : Host.Outcome State Fault Refusal :=
  let e := fget (s.aonRd R.WAKE_PIN_CFG) ⟨4 * n.val, 2⟩
  done (if e = 3 ∨ (e = 1 ∧ rising) ∨ (e = 2 ∧ !rising) then s.wake (9 + n.val) (wakeIndex n.val) none else s)

/-- ENGINE_GATE (R105). -/
def execEngineGate (g : Fin 32) (s : State) : Host.Outcome State Fault Refusal := done (s.gateCheck g.val)

end Sys2Proof.Machine
end

