-- ==== Sys2Proof/Machine/Streams.lean ====
section
/-! DEFINITION. Machine/Streams.lean: the commands of the stream units (12_streams.md). g is a global engine 0–31, n one of its units; ext is what a
called function gives a write unit. -/
namespace Sys2Proof.Machine

def strKey (g : Fin 32) (n : Fin 16) : Nat := 16 * g.val + n.val

/-- START (R319, R320, R324). -/
def State.strStart (s : State) (u : Nat) (w : W32) : State :=
  let d := fget w ⟨16, 7⟩
  if 64 < d then s.strIllegal u
  else (s.onStream u (fun x => { x.step with begun := true, write := w.getLsbD 12, dist := d })).bindCheck u

def execStrStart (g : Fin 32) (n : Fin 16) (s : State) : Host.Outcome State Fault Refusal :=
  let u := strKey g n
  done (s.strExec u 0x01 (fun t w _ => t.strStart u w))

/-- The unit is bound to a port where its program must first run TRUN, or RROW (R324). -/
def State.modeDue (s : State) (u : Nat) : Bool :=
  match (s.stream u).port with
  | some (k, p) =>
    match (s.queue k).entry, s.mat k with
    | some w, some m =>
      let x := matGeom w m
      if p = 0 && opIs 0x31 w then (aElem x (matFlow w) (m.aGen / fmtBytes (matFmtA w))).isSome
      else if p = 0 && opIs 0x32 w then m.batch.isNone || (aElem x (matFlow w) (m.aGen / fmtBytes (matFmtA w))).isSome
      else if p = 3 && opIs 0x32 w then m.batch.isNone || decide (m.oGen < x.bi * x.bj * x.mb * x.nb * fmtBytes (matFmtO w))
      else false
    | _, _ => false
  | none => false

/-- The unit ends BIND at its instruction. -/
def State.strBind (s : State) (u : Nat) : State := s.strFail u 6 0

/-- END (R319, R320, R326): CHAIN is read; a write unit's open run becomes a request. -/
def State.strEnd (s : State) (u : Nat) : State :=
  let x := s.stream u
  if !x.loops.isEmpty then s.strIllegal u
  else if s.modeDue u then s.strBind u
  else
    let s1 := s.strFlush u
    if (s1.stream u).error then s1
    else (s1.onStream u (fun y => { y with ended := true, chain := s1.bit (R.STR_CFG (u / 128) (u / 16 % 8) (u % 16)) 0, left := none })).strSettle u

def execStrEnd (g : Fin 32) (n : Fin 16) (s : State) : Host.Outcome State Fault Refusal :=
  let u := strKey g n
  done (s.strExec u 0x00 (fun t _ _ => t.strEnd u))

/-- ADDR (R319). -/
def execStrAddr (g : Fin 32) (n : Fin 16) (s : State) : Host.Outcome State Fault Refusal :=
  let u := strKey g n
  done (s.strExec u 0x02 (fun t w v => t.onStream u (fun x =>
    (x.setAreg (fget w ⟨8, 2⟩) (((w >>> 16).setWidth 16 ++ v).setWidth 64)).step)))

/-- ADD (R319). -/
def execStrAdd (g : Fin 32) (n : Fin 16) (s : State) : Host.Outcome State Fault Refusal :=
  let u := strKey g n
  done (s.strExec u 0x03 (fun t w v => t.onStream u (fun x =>
    (x.setAreg (fget w ⟨8, 2⟩) (x.areg (fget w ⟨8, 2⟩) + v.signExtend 64)).step)))

/-- LOOP (R319, R320): at most six deep. -/
def execStrLoop (g : Fin 32) (n : Fin 16) (s : State) : Host.Outcome State Fault Refusal :=
  let u := strKey g n
  done (s.strExec u 0x04 (fun t _ v =>
    let x := t.stream u
    if v = 0 ∨ 6 ≤ x.loops.length then t.strIllegal u
    else t.setStream u { x.step with loops := ⟨x.pc + 8, v.toNat, (List.range 4).map x.areg⟩ :: x.loops }))

/-- Leave a loop: each AR that RESTORE names takes its saved value (R319). -/
def Stream.restore (x : Stream) (l : StrLoop) (mask : Nat) : Stream :=
  (List.range 4).foldl (fun y r => if mask.testBit r then y.setAreg r (l.saved.getD r 0) else y) x

/-- ENDL (R319, R320). -/
def execStrEndl (g : Fin 32) (n : Fin 16) (s : State) : Host.Outcome State Fault Refusal :=
  let u := strKey g n
  done (s.strExec u 0x05 (fun t w _ =>
    let x := t.stream u
    match x.loops with
    | [] => t.strIllegal u
    | l :: ls =>
      if 1 < l.left then t.setStream u { x with pc := l.body, left := none, loops := { l with left := l.left - 1 } :: ls }
      else t.setStream u { (x.restore l (fget w ⟨8, 4⟩)).step with loops := ls }))

/-- The MOVE in progress goes on: it reads as far as the window allows, or writes what its producer has given; at its end AR moves on by LEN (R319, R325, R328). -/
def State.strMove (s : State) (u r len : Nat) (ext : List Byte) : State :=
  let x := s.stream u
  let finish (t : State) : State :=
    if (t.stream u).left = some 0 ∧ !(t.stream u).error then
      t.onStream u (fun y => (y.setAreg r (y.areg r + BitVec.ofNat 64 len)).step)
    else t
  if x.write then
    let s1 := s.strAccept u ext
    let y := s1.stream u
    let m := Nat.min (y.left.getD 0) y.buf.length
    let at_ := y.areg r + BitVec.ofNat 64 (len - y.left.getD 0)
    let s2 := (s1.setStream u { y with buf := y.buf.drop m, left := some (y.left.getD 0 - m) }).strPlaceAll u (at_.toNat % 2 ^ 48) (y.buf.take m)
    (finish s2).strAccept u []
  else (finish (s.strGenMove u ((x.areg r).toNat + len) 200)).strFeed u

/-- MOVE (R319, R320, R324). -/
def execStrMove (g : Fin 32) (n : Fin 16) (ext : List Byte) (s : State) : Host.Outcome State Fault Refusal :=
  let u := strKey g n
  done (s.strExec u 0x06 (fun t w v =>
    if v = 0 then t.strIllegal u
    else if t.modeDue u then t.strBind u
    else (t.onStream u (fun x => { x with left := some (x.left.getD v.toNat) })).strMove u (fget w ⟨8, 2⟩) v.toNat ext))

/-- SKIP (R319): zeros delivered, or bytes discarded, with no access. -/
def State.strSkip (s : State) (u len : Nat) (ext : List Byte) : State :=
  let x := s.stream u
  if x.write then
    let s1 := s.strAccept u ext
    let y := s1.stream u
    let left := y.left.getD len
    let m := Nat.min left y.buf.length
    let z := { y with buf := y.buf.drop m, left := some (left - m) }
    (s1.setStream u (if left = m then z.step else z)).strAccept u []
  else (s.setStream u (x.push ⟨none, 0, len, [], .ok⟩).step).strFeed u

def execStrSkip (g : Fin 32) (n : Fin 16) (ext : List Byte) (s : State) : Host.Outcome State Fault Refusal :=
  let u := strKey g n
  done (s.strExec u 0x07 (fun t _ v =>
    if v = 0 then t.strIllegal u else if t.modeDue u then t.strBind u else t.strSkip u v.toNat ext))

/-- SIG (R319, R321): once every earlier write is acknowledged; a handle that fails ends the unit HANDLE. -/
def State.strSig (s0 : State) (u : Nat) (add h : W32) : State :=
  let s := s0.strFlush u
  if s.streamOut u || (s.stream u).error then s
  else match s.handle h false with
    | .counter r => ((s.countSig (streamIni u) (s.stream u).cls h).addCounter r add).onStream u Stream.step
    | _ => s.strFail u 5 0

def execStrSig (g : Fin 32) (n : Fin 16) (s : State) : Host.Outcome State Fault Refusal :=
  let u := strKey g n
  done (s.strExec u 0x08 (fun t w v => if w >>> 16 = 0 then t.strIllegal u else t.strSig u (w >>> 16) v))

/-- TDIM (R319). -/
def execStrTdim (g : Fin 32) (n : Fin 16) (s : State) : Host.Outcome State Fault Refusal :=
  let u := strKey g n
  done (s.strExec u 0x09 (fun t w v =>
    let d := fget w ⟨8, 2⟩
    if d = 3 then t.strIllegal u
    else t.onStream u (fun x => { x.step with stride := tabPut (fun _ => none) d (some v) x.stride })))

/-- A tensor stride, in bytes. -/
def Stream.dim (x : Stream) (d : Nat) : Int := ((tabGet (fun _ => none) x.stride d).getD 0).toInt

/-- Where A element e of an entry lies, or that it is zero: in tensor mode relative to AR0, in row mode in its request's row (R322, R323). -/
def aWhere (w : List W32) (x : Shape) (m : Mat) (y : Stream) (c : Nat × Nat × Nat) : Option Nat :=
  if opIs 0x31 w then (convOffset w x y.dim c.1 c.2.1 c.2.2).map (fun o : Int => ((((y.areg 0).toNat : Int) + o) % 2 ^ 48).toNat)
  else if x.m ≤ c.2.1 ∨ x.k ≤ c.2.2 then none
  else (m.reqs[c.2.1]?).map (fun r => (r.a.toNat + c.2.2 * fmtBytes (matFmtA w)) % 2 ^ 48)

/-- Generate A bytes by coordinate, as far as the window allows. After the last of them RROW ends (R323), and TRUN once they are delivered (R322). -/
def State.strCoord (s : State) (u k : Nat) : Nat → State
  | 0 => s
  | fuel + 1 =>
    match s.mat k, (s.queue k).entry with
    | some m, some w =>
      let x := matGeom w m
      let e := fmtBytes (matFmtA w)
      let part := m.aGen % e
      if (s.stream u).error then s
      else match aElem x (matFlow w) (m.aGen / e) with
        | none => s.onStream u (fun y => if y.tensor then { y with left := some 0 }.trunEnd else { y.step with row := false })
        | some c =>
          match aWhere w x m (s.stream u) c with
          | none =>
            ((s.onStream u (fun y => y.push ⟨none, 0, e - part, [], .ok⟩)).setMat k (some { m with aGen := m.aGen + (e - part) })).strCoord u k fuel
          | some a0 =>
            let a := (a0 + part) % 2 ^ 48
            let n := Nat.min (e - part) (64 - a % 64)
            let p := s.strGen u a n
            if p.2 then
              (match p.1.mat k with
               | some m1 => (p.1.setMat k (some { m1 with aGen := m1.aGen + n })).strCoord u k fuel
               | none => p.1)
            else p.1
    | _, _ => s

/-- TRUN (R320, R322, R324). -/
def State.strTrun (s : State) (u : Nat) : State :=
  let x := s.stream u
  if !(List.range 3).all (fun d => (tabGet (fun _ => none) x.stride d).isSome) then s.strIllegal u
  else match x.port with
    | none => s
    | some (k, p) =>
      let conv := match (s.queue k).entry with
        | some w => opIs 0x31 w
        | none => false
      let dec := match (s.queue k).entry with
        | some w => opIs 0x32 w
        | none => false
      if x.write then (if p = 3 && dec then s.strBind u else s.strIllegal u)
      else if p = 0 && conv then (s.setStream u { x with tensor := true }).strCoord u k 64
      else s.strBind u

def execStrTrun (g : Fin 32) (n : Fin 16) (s : State) : Host.Outcome State Fault Refusal :=
  let u := strKey g n
  done (s.strExec u 0x0A (fun t _ _ => t.strTrun u))

/-- Place output bytes of a DECODE in their rows (R323). -/
def State.strRows (s : State) (u k : Nat) : List (Option Byte) → State
  | [] => s
  | b :: bs =>
    match s.mat k, (s.queue k).entry with
    | some m, some w =>
      let x := matGeom w m
      let e := fmtBytes (matFmtO w)
      if (s.stream u).error then s
      else
        let c := oElem x (matFlow w) (m.oGen / e)
        let s1 := match m.reqs[c.1]? with
          | some r => s.strPlace u ((r.o.toNat + c.2 * e + m.oGen % e) % 2 ^ 48) b
          | none => s.strPlace u 0 none
        ((s1.onStream u (fun y => { y with buf := y.buf.drop 1 })).setMat k (some { m with oGen := m.oGen + 1 })).strRows u k bs
    | _, _ => s

/-- RROW (R320, R323, R324). -/
def State.strRrow (s : State) (u : Nat) : State :=
  let x := s.stream u
  match x.port with
  | none => s
  | some (k, p) =>
    match (s.queue k).entry, s.mat k with
    | some w, some m =>
      if !opIs 0x32 w ∨ (p ≠ 0 ∧ p ≠ 3) ∨ x.write ≠ (p == 3) then (if x.write then s.strIllegal u else s.strBind u)
      else if m.batch.isNone then s
      else if p = 0 then (s.setStream u { x with row := true }).strCoord u k 64
      else
        let s1 := (s.setStream u { x with row := true }).strAccept u []
        let s2 := (s1.strRows u k (s1.stream u).buf).strAccept u []
        let g := matGeom w m
        let ended : Bool := match s2.mat k with
          | some m2 => decide (g.bi * g.bj * g.mb * g.nb * fmtBytes (matFmtO w) ≤ m2.oGen)
          | none => false
        if ended && !(s2.stream u).error then s2.onStream u (fun y => { y.step with row := false }) else s2
    | _, _ => if x.write then s.strIllegal u else s.strBind u

def execStrRrow (g : Fin 32) (n : Fin 16) (s : State) : Host.Outcome State Fault Refusal :=
  let u := strKey g n
  done (s.strExec u 0x0B (fun t _ _ => t.strRrow u))

/-! ### Program slots (R326) -/

/-- STREAM_CHAIN (R326): the program in NEXT moves to CURRENT once the one in CURRENT has reached END and, without CHAIN, once all its bytes are delivered or its
writes acknowledged. -/
def execStreamChain (g : Fin 32) (n : Fin 16) (s : State) : Host.Outcome State Fault Refusal :=
  let u := strKey g n
  let x := s.stream u
  done (match x.next with
    | some p =>
      if !x.error && !x.cancelling && (x.cur.isNone || (x.ended && (x.chain || (x.chunks.isEmpty && x.run.isNone && !s.streamOut u)))) then s.setStream u (x.start p) else s
    | none => s)

/-- Place a program for queue k (R326): into an idle unit it starts at once; with NEXT occupied the entry waits; a unit in ERROR ends it STREAM. -/
def State.strPlaceProgram (s : State) (k u : Nat) (w : List W32) : State :=
  let x := s.stream u
  let p : StrProg := ⟨wdAddr w 4, s.qCls k, k % 4⟩
  if x.error then s.qFin k 0xE 0 0
  else if x.cancelling || x.next.isSome then s.setQState k 3
  else if x.cur.isNone then (s.setStream u (x.start p)).qOk k
  else (s.setStream u { x with next := some p }).qOk k

/-- Another queue's STR_RUN holds the unit until it is accepted (R248). -/
def State.unitHeld (s : State) (k u : Nat) : Bool :=
  [0, 1, 2, 3].any (fun q =>
    let j := 4 * (k / 4) + q
    j != k && (match (s.queue j).entry with
      | some w => opIs 0x20 w && (wd w 3).toNat % 16 == u % 16 && (s.queue j).fin.isNone
      | none => false))

/-- STR_RUN (R261, R326): it starts, or one that waits for NEXT is tried again. -/
def execEntStrRun (g : Fin 32) (q : Fin 4) (s : State) : Host.Outcome State Fault Refusal :=
  let k := 4 * g.val + q.val
  match (s.queue k).entry with
  | some w =>
    done (if opIs 0x20 w && (s.queue k).fin.isNone then s.strPlaceProgram k (16 * g.val + (wd w 3).toNat % 16) w else s)
  | none =>
    done (s.entStart k (opIs 0x20) [3, 4, 5] (fun w => wd w 3 >>> 4 == 0 && wdAddrOk w 4 && (wd w 4).toNat % 64 == 0) (fun t w =>
      let u := 16 * g.val + (wd w 3).toNat % 16
      t.qTake k [16 + (wd w 3).toNat % 16] (!t.unitHeld k u) (fun v => v.strPlaceProgram k u w)))

/-- A STR_CANCEL entry ends once every named unit has stopped (R261). -/
def State.strCancelWait (s : State) (k : Nat) : State :=
  match (s.queue k).entry with
  | some w =>
    if opIs 0x21 w && (s.queue k).fin.isNone && (bitsOf (wd w 3).toNat 16).all (fun n => !(s.stream (16 * (k / 4) + n)).cancelling) then s.qOk k else s
  | none => s

/-- STR_CANCEL (R261, R335). -/
def execEntStrCancel (g : Fin 32) (q : Fin 4) (s : State) : Host.Outcome State Fault Refusal :=
  let k := 4 * g.val + q.val
  done (s.entStart k (opIs 0x21) [3] (fun w => wd w 3 >>> 16 == 0) (fun t w =>
    ((t.strCancel g.val (bitsOf (wd w 3).toNat 16)).setQState k 3).strCancelWait k))

/-- STREAM_TAKE_FAULT (R331): the consumer takes a byte of a line whose fault is held. -/
def execStreamTakeFault (g : Fin 32) (n : Fin 16) (s : State) : Host.Outcome State Fault Refusal :=
  let u := strKey g n
  let x := s.stream u
  done (match x.chunks, x.port with
    | c :: _, some _ =>
      match c.st with
      | .held st r => if x.error || x.cancelling then s else s.strError u st r (c.line.getD 0) c.line
      | .ok => s
    | _, _ => s)

/-- STR_CANCEL_CTL (R250, R335): STR_CTL.CANCEL. -/
def execStrCancelCtl (i : Ini) (g : Fin 32) (n : Fin 16) (s : State) : Host.Outcome State Fault Refusal :=
  done (s.regWrite i (R.STR_CTL (g.val / 8) (g.val % 8) n.val) 1)

/-- STREAM_CANCEL_DONE (R335, R336): nothing of a cancelled unit is in flight any longer; it reads IDLE. -/
def execStreamCancelDone (g : Fin 32) (n : Fin 16) (s : State) : Host.Outcome State Fault Refusal :=
  let u := strKey g n
  done (if (s.stream u).cancelling && !s.streamOut u then
    (s.onStream u (fun x => { x with cancelling := false })).each (fun t q => t.strCancelWait (4 * g.val + q)) [0, 1, 2, 3]
  else s)

/-- STR_LINES_READ (R325): a read of STR_LINES_LO latches HI. -/
def execStrLinesRead (i : Ini) (g : Fin 32) (n : Fin 16) (s : State) : Host.Outcome State Fault Refusal :=
  done (s.regReadCmd i (R.STR_LINES_LO (g.val / 8) (g.val % 8) n.val))

end Sys2Proof.Machine
end

