-- ==== Sys2Proof/Machine/Supplies.lean ====
section
/-! DEFINITION. Machine/Supplies.lean: the commands of rails, VBAT, resets, releases and the PMBus master (03_supplies_reset.md). -/
namespace Sys2Proof.Machine

/-- The die whose enable pin powers a rail group: 0–3, or 4 + l. -/
def groupDie (g : Nat) : Nat := if g < 12 then g - 8 else if g < 16 then g - 12 else 4 + (g - 16)

/-- RAIL_OUT_OF_WINDOW (R58, R63, R66, R76, R90). The rails of a die whose EN_ pin is low are not required: that they go out is no event
(notes/assumptions/3.md). A report of a rail that is out already says that the cause persists, which forces a device on its way to Summer back (R90). -/
def execRailOutOfWindow (r : Rail) (s : State) : Host.Outcome State Fault Refusal :=
  let t := s.setRail r false
  let g := railGroup r
  let x := groupDie g
  if (!s.railIn (railKey r) && !(decide (8 ≤ g) && s.power == psToSummer)) ∨ s.sup.winter = .winter ∨ (8 ≤ g ∧ !s.enPin x) then done t
  else
    let u := t.supplyEvent g
    done (if g = 3 then (u.withSup { u.sup with fullModeIn := false }).systemReset 2
      else if g = 4 then u.soleOnlyReset 7 false
      else
        u.forceAutumn 0 (if x < 4 then unitCode 1 x else unitCode 2 (x - 4)))

/-- RAIL_IN_WINDOW (R58). -/
def execRailInWindow (r : Rail) (s : State) : Host.Outcome State Fault Refusal := done (s.setRail r true)

/-- AON_POWER_ON_RESET (R62, R64, R70): everything resets, and INH is low until the release. The operand says whether Insole's contents are still there, which R70 does not guarantee.
Supply events that wait for their report are dropped (DESIGN CHOICE, notes/assumptions/116.md). -/
def execAonPowerOnReset (left : Bool) (s : State) : Host.Outcome State Fault Refusal :=
  let s1 := (s.diesOff.soleReset false).heelReset false
  let s2 := s1.resetRegs (fun a => regDomain a == some .aon || regDomain a == some .retention)
  let s3 := if left then s2 else (s2.clearMem 0x28000000 0x28010000).putWord 0x28000000 0
  let s4 := (s3.checkBegin.withSup { s3.checkBegin.sup with aonHeld := true, winter := .none, thaw := false, woken := false, freshInsole := true,
                                                            heelAlone := false, late := [] }).setInh false
  let s5 := s4.keepsOff.withIo { s4.keepsOff.io with xcv := [] }
  done (s5.withTb { s5.tb with rtc := 0, rtcFrac := 0, xtal := true, quiet := none, lprc := none })

/-- AON_RELEASE (R64, R75). -/
def execAonRelease (s : State) : Host.Outcome State Fault Refusal :=
  done (if s.sup.aonHeld then (s.withSup { s.sup with aonHeld := false }).setInh true else s)

/-- HEEL_BROWNOUT (R59, R62, R70): in Winter the domains are off already and the condition alone is entered. -/
def execHeelBrownout (s : State) : Host.Outcome State Fault Refusal :=
  let t := s.withSup { s.sup with brownout := true, fullModeIn := false }
  done (if s.sup.brownout ∨ s.sup.winter = .winter then t else t.systemReset 2)

/-- HEEL_BROWNOUT_RECOVER (R62, R104). -/
def execHeelBrownoutRecover (s : State) : Host.Outcome State Fault Refusal :=
  let t := s.withSup { s.sup with brownout := false }
  done (if s.sup.brownout && t.sup.winter = .winter && t.sup.woken then t.thawBegin else t)

/-- RESET_PIN (R70). -/
def execResetPin (s : State) : Host.Outcome State Fault Refusal := done (s.systemReset 3)

/-- RST_REQ_ARM (R71). -/
def execRstReqArm (i : Ini) (s : State) : Host.Outcome State Fault Refusal := done (s.regWrite i R.PWR_RST_REQ 0xA5A5)

/-- SW_SYSTEM_RESET (R71). -/
def execSwSystemReset (i : Ini) (s : State) : Host.Outcome State Fault Refusal := done (s.regWrite i R.PWR_RST_REQ 0x5A5A0001)

/-- SW_SOLE_RESET (R71). -/
def execSwSoleReset (i : Ini) (s : State) : Host.Outcome State Fault Refusal := done (s.regWrite i R.PWR_RST_REQ 0x5A5A0002)

/-- SW_DIE_RESET (R71). -/
def execSwDieReset (i : Ini) (d : Fin 4) (s : State) : Host.Outcome State Fault Refusal :=
  done (s.regWrite i R.PWR_RST_REQ (BitVec.ofNat 32 (0x5A5A0008 + d.val)))

/-- WATCHDOG_EXPIRE (R70). -/
def execWatchdogExpire (n : Fin 2) (s : State) : Host.Outcome State Fault Refusal :=
  done (if s.wdogDue n.val then s.wdogExpire n.val else s)

/-- WDOG_KICK (R70). -/
def execWdogKick (i : Ini) (n : Fin 2) (v : W32) (s : State) : Host.Outcome State Fault Refusal :=
  done (s.regWrite i (R.PWR_WDOG_KICK n.val) v)

/-- WDOG_CFG_WRITE (R70). -/
def execWdogCfgWrite (i : Ini) (n : Fin 2) (v : W32) (s : State) : Host.Outcome State Fault Refusal :=
  done (s.regWrite i (R.PWR_WDOG_CFG n.val) v)

/-- REGULATOR_IN_WINDOW (R75). -/
def execRegulatorInWindow (s : State) : Host.Outcome State Fault Refusal :=
  if s.sup.aonHeld ∨ s.sup.brownout ∨ !s.sup.heelHeld ∨ s.sup.winter = .winter then done s
  else done ((((s.setRail .vcc5 true).setRail .vddioH true).setRail .vddHeel true).withSup
    { ((((s.setRail .vcc5 true).setRail .vddioH true).setRail .vddHeel true).sup) with fullModeIn := true })

/-- HEEL_MAIN_RELEASE (R75, R97, R621): once the regulator's outputs and the Heel's rails are in window and no Insole check runs. The operand says
whether the REFCLK monitor sees an edge within 2 µs. -/
def execHeelMainRelease (refclk : Bool) (s : State) : Host.Outcome State Fault Refusal :=
  if s.sup.heelHeld ∧ !s.sup.aonHeld ∧ !s.sup.brownout ∧ s.sup.fullModeIn ∧ s.heelRails ∧ !s.sup.checking ∧ s.sup.winter ≠ .winter then
    done (s.withTb { s.tb with refclk := refclk }).heelRelease
  else done s

/-- SOLE_RELEASE (R75): after ALIGNED, with the Sole's rails in window; the operand is ID0–ID7 as the board straps them (R427). -/
def execSoleRelease (straps : Byte) (s : State) : Host.Outcome State Fault Refusal :=
  if s.sup.soleHeld ∧ !s.sup.heelHeld ∧ s.bit R.TBASE_STATUS 0 ∧ s.soleRails ∧ s.sup.winter ≠ .committed ∧ s.sup.winter ≠ .saved then
    done (s.withSup { s.sup with idStraps := straps }).soleRelease
  else done s

/-- PMB_START (R67). -/
def execPmbStart (i : Ini) (v : W32) (s : State) : Host.Outcome State Fault Refusal := done (s.regWrite i R.PWR_PMB_CMD v)

/-- PMB_DONE (R67): a read that is acknowledged leaves its bytes in PWR_PMB_DATA. The PEC is checked where PWR_PMB_CFG.PEC is set at the end
of the transaction (DESIGN CHOICE, notes/assumptions/116.md). -/
def execPmbDone (end_ : PmbEnd) (data : BitVec 16) (s : State) : Host.Outcome State Fault Refusal :=
  if !s.bit R.PWR_PMB_STAT 0 then done s
  else
    let t := (s.putBit R.PWR_PMB_STAT 0 false).putBit R.PWR_PMB_STAT 1 true
    let n := fget s.sup.pmbCmd F.PWR_PMB_CMD.LEN
    let keep : Nat := if n = 0 then 0 else if n = 1 then data.toNat % 256 else data.toNat
    done (match end_ with
      | .done => if s.sup.pmbCmd.getLsbD 7 then t.setFld R.PWR_PMB_DATA F.PWR_PMB_DATA.DATA keep else t
      | .nack => t.putBit R.PWR_PMB_STAT 2 true
      | .pecErr => if s.sup.pmbCmd.getLsbD 7 then (t.putBit R.PWR_PMB_STAT 3 (s.bit R.PWR_PMB_CFG 2 || t.bit R.PWR_PMB_STAT 3)).setFld R.PWR_PMB_DATA F.PWR_PMB_DATA.DATA keep
        else t
      | .arbLost => t.putBit R.PWR_PMB_STAT 5 true)

/-- The SMBus clock-low timeout, 35 ms in DTB ticks (R67). -/
def pmbTimeout : Nat := 3500000

/-- PMB_TIMEOUT (R67): SCL held low for 35 ms, which START began at the earliest, where CFG.TMO applies the timeout. -/
def execPmbTimeout (s : State) : Host.Outcome State Fault Refusal :=
  if s.bit R.PWR_PMB_STAT 0 && s.bit R.PWR_PMB_CFG 3 && decide (s.sup.pmbAt.toNat + pmbTimeout ≤ s.tb.master.toNat) then
    done (((s.putBit R.PWR_PMB_STAT 0 false).putBit R.PWR_PMB_STAT 1 true).putBit R.PWR_PMB_STAT 4 true)
  else done s

end Sys2Proof.Machine
end

