-- ==== Sys2Proof/Machine/TimeBase.lean ====
section
/-! DEFINITION. Machine/TimeBase.lean: register writes and the commands of the time base (00_scope.md, 02_handshake_timing.md). -/
namespace Sys2Proof.Machine

/-- REG_WRITE (R8, R9, R618): a write of n bytes at a; only an aligned 32-bit one reaches a register. -/
def execRegWrite (i : Ini) (a : Word) (n : Nat) (v : W32) (s : State) : Host.Outcome State Fault Refusal :=
  let q : Req := { ini := i, kind := .write, addr := a, len := n, posted := false, early := false, cls := s.iniLabel i }
  let p := s.busWrite q (leBytes n v.toNat)
  done (match p.2 with
    | .bad c => p.1.faultOf q c
    | _ => p.1)

/-- REFCLK_LOSS (R35, R621). -/
def execRefclkLoss (s : State) : Host.Outcome State Fault Refusal :=
  done (if s.sup.heelHeld ∨ !s.tb.refclk then s else s.refclkLoss)

/-- XTAL32_LOSS (R35): sent while XTAL32 runs, its edges cease, and the RTC stands; sent once 4 ms have passed without one, the loss is declared, periods being the LPRC
periods counted since the last edge (DESIGN CHOICE, notes/assumptions/95.md). With the RTC on LPRC already the monitor alone loses it. -/
def execXtal32Loss (periods : Nat) (s : State) : Host.Outcome State Fault Refusal :=
  done (match s.tb.lprc, s.tb.quiet with
    | some _, _ => s.withTb { s.tb with xtal := false }
    | none, none => s.xtalStop
    | none, some q => if xtalGap ≤ q then s.xtalLost periods else s)

/-- REFLOSS_CLEAR (R35): the operand says whether the monitor of a REFCLK declared lost sees it again. -/
def execReflossClear (i : Ini) (present : Bool) (s : State) : Host.Outcome State Fault Refusal :=
  done ((s.withTb { s.tb with refclk := s.tb.refclk || present }).regWrite i R.TBASE_STATUS 8)

/-- RTC_LPRC_CLEAR (R35): the operand says whether the monitor of an XTAL32 declared lost sees it again. -/
def execRtcLprcClear (i : Ini) (present : Bool) (s : State) : Host.Outcome State Fault Refusal :=
  done ((s.withTb { s.tb with xtal := s.tb.xtal || present }).regWrite i R.TBASE_STATUS 16)

/-- DTB_SYNC_MESSAGE (R40, R41, R43): the message goes out once the master has counted its period. -/
def execDtbSyncMessage (s : State) : Host.Outcome State Fault Refusal :=
  done (if s.syncDue then (s.withTb { s.tb with sync := s.tb.sync - syncPeriod }).each State.syncCopy (List.range 9) else s)

/-- HEEL_PLL_LOCK (R33). -/
def execHeelPllLock (s : State) : Host.Outcome State Fault Refusal :=
  done (if s.sup.heelHeld ∨ !s.tb.refclk then s else s.withTb { s.tb with locked := true, ticking := true })

/-- DTB_ALIGN (R45, R46, R620, R621): at a rising edge of XTAL32. -/
def execDtbAlign (s : State) : Host.Outcome State Fault Refusal :=
  if s.sup.heelHeld ∨ !s.tb.ticking ∨ s.bit R.TBASE_STATUS 0 ∨ !s.atXtal then done s
  else
    let v := s.alignValue
    let t := s.loadMaster v.1
    let u := match v.2 with
      | some b => t.putBit R.TBASE_STATUS b true
      | none => t
    done (u.withSup { u.sup with heelAlone := false, freshInsole := false, wdogStart0 := u.copy 0 }).stampLate

/-- TBASE_CAPTURE (R47): at the XTAL32 edge of a whole second of the RTC, while the Heel main domain is released and no Thaw or Winter entry runs. Before
ALIGNED there is no DTB to capture: R620 and R46 load it from what was last written before the reset (DEDUCED, notes/assumptions/98.md). -/
def execTbaseCapture (s : State) : Host.Outcome State Fault Refusal :=
  if s.atXtal ∧ s.tb.rtc.toNat % 32768 = 0 ∧ !s.sup.heelHeld ∧ !s.collecting ∧ s.bit R.TBASE_STATUS 0 then done s.captureDtb else done s

/-- TBASE_NOW_READ (R39). -/
def execTbaseNowRead (i : Ini) (s : State) : Host.Outcome State Fault Refusal := done (s.regReadCmd i R.TBASE_NOW_LO)

/-- TBASE_RTC_READ (R44). -/
def execTbaseRtcRead (i : Ini) (s : State) : Host.Outcome State Fault Refusal := done (s.regReadCmd i R.TBASE_RTC_LO)

/-- ALARM_COMMIT (R49). -/
def execAlarmCommit (i : Ini) (n : Fin 8) (v : W32) (s : State) : Host.Outcome State Fault Refusal :=
  done (s.regWrite i (R.TBASE_ALM_HI n.val) v)

/-- ALARM_FIRE (R49). -/
def execAlarmFire (n : Fin 8) (s : State) : Host.Outcome State Fault Refusal :=
  done (if s.alarmDue n.val then s.fireAlarm n.val else s)

end Sys2Proof.Machine
end

