-- ==== Sys2Proof/Machine/Training.lean ====
section
/-! DEFINITION. Machine/Training.lean: checkpoints and their trackers, and the pipeline sequencer (13_training.md). g is a global engine 0–31, q one of its
queues. -/
namespace Sys2Proof.Machine

/-! ### Checkpoints (R350–R355) -/

/-- The copies of a CKPT in ascending requests, each read once and written to DST and then, where there is a mirror, to it: how many bytes are left, and how it ends, and where
it failed, unless it waits for an answer from outward. -/
def State.ckptRun (s : State) (k cls : Nat) (src dst left : Nat) (mirror : Option Nat) : Nat → State × Nat × Option EntryEnd
  | 0 => (s, left, some ⟨0, 0, 0⟩)
  | fuel + 1 =>
    if left = 0 then (s, 0, some ⟨0, 0, 0⟩)
    else
      let n := match mirror with
        | some m => Nat.min (copyStep src dst left) (256 - m % 256)
        | none => copyStep src dst left
      let p := s.qRead k 0 (BitVec.ofNat 64 src) n cls
      match p.2 with
      | none => (p.1, left, none)
      | some (.inr (st, r)) => (p.1, left, some ⟨st, r, BitVec.ofNat 64 src⟩)
      | some (.inl b) =>
        let w := p.1.qWrite k 0 (BitVec.ofNat 64 dst) b cls true
        match w.2, mirror with
        | some r, _ => (w.1, left, some ⟨5, r, BitVec.ofNat 64 dst⟩)
        | none, some m =>
          let x := w.1.qWrite k 0 (BitVec.ofNat 64 m) b cls true
          (match x.2 with
           | some _ => (x.1, left, some ⟨0xB, 0, 0⟩)
           | none => x.1.ckptRun k cls (src + n) (dst + n) (left - n) (some (m + n)) fuel)
        | none, none => w.1.ckptRun k cls (src + n) (dst + n) (left - n) none fuel

/-- The copies of a CKPT entry, once it has a copy channel. -/
def State.entCkptRun (s : State) (k : Nat) (w : List W32) : State :=
  let n := (wd w 7).toNat
  let c := (s.queue k).copied
  let m := (wdAddr w 8).toNat
  let p := s.ckptRun k (s.qCls k) ((wdAddr w 3).toNat + c) ((wdAddr w 5).toNat + c) (n - c) (if m = 0 then none else some (m + c)) n
  p.1.copyEnd k n p.2.1 p.2.2

/-- ENT_CKPT (R350, R351): ILLEGAL where no OPEN tracker has its CKPT_ID, or MDST is neither zero nor in a remote window. One that waits for an answer goes on. -/
def execEntCkpt (g : Fin 32) (q : Fin 4) (s : State) : Host.Outcome State Fault Refusal :=
  let k := 4 * g.val + q.val
  match (s.queue k).entry with
  | some w => done (if opIs 0x11 w && (s.queue k).fin.isNone then s.entCkptRun k w else s)
  | none =>
    done (s.entStart k (opIs 0x11) [3, 4, 5, 6, 7, 8, 9, 10]
      (fun w => wdAddrOk w 3 && wdAddrOk w 5 && copyLenOk (wd w 7) && wdAddrOk w 8 && (wdAddr w 8 == 0 || s.inWindow (wdAddr w 8).toNat) &&
        (s.trkOpen (wd w 10)).isSome)
      (fun t w => t.qTake k [0] (decide (t.chanUsed g.val ≤ 2)) (fun u => u.entCkptRun k w)))

/-- TRACKER_OPEN (R351): TRN_CK_CTL.OPEN. -/
def execTrackerOpen (i : Ini) (n : Fin 4) (s : State) : Host.Outcome State Fault Refusal := done (s.regWrite i R.TRN_CK_CTL (BitVec.ofNat 32 (2 ^ n.val)))

/-- TRACKER_ABORT (TRN_CK_CTL): TRN_CK_CTL.ABORT. -/
def execTrackerAbort (i : Ini) (n : Fin 4) (s : State) : Host.Outcome State Fault Refusal := done (s.regWrite i R.TRN_CK_CTL (BitVec.ofNat 32 (2 ^ (4 + n.val))))

/-- The response to tracker n's mirror seal that waits, by its place. -/
def State.sealResp (s : State) (n : Nat) : Option Nat := (List.range s.resp.length).find? (fun j =>
  match s.resp[j]? with
  | some r => s.sealOf r == some n
  | none => false)

/-- SEAL_WRITE_ACK (R353): the local seal's acknowledgement makes the tracker SEALED; the mirror's answer is followed by the local seal, or fails the tracker. -/
def execSealWriteAck (n : Fin 4) (s : State) : Host.Outcome State Fault Refusal :=
  done (if s.eng.sealLocal.contains n.val then s.localSealed n.val
  else match s.sealResp n.val with
    | some j =>
      (match s.resp[j]? with
       | some r => (s.withResp (s.resp.eraseIdx j)).mirrorSealed n.val r.reason
       | none => s)
    | none => s)

/-! ### The pipeline sequencer (R338–R348) -/

/-- The descriptor passes R340. -/
def pipeDescOk (d : List W32) : Bool :=
  let w0 := wd d 0
  let nslot := fget w0 ⟨24, 4⟩
  let lead := fget w0 ⟨28, 4⟩
  let al (i : Nat) : Bool := (wd d i).toNat % 64 == 0
  fget w0 ⟨0, 16⟩ == 0x5044 && fget w0 ⟨16, 8⟩ != 0 && decide (2 ≤ nslot) && decide (1 ≤ lead) && decide (lead < nslot) &&
    decide (fget (wd d 1) ⟨0, 8⟩ ≤ nslot) && wd d 10 != 0 && al 10 && al 13 && al 4 && al 7 && decide ((wd d 10).toNat ≤ (wd d 13).toNat) &&
    wd d 1 >>> 13 == 0 && wdAddrOk d 2 && wdAddrOk d 5 && wdAddrOk d 8 && wdAddrOk d 11

/-- PHASE_HANDLE names a counter of this package, where PHSIG asks for the signal (R265, R340). -/
def State.phaseOk (s : State) (d : List W32) : Bool :=
  if (wd d 1).getLsbD 12 then
    match s.handle (wd d 14) false with
    | .counter _ => true
    | _ => false
  else true

/-- A PIPE holds its resources: its descriptor is read and checked, and its queue is given to the lists (R338–R340). -/
def State.pipeStart (s : State) (k : Nat) (w : List W32) : State :=
  let a := wdAddr w 3
  match (s.queue k).list with
  | none => s
  | some h =>
    let p := s.qFetch k a 64 h.cls
    match p.2 with
    | none => p.1
    | some (.inr (st, r)) =>
      let e := h.addr + BitVec.ofNat 64 (64 + 64 * (s.queue k).idx)
      p.1.qStop k st r a 0x50 (fget (wd w 0) ⟨16, 16⟩) e (2, e)
    | some (.inl b) =>
      let d := leWords b
      if !pipeDescOk d then p.1.qFin k 1 0 0
      else if !p.1.phaseOk d then p.1.qFin k 3 0 0
      else
        let t := p.1.setPipe (k / 4) (some ⟨k, h, (p.1.queue k).idx, w, d, 1, 0, 0, 0, 0, 0, 0, none, none, false, 0⟩)
        let u := (t.onQueue k (fun q => { q with list := none, next := none, idx := 0, entry := none, fin := none })).setQState k 2
        ((u.wr (R.TRN_PWAIT_SLOT (queueDie k) (queueEng k)) 0).wr (R.TRN_PWAIT_PF (queueDie k) (queueEng k)) 0).pipeShow (k / 4)

/-- ENT_PIPE (R338–R340, R345): ILLEGAL inside a pipeline list. It takes the sequencer (resource 7) and a copy channel; one whose descriptor had not come is tried again. -/
def execEntPipe (g : Fin 32) (q : Fin 4) (s : State) : Host.Outcome State Fault Refusal :=
  let k := 4 * g.val + q.val
  match (s.queue k).entry with
  | some w => done (if opIs 0x50 w && (s.queue k).fin.isNone && (s.pipe g.val).isNone && decide (s.chanUsed g.val ≤ 1) then s.pipeStart k w else s)
  | none =>
  done (s.entStart k (opIs 0x50) [3, 4] (fun w => wdAddrOk w 3 && (wd w 3).toNat % 64 == 0 && (s.pipeOf k).isNone)
    (fun t w => t.qTake k [0, 7] ((t.pipe g.val).isNone && decide (t.chanUsed g.val ≤ 1)) (fun u => u.pipeStart k w)))

/-- The PIPE of engine g, where its queue goes on: not stopped, no failed transfer, the engine in service (R347). -/
def State.pipeGoes (s : State) (g : Nat) : Option Pipe :=
  match s.pipe g with
  | some p => if (s.qState p.key = 2 ∨ s.qState p.key = 3) ∧ p.xfail.isNone ∧ s.engUsable g then some p else none
  | none => none

/-- The queue has no list, so that one can be submitted. -/
def State.pipeFree (s : State) (p : Pipe) : Bool := (s.queue p.key).list.isNone && (s.queue p.key).next.isNone

/-- Forward list fwdSub may be submitted but for its slot, and its slot is free (R341). -/
def State.fwdDue (s : State) (p : Pipe) : Bool := p.phase == 1 && decide (p.fwdSub < p.mb) && p.fwdSub == p.fwdEnd && s.pipeFree p
def Pipe.slotFree (p : Pipe) : Bool := decide (p.fwdSub < p.nslot) || decide (p.fwdSub - p.nslot < p.offDone)

/-- The next backward list may be submitted but for its prefetch, and its prefetch has come (R343). -/
def State.bwdDue (s : State) (p : Pipe) : Bool := p.phase == 3 && decide (p.bwdSub < p.mb) && p.bwdSub == p.bwdEnd && s.pipeFree p
def Pipe.bwdNext (p : Pipe) : Nat := p.mb - 1 - p.bwdSub
def Pipe.fetched (p : Pipe) : Bool := decide (p.moved ≤ p.bwdNext) || decide (p.moved - p.bwdNext ≤ p.pfDone)

/-- Submit a list: its header comes next in the queue. -/
def State.pipeSubmit (s : State) (p : Pipe) (base : Word) (stride i : Nat) : State :=
  let a := BitVec.ofNat 64 ((base.toNat + i * stride) % 2 ^ 48)
  ((s.setPipe (p.key / 4) (some p)).onQueue p.key (fun q => { q with next := some a })).pipeShow (p.key / 4)

/-- PIPE_FWD_SUBMIT (R341). -/
def execPipeFwdSubmit (g : Fin 32) (s : State) : Host.Outcome State Fault Refusal :=
  done (match s.pipeGoes g.val with
    | some p =>
      if s.fwdDue p && p.slotFree then s.pipeSubmit { p with fwdSub := p.fwdSub + 1 } (wdAddr p.desc 2) (wd p.desc 4).toNat p.fwdSub else s
    | none => s)

/-- Run a transfer on copy channel 1, with the label OCLASS, or go on with it (R344). -/
def State.pipeXfer (s : State) (p : Pipe) (prefetch : Bool) : State :=
  let n := (wd p.desc 10).toNat
  let c := if p.xfer.isNone then 0 else p.copied
  let src := if prefetch then p.offAddr p.pfNext else p.slotAddr p.offNext
  let dst := if prefetch then p.slotAddr p.pfNext else p.offAddr p.offNext
  let r := s.copyRun p.key 1 (fget (wd p.desc 1) ⟨8, 4⟩) (src + c) (dst + c) (n - c) true n
  let q := match r.2.2 with
    | none => { p with xfer := some prefetch, copied := n - r.2.1 }
    | some e => { p with xfer := some prefetch, copied := n, xfail := if e.status = 0 then p.xfail else some e }
  (r.1.setPipe (p.key / 4) (some q)).pipeShow (p.key / 4)

/-- The running transfer has still bytes to read. -/
def Pipe.copying (p : Pipe) (d : Bool) : Bool := p.xfer == some d && p.xfail.isNone && decide (p.copied < (wd p.desc 10).toNat)

/-- PIPE_OFFLOAD_START (R341, R344): it starts, or one that waits for an answer goes on. -/
def execPipeOffloadStart (g : Fin 32) (s : State) : Host.Outcome State Fault Refusal :=
  done (match s.pipeGoes g.val with
    | some p =>
      if p.copying false || (p.phase != 3 && p.xfer.isNone && decide (p.offDone < p.moved) && decide (p.offDone < p.fwdEnd)) then s.pipeXfer p false else s
    | none => s)

/-- Conditions of R343 for the next prefetch. -/
def Pipe.pfDue (p : Pipe) : Bool :=
  let i := p.pfNext
  p.phase == 3 && decide (p.pfDone < p.moved) && (decide (p.mb ≤ i + p.lead) || decide (p.mb ≤ p.bwdSub + i + p.lead)) &&
    (decide (p.mb ≤ i + p.nslot) || decide (p.mb ≤ p.bwdEnd + i + p.nslot))

/-- PIPE_PREFETCH_START (R343, R344): it starts, or one that waits for an answer goes on. -/
def execPipePrefetchStart (g : Fin 32) (s : State) : Host.Outcome State Fault Refusal :=
  done (match s.pipeGoes g.val with
    | some p => if p.copying true || (p.pfDue && p.xfer.isNone) then s.pipeXfer p true else s
    | none => s)

/-- PIPE_TRANSFER_DONE (R344, R347): every write of the running transfer is acknowledged. One that failed, or a Larder that the PIPE used and that has left service
(R260), stops the queue, as soon as none of its entries runs. -/
def execPipeTransferDone (g : Fin 32) (s : State) : Host.Outcome State Fault Refusal :=
  done (match s.pipe g.val with
    | some p =>
      if (p.xfer.isNone && p.xfail.isNone) || p.copying true || p.copying false || p.xstop || s.writesOut p.key true then s
      else match p.xfail, p.xfer with
        | none, some d =>
          (s.setPipe g.val (some (if d then { p with xfer := none, pfDone := p.pfDone + 1 } else { p with xfer := none, offDone := p.offDone + 1 }))).pipeShow g.val
        | some e, _ =>
          if (s.qState p.key ≠ 2 ∧ s.qState p.key ≠ 3) ∨ (s.queue p.key).entry.isSome then s
          else
            let a := p.list.addr + BitVec.ofNat 64 (64 + 64 * p.idx)
            ((s.setPipe g.val (some { p with xfer := none, xstop := true })).pipeShow g.val).qStop p.key e.status e.reason e.addr 0x50 (fget (wd p.entry 0) ⟨16, 16⟩) a (3, a)
        | none, none => s
    | none => s)

/-- PIPE_PHASE_END (R342): every forward list and every offload is over; PHASE is signalled and the backward phase starts. -/
def execPipePhaseEnd (g : Fin 32) (s : State) : Host.Outcome State Fault Refusal :=
  done (match s.pipe g.val with
    | some p =>
      if p.phase ≠ 3 ∧ p.fwdEnd = p.mb ∧ p.offDone = p.moved then
        let t := if (wd p.desc 1).getLsbD 12 then
            (match s.handle (wd p.desc 14) false with
             | .counter r => (s.countSig (queueIni p.key) p.list.cls (wd p.desc 14)).addCounter r (wd p.desc 15)
             | _ => s.event 0x26 0 0 0 [wd p.desc 14])
          else s
        (t.setPipe g.val (some { p with phase := 3 })).pipeShow g.val
      else s
    | none => s)

/-- PIPE_BWD_SUBMIT (R343). -/
def execPipeBwdSubmit (g : Fin 32) (s : State) : Host.Outcome State Fault Refusal :=
  done (match s.pipeGoes g.val with
    | some p =>
      if s.bwdDue p && p.fetched then s.pipeSubmit { p with bwdSub := p.bwdSub + 1 } (wdAddr p.desc 5) (wd p.desc 7).toNat p.bwdNext else s
    | none => s)

/-- PIPE_COMPLETE (R346): backward list 0 has ended: the PIPE entry's operation is over, in its own list. -/
def execPipeComplete (g : Fin 32) (s : State) : Host.Outcome State Fault Refusal :=
  done (match s.pipe g.val with
    | some p =>
      if p.phase = 3 ∧ p.bwdEnd = p.mb ∧ (s.queue p.key).list.isNone then
        let t := (s.setPipe g.val none).pipeShow g.val
        let a := p.list.addr + BitVec.ofNat 64 (64 + 64 * p.idx)
        ((t.onQueue p.key (fun q => { q with list := some p.list, next := none, idx := p.idx, entry := some p.entry, fin := some ⟨0, 0, 0⟩ })).setQState p.key 2).qCur p.key a
      else s
    | none => s)

/-- A DTB tick of the wait counters: a forward list that waits for its slot, a backward list for its prefetch (TRN_PWAIT_SLOT, TRN_PWAIT_PF). -/
def State.pipeTick (s : State) : State :=
  s.each (fun t g =>
    match t.pipe g with
    | some p =>
      if t.fwdDue p && !p.slotFree then t.advSat (R.TRN_PWAIT_SLOT (g / 8) (g % 8)) F.TRN_PWAIT_SLOT.TICKS 1
      else if t.bwdDue p && !p.fetched then t.advSat (R.TRN_PWAIT_PF (g / 8) (g % 8)) F.TRN_PWAIT_PF.TICKS 1
      else t
    | none => t) (s.eng.pipes.map (·.1))

end Sys2Proof.Machine
end

