-- ==== Sys2Proof/Machine/Dispatch.lean ====
section
/-! DEFINITION. Machine/Dispatch.lean: the meaning of each command, one arm per constructor of Instr. -/
namespace Sys2Proof.Machine

def exec (i : Instr) (s : State) : Host.Outcome State Fault Refusal :=
  match i with
  | .regWrite ini a n v => Sys2Proof.Machine.execRegWrite ini a n v s
  | .refclkLoss => Sys2Proof.Machine.execRefclkLoss s
  | .xtal32Loss periods => Sys2Proof.Machine.execXtal32Loss periods s
  | .reflossClear ini present => Sys2Proof.Machine.execReflossClear ini present s
  | .rtcLprcClear ini present => Sys2Proof.Machine.execRtcLprcClear ini present s
  | .dtbSyncMessage => Sys2Proof.Machine.execDtbSyncMessage s
  | .heelPllLock => Sys2Proof.Machine.execHeelPllLock s
  | .dtbAlign => Sys2Proof.Machine.execDtbAlign s
  | .tbaseCapture => Sys2Proof.Machine.execTbaseCapture s
  | .tbaseNowRead ini => Sys2Proof.Machine.execTbaseNowRead ini s
  | .tbaseRtcRead ini => Sys2Proof.Machine.execTbaseRtcRead ini s
  | .alarmCommit ini n v => Sys2Proof.Machine.execAlarmCommit ini n v s
  | .alarmFire n => Sys2Proof.Machine.execAlarmFire n s
  | .railOutOfWindow r => Sys2Proof.Machine.execRailOutOfWindow r s
  | .railInWindow r => Sys2Proof.Machine.execRailInWindow r s
  | .aonPowerOnReset left => Sys2Proof.Machine.execAonPowerOnReset left s
  | .aonRelease => Sys2Proof.Machine.execAonRelease s
  | .heelBrownout => Sys2Proof.Machine.execHeelBrownout s
  | .vbatLowEnter => Sys2Proof.Machine.execVbatLowEnter s
  | .vbatLowExit => Sys2Proof.Machine.execVbatLowExit s
  | .vbatOvEnter => Sys2Proof.Machine.execVbatOvEnter s
  | .vbatOvExit => Sys2Proof.Machine.execVbatOvExit s
  | .vbatOvRestore => Sys2Proof.Machine.execVbatOvRestore s
  | .resetPin => Sys2Proof.Machine.execResetPin s
  | .rstReqArm ini => Sys2Proof.Machine.execRstReqArm ini s
  | .swSystemReset ini => Sys2Proof.Machine.execSwSystemReset ini s
  | .swSoleReset ini => Sys2Proof.Machine.execSwSoleReset ini s
  | .swDieReset ini d => Sys2Proof.Machine.execSwDieReset ini d s
  | .watchdogExpire n => Sys2Proof.Machine.execWatchdogExpire n s
  | .wdogKick ini n v => Sys2Proof.Machine.execWdogKick ini n v s
  | .wdogCfgWrite ini n v => Sys2Proof.Machine.execWdogCfgWrite ini n v s
  | .regulatorInWindow => Sys2Proof.Machine.execRegulatorInWindow s
  | .heelMainRelease refclk => Sys2Proof.Machine.execHeelMainRelease refclk s
  | .soleRelease straps => Sys2Proof.Machine.execSoleRelease straps s
  | .pmbStart ini v => Sys2Proof.Machine.execPmbStart ini v s
  | .pmbDone end_ data => Sys2Proof.Machine.execPmbDone end_ data s
  | .pmbTimeout => Sys2Proof.Machine.execPmbTimeout s
  | .pwrReqAutumn ini => Sys2Proof.Machine.execPwrReqAutumn ini s
  | .pwrReqSummer ini => Sys2Proof.Machine.execPwrReqSummer ini s
  | .dieResetRelease x => Sys2Proof.Machine.execDieResetRelease x s
  | .dieInitScrubDone x => Sys2Proof.Machine.execDieInitScrubDone x s
  | .dieImageCheck d => Sys2Proof.Machine.execDieImageCheck d s
  | .thermalSample t => Sys2Proof.Machine.execThermalSample t s
  | .winterReqArm ini => Sys2Proof.Machine.execWinterReqArm ini s
  | .winterReq ini => Sys2Proof.Machine.execWinterReq ini s
  | .pwrHeelAck ini v => Sys2Proof.Machine.execPwrHeelAck ini v s
  | .winterGraceExpire => Sys2Proof.Machine.execWinterGraceExpire s
  | .winterSave => Sys2Proof.Machine.execWinterSave s
  | .winterCapture => Sys2Proof.Machine.execWinterCapture s
  | .insoleCheckDone => Sys2Proof.Machine.execInsoleCheckDone s
  | .winterBrownout => Sys2Proof.Machine.execWinterBrownout s
  | .rtcAlarmWake => Sys2Proof.Machine.execRtcAlarmWake s
  | .wakePinConfirm n rising => Sys2Proof.Machine.execWakePinConfirm n rising s
  | .engineGate g => Sys2Proof.Machine.execEngineGate g s
  | .heelBootVerify => Sys2Proof.Machine.execHeelBootVerify s
  | .soleBootVerify => Sys2Proof.Machine.execSoleBootVerify s
  | .verCheck ini => Sys2Proof.Machine.execVerCheck ini s
  | .verStageDie ini => Sys2Proof.Machine.execVerStageDie ini s
  | .verStageSole ini => Sys2Proof.Machine.execVerStageSole ini s
  | .verRegisterFab ini => Sys2Proof.Machine.execVerRegisterFab ini s
  | .verApplyKey ini => Sys2Proof.Machine.execVerApplyKey ini s
  | .verJobDone => Sys2Proof.Machine.execVerJobDone s
  | .rollCommit ini v => Sys2Proof.Machine.execRollCommit ini v s
  | .swapRequest ini v => Sys2Proof.Machine.execSwapRequest ini v s
  | .heelHandover ini v => Sys2Proof.Machine.execHeelHandover ini v s
  | .handoverTimeout => Sys2Proof.Machine.execHandoverTimeout s
  | .swapCoreEnter n => Sys2Proof.Machine.execSwapCoreEnter n s
  | .storeLineWrite ini a data => Sys2Proof.Machine.execStoreLineWrite ini a data s
  | .storeErase ini sector => Sys2Proof.Machine.execStoreErase ini sector s
  | .storeOpDone => Sys2Proof.Machine.execStoreOpDone s
  | .hcmdPush ini w => Sys2Proof.Machine.execHcmdPush ini w s
  | .hcmdOutSet => Sys2Proof.Machine.execHcmdOutSet s
  | .hcmdOutClear => Sys2Proof.Machine.execHcmdOutClear s
  | .hcmdOutPwm => Sys2Proof.Machine.execHcmdOutPwm s
  | .hcmdInRead => Sys2Proof.Machine.execHcmdInRead s
  | .hcmdBusTx => Sys2Proof.Machine.execHcmdBusTx s
  | .hcmdBusRx => Sys2Proof.Machine.execHcmdBusRx s
  | .hcmdWinter => Sys2Proof.Machine.execHcmdWinter s
  | .hcmdImageOpcode status ws => Sys2Proof.Machine.execHcmdImageOpcode status ws s
  | .hcmdUnknownOpcode => Sys2Proof.Machine.execHcmdUnknownOpcode s
  | .hcmdPop ini => Sys2Proof.Machine.execHcmdPop ini s
  | .add c d a b => Sys2Proof.Machine.execAdd c d a b s
  | .sub c d a b => Sys2Proof.Machine.execSub c d a b s
  | .and c d a b => Sys2Proof.Machine.execAnd c d a b s
  | .or c d a b => Sys2Proof.Machine.execOr c d a b s
  | .xor c d a b => Sys2Proof.Machine.execXor c d a b s
  | .sll c d a b => Sys2Proof.Machine.execSll c d a b s
  | .srl c d a b => Sys2Proof.Machine.execSrl c d a b s
  | .sra c d a b => Sys2Proof.Machine.execSra c d a b s
  | .slt c d a b => Sys2Proof.Machine.execSlt c d a b s
  | .sltu c d a b => Sys2Proof.Machine.execSltu c d a b s
  | .min c d a b => Sys2Proof.Machine.execMin c d a b s
  | .max c d a b => Sys2Proof.Machine.execMax c d a b s
  | .minu c d a b => Sys2Proof.Machine.execMinu c d a b s
  | .maxu c d a b => Sys2Proof.Machine.execMaxu c d a b s
  | .mul c d a b => Sys2Proof.Machine.execMul c d a b s
  | .mulh c d a b => Sys2Proof.Machine.execMulh c d a b s
  | .mulhu c d a b => Sys2Proof.Machine.execMulhu c d a b s
  | .div c d a b => Sys2Proof.Machine.execDiv c d a b s
  | .divu c d a b => Sys2Proof.Machine.execDivu c d a b s
  | .rem c d a b => Sys2Proof.Machine.execRem c d a b s
  | .remu c d a b => Sys2Proof.Machine.execRemu c d a b s
  | .clz c d a => Sys2Proof.Machine.execClz c d a s
  | .ctz c d a => Sys2Proof.Machine.execCtz c d a s
  | .popc c d a => Sys2Proof.Machine.execPopc c d a s
  | .addw c d a b => Sys2Proof.Machine.execAddw c d a b s
  | .subw c d a b => Sys2Proof.Machine.execSubw c d a b s
  | .addi c d a imm => Sys2Proof.Machine.execAddi c d a imm s
  | .andi c d a imm => Sys2Proof.Machine.execAndi c d a imm s
  | .ori c d a imm => Sys2Proof.Machine.execOri c d a imm s
  | .xori c d a imm => Sys2Proof.Machine.execXori c d a imm s
  | .slli c d a sh => Sys2Proof.Machine.execSlli c d a sh s
  | .srli c d a sh => Sys2Proof.Machine.execSrli c d a sh s
  | .srai c d a sh => Sys2Proof.Machine.execSrai c d a sh s
  | .slti c d a imm => Sys2Proof.Machine.execSlti c d a imm s
  | .sltiu c d a imm => Sys2Proof.Machine.execSltiu c d a imm s
  | .lui c d imm => Sys2Proof.Machine.execLui c d imm s
  | .shori c d a imm => Sys2Proof.Machine.execShori c d a imm s
  | .lb c d a imm => Sys2Proof.Machine.execLb c d a imm s
  | .lbu c d a imm => Sys2Proof.Machine.execLbu c d a imm s
  | .lh c d a imm => Sys2Proof.Machine.execLh c d a imm s
  | .lhu c d a imm => Sys2Proof.Machine.execLhu c d a imm s
  | .lw c d a imm => Sys2Proof.Machine.execLw c d a imm s
  | .lwu c d a imm => Sys2Proof.Machine.execLwu c d a imm s
  | .ld c d a imm => Sys2Proof.Machine.execLd c d a imm s
  | .sb c d a imm => Sys2Proof.Machine.execSb c d a imm s
  | .sh c d a imm => Sys2Proof.Machine.execSh c d a imm s
  | .sw c d a imm => Sys2Proof.Machine.execSw c d a imm s
  | .sd c d a imm => Sys2Proof.Machine.execSd c d a imm s
  | .amoaddW c d a b => Sys2Proof.Machine.execAmoaddW c d a b s
  | .amoaddD c d a b => Sys2Proof.Machine.execAmoaddD c d a b s
  | .amoswapW c d a b => Sys2Proof.Machine.execAmoswapW c d a b s
  | .amoswapD c d a b => Sys2Proof.Machine.execAmoswapD c d a b s
  | .casW c d a b => Sys2Proof.Machine.execCasW c d a b s
  | .casD c d a b => Sys2Proof.Machine.execCasD c d a b s
  | .beq c a b off => Sys2Proof.Machine.execBeq c a b off s
  | .bne c a b off => Sys2Proof.Machine.execBne c a b off s
  | .blt c a b off => Sys2Proof.Machine.execBlt c a b off s
  | .bge c a b off => Sys2Proof.Machine.execBge c a b off s
  | .bltu c a b off => Sys2Proof.Machine.execBltu c a b off s
  | .bgeu c a b off => Sys2Proof.Machine.execBgeu c a b off s
  | .j c off => Sys2Proof.Machine.execJ c off s
  | .jal c off => Sys2Proof.Machine.execJal c off s
  | .jalr c d a imm => Sys2Proof.Machine.execJalr c d a imm s
  | .fenceRw c => Sys2Proof.Machine.execFenceRw c s
  | .fenceW c => Sys2Proof.Machine.execFenceW c s
  | .fenceI c => Sys2Proof.Machine.execFenceI c s
  | .ecall c => Sys2Proof.Machine.execEcall c s
  | .brk c => Sys2Proof.Machine.execBrk c s
  | .eret c => Sys2Proof.Machine.execEret c s
  | .wfi c => Sys2Proof.Machine.execWfi c s
  | .srd c d n => Sys2Proof.Machine.execSrd c d n s
  | .swr c a n => Sys2Proof.Machine.execSwr c a n s
  | .sset c d a n => Sys2Proof.Machine.execSset c d a n s
  | .sclr c d a n => Sys2Proof.Machine.execSclr c d a n s
  | .rdt c d => Sys2Proof.Machine.execRdt c d s
  | .waitt c a => Sys2Proof.Machine.execWaitt c a s
  | .sig c a b => Sys2Proof.Machine.execSig c a b s
  | .waitge c d a b => Sys2Proof.Machine.execWaitge c d a b s
  | .preg c d a => Sys2Proof.Machine.execPreg c d a s
  | .punreg c d a => Sys2Proof.Machine.execPunreg c d a s
  | .rdc c d a => Sys2Proof.Machine.execRdc c d a s
  | .rpt c n fw => Sys2Proof.Machine.execRpt c n fw s
  | .illegalEncoding c => Sys2Proof.Machine.execIllegalEncoding c s
  | .waittEnd c => Sys2Proof.Machine.execWaittEnd c s
  | .waitgeMet c => Sys2Proof.Machine.execWaitgeMet c s
  | .waitgeDeadline c => Sys2Proof.Machine.execWaitgeDeadline c s
  | .interruptEntry c => Sys2Proof.Machine.execInterruptEntry c s
  | .noticeArrive c addr ini reason => Sys2Proof.Machine.execNoticeArrive c addr ini reason s
  | .pairMismatch p k rpt => Sys2Proof.Machine.execPairMismatch p k rpt s
  | .coreStart ini v => Sys2Proof.Machine.execCoreStart ini v s
  | .coreSwi ini v => Sys2Proof.Machine.execCoreSwi ini v s
  | .cmul c d a b st => Sys2Proof.Machine.execCmul c d a b st s
  | .cmac c d a b st => Sys2Proof.Machine.execCmac c d a b st s
  | .cmsb c d a b st => Sys2Proof.Machine.execCmsb c d a b st s
  | .cmacj c d a b st => Sys2Proof.Machine.execCmacj c d a b st s
  | .cadd c d a b st => Sys2Proof.Machine.execCadd c d a b st s
  | .csub c d a b st => Sys2Proof.Machine.execCsub c d a b st s
  | .crot c d a b st => Sys2Proof.Machine.execCrot c d a b st s
  | .cconj c d a st => Sys2Proof.Machine.execCconj c d a st s
  | .dot8 c d a b st => Sys2Proof.Machine.execDot8 c d a b st s
  | .dot8su c d a b st => Sys2Proof.Machine.execDot8su c d a b st s
  | .rdcs c d a sh => Sys2Proof.Machine.execRdcs c d a sh s
  | .aclr c d => Sys2Proof.Machine.execAclr c d s
  | .cmov c d a => Sys2Proof.Machine.execCmov c d a s
  | .cfromg c d a => Sys2Proof.Machine.execCfromg c d a s
  | .gfromc c d a => Sys2Proof.Machine.execGfromc c d a s
  | .gaccrl c d a => Sys2Proof.Machine.execGaccrl c d a s
  | .gaccrh c d a => Sys2Proof.Machine.execGaccrh c d a s
  | .gaccil c d a => Sys2Proof.Machine.execGaccil c d a s
  | .gaccih c d a => Sys2Proof.Machine.execGaccih c d a s
  | .asetr c d a b => Sys2Proof.Machine.execAsetr c d a b s
  | .aseti c d a b => Sys2Proof.Machine.execAseti c d a b s
  | .lflags c d => Sys2Proof.Machine.execLflags c d s
  | .lclrf c => Sys2Proof.Machine.execLclrf c s
  | .cld c d a imm => Sys2Proof.Machine.execCld c d a imm s
  | .cldp c d a st => Sys2Proof.Machine.execCldp c d a st s
  | .cst c d a st => Sys2Proof.Machine.execCst c d a st s
  | .cmacm c d a b st => Sys2Proof.Machine.execCmacm c d a b st s
  | .cmacr c d a b st => Sys2Proof.Machine.execCmacr c d a b st s
  | .dot8m c d a b st => Sys2Proof.Machine.execDot8m c d a b st s
  | .dot8msu c d a b st => Sys2Proof.Machine.execDot8msu c d a b st s
  | .requestEntry ini k a n early cls data op v => Sys2Proof.Machine.execRequestEntry ini k a n early cls data op v s
  | .requestAtTarget k found answer reason => Sys2Proof.Machine.execRequestAtTarget k found answer reason s
  | .responseAtInitiator k => Sys2Proof.Machine.execResponseAtInitiator k s
  | .hmemTrainDone density ranks2 grade => Sys2Proof.Machine.execHmemTrainDone density ranks2 grade s
  | .hmemFillDone mib => Sys2Proof.Machine.execHmemFillDone mib s
  | .scrubLine m found => Sys2Proof.Machine.execScrubLine m found s
  | .scrubCfgWrite ini x v => Sys2Proof.Machine.execScrubCfgWrite ini x v s
  | .grdPermWrite ini x j n v => Sys2Proof.Machine.execGrdPermWrite ini x j n v s
  | .grdBoundsWrite ini x j n w v => Sys2Proof.Machine.execGrdBoundsWrite ini x j n w v s
  | .violClear ini x => Sys2Proof.Machine.execViolClear ini x s
  | .noticePop ini x => Sys2Proof.Machine.execNoticePop ini x s
  | .noteOvfClear ini x => Sys2Proof.Machine.execNoteOvfClear ini x s
  | .nocRtEnable ini d j n dest => Sys2Proof.Machine.execNocRtEnable ini d j n dest s
  | .nocRtEdit ini d j n route v => Sys2Proof.Machine.execNocRtEdit ini d j n route v s
  | .bwcWindowBoundary x => Sys2Proof.Machine.execBwcWindowBoundary x s
  | .bwcBudgetWrite ini x cls r v => Sys2Proof.Machine.execBwcBudgetWrite ini x cls r v s
  | .bwcWindowWrite ini x v => Sys2Proof.Machine.execBwcWindowWrite ini x v s
  | .awlMatch x point port dir k => Sys2Proof.Machine.execAwlMatch x point port dir k s
  | .awlTrigWrite ini x p v => Sys2Proof.Machine.execAwlTrigWrite ini x p v s
  | .awlUnfreeze ini x => Sys2Proof.Machine.execAwlUnfreeze ini x s
  | .awlCfgWrite ini x p w v => Sys2Proof.Machine.execAwlCfgWrite ini x p w v s
  | .meshFlitError d router k => Sys2Proof.Machine.execMeshFlitError d router k s
  | .weltFlitError b k => Sys2Proof.Machine.execWeltFlitError b k s
  | .queueDoorbell ini g q tail => Sys2Proof.Machine.execQueueDoorbell ini g q tail s
  | .listStart g q => Sys2Proof.Machine.execListStart g q s
  | .entNop g q => Sys2Proof.Machine.execEntNop g q s
  | .entSignal g q => Sys2Proof.Machine.execEntSignal g q s
  | .entWait g q => Sys2Proof.Machine.execEntWait g q s
  | .entWaitMet g q => Sys2Proof.Machine.execEntWaitMet g q s
  | .entWaitTimeout g q => Sys2Proof.Machine.execEntWaitTimeout g q s
  | .entWaitt g q => Sys2Proof.Machine.execEntWaitt g q s
  | .entWaittEnd g q => Sys2Proof.Machine.execEntWaittEnd g q s
  | .entIrq g q => Sys2Proof.Machine.execEntIrq g q s
  | .entJump g q => Sys2Proof.Machine.execEntJump g q s
  | .entAcq g q => Sys2Proof.Machine.execEntAcq g q s
  | .entRel g q => Sys2Proof.Machine.execEntRel g q s
  | .entPreg g q => Sys2Proof.Machine.execEntPreg g q s
  | .entPunreg g q => Sys2Proof.Machine.execEntPunreg g q s
  | .entCopy g q => Sys2Proof.Machine.execEntCopy g q s
  | .entCkpt g q => Sys2Proof.Machine.execEntCkpt g q s
  | .entStrRun g q => Sys2Proof.Machine.execEntStrRun g q s
  | .entStrCancel g q => Sys2Proof.Machine.execEntStrCancel g q s
  | .entMatmul g q => Sys2Proof.Machine.execEntMatmul g q s
  | .entConv g q => Sys2Proof.Machine.execEntConv g q s
  | .entDecode g q => Sys2Proof.Machine.execEntDecode g q s
  | .entFabLoad g q => Sys2Proof.Machine.execEntFabLoad g q s
  | .entFabCall g q => Sys2Proof.Machine.execEntFabCall g q s
  | .entPipe g q => Sys2Proof.Machine.execEntPipe g q s
  | .entUnknownOpcode g q => Sys2Proof.Machine.execEntUnknownOpcode g q s
  | .entryComplete g q => Sys2Proof.Machine.execEntryComplete g q s
  | .queueResume ini g q => Sys2Proof.Machine.execQueueResume ini g q s
  | .queueRetry ini g q => Sys2Proof.Machine.execQueueRetry ini g q s
  | .queueCancel ini g q relholds => Sys2Proof.Machine.execQueueCancel ini g q relholds s
  | .queueCancelDone g q => Sys2Proof.Machine.execQueueCancelDone g q s
  | .counterIncrement ini h n => Sys2Proof.Machine.execCounterIncrement ini h n s
  | .cntWrite ini x n v => Sys2Proof.Machine.execCntWrite ini x n v s
  | .holdAcqRead ini x n => Sys2Proof.Machine.execHoldAcqRead ini x n s
  | .holdRelWrite ini x n v => Sys2Proof.Machine.execHoldRelWrite ini x n v s
  | .censusFire k => Sys2Proof.Machine.execCensusFire k s
  | .cubeStep g q => Sys2Proof.Machine.execCubeStep g q s
  | .cubeStepError g x pos e n => Sys2Proof.Machine.execCubeStepError g x pos e n s
  | .dqDoorbell ini g tail => Sys2Proof.Machine.execDqDoorbell ini g tail s
  | .decodeBatchClose g q => Sys2Proof.Machine.execDecodeBatchClose g q s
  | .decodeBatchDone g q => Sys2Proof.Machine.execDecodeBatchDone g q s
  | .cubeStepsRead ini g => Sys2Proof.Machine.execCubeStepsRead ini g s
  | .strStart g n => Sys2Proof.Machine.execStrStart g n s
  | .strEnd g n => Sys2Proof.Machine.execStrEnd g n s
  | .strAddr g n => Sys2Proof.Machine.execStrAddr g n s
  | .strAdd g n => Sys2Proof.Machine.execStrAdd g n s
  | .strLoop g n => Sys2Proof.Machine.execStrLoop g n s
  | .strEndl g n => Sys2Proof.Machine.execStrEndl g n s
  | .strMove g n ext => Sys2Proof.Machine.execStrMove g n ext s
  | .strSkip g n ext => Sys2Proof.Machine.execStrSkip g n ext s
  | .strSig g n => Sys2Proof.Machine.execStrSig g n s
  | .strTdim g n => Sys2Proof.Machine.execStrTdim g n s
  | .strTrun g n => Sys2Proof.Machine.execStrTrun g n s
  | .strRrow g n => Sys2Proof.Machine.execStrRrow g n s
  | .streamChain g n => Sys2Proof.Machine.execStreamChain g n s
  | .streamTakeFault g n => Sys2Proof.Machine.execStreamTakeFault g n s
  | .strCancelCtl ini g n => Sys2Proof.Machine.execStrCancelCtl ini g n s
  | .streamCancelDone g n => Sys2Proof.Machine.execStreamCancelDone g n s
  | .strLinesRead ini g n => Sys2Proof.Machine.execStrLinesRead ini g n s
  | .pipeFwdSubmit g => Sys2Proof.Machine.execPipeFwdSubmit g s
  | .pipeOffloadStart g => Sys2Proof.Machine.execPipeOffloadStart g s
  | .pipeTransferDone g => Sys2Proof.Machine.execPipeTransferDone g s
  | .pipePhaseEnd g => Sys2Proof.Machine.execPipePhaseEnd g s
  | .pipeBwdSubmit g => Sys2Proof.Machine.execPipeBwdSubmit g s
  | .pipePrefetchStart g => Sys2Proof.Machine.execPipePrefetchStart g s
  | .pipeComplete g => Sys2Proof.Machine.execPipeComplete g s
  | .trackerOpen ini n => Sys2Proof.Machine.execTrackerOpen ini n s
  | .trackerAbort ini n => Sys2Proof.Machine.execTrackerAbort ini n s
  | .sealWriteAck n => Sys2Proof.Machine.execSealWriteAck n s
  | .fabLoadBegin g q => Sys2Proof.Machine.execFabLoadBegin g q s
  | .fabLoadDone d r single bad => Sys2Proof.Machine.execFabLoadDone d r single bad s
  | .fabFuncStart g q => Sys2Proof.Machine.execFabFuncStart g q s
  | .fabFuncReturn d r code => Sys2Proof.Machine.execFabFuncReturn d r code s
  | .fabMaxtime d r => Sys2Proof.Machine.execFabMaxtime d r s
  | .fabRestart ini d r => Sys2Proof.Machine.execFabRestart ini d r s
  | .fabRestartDone d r => Sys2Proof.Machine.execFabRestartDone d r s
  | .fabEmpty ini d r => Sys2Proof.Machine.execFabEmpty ini d r s
  | .fabPatrol d r single bad => Sys2Proof.Machine.execFabPatrol d r single bad s
  | .laceTxWrite ini n l v => Sys2Proof.Machine.execLaceTxWrite ini n l v s
  | .laneIdleEnter n => Sys2Proof.Machine.execLaneIdleEnter n s
  | .laneEieReceive n l => Sys2Proof.Machine.execLaneEieReceive n l s
  | .laneExit n => Sys2Proof.Machine.execLaneExit n s
  | .laneSquelchExit n l => Sys2Proof.Machine.execLaneSquelchExit n l s
  | .laneExitAligned n => Sys2Proof.Machine.execLaneExitAligned n s
  | .laneExitFail n l => Sys2Proof.Machine.execLaneExitFail n l s
  | .laneFalseExit n l => Sys2Proof.Machine.execLaneFalseExit n l s
  | .laneLockLost n l => Sys2Proof.Machine.execLaneLockLost n l s
  | .skipSetSend n x => Sys2Proof.Machine.execSkipSetSend n x s
  | .skipSetReceive n l g => Sys2Proof.Machine.execSkipSetReceive n l g s
  | .trainStart n => Sys2Proof.Machine.execTrainStart n s
  | .tsReceive n l ts inverted g => Sys2Proof.Machine.execTsReceive n l ts inverted g s
  | .trainNegotiateDone n => Sys2Proof.Machine.execTrainNegotiateDone n s
  | .trainRateDone n => Sys2Proof.Machine.execTrainRateDone n s
  | .trainTimeout n => Sys2Proof.Machine.execTrainTimeout n s
  | .laceTestStart ini n v => Sys2Proof.Machine.execLaceTestStart ini n v s
  | .laceTestEnd ini n v => Sys2Proof.Machine.execLaceTestEnd ini n v s
  | .laceTestLpb ini n v => Sys2Proof.Machine.execLaceTestLpb ini n v s
  | .lpbReceive n l => Sys2Proof.Machine.execLpbReceive n l s
  | .felEnd n l => Sys2Proof.Machine.execFelEnd n l s
  | .prbsBitsRead ini n l => Sys2Proof.Machine.execPrbsBitsRead ini n l s
  | .linkEnable ini n v => Sys2Proof.Machine.execLinkEnable ini n v s
  | .linkDisable ini n v => Sys2Proof.Machine.execLinkDisable ini n v s
  | .linkDataReceive n rx good seq h p => Sys2Proof.Machine.execLinkDataReceive n rx good seq h p s
  | .linkAckReceive n rx h => Sys2Proof.Machine.execLinkAckReceive n rx h s
  | .linkCreditInitReceive n rx h req rsp fwd => Sys2Proof.Machine.execLinkCreditInitReceive n rx h req rsp fwd s
  | .mgmtMarkReceive n rx seq h w out => Sys2Proof.Machine.execMgmtMarkReceive n rx seq h w out s
  | .mgmtSwapReceive n rx seq h => Sys2Proof.Machine.execMgmtSwapReceive n rx seq h s
  | .mgmtRetrainReceive n rx seq h => Sys2Proof.Machine.execMgmtRetrainReceive n rx seq h s
  | .replayTimeout n => Sys2Proof.Machine.execReplayTimeout n s
  | .retrainReqTimeout n => Sys2Proof.Machine.execRetrainReqTimeout n s
  | .wardenMark n => Sys2Proof.Machine.execWardenMark n s
  | .linkIdleAfter n => Sys2Proof.Machine.execLinkIdleAfter n s
  | .linkRetrainCmd ini n => Sys2Proof.Machine.execLinkRetrainCmd ini n s
  | .linkSwapCmd ini n => Sys2Proof.Machine.execLinkSwapCmd ini n s
  | .linkRetireCmd ini n => Sys2Proof.Machine.execLinkRetireCmd ini n s
  | .linkReadmitCmd ini n => Sys2Proof.Machine.execLinkReadmitCmd ini n s
  | .pkgIdWrite ini v => Sys2Proof.Machine.execPkgIdWrite ini v s
  | .routeWrite ini p v => Sys2Proof.Machine.execRouteWrite ini p v s
  | .windowWrite ini w hi v => Sys2Proof.Machine.execWindowWrite ini w hi v s
  | .remoteTimeout k sig => Sys2Proof.Machine.execRemoteTimeout k sig s
  | .faultReport kind u sub k ini addr detail => Sys2Proof.Machine.execFaultReport kind u sub k ini addr detail s
  | .recurWindow => Sys2Proof.Machine.execRecurWindow s
  | .fltRetire ini u => Sys2Proof.Machine.execFltRetire ini u s
  | .fltTest ini u => Sys2Proof.Machine.execFltTest ini u s
  | .fltAdmit ini u => Sys2Proof.Machine.execFltAdmit ini u s
  | .fltAbandon ini u => Sys2Proof.Machine.execFltAbandon ini u s
  | .fltRevoke ini p => Sys2Proof.Machine.execFltRevoke ini p s
  | .fltLogCfgWrite ini v => Sys2Proof.Machine.execFltLogCfgWrite ini v s
  | .fltLogTailWrite ini v => Sys2Proof.Machine.execFltLogTailWrite ini v s
  | .summaryUpdate => Sys2Proof.Machine.execSummaryUpdate s
  | .hsoCtlWrite ini n v => Sys2Proof.Machine.execHsoCtlWrite ini n v s
  | .pwmPeriodStart x => Sys2Proof.Machine.execPwmPeriodStart x s
  | .stageOnEdge x => Sys2Proof.Machine.execStageOnEdge x s
  | .stageOffEdge x => Sys2Proof.Machine.execStageOffEdge x s
  | .stageCurrentLimit x reached => Sys2Proof.Machine.execStageCurrentLimit x reached s
  | .stageTrip x => Sys2Proof.Machine.execStageTrip x s
  | .stageOvertemp x => Sys2Proof.Machine.execStageOvertemp x s
  | .stageRestart x cool => Sys2Proof.Machine.execStageRestart x cool s
  | .restartCountClear x => Sys2Proof.Machine.execRestartCountClear x s
  | .hsoOnMeasure x open_ ma => Sys2Proof.Machine.execHsoOnMeasure x open_ ma s
  | .hsoOffPullup x => Sys2Proof.Machine.execHsoOffPullup x s
  | .hsoOffOpenMeasure x high => Sys2Proof.Machine.execHsoOffOpenMeasure x high s
  | .hsoOffShortMeasure x high => Sys2Proof.Machine.execHsoOffShortMeasure x high s
  | .hsoProbePulse x open_ ma => Sys2Proof.Machine.execHsoProbePulse x open_ ma s
  | .diagAgeOut x => Sys2Proof.Machine.execDiagAgeOut x s
  | .keepBlink k => Sys2Proof.Machine.execKeepBlink k s
  | .keepTrip k => Sys2Proof.Machine.execKeepTrip k s
  | .hbrHctlWrite ini j v => Sys2Proof.Machine.execHbrHctlWrite ini j v s
  | .deadtimeEnd x => Sys2Proof.Machine.execDeadtimeEnd x s
  | .hbrPctlWrite ini p v => Sys2Proof.Machine.execHbrPctlWrite ini p v s
  | .pdVdsFault p f => Sys2Proof.Machine.execPdVdsFault p f s
  | .pdOvercurrent p => Sys2Proof.Machine.execPdOvercurrent p s
  | .pdPumpUndervoltage p => Sys2Proof.Machine.execPdPumpUndervoltage p s
  | .pdPumpRecover p => Sys2Proof.Machine.execPdPumpRecover p s
  | .pdCurrentSample p uv => Sys2Proof.Machine.execPdCurrentSample p uv s
  | .patternStart ini k => Sys2Proof.Machine.execPatternStart ini k s
  | .patternAbort ini k => Sys2Proof.Machine.execPatternAbort ini k s
  | .patternStepTime k => Sys2Proof.Machine.execPatternStepTime k s
  | .patternStall k => Sys2Proof.Machine.execPatternStall k s
  | .swiSample pins => Sys2Proof.Machine.execSwiSample pins s
  | .swiCyclicSample pins => Sys2Proof.Machine.execSwiCyclicSample pins s
  | .qdecSample n a b => Sys2Proof.Machine.execQdecSample n a b s
  | .qdecLearn ini n => Sys2Proof.Machine.execQdecLearn ini n s
  | .qdecClrerr ini n => Sys2Proof.Machine.execQdecClrerr ini n s
  | .qdecPosWrite ini n v => Sys2Proof.Machine.execQdecPosWrite ini n v s
  | .qdecSelfCheck n bad => Sys2Proof.Machine.execQdecSelfCheck n bad s
  | .mbcInitClear ini n v => Sys2Proof.Machine.execMbcInitClear ini n v s
  | .mbcInitSet ini n v => Sys2Proof.Machine.execMbcInitSet ini n v s
  | .mbcBusIntegrated n => Sys2Proof.Machine.execMbcBusIntegrated n s
  | .mbcRecover ini n => Sys2Proof.Machine.execMbcRecover ini n s
  | .mbcRecovered n => Sys2Proof.Machine.execMbcRecovered n s
  | .mbcTxreq ini n v => Sys2Proof.Machine.execMbcTxreq ini n v s
  | .mbcTxcan ini n v => Sys2Proof.Machine.execMbcTxcan ini n v s
  | .mbcTxAttemptEnd n b sof tdcv e => Sys2Proof.Machine.execMbcTxAttemptEnd n b sof tdcv e s
  | .mbcFrameReceived n f stamp => Sys2Proof.Machine.execMbcFrameReceived n f stamp s
  | .mbcRxfAck ini n => Sys2Proof.Machine.execMbcRxfAck ini n s
  | .mbcFailPop ini n => Sys2Proof.Machine.execMbcFailPop ini n s
  | .mbcRamError n bad k => Sys2Proof.Machine.execMbcRamError n bad k s
  | .lastRun ini n mode => Sys2Proof.Machine.execLastRun ini n mode s
  | .lastStop ini n => Sys2Proof.Machine.execLastStop ini n s
  | .lastCycleStart n => Sys2Proof.Machine.execLastCycleStart n s
  | .lastSlotStart n => Sys2Proof.Machine.execLastSlotStart n s
  | .lastWindowEnd n begun => Sys2Proof.Machine.execLastWindowEnd n begun s
  | .lastRefTimeout n => Sys2Proof.Machine.execLastRefTimeout n s
  | .linHeaderSend ini n id => Sys2Proof.Machine.execLinHeaderSend ini n id s
  | .linBreak n start stamp => Sys2Proof.Machine.execLinBreak n start stamp s
  | .linCharReceive n samples cyc idle => Sys2Proof.Machine.execLinCharReceive n samples cyc idle s
  | .linPidReceive n => Sys2Proof.Machine.execLinPidReceive n s
  | .linResponseEnd n bit => Sys2Proof.Machine.execLinResponseEnd n bit s
  | .linFrameTimeout n => Sys2Proof.Machine.execLinFrameTimeout n s
  | .linWutxSend ini n dur => Sys2Proof.Machine.execLinWutxSend ini n dur s
  | .linWutxEnd n => Sys2Proof.Machine.execLinWutxEnd n s
  | .linBaudWrite ini n v => Sys2Proof.Machine.execLinBaudWrite ini n v s
  | .linRqPop ini n => Sys2Proof.Machine.execLinRqPop ini n s
  | .linUartTx ini n c => Sys2Proof.Machine.execLinUartTx ini n c s
  | .linUartRxPop ini n => Sys2Proof.Machine.execLinUartRxPop ini n s
  | .linSelfCheckError n k => Sys2Proof.Machine.execLinSelfCheckError n k s
  | .xcvrModeWrite ini x v => Sys2Proof.Machine.execXcvrModeWrite ini x v s
  | .xcvrDominantTimeout x dominant => Sys2Proof.Machine.execXcvrDominantTimeout x dominant s
  | .mbWakePattern x d1 r d2 => Sys2Proof.Machine.execMbWakePattern x d1 r d2 s
  | .linBusWake x ticks => Sys2Proof.Machine.execLinBusWake x ticks s
  | .swFrameDecode x f => Sys2Proof.Machine.execSwFrameDecode x f s
  | .decodingSilence x => Sys2Proof.Machine.execDecodingSilence x s
  | .angCrankEdge rising cam volts => Sys2Proof.Machine.execAngCrankEdge rising cam volts s
  | .angTrailingEdge => Sys2Proof.Machine.execAngTrailingEdge s
  | .angDirthExpire => Sys2Proof.Machine.execAngDirthExpire s
  | .angStall => Sys2Proof.Machine.execAngStall s
  | .angOccurrenceBegin c volts => Sys2Proof.Machine.execAngOccurrenceBegin c volts s
  | .angOccurrenceEnd c => Sys2Proof.Machine.execAngOccurrenceEnd c s
  | .angChangWrite ini c dur v => Sys2Proof.Machine.execAngChangWrite ini c dur v s
  | .angChcfgWrite ini c v => Sys2Proof.Machine.execAngChcfgWrite ini c v s
  | .angCtlWrite ini v => Sys2Proof.Machine.execAngCtlWrite ini v s
  | .angTstampRead ini => Sys2Proof.Machine.execAngTstampRead ini s
  | .dbgAttach => Sys2Proof.Machine.execDbgAttach s
  | .dbgDetach => Sys2Proof.Machine.execDbgDetach s
  | .dbgAttachedClear ini => Sys2Proof.Machine.execDbgAttachedClear ini s
  | .dapRead addr => Sys2Proof.Machine.execDapRead addr s
  | .dapWrite addr data => Sys2Proof.Machine.execDapWrite addr data s
  | .dapNop => Sys2Proof.Machine.execDapNop s
  | .dapAccessDone => Sys2Proof.Machine.execDapAccessDone s
  | .jtagExtest => Sys2Proof.Machine.execJtagExtest s
  | .jtagIdcode => Sys2Proof.Machine.execJtagIdcode s
  | .jtagSamplePreload cells => Sys2Proof.Machine.execJtagSamplePreload cells s
  | .jtagClamp => Sys2Proof.Machine.execJtagClamp s
  | .jtagHighz => Sys2Proof.Machine.execJtagHighz s
  | .jtagBypass code => Sys2Proof.Machine.execJtagBypass code s
  | .jtagDap => Sys2Proof.Machine.execJtagDap s
  | .dbgSysreset => Sys2Proof.Machine.execDbgSysreset s
  | .tapReset => Sys2Proof.Machine.execTapReset s
  | .dbgHalt ini => Sys2Proof.Machine.execDbgHalt ini s
  | .dbgResume ini => Sys2Proof.Machine.execDbgResume ini s
  | .dbgStep ini => Sys2Proof.Machine.execDbgStep ini s
  | .dbgCregAccess ini v => Sys2Proof.Machine.execDbgCregAccess ini v s
  | .debugWake => Sys2Proof.Machine.execDebugWake s
  | .traceRecord => Sys2Proof.Machine.execTraceRecord s
  | .heelBrownoutRecover => Sys2Proof.Machine.execHeelBrownoutRecover s
  | .mbcRxError n bad => Sys2Proof.Machine.execMbcRxError n bad s
  | .linUartCharSent n => Sys2Proof.Machine.execLinUartCharSent n s
  | .prbsCheckerSync n l bits => Sys2Proof.Machine.execPrbsCheckerSync n l bits s
  | .swDecoderReady x => Sys2Proof.Machine.execSwDecoderReady x s

end Sys2Proof.Machine
end

