-- ==== Sys2Proof/Machine/Logic.lean ====
section
/-! DEFINITION. Machine/Logic.lean: what a loaded region's logic does at a DTB tick: cells, vector slices, time references, pins and ring channels (14_fabric.md R362–R367,
R377, R378). The spec says what a cell computes from its inputs and when it may take a value; it does not say what drives the tracks, nor how fast handshake logic
runs: those are free values (notes/assumptions/52.md). -/
namespace Sys2Proof.Machine

/-! ### What the frames configure (R367) -/

/-- The payload of the last frame that names tile t and plane p; a tile that no frame names is left cleared. -/
def payload (b : List Byte) (t p : Nat) : List Byte :=
  match (framesOf b).reverse.find? (fun f => bodyNat f 0 2 == t && bodyNat f 2 1 == p) with
  | some f => f.drop 8
  | none => []

/-- Truth table of cell c of tile t: bit i is the output for input pattern i. -/
def cellTable (b : List Byte) (t c : Nat) : Nat := bodyNat (payload b t (c / 8)) (8 * (c % 8)) 8

/-- Mode word of cell c of tile t: bits 1:0 storage, bits 3:2 the reference of a timed element, bit 4 the carry chain. -/
def cellMode (b : List Byte) (t c : Nat) : Nat := bodyNat (payload b t 2) (4 * c) 4

/-- Tracks that the switches join input j of tile t to; track k runs through every tile of the grid. -/
def joined (b : List Byte) (t j : Nat) : List Nat :=
  (List.range 16).filter (fun k =>
    let s := 16 * j + k
    (bodyNat (payload b t (3 + s / 512)) (s % 512 / 8) 1).testBit (s % 8))

/-- Storage elements of a load, as cells 16·t + c whose mode names one. -/
def storageCells (b : List Byte) : List Nat :=
  (((framesOf b).filter (fun f => bodyNat f 0 2 < 750 && bodyNat f 2 1 == 2)).map (fun f => bodyNat f 0 2)).eraseDups.flatMap (fun t =>
    ((List.range 16).filter (fun c => cellMode b t c % 4 != 0)).map (16 * t + ·))

/-! ### Time references (R365) -/

/-- PERIOD of TREFk. -/
def trefPeriod (b : List Byte) (k : Nat) : Nat := bodyNat b (0x14 + 4 * k) 3

/-- TREFk gives an edge at a DTB tick. -/
def trefEdge (b : List Byte) (now : Word) (k : Nat) : Bool := trefPeriod b k != 0 && now.toNat % trefPeriod b k == 0

/-! ### Cells (R363, R367) -/

/-- The input pattern of cell c of tile t: its six inputs, the lowest least significant. An input joined to one track shows it; any other is free. -/
def cellPattern (b : List Byte) (tracks : Nat) (free : Word) (t c : Nat) : Nat :=
  bitsWord 6 (fun i => match joined b t (6 * c + i) with
    | [k] => tracks.testBit k
    | _ => free.getLsbD (8 + i))

/-- What a cell's logic forms; with the carry chain taken, which the spec does not define, it is free. -/
def cellValue (b : List Byte) (tracks : Nat) (free : Word) (t c : Nat) : Bool :=
  if (cellMode b t c).testBit 4 then free.getLsbD 2 else (cellTable b t c).testBit (cellPattern b tracks free t c)

/-- A storage element at a tick: a handshake latch takes a value once its consumer has acknowledged the last and its inputs have arrived; a timed element on the edges of
its reference alone, where the die's count has advanced. -/
def cellStep (b : List Byte) (now : Word) (counted : Bool) (tracks : Nat) (free : Word) (n : Nat) (x : Cell) : Cell :=
  let t := n / 16
  let c := n % 16
  let m := cellMode b t c
  match m % 4 with
  | 1 =>
    let y := { x with acked := x.acked || free.getLsbD 1 }
    if y.acked && free.getLsbD 0 then ⟨cellValue b tracks free t c, false⟩ else y
  | 2 => if counted && trefEdge b now (m / 4 % 4) then ⟨cellValue b tracks free t c, true⟩ else x
  | _ => x

/-! ### Vector slices (R364) -/

/-- Operand i of n-bit operands in a word. -/
def operandAt (w : Word) (n i : Nat) : Nat := w.toNat / 2 ^ (n * i) % 2 ^ n

/-- One operation of a slice: mode 0 INT8 operands, 1 UINT8 operand B, 2 W16. The accumulator is INT32, or FP32 in W16. -/
def sliceOp (mode : Nat) (acc : W32) (a b : Word) : W32 :=
  if mode = 2 then BitVec.ofNat 32 (fpStep 4 4 acc.toNat ((List.range 4).map (fun i => (operandAt a 16 i, operandAt b 16 i))))
  else (intStep 0 mode acc ((List.range 8).map (fun i => (operandAt a 8 i, operandAt b 8 i)))).1

/-- A slice that the preamble and a frame name. -/
def sliceUsed (b : List Byte) (i : Nat) : Bool := (bodyNat b 0x0A 1).testBit i && !(payload b (768 + i) 0).isEmpty

def sliceMode (b : List Byte) (i : Nat) : Nat := bodyNat (payload b (768 + i) 0) 0 4 % 4

/-- Some switch of slice i, in its plane 3, joins one of its 32 inputs to a track (R367); a slice that none joins gets no operand. -/
def sliceFed (b : List Byte) (i : Nat) : Bool := (List.range 32).any (fun j => !(joined b (768 + i) j).isEmpty)

/-! ### A region's tick -/

def cellRest (_ : Nat) : Cell := ⟨false, true⟩

/-- Its storage elements. -/
def State.cellTick (s : State) (x : Nat) (counted : Bool) (tracks n : Nat) : State :=
  let r := s.rgn x
  s.drawn.setRgn x { r with cells := tabPut cellRest n (cellStep r.body (s.copy (1 + x / 8)) counted tracks s.draw n (tabGet cellRest r.cells n)) r.cells }

/-- Slice i, where operands come to it over its switches now: they are free; so is the result of a mode that R367 does not list. -/
def State.sliceTick (s : State) (x i : Nat) : State :=
  let r := s.rgn x
  let t := s.drawn
  let u := t.drawn
  let m := sliceMode r.body i
  if !sliceUsed r.body i || !sliceFed r.body i then s
  else if !s.draw.getLsbD 0 then t
  else u.drawn.setRgn x { r with accs := tabPut w32Zero i (if m = 3 then u.draw.setWidth 32 else sliceOp m (tabGet w32Zero r.accs i) t.draw u.draw) r.accs }

/-- What the region drives on the pins it owns, which its timed and its other logic may change: which of them, and their levels (R377). -/
def State.pinTick (s : State) (x : Nat) : State :=
  let r := s.rgn x
  let pins := BitVec.ofNat 32 (bodyNat r.body 0x0C 4)
  s.drawn.setRgn x { r with oe := s.draw.setWidth 32 &&& pins, drive := (s.draw >>> 32).setWidth 32 &&& pins }

/-- A ring channel of region x, port p (0 DN, 1 UP), transfers: both regions are LOADED, both declare it, and their CHAN_TAGs are equal (R378). -/
def State.chanOpen (s : State) (x p : Nat) : Bool :=
  let y := chanPeer x p
  s.rgnState x == 2 && s.rgnState y == 2 && (s.rgn x).uses (3 + p) && (s.rgn y).uses (4 - p) && bodyNat (s.rgn x).body 0x10 2 == bodyNat (s.rgn y).body 0x10 2

/-- Port p of region x: its logic may take the word that has come and may offer one; an offered word goes over while the channel is open and the other side has room, else
the sender waits. What is in transit on a channel that has stopped is discarded (R378). -/
def State.chanTick (s : State) (x p : Nat) : State :=
  let r := s.rgn x
  let up := s.chanOpen x p
  let t := s.drawn
  let got := if !up || s.draw.getLsbD 0 then none else tabGet noWord r.recv p
  let out := match tabGet noWord r.send p with
    | some w => some w
    | none => if r.uses (3 + p) && s.draw.getLsbD 1 then some t.draw else none
  let u := t.drawn.setRgn x { r with recv := tabPut noWord p got r.recv, send := tabPut noWord p out r.send }
  let y := chanPeer x p
  match out, tabGet noWord (u.rgn y).recv (1 - p) with
  | some w, none =>
    if up then
      (u.setRgn x { u.rgn x with send := tabPut noWord p none (u.rgn x).send }).setRgn y { u.rgn y with recv := tabPut noWord (1 - p) (some w) (u.rgn y).recv }
    else u
  | _, _ => u

/-- A DTB tick of a LOADED region; counted says that the die's copy of the DTB has advanced, which times the references (R33, R365). -/
def State.rgnTick (s : State) (x : Nat) (counted : Bool) : State :=
  let tracks := s.draw.toNat % 65536
  let s1 := s.drawn.each (fun t n => t.cellTick x counted tracks n) (storageCells (s.rgn x).body)
  let s2 := (s1.each (fun t i => t.sliceTick x i) (List.range 8)).pinTick x
  (s2.chanTick x 0).chanTick x 1

/-- A DTB tick of the fabric: only a LOADED region's logic does anything. was is the state before the tick. -/
def State.fabTick (s was : State) : State :=
  s.each (fun t x => if t.rgnState x = 2 then t.rgnTick x (t.copy (1 + x / 8) != was.copy (1 + x / 8)) else t) (s.eng.rgns.map (·.1))

end Sys2Proof.Machine
end

