-- ==== Sys2Proof/Machine/Idle.lean ====
section
/-! DEFINITION. Machine/Idle.lean: what a step does while no command waits: one DTB tick (notes/assumptions/8.md). -/
namespace Sys2Proof.Machine

/-- One DTB tick: the time base counts, and so do the stall census, the logic of loaded regions and the counters of waiting pipelines; paused watchdogs do not; packets under way pass their ports and arrive; a Summer → Autumn under way ends. -/
def State.idle (s : State) : State := (((s.tick.pipeTick.lacePump.nocTick.cenTick.fabTick s).wdogHold s)).autumnDone

end Sys2Proof.Machine
end

