-- ==== Sys2Proof/WellFormed.lean ====
section
/-! DEFINITION. WellFormed.lean: what an operand that is a list, a number or a frame has to satisfy for the command to be one the package can
meet. Every other operand has exactly the values of its type. A meaning is defined on ill-formed commands too; no statement speaks of one. -/
namespace Sys2Proof

/-- The number of data bytes that a DLC stands for (ISO 11898-1; R508): at most 8 in a classical frame. -/
def dlcBytes (fd : Bool) (dlc : BitVec 4) : Nat :=
  let n := dlc.toNat
  if n ≤ 8 then n
  else if !fd then 8
  else if n = 9 then 12 else if n = 10 then 16 else if n = 11 then 20 else if n = 12 then 24
  else if n = 13 then 32 else if n = 14 then 48 else 64

/-- A frame as the bus can show it (R503, R508): an 11-bit identifier unless ide, no remote frame or error state bits mixed with FD,
no data in a remote frame, else as many data bytes as the DLC says. -/
def CanFrame.wf (f : CanFrame) : Bool :=
  (f.ide || decide (f.id.toNat < 2048)) && !(f.fdf && f.rtr) && (f.fdf || (!f.brs && !f.esi)) &&
    (f.data.length == if f.rtr then 0 else dlcBytes f.fdf f.dlc)

/-- The frame that a transceiver decodes is classical (R550). -/
def SwFrame.wf : SwFrame → Bool
  | .valid f => f.wf && !f.fdf
  | .bad => true
  | .fd => true

/-- The data of a link packet's body (R414): whole lines at most, as many bytes as its length says; an answer carries no data with an error. -/
def LBody.wf : LBody → Bool
  | .req k _ len _ _ data _ _ => decide (data.length ≤ 256) && (if k = .write then data.length == len.toNat else data.isEmpty)
  | .sig _ _ => true
  | .resp reason data => decide (data.length ≤ 256) && (reason == 0 || data.isEmpty)

/-- A size a register access can have (R8, R196 check 3). -/
def accessSize (n : Nat) : Bool := n == 1 || n == 2 || n == 4 || n == 8

/-- A command the package can meet. -/
def Instr.wf : Instr → Bool
  | .regWrite _ _ n _ => accessSize n
  | .thermalSample t => t.length == 8
  | .storeLineWrite _ _ data => data.length == 64
  | .hcmdImageOpcode _ ws => decide (ws.length ≤ 31)
  | .requestEntry _ k _ n _ _ data _ _ =>
    if k = .write then decide (0 < data.length) && decide (data.length ≤ 256) else decide (0 < n) && decide (n ≤ 256) && data.isEmpty
  | .requestAtTarget _ _ answer _ => decide (answer.length ≤ 256)
  | .faultReport _ _ _ k _ _ detail => decide (k ≤ 255) && decide (detail.length ≤ 8)
  | .linkDataReceive _ rx _ _ _ p => p.body.wf && decide (rx.length ≤ 4)
  | .linkAckReceive _ rx _ | .linkCreditInitReceive _ rx _ _ _ _ | .mgmtMarkReceive _ rx _ _ _ _ | .mgmtSwapReceive _ rx _ _ | .mgmtRetrainReceive _ rx _ _ => decide (rx.length ≤ 4)
  | .swiSample pins => decide (pins.length = 64)
  | .swiCyclicSample pins => decide (pins.length = 64)
  | .angCrankEdge _ _ volts => decide (volts.length ≤ 64)
  | .angOccurrenceBegin _ volts => decide (volts.length ≤ 64)
  | .mbcFrameReceived _ f _ => f.wf
  | .swFrameDecode _ f => f.wf
  | .jtagSamplePreload cells => decide (0 < cells.length)
  | .prbsCheckerSync _ _ bits => decide (0 < bits.length)
  | _ => true

end Sys2Proof
end

