-- ==== Sys2Proof/Safety.lean ====
section
/-! DEFINITION. Safety.lean: what the statements speak of: the canonical form of the state's tables, what a command leaves as it was, and when a register write
reaches its register. -/
namespace Sys2Proof.Machine

/-! ### The canonical form -/

/-- The memory lists rising addresses, and no byte that an unlisted address reads as. -/
def Memory.wf (m : List Host.Cell) : Bool := tabWf memDefault m

/-- Registers, memory, line states, cores, queues and holds are in canonical form: equal contents are equal data. -/
def State.wf (s : State) : Bool :=
  tabWf regReset s.regs && Memory.wf s.mem && tabWf lineDefault s.lines && tabWf coreReset s.cores && tabWf queueDefault s.queues &&
    tabWf holdDefault s.holds

/-- t comes of s by operations of the machine: it keeps the canonical form, the package's variant and the queue of waiting commands. -/
def Stays (s t : State) : Prop := (s.wf = true → t.wf = true) ∧ t.variant = s.variant ∧ t.pending = s.pending

/-! ### What a command leaves as it was -/

/-- The parts of the state, one per field. -/
inductive Part where
  | variant | regs | mem | lines | tb | sup | cores | boot | holds | queues | rot | eng | io | flt | net | resp | noc | scrubPos | bwcLen | awlSpent
  | traceQ | sigOut | ret | free | pending
deriving DecidableEq, Repr

/-- Two states agree in a part. -/
def Part.same (s t : State) : Part → Prop
  | .variant => t.variant = s.variant
  | .regs => t.regs = s.regs
  | .mem => t.mem = s.mem
  | .lines => t.lines = s.lines
  | .tb => t.tb = s.tb
  | .sup => t.sup = s.sup
  | .cores => t.cores = s.cores
  | .boot => t.boot = s.boot
  | .holds => t.holds = s.holds
  | .queues => t.queues = s.queues
  | .rot => t.rot = s.rot
  | .eng => t.eng = s.eng
  | .io => t.io = s.io
  | .flt => t.flt = s.flt
  | .net => t.net = s.net
  | .resp => t.resp = s.resp
  | .noc => t.noc = s.noc
  | .scrubPos => t.scrubPos = s.scrubPos
  | .bwcLen => t.bwcLen = s.bwcLen
  | .awlSpent => t.awlSpent = s.awlSpent
  | .traceQ => t.traceQ = s.traceQ
  | .sigOut => t.sigOut = s.sigOut
  | .ret => t.ret = s.ret
  | .free => t.free = s.free
  | .pending => t.pending = s.pending

/-- Nothing but the parts of ps differs between s and t. -/
def Only (ps : List Part) (s t : State) : Prop := ∀ p : Part, p ∉ ps → p.same s t

/-- No register but those at the addresses as differs between s and t. -/
def RegsOnly (as : List Nat) (s t : State) : Prop := ∀ a, a ∉ as → t.rd a = s.rd a

/-- No byte of memory but those of n bytes from a differs between s and t. -/
def BytesOnly (a n : Nat) (s t : State) : Prop := ∀ b, ¬(a ≤ b ∧ b < a + n) → t.byte b = s.byte b

/-- No core but c differs between s and t. -/
def CoreOnly (c : CoreId) (s t : State) : Prop := ∀ x, x ≠ c → t.core x = s.core x

/-! ### Register accesses as commands -/

/-- The request of a command that writes a register. -/
def State.regReq (s : State) (i : Ini) (k : Kind) (a : Nat) : Req :=
  { ini := i, kind := k, addr := BitVec.ofNat 64 a, len := 4, posted := false, early := false, cls := s.iniLabel i }

/-- The state once that request has passed its entry and reached its target (R196, R221, R233): what the entry itself counts and relabels, and the target's grant. -/
def State.entered (s : State) (i : Ini) (k : Kind) (a : Nat) : State := (s.reach (s.regReq i k a)).1

/-- A request passes its entry, and nothing comes before it at its target (R221, R222). -/
def State.clearWay (s : State) (q : Req) : Bool :=
  let p := s.enter q
  p.2.1 == 0 && p.1.queueClear { q with cls := p.2.2 }

/-- The registers an entry may count in: NOC_STAT and the BWC block of the initiator's die (R233, R234). -/
def entryReg (i : Ini) (a : Nat) : Bool := a == R.NOC_STAT (nocBase (iniDie i)) || (bwcBase (iniDie i) ≤ a && a < bwcBase (iniDie i) + 0x400)

/-- No register but those at the addresses as, and those the entry of a request of i counts in, differs between s and t. -/
def WroteOnly (i : Ini) (as : List Nat) (s t : State) : Prop := ∀ a, a ∉ as → entryReg i a = false → t.rd a = s.rd a

/-- A write of v reaches the register at a (R8, R196, R618): the entry lets it pass, its way is clear, the block is there, powered and out of reset, the initiator is among the
register's writers, and the block does not refuse it. -/
def State.takes (s : State) (i : Ini) (a : Nat) (v : W32) : Bool :=
  let p := s.reach (s.regReq i .write a)
  s.clearWay (s.regReq i .write a) && match p.1.regionOf (BitVec.ofNat 64 a).toNat with
    | some (r, _, _) => isRegRegion r (BitVec.ofNat 64 a).toNat && !iniFabric i && p.1.regsUp r && p.1.writer i r (BitVec.ofNat 64 a).toNat == .allow &&
        !p.1.regRefuses i (BitVec.ofNat 64 a).toNat v
    | none => false

/-- A read reaches the register at a. -/
def State.gives (s : State) (i : Ini) (a : Nat) : Bool :=
  let p := s.reach (s.regReq i .read a)
  s.clearWay (s.regReq i .read a) && match p.1.regionOf (BitVec.ofNat 64 a).toNat with
    | some (r, _, _) => isRegRegion r (BitVec.ofNat 64 a).toNat && !iniFabric i && p.1.regsUp r
    | none => false

/-! ### A command that completes -/

/-- The command completes: exec answers a next state, and P holds of it. -/
def Completes (i : Instr) (s : State) (P : State → Prop) : Prop := ∃ t, exec i s = .next t ∧ P t

/-! ### Instructions of a core -/

/-- The state after core c has fetched its next instruction. -/
def State.fetched (s : State) (c : CoreId) : State := (s.fetch c (s.core c).pc).1

/-- Core c executes the instruction it is commanded: it runs, takes no interrupt, waits for nothing, is under no single step, and its fetch answers and leaves the core as it
was (R144, R161, R162, R584). -/
def State.ready (s : State) (c : CoreId) : Bool :=
  s.atBoundary c && (s.irqDue c).isNone && (s.core c).wait.isNone && (s.core c).stepping.isNone && (s.fetch c (s.core c).pc).2.isNone && (s.fetched c).core c == s.core c

/-- Core y is core x with v in gd and pc in PC; g0 takes no value (R135). -/
def Core.became (x y : Core) (d : BitVec 5) (v pc : Word) : Prop :=
  (∀ r, y.gr r = if r = d ∧ r ≠ 0 then v else x.gr r) ∧ y.pc = pc ∧ { y with g := x.g, pc := x.pc } = x

/-- From u to t nothing but core c has changed, and from core x as P says. -/
def CoreStepFrom (u : State) (x : Core) (c : CoreId) (t : State) (P : Core → Core → Prop) : Prop := P x (t.core c) ∧ CoreOnly c u t ∧ Only [.cores] u t

/-- From s to t nothing but core c has changed since the fetch, and core c as P says. -/
def CoreStep (c : CoreId) (s t : State) (P : Core → Core → Prop) : Prop := CoreStepFrom (s.fetched c) (s.core c) c t P

/-- The instruction puts f of its core into gd, and the next instruction follows. -/
def Results (i : Instr) (c : CoreId) (s : State) (d : BitVec 5) (f : Core → Word) : Prop :=
  Completes i s (fun t => CoreStep c s t (fun x y => x.became y d (f x) (x.pc + 4)))

/-- The instruction is executed by a core that is ready, and puts f ga gb into gd. -/
def RegForm (i : CoreId → BitVec 5 → BitVec 5 → BitVec 5 → Instr) (f : Word → Word → Word) : Prop :=
  ∀ s c d a b, s.ready c = true → Results (i c d a b) c s d (fun x => f (x.gr a) (x.gr b))

/-- The instruction is executed by a core that is ready, and puts f ga IMM into gd. -/
def ImmForm (i : CoreId → BitVec 5 → BitVec 5 → BitVec 16 → Instr) (f : Word → BitVec 16 → Word) : Prop :=
  ∀ s c d a imm, s.ready c = true → Results (i c d a imm) c s d (fun x => f (x.gr a) imm)

/-- The instruction branches to pc + 4 × OFF where f ga gb holds, and goes on with the next one where it does not (R138). -/
def BranchForm (i : CoreId → BitVec 5 → BitVec 5 → BitVec 16 → Instr) (f : Word → Word → Bool) : Prop :=
  ∀ s c a b off, s.ready c = true → Completes (i c a b off) s (fun t => CoreStep c s t (fun x y =>
    x.became y 0 0 (if f (x.gr a) (x.gr b) then x.pc + 4 * off.signExtend 64 else x.pc + 4)))

/-- The lines, or Insole words, of an access to memory carry no error (R206, R95). -/
def State.cleanAt (s : State) (r : Region) (a n : Nat) : Bool :=
  match r with
  | .sram | .host | .larder _ | .engMem _ _ => (lineList a n).all (fun l => s.line l == .clean)
  | .insole => (wordList a n).all (fun w => s.line w == .clean)
  | .bootRom | .store | .heelRam | .trace | .keeperRam _ => true
  | _ => false

/-- The request is a read that passes every check of R196, has a clear way and finds clean memory. -/
def State.readsMem (s : State) (q : Req) : Bool :=
  let p := s.reach q
  s.clearWay q && match p.1.regionOf q.addr.toNat with
    | some (r, _, _) => readOwnerOk r q.ini && s.cleanAt r q.addr.toNat q.len
    | none => false

/-- The request is a write that passes every check of R196 and has a clear way, to clean memory other than the image store and an Insole that a Winter entry has closed. -/
def State.writesMem (s : State) (q : Req) : Bool :=
  let p := s.reach q
  s.clearWay q && match p.1.regionOf q.addr.toNat with
    | some (r, _, _) => p.1.writeOwnerOk r q.ini q.addr.toNat q.len && s.cleanAt r q.addr.toNat q.len && (match r with
      | .store => false
      | .insole => s.sup.winter != .committed && s.sup.winter != .saved
      | _ => true)
    | none => false

/-- The request is an atomic that passes every check of R196 and has a clear way, to a clean line of a region that admits atomics (R145). -/
def State.atomsMem (s : State) (q : Req) : Bool :=
  let p := s.reach q
  s.clearWay q && match p.1.regionOf q.addr.toNat with
    | some (r, _, _) => atomicRegion r && s.line (q.addr.toNat / 64 * 64) == .clean
    | none => false

/-- From s to t core c's access has changed nothing but core c, as P says, the entry's counters, and the n bytes at a, which are now bs. -/
def MemStep (c : CoreId) (s t : State) (a n : Nat) (bs : List Byte) (P : Core → Core → Prop) : Prop :=
  P (s.core c) (t.core c) ∧ CoreOnly c (s.fetched c) t ∧ Only [.cores, .regs, .mem, .lines, .noc] (s.fetched c) t ∧
    WroteOnly ((s.fetched c).coreIni c) [] (s.fetched c) t ∧ t.bytes a n = bs ∧ BytesOnly a n (s.fetched c) t ∧ ∀ l, t.line l = (s.fetched c).line l

/-- A load of n bytes, sign-extended where sx: aligned, from clean memory, gd is what stands at ga + IMM (R140, R142). -/
def LoadForm (i : CoreId → BitVec 5 → BitVec 5 → BitVec 16 → Instr) (n : Nat) (ext : Nat → Word) : Prop :=
  ∀ s c d a imm, s.ready c = true →
    let u := s.fetched c
    let w := (s.core c).gr a + imm.signExtend 64
    w.toNat % n = 0 → u.readsMem (u.coreReq c .read w n) = true →
      Completes (i c d a imm) s (fun t => MemStep c s t w.toNat n (u.bytes w.toNat n) (fun x y =>
        x.became y d (ext (leNat (u.bytes w.toNat n))) (x.pc + 4)))

/-- A store of n bytes: aligned, to clean memory, the n bytes at ga + IMM become the low bytes of gd (R140, R142). -/
def StoreForm (i : CoreId → BitVec 5 → BitVec 5 → BitVec 16 → Instr) (n : Nat) : Prop :=
  ∀ s c d a imm, s.ready c = true →
    let u := s.fetched c
    let w := (s.core c).gr a + imm.signExtend 64
    w.toNat % n = 0 → u.writesMem (u.coreReq c .write w n) = true →
      Completes (i c d a imm) s (fun t => MemStep c s t w.toNat n (leBytes n ((s.core c).gr d).toNat) (fun x y => x.became y 0 0 (x.pc + 4)))

/-- An atomic of n bytes at ga: gd is the old value, sign-extended, and memory becomes f of it and the core (R141, R145). -/
def AtomForm (i : CoreId → BitVec 5 → BitVec 5 → BitVec 5 → Instr) (n : Nat) (f : Nat → Word → Word → Nat) : Prop :=
  ∀ s c d a b, s.ready c = true →
    let u := s.fetched c
    let w := (s.core c).gr a
    let old := leNat (u.bytes w.toNat n)
    w.toNat % n = 0 → u.storesOut c = false → u.atomsMem (u.coreReq c .atomic w n) = true →
      Completes (i c d a b) s (fun t => MemStep c s t w.toNat n (leBytes n (f old ((s.core c).gr d) ((s.core c).gr b))) (fun x y =>
        x.became y d (if 2 ^ (8 * n - 1) ≤ old then BitVec.ofInt 64 ((old : Int) - (2 ^ (8 * n) : Int)) else BitVec.ofNat 64 old) (x.pc + 4)))

/-! ### Exceptions and waits of a core -/

/-- A 48-bit address of a core. -/
def addr48 (w : Word) : Word := (w.setWidth 48).setWidth 64

/-- The core may take an exception without halting: EXL is clear and VBASE is not zero (R157, R159). -/
def Core.vectors (x : Core) : Bool := !x.srBit srStatus stExl && x.srAddr srVbaseLo srVbaseHi != 0

/-- Core y has entered from x (R158, R161): EPC names the instruction, TVAL the address, PRIV and IE are saved, PRIV is set and IE clear, EXL is as given, and
the core goes on at VBASE + off; its other registers stay. -/
def Core.entered (x y : Core) (tval : Word) (exl : Bool) (off : Word) : Prop :=
  y.srAddr srEpcLo srEpcHi = addr48 x.pc ∧ y.srAddr srTvalLo srTvalHi = addr48 tval ∧
    y.srBit srStatus stPpriv = x.srBit srStatus stPriv ∧ y.srBit srStatus stPie = x.srBit srStatus stIe ∧
    y.srBit srStatus stPriv = true ∧ y.srBit srStatus stIe = false ∧ y.srBit srStatus stExl = exl ∧
    y.srBit srStatus stPastdl = x.srBit srStatus stPastdl ∧ y.pc = x.srAddr srVbaseLo srVbaseHi + off ∧ (∀ r, y.gr r = x.gr r) ∧
    (∀ n, n ∉ [srStatus, srCause, srEpcLo, srEpcHi, srTvalLo, srTvalHi, srThr] → y.sr n = x.sr n) ∧
    { y with sys := x.sys, pc := x.pc, wait := x.wait } = x ∧ y.wait = none

/-- The instruction raises an exception with CODE, SUB and the address TVAL, and has no other effect than its fetches, which leave u (R157, R158). -/
def RaisesFrom (u : State) (i : Instr) (c : CoreId) (s : State) (code sub : Nat) (tval : Word) : Prop :=
  Completes i s (fun t => (s.core c).entered (t.core c) tval true 0 ∧ fget ((t.core c).sr srCause) ⟨0, 8⟩ = code ∧
    fget ((t.core c).sr srCause) ⟨8, 8⟩ = sub ∧ (t.core c).srBit srCause 31 = false ∧ (t.core c).sr srThr = (s.core c).sr srThr ∧
    CoreOnly c u t ∧ Only [.cores, .free] u t)

/-- The same of an instruction of one word. -/
def Raises (i : Instr) (c : CoreId) (s : State) (code sub : Nat) (tval : Word) : Prop := RaisesFrom (s.fetched c) i c s code sub tval

/-- The registers that a record changes: the fault manager's, those in which its write counts at its entry, and the Sole guards' where it is refused (R205, R233, R234,
R452, R453). -/
def logReg (a : Nat) : Bool :=
  a == R.FLT_SEQ || a == R.FLT_DROP || a == R.FLT_EVT || a == R.FLT_STAT || a == R.FLT_LOG_HEAD || a == R.GRD_VIOL_COUNT (grdBase 0) ||
    a == R.GRD_VIOL_INFO (grdBase 0) || a == R.GRD_VIOL_ADDR_LO (grdBase 0) || a == R.GRD_VIOL_ADDR_HI (grdBase 0) || entryReg (.soleUnit 3) a

/-- No register differs between s and t but those at the addresses as and those of a log record. -/
def LoggedOnly (as : List Nat) (s t : State) : Prop := ∀ a, a ∉ as → logReg a = false → t.rd a = s.rd a

/-! ### The signal lane -/

/-- An integer limited to n bits, signed (R171). -/
def satTo (n : Nat) (v : Int) : Int := max (-(2 : Int) ^ (n - 1)) (min ((2 : Int) ^ (n - 1) - 1) v)

/-- Core y is core x with accumulator d holding re and im, saturated; ASAT sets where either saturates; nothing else of the lane or the core changes, but g, PC and c
registers, which other clauses name. -/
def Core.accumulates (x y : Core) (d : Nat) (re im : Int) : Prop :=
  (y.acc d false).toInt = satTo 80 re ∧ (y.acc d true).toInt = satTo 80 im ∧ (∀ n b, n ≠ d → y.acc n b = x.acc n b) ∧
    y.srBit srLane 2 = (x.srBit srLane 2 || satTo 80 re != re || satTo 80 im != im) ∧
    { y with g := x.g, pc := x.pc, laneA := x.laneA, laneC := x.laneC, sys := x.sys } = x

/-- Core y is core x with the parts re and im, divided by 2^k and rounded by CORE_LANE.RND, then saturated, in complex register d; SAT sets where either saturates. -/
def Core.computes (x y : Core) (d : Nat) (re im : Int) (k : Nat) : Prop :=
  let r := roundShift x.rndFloor re k
  let i := roundShift x.rndFloor im k
  cRe (y.cr d) = satTo 32 r ∧ cIm (y.cr d) = satTo 32 i ∧ (∀ n, n ≠ d → y.cr n = x.cr n) ∧
    y.srBit srLane 1 = (x.srBit srLane 1 || satTo 32 r != r || satTo 32 i != i) ∧
    { y with g := x.g, pc := x.pc, laneA := x.laneA, laneC := x.laneC, sys := x.sys } = x

/-- The system registers, but bit b of CORE_LANE, are the same in y. -/
def Core.sysBut (x y : Core) (b : Nat) : Prop :=
  (∀ n, n ≠ srLane → y.sr n = x.sr n) ∧ ∀ m, m ≠ b → y.srBit srLane m = x.srBit srLane m

/-- A lane register function on an accumulator: fields a[D], c[A] and c[B] (R171–R174). -/
def AccForm (i : CoreId → BitVec 5 → BitVec 5 → BitVec 5 → BitVec 3 → Instr) (re im : Int → Int → Word → Word → Int) : Prop :=
  ∀ s c d a b st, s.ready c = true → hasLane c = true → d.toNat < 4 → a.toNat < 16 → b.toNat < 16 → st.getLsbD 2 = false →
    Completes (i c d a b st) s (fun t => CoreStep c s t (fun x y =>
      x.accumulates y d.toNat (re (x.acc d.toNat false).toInt (x.acc d.toNat true).toInt (x.cr a.toNat) (x.cr b.toNat))
        (im (x.acc d.toNat false).toInt (x.acc d.toNat true).toInt (x.cr a.toNat) (x.cr b.toNat)) ∧
      x.sysBut y 2 ∧ y.g = x.g ∧ y.laneC = x.laneC ∧ y.pc = x.pc + 4))

/-- A lane register function on c[D], of c[A] and c[B] (R171–R174). -/
def ComplexForm (i : CoreId → BitVec 5 → BitVec 5 → BitVec 5 → BitVec 3 → Instr) (re im : Word → Word → Int) (k : Nat) : Prop :=
  ∀ s c d a b st, s.ready c = true → hasLane c = true → d.toNat < 16 → a.toNat < 16 → b.toNat < 16 →
    Completes (i c d a b st) s (fun t => CoreStep c s t (fun x y =>
      x.computes y d.toNat (re (x.cr a.toNat) (x.cr b.toNat)) (im (x.cr a.toNat) (x.cr b.toNat)) k ∧
      x.sysBut y 1 ∧ y.g = x.g ∧ y.laneA = x.laneA ∧ y.pc = x.pc + 4))

/-- A lane memory function that adds to a[D]: m is the doubleword at g[A], which advances by 8 (R174, R175). -/
def AccMemForm (i : CoreId → BitVec 5 → BitVec 5 → BitVec 5 → BitVec 3 → Instr) (re im : Word → Word → Int) : Prop :=
  ∀ s c d a b st, s.ready c = true → hasLane c = true → d.toNat < 4 → b.toNat < 16 → st.getLsbD 0 = false → st.getLsbD 2 = false →
    let u := s.fetched c
    let w := (s.core c).gr a
    let m := BitVec.ofNat 64 (leNat (u.bytes w.toNat 8))
    w.toNat % 8 = 0 → u.readsMem (u.coreReq c .read w 8) = true →
      Completes (i c d a b st) s (fun t => MemStep c s t w.toNat 8 (u.bytes w.toNat 8) (fun x y =>
        x.accumulates y d.toNat ((x.acc d.toNat false).toInt + re m (x.cr b.toNat)) ((x.acc d.toNat true).toInt + im m (x.cr b.toNat)) ∧
        x.sysBut y 2 ∧ (∀ r, y.gr r = if r = a ∧ r ≠ 0 then w + 8 else x.gr r) ∧ y.laneC = x.laneC ∧ y.pc = x.pc + 4))

/-! ### Register writes -/

/-- The capture registers of the guard control block of a die code (R205). -/
def violReg (c a : Nat) : Bool :=
  a == R.GRD_VIOL_COUNT (grdBase c) || a == R.GRD_VIOL_INFO (grdBase c) || a == R.GRD_VIOL_ADDR_LO (grdBase c) || a == R.GRD_VIOL_ADDR_HI (grdBase c)

/-- What a register at a holds after a write of v by its access codes (R9, R11): a RW bit takes v, a W1C bit that v sets clears, a W1S bit that v sets becomes one,
every other bit stays. -/
def codedWrite (a : Nat) (old v : W32) : W32 :=
  match regRow a with
  | none => old
  | some r => (old &&& ~~~BitVec.ofNat 32 r.rw &&& ~~~(v &&& BitVec.ofNat 32 r.w1c)) ||| (v &&& BitVec.ofNat 32 r.rw) ||| (v &&& BitVec.ofNat 32 r.w1s)

/-- From s to t initiator i's write has made the registers of l hold their words, and nothing else has changed but what its entry counts. -/
def WritesRegs (i : Ini) (l : List (Nat × W32)) (s t : State) : Prop :=
  (∀ p, p ∈ l → t.rd p.1 = p.2) ∧ WroteOnly i (l.map (·.1)) s t ∧ Only [.regs, .noc] s t

/-- From s to t the registers of l have come to hold their words, and nothing else has changed. -/
def PutsRegs (l : List (Nat × W32)) (s t : State) : Prop := (∀ p, p ∈ l → t.rd p.1 = p.2) ∧ RegsOnly (l.map (·.1)) s t ∧ Only [.regs] s t

/-! ### Resets -/

/-- The compute and Larder dies are off, but for those that are absent or retired (R24, R85). -/
def State.allOff (s : State) : Prop := (∀ d, d < 4 → s.dieState d = 0 ∨ s.dieState d = 1 ∨ s.dieState d = 5) ∧ ∀ l, l < 2 → s.larderState l = 0 ∨ s.larderState l = 1 ∨ s.larderState l = 5

/-- The whole package but for the always-on domain is in reset, with a cause (R70). -/
def State.allReset (t : State) (cause : Nat) : Prop :=
  t.sup.heelHeld = true ∧ t.sup.soleHeld = true ∧ t.sup.heelAlone = false ∧ t.sup.winter = .none ∧ t.sup.checking = true ∧ t.tb.ticking = false ∧
    t.bit R.PWR_RST_CAUSE cause = true ∧ t.power = 1 ∧ t.bit R.PWR_EN 0 = !t.sup.aonHeld ∧ t.allOff

/-! ### Entries of a queue -/

/-- The address of the entry that comes next in queue k (R256). -/
def State.entryAddr (s : State) (k : Nat) : Word :=
  match (s.queue k).list with
  | some h => h.addr + BitVec.ofNat 64 (64 + 64 * (s.queue k).idx)
  | none => 0

/-- Its words: those the queue waits for resources with, else as they are fetched (R251, R254). -/
def State.entryFetch (s : State) (k : Nat) : State × Option (List W32 ⊕ (Nat × Nat)) :=
  match (s.queue k).list with
  | some h => s.entWords k (s.entryAddr k) h.cls
  | none => (s, none)

/-- Entry w comes next in queue k: the queue is about to start it, and has it or is answered its fetch (R253, R254). -/
def State.comes (s : State) (k : Nat) (w : List W32) : Prop := s.entryDue k = true ∧ (s.entryFetch k).2 = some (.inl w)

/-- The state once entry w of queue k runs, named in ENG_QCUR. -/
def State.begun (s : State) (k : Nat) (w : List W32) : State := (s.entryFetch k).1.entBegin k w (s.entryAddr k)

/-- The entry that queue k runs in u has ended its operation in t as e says; no other queue differs (R260). -/
def State.endedAs (u t : State) (k : Nat) (e : EntryEnd) : Prop :=
  t.queue k = { u.queue k with fin := some e, wait := none } ∧ t.qState k = 2 ∧ ∀ j, j ≠ k → t.queue j = u.queue j

/-- The entry of queue k in u waits in t as w says (R254, R267). -/
def State.waitsAs (u t : State) (k : Nat) (w : QWait) : Prop :=
  t.queue k = { u.queue k with wait := some w } ∧ t.qState k = 3 ∧ ∀ j, j ≠ k → t.queue j = u.queue j

/-- An entry with an opcode's fields in order and a DONE_HANDLE that may be used has the effect P, from the state in which it has been fetched (R258, R261). -/
def EntForm (i : Fin 32 → Fin 4 → Instr) (op : Nat) (used : List Nat) (ok : State → Nat → List W32 → Bool) (P : Nat → List W32 → State → State → Prop) : Prop :=
  ∀ (s : State) g q w, s.comes (qKey g q) w → opIs op w = true → entryReserved w used = true → ok s (qKey g q) w = true → (s.begun (qKey g q) w).doneOk w = true →
    Completes (i g q) s (P (qKey g q) w (s.begun (qKey g q) w))

/-- Queue k's entry can take the resources r where free holds: no other queue comes first (R254). -/
def State.grants (u : State) (k : Nat) (r : List Nat) (free : Bool) : Bool := free && !u.beaten k r

/-- The state in which the entry has taken its resources. -/
def State.granted (u : State) (k : Nat) : State := (u.onQueue k (fun q => { q with wants := [] })).withRot (tabPut natZero (k / 4) (k % 4) u.rot)

/-- The entry waits for resources r (R254). -/
def State.wantsIn (u t : State) (k : Nat) (r : List Nat) : Prop :=
  t.queue k = { u.queue k with entry := none, await := (u.queue k).entry, wants := r } ∧ t.qState k = 3

/-- A matrix entry: its fields decide its end before any access, then it takes its quarters, and binds its units (R248, R262, R286, R313). -/
def MatForm (i : Fin 32 → Fin 4 → Instr) (op : Nat) (used : List Nat) (ok : List W32 → Bool) (fits : State → Nat → List W32 → Bool) (decode : Bool) : Prop :=
  EntForm i op used (fun _ _ w => ok w) (fun k w u t =>
    let wants := (bitsOf (matQmask w) 4).map (· + 2) ++ (if decode then [6] else [])
    let ring := decode && [0, 1, 2, 3].any (fun q => 4 * (k / 4) + q != k && (u.queue (4 * (k / 4) + q)).op == some 0x32)
    let free := u.quartersUsed (k / 4) k &&& matQmask w == 0 && !ring
    (fmtOk w = false → u.endedAs t k ⟨2, 0, 0⟩) ∧
    (fmtOk w = true → shiftOk w = false ∨ fits u k w = false → u.endedAs t k ⟨1, 0, 0⟩) ∧
    (fmtOk w = true → shiftOk w = true → fits u k w = true → u.quarterGone (k / 4) w = true → u.endedAs t k ⟨0xA, 0, 0⟩) ∧
    (fmtOk w = true → shiftOk w = true → fits u k w = true → u.quarterGone (k / 4) w = false →
      (u.grants k wants free = false → u.wantsIn t k wants) ∧
      (u.grants k wants free = true → (∀ p, p ∈ matPorts w → (u.stream (16 * (k / 4) + matUnit w p)).cur = none) →
        t.mat k = some { Mat.init with since := u.copy (1 + queueDie k) } ∧ (∀ p, p ∈ matPorts w → (k, p) ∈ (t.stream (16 * (k / 4) + matUnit w p)).bound) ∧ (t.queue k).entry = some w ∧ (t.queue k).fin = none)))

/-! ### Stream units -/

/-- Stream unit u stands at an instruction with words w and v, of opcode op, which its program allows there and whose reserved bits are zero (R318–R320). -/
def State.strAt (s : State) (u op : Nat) (w v : W32) : Prop :=
  s.strRuns u = true ∧ (∃ p b, (s.stream u).cur = some p ∧ (s.stream u).pc.toNat - p.addr.toNat < 8192 ∧ (s.strFetch u p).2 = some (.inl b) ∧
    wd (leWords (b.drop ((s.stream u).pc.toNat % 64))) 0 = w ∧ wd (leWords (b.drop ((s.stream u).pc.toNat % 64))) 1 = v) ∧
    w.toNat % 256 = op ∧ (s.stream u).begun = (op != 1) ∧ w &&& ~~~(strFields op).1 = 0 ∧ v &&& ~~~(strFields op).2 = 0

/-- The state once that instruction has been fetched. -/
def State.strFetched (s : State) (u : Nat) : State :=
  match (s.stream u).cur with
  | some p => (s.strFetch u p).1
  | none => s

/-- The stream instruction op has the effect P, from the state in which it has been fetched. -/
def StrForm (i : Fin 32 → Fin 16 → Instr) (op : Nat) (P : Nat → W32 → W32 → State → State → Prop) : Prop :=
  ∀ (s : State) g n w v, s.strAt (strKey g n) op w v → Completes (i g n) s (P (strKey g n) w v (s.strFetched (strKey g n)))

/-- From f to t nothing has changed but stream unit u, which is now x. -/
def StreamIs (u : Nat) (f t : State) (x : Stream) : Prop := t.stream u = x ∧ (∀ j, j ≠ u → t.stream j = f.stream j) ∧ Only [.eng] f t

/-- Stream unit u has ended in t with a status and an address, and what it held is gone (R332, R334). -/
def State.strFailed (t : State) (u status : Nat) (a : Word) : Prop :=
  (t.stream u).error = true ∧ (t.stream u).status = status ∧ (t.stream u).errAddr = a ∧ (t.stream u).next = none ∧ (t.stream u).chunks = [] ∧ (t.stream u).buf = []

/-- From f to t stream unit u has ended with a status at its instruction, once the run it had open is written; a write that is refused has ended it before (R320, R324). -/
def State.failsAs (f t : State) (u status : Nat) : Prop :=
  let w := f.strFlush u
  ((w.stream u).error = false → t.strFailed u status (f.stream u).pc) ∧ ((w.stream u).error = true → t = w)

/-! ### Output stages -/

/-- No output stage but x differs between s and t. -/
def StageOnly (x : Nat) (s t : State) : Prop := ∀ y, y ≠ x → t.stage y = s.stage y

/-- From s to t stage x has gone to a set m of closed switches: at once, or through the dead time where the other switch of a side is closed or has just opened (R476, R478). -/
def State.switched (s t : State) (x m : Nat) : Prop :=
  (s.stage x).after = none →
    (s.needDead x m = false → (t.stage x).closed = m ∧ (t.stage x).after = none) ∧
    (s.needDead x m = true → (s.stage x).closed ≠ m → (t.stage x).closed = (s.stage x).closed &&& m ∧ (t.stage x).after = some m)

/-- What a pin of an input at so many mV is sampled as: 1 above the threshold that applies in its present state, 0 below it, within 0.3 V of it either (R486, R487). -/
def State.rawOf (s : State) (i : Nat) (mv : Int) (v : Bool) : Prop :=
  let thr := swThr (fget (s.aonRd (R.SWI_CFG i)) F.SWI_CFG.THR)
  let t := if s.io.swi.raw.getLsbD i then thr.1 else thr.2
  (t + 300 < mv → v = true) ∧ (mv ≤ t - 300 → v = false)

/-- A conversion of so many mV, in units of 10 mV, is within ±1% ±50 mV of it (R489). -/
def adcWithin (mv : Int) (n : Nat) : Prop :=
  let e : Int := mv.natAbs / 100 + 50
  mv + e < 40960 → mv - e - 10 < 10 * (n : Int) ∧ (10 * (n : Int) ≤ mv + e ∨ n = 0)

/-- From s to t a pre-driver has reversed its direction to a mode: through OFF, where its old mode had closed anything (R478). -/
def State.turned (s t : State) (x m : Nat) : Prop :=
  (s.stage x).closed ≠ 0 → (s.stage x).closed = onMask x (s.stage x).cur.mode ∨ (s.stage x).closed = offMask x (s.stage x).cur.mode →
    s.deadTime x ≠ 0 → (t.stage x).closed = 0 ∧ (t.stage x).after = some (onMask x m)

/-- Going to the switches m is an on edge of stage x on its rail (R460). -/
def State.rises (s : State) (x m : Nat) : Bool := decide (x < 48) && m.testBit 0 && !(s.stage x).closed.testBit 0 && (s.stage x).after != some m

/-- Nothing keeps an on edge of stage x from its rail: no other fell less than 0.5 µs ago, and none of a lower stage waits. -/
def State.edgeClear (s : State) (x : Nat) : Prop := s.edgeBusy x = false ∧ ∀ z, z < x → stageRail z = stageRail x → s.edgeWaits z = false

/-- From s to t stage x has gone to the switches m as switched says, but where that is an on edge too soon after another on the rail, it waits for STAGE_ON_EDGE (R460). -/
def State.edgedTo (s t : State) (x m : Nat) : Prop :=
  (s.rises x m = false ∨ 48 ≤ x ∨ s.edgeClear x → s.switched t x m) ∧
    (s.rises x m = true → s.edgeBusy x = false → (∀ z, z < x → s.edgeWaits z = false) → tabGet noCount t.io.outs.edges (stageRail x) = some s.tb.body) ∧
    (s.rises x m = true → s.edgeBusy x = true → (t.stage x).fresh = true ∧ (t.stage x).closed.testBit 0 = false)

/-- From s to t stage x has taken the drive that t's registers command: a static one at once, a PWM one, behind those that still wait, from 2 µs after the write on
(R458–R460). -/
def State.driven (s t : State) (x : Nat) : Prop :=
  (pwmMode x (t.desired x).mode = true → (t.stage x).pend = (s.stage x).pend ++ [(t.desired x, s.heelDtb + 200)] ∧ (t.stage x).cur = (s.stage x).cur ∧
      (t.stage x).closed = (s.stage x).closed) ∧
    (pwmMode x (t.desired x).mode = false → (t.stage x).pend = [] ∧ (t.stage x).cur = t.desired x ∧
      (s.stageBlocked x = false → turns x (s.stage x).cur.mode (t.desired x).mode = false → s.edgedTo t x (onMask x (t.desired x).mode)) ∧
      (s.stageBlocked x = false → turns x (s.stage x).cur.mode (t.desired x).mode = true → s.turned t x (t.desired x).mode)) ∧ StageOnly x s t

/-- From s to t stage x has shut down for a cause, with restarts left: it is open, and its restart is due after RDLY (R464). -/
def State.tripped (s t : State) (x cause : Nat) : Prop :=
  (t.stage x).closed = 0 ∧ (t.stage x).after = none ∧ (t.stage x).due = some (s.heelDtb + BitVec.ofNat 64 (s.restartDelay x)) ∧ (t.stage x).shutAt = some s.heelDtb ∧
    t.restarts x = s.restarts x + 1 ∧ (if x < 48 then t.fld (diagReg x) F.HSO_DIAG.PROT else t.fld (diagReg x) F.HBR_PSTAT.STATE) = cause ∧ StageOnly x s t ∧
    RegsOnly [diagReg x, R.HSO_EVT_LO, R.HSO_EVT_HI, R.HBR_EVT] s t ∧ Only [.io, .regs] s t

/-- From s to t a measurement of stage x by a path has read v: after OL_FILT equal ones STATE is v (R466–R468). -/
def State.measuredAs (s t : State) (x src v : Nat) : Prop :=
  (t.stage x).meas = some s.diagNow ∧ (x < 40 → t.fld (diagReg x) F.HSO_DIAG.SRC = src) ∧ StageOnly x s t ∧ Only [.io, .regs] s t ∧
    (s.ageOut (s.stage x).meas = false → (s.stage x).limited = false →
      let c := if (s.stage x).val = v then (s.stage x).cnt + 1 else 1
      (t.stage x).val = v ∧ (t.stage x).cnt = c ∧
        t.fld (diagReg x) F.HSO_DIAG.STATE = if max 1 (s.fld R.HSO_CFG F.HSO_CFG.OL_FILT) ≤ c then v else s.fld (diagReg x) F.HSO_DIAG.STATE)

/-! ### Lace links -/

/-- No link but n differs between s and t beside its registers. -/
def LinkOnly (n : Nat) (s t : State) : Prop := ∀ m, m ≠ n → t.link m = s.link m

/-- From s to t nothing has changed but link n, which is now x. -/
def LinkIs (n : Nat) (s t : State) (x : Link) : Prop := t.link n = x ∧ LinkOnly n s t ∧ Only [.io] s t

/-- Link n is UP and has retrainings left (R425, R436). -/
def State.mayRetrain (s : State) (n : Nat) : Prop := s.linkSt n = 2 ∧ (s.link n).retrains + 1 ≤ s.retryCount 8

/-- Lane i has sent a training set, from negative running disparity: its last group stands on its balls (R390, R401). -/
def Link.shows (x : Link) (i : Nat) (ts : TrainSet) : Prop :=
  let y := Link.init.sends i (setTS ts)
  tabGet wireIdle x.wire i = tabGet wireIdle y.wire i ∧ tabGet rdNeg x.txRd i = tabGet rdNeg y.txRd i

/-- A link that has sent a MGMT packet where it can and none waits, else has put it behind those that wait (R417, R426). -/
def Link.queued (x : Link) (now : Word) (ready : Bool) (what : LWhat) : Link :=
  if ready && x.mgmt.isEmpty then x.send now 3 1 what else { x with mgmt := x.mgmt ++ [what], idleReq := false, quiet := now }

/-- From s to t link n has entered RETRAIN, and its lanes negotiate (R401, R425). -/
def State.retrains (s t : State) (n : Nat) : Prop :=
  t.linkSt n = 3 ∧ (t.link n).phase = 1 ∧ (t.link n).began = s.linkDtb n ∧ (t.link n).retrains = (s.link n).retrains + 1 ∧ (t.link n).asked = none ∧
    t.fld (lreg R.LACE_PHY_STAT n) F.LACE_PHY_STAT.RATE = 4

/-- A lane failure has made the link layer of a link that was UP in s want retraining in t: the warden starts it, the other end asks for it (R424, R425). -/
def State.wants (s t : State) (n : Nat) : Prop :=
  (s.mayRetrain n → s.on (lreg R.LACE_LSTAT n) F.LACE_LSTAT.WARDEN = true → s.retrains t n) ∧
    (s.linkSt n = 2 → s.on (lreg R.LACE_LSTAT n) F.LACE_LSTAT.WARDEN = false → t.linkSt n = 2 ∧ (t.link n).asked = (s.link n).asked.or (some (s.linkDtb n)))

/-- Link n begins a TRAIN attempt at the rate of RATES bit b (R403). -/
def State.attempts (s t : State) (n b : Nat) : Prop :=
  (t.link n).phase = 2 ∧ (t.link n).began = s.linkDtb n ∧ (t.link n).tried = (s.link n).tried + 2 ^ b ∧ t.fld (lreg R.LACE_PHY_STAT n) F.LACE_PHY_STAT.RATE = b + 1

/-- Link n has failed with a cause (R412, R413). -/
def State.linkFailed (t : State) (n cause : Nat) : Prop := t.linkSt n = 4 ∧ t.fld (lreg R.LACE_LSTAT n) F.LACE_LSTAT.CAUSE = cause

/-- A packet header that says nothing. -/
def noHdr : LHdr := ⟨false, false, 0, 3, 0⟩

/-- A packet header that acknowledges nothing and gives no NAK. -/
def plainHdr (h : LHdr) : Bool := !h.ackv && !h.nak

/-! ### Message buses, LIN and wakes -/

/-- No message bus controller but n, beside its registers and message RAM, differs between s and t. -/
def MbcOnly (n : Nat) (s t : State) : Prop := ∀ m, m ≠ n → t.mbc m = s.mbc m

/-- No LIN controller but n differs between s and t beside its registers. -/
def LinOnly (n : Nat) (s t : State) : Prop := ∀ m, m ≠ n → t.lin m = s.lin m

/-- The response queue of LIN controller n has taken an element, and no frame is in progress (R539). -/
def State.linEnded (s t : State) (n : Nat) (e : LinElem) : Prop :=
  (t.lin n).frame = none ∧ LinOnly n s t ∧ Only [.io, .regs] s t ∧ ((s.lin n).rq.length < 16 → (t.lin n).rq = (s.lin n).rq ++ [e] ∧ t.bit (R.LIN_EVT n) 0 = true) ∧
    ((s.lin n).rq.length = 16 → (t.lin n).rq = (s.lin n).rq ∧ t.bit (R.LIN_EVT n) 1 = true)

/-- The queue of the Heel's command port has given its answer: status, words (R122–R124). -/
def State.answered (s t : State) (tag n status : Nat) (l : List W32) : Prop :=
  t.boot.tx = s.boot.tx.drop (1 + n) ∧ t.boot.rx = BitVec.ofNat 32 (status + l.length * 256 + tag * 65536) :: l ∧ t.boot.cmdSeen = true

/-- Source b has been confirmed with a WAKE_DETAIL: it is pending, and where it is the first since the Winter commit it starts the Thaw (R99–R101). -/
def State.wokeBy (s t : State) (b : Nat) (detail : W32) : Prop :=
  t.bit R.WAKE_PEND b = true ∧ (s.collecting = false → t.sup = s.sup) ∧ (s.collecting = true → s.wakeEnabled.getLsbD b = true → s.sup.woken = false →
    t.bit R.WAKE_SRC b = true ∧ t.rd R.WAKE_DETAIL = detail ∧ t.sup.woken = true ∧ t.sup.wakeRtc = s.tb.rtc ∧
      (s.sup.winter = .winter → s.sup.brownout = false → t.sup.winter = .thawCheck))

end Sys2Proof.Machine
end

