-- ==== Sys2Proof/Certificates/Slice0/Obligations.lean ====
section
/-! DEFINITION. Certificates/Slice0/Obligations.lean: the statements for the provers. -/
open Sys2Proof Sys2Proof.Machine

/-! ### Scope, and the time base -/

/-- R8, R9, R11, R618: a write of an aligned word that reaches a register acts by its access codes; any other access to a register is refused, the register stays, and
a core takes STORE with SUB REGSIZE. -/
def Obligations.RegisterWritesFollowTheirAccessCodes : Prop :=
  (∀ a r (old v : W32) n, regRow a = some r → (codedWrite a old v).getLsbD n =
    (if r.rw.testBit n && decide (n < 32) then v.getLsbD n else (old.getLsbD n && !(r.w1c.testBit n && v.getLsbD n)) || (r.w1s.testBit n && v.getLsbD n))) ∧
  (∀ (s : State) i (a : Nat) v, a ∈ (List.range 10).map R.CORE_ENTRY_LO ++ (List.range 10).map R.CORE_ENTRY_HI ++ (List.range 8).map R.TBASE_ALM_LO ++
      (List.range 8).map R.TBASE_ALM_SIG → s.takes i a v = true →
    Completes (.regWrite i (BitVec.ofNat 64 a) 4 v) s (fun t => WritesRegs i [(a, codedWrite a (s.rd a) v)] s t)) ∧
  (∀ (s : State) c p (a : Word) n v, s.mapped a.toNat = true → (∃ r lo hi, s.regionOf a.toNat = some (r, lo, hi) ∧ isRegRegion r a.toNat = true ∧ a.toNat + n - 1 ≤ hi) →
    (n ≠ 4 ∨ a.toNat % 4 ≠ 0) → (s.core c).vectors = true →
    Completes (.regWrite (.core c p) a n v) s (fun t => fget ((t.core c).sr srCause) ⟨0, 8⟩ = 6 ∧ fget ((t.core c).sr srCause) ⟨8, 8⟩ = 3 ∧
      (t.core c).srAddr srTvalLo srTvalHi = addr48 a ∧
      ∀ b, logReg b = false → entryReg (.core c p) b = false → violReg (iniDie (.core c p)) b = false → t.rd b = s.rd b))

/-- R33, R35, R40, R41, R621: the references, the tick and the sync message. -/
def Obligations.ReferenceAndSyncEventsAct : Prop :=
  (∀ s : State, s.sup.heelHeld = false → s.tb.refclk = true → Completes .refclkLoss s (fun t =>
    t.tb = { s.tb with refclk := false, ticking := true } ∧ t.rd R.TBASE_STATUS = s.rd R.TBASE_STATUS ||| 0xC ∧ LoggedOnly [R.TBASE_STATUS] s t ∧
      (s.heelUp = true → s.sup.late = [] → Only [.tb, .regs, .mem, .lines, .flt, .cores, .net, .noc] s t) ∧
      (s.heelUp = false ∨ s.sup.late ≠ [] →
        t.sup = { s.sup with late := s.sup.late ++ [⟨.event, s.mkEvent 0x29 0 0 0 [0], if s.bit R.TBASE_STATUS 0 then some (s.copy 0) else none⟩] } ∧
        RegsOnly [R.TBASE_STATUS] s t ∧ Only [.tb, .regs, .sup] s t))) ∧
  (∀ (s : State) n, s.tb.lprc = none → s.tb.quiet = none → Completes (.xtal32Loss n) s (fun t =>
    t.tb = { s.tb with quiet := some (s.tb.rtcFrac / 128), rtcFrac := 0 } ∧ t.atXtal = false ∧ Only [.tb] s t)) ∧
  (∀ (s : State) n q, s.tb.lprc = none → s.tb.quiet = some q →
    (q < 400000 → Completes (.xtal32Loss n) s (fun t => t = s)) ∧
    (400000 ≤ q → Completes (.xtal32Loss n) s (fun t => let f := s.tb.rtcFrac + n * 400000
      t.tb = { s.tb with xtal := false, quiet := none, lprc := some 0, rtc := s.tb.rtc + BitVec.ofNat 48 (f / 390625), rtcFrac := f % 390625 } ∧
        t.rd R.TBASE_STATUS = s.rd R.TBASE_STATUS ||| 0x10 ∧ RegsOnly [R.TBASE_STATUS] s t ∧ Only [.tb, .regs] s t))) ∧
  (∀ (s : State) i p, (s.withTb { s.tb with refclk := s.tb.refclk || p }).takes i R.TBASE_STATUS 8 = true → Completes (.reflossClear i p) s (fun t =>
    t.rd R.TBASE_STATUS = (if s.tb.refclk || p then s.rd R.TBASE_STATUS &&& ~~~0xC else s.rd R.TBASE_STATUS) ∧ t.tb = { s.tb with refclk := s.tb.refclk || p } ∧
      WroteOnly i [R.TBASE_STATUS] s t ∧ Only [.tb, .regs, .noc] s t)) ∧
  (∀ (s : State) i p, (s.withTb { s.tb with xtal := s.tb.xtal || p }).takes i R.TBASE_STATUS 16 = true → Completes (.rtcLprcClear i p) s (fun t =>
    t.rd R.TBASE_STATUS = (if s.tb.xtal || p then s.rd R.TBASE_STATUS &&& ~~~0x10 else s.rd R.TBASE_STATUS) ∧ t.tb = { s.tb with xtal := s.tb.xtal || p, lprc := if s.tb.xtal || p then none else s.tb.lprc } ∧
      WroteOnly i [R.TBASE_STATUS] s t ∧ Only [.tb, .regs, .noc] s t)) ∧
  (∀ s : State, s.sup.heelHeld = false → s.tb.refclk = true → Completes .heelPllLock s (fun t =>
    t.tb = { s.tb with locked := true, ticking := true } ∧ Only [.tb] s t)) ∧
  (∀ s : State, s.sup.soleHeld = true ∨ s.tb.sync < 65536 → Completes .dtbSyncMessage s (fun t => t = s)) ∧
  (∀ s : State, s.sup.soleHeld = false → 65536 ≤ s.tb.sync → Completes .dtbSyncMessage s (fun t => t.tb.master = s.tb.master ∧ t.tb.rtc = s.tb.rtc ∧ t.tb.sync = s.tb.sync - 65536 ∧
    (∀ k, k < 9 → (t.copy k).toNat =
      if k ≠ 0 ∧ s.diePowered (if k < 5 then k - 1 else k - 5) = false then (s.copy k).toNat
      else if k ≠ 0 ∧ tabGet boolFalse s.tb.loaded k = false then s.tb.master.toNat
      else if k ∈ s.tb.hold then (s.copy k).toNat else max (s.copy k).toNat s.tb.master.toNat) ∧
    (s.copy 0 ≠ s.tb.master → 0 ∉ s.tb.hold → s.fld R.TBASE_SYNC_HEEL F.TBASE_SYNC_HEEL.HEEL < 255 →
      t.fld R.TBASE_SYNC_HEEL F.TBASE_SYNC_HEEL.HEEL = s.fld R.TBASE_SYNC_HEEL F.TBASE_SYNC_HEEL.HEEL + 1)))

/-- R39, R44–R49, R620: the load of the DTB, its capture, its reads and the alarms. -/
def Obligations.TimeBaseLoadsReadsAndAlarms : Prop :=
  (∀ s : State, s.sup.heelHeld = false → s.tb.ticking = true → s.bit R.TBASE_STATUS 0 = false → s.atXtal = true → Completes .dtbAlign s (fun t =>
    let r := BitVec.ofNat 64 (s.tb.rtc.toNat * 390625 / 128)
    let sum := r + s.dword insOffset
    t.bit R.TBASE_STATUS 0 = true ∧ t.copy 0 = t.tb.master ∧ t.tb.rtc = s.tb.rtc ∧ LoggedOnly [R.TBASE_STATUS] s t ∧ Only [.tb, .regs, .sup, .mem, .lines, .flt, .cores, .net, .noc] s t ∧
    (s.sup.late = [] → RegsOnly [R.TBASE_STATUS] s t ∧ Only [.tb, .regs, .sup] s t) ∧
    (s.sup.heelAlone = true → t.tb.master.toNat = max s.tb.master.toNat sum.toNat) ∧
    (s.sup.heelAlone = false → s.sup.thaw = true → t.tb.master = sum) ∧
    (s.sup.heelAlone = false → s.sup.thaw = false → s.sup.freshInsole = true → t.tb.master = r ∧ t.bit R.TBASE_STATUS 1 = true) ∧
    (s.sup.heelAlone = false → s.sup.thaw = false → s.sup.freshInsole = false →
      t.tb.master.toNat = max sum.toNat (s.dword insMark + 110000000).toNat ∧ t.bit R.TBASE_STATUS 6 = true))) ∧
  (∀ s : State, s.tb.rtc.toNat % 32768 = 0 → s.atXtal = true → s.sup.heelHeld = false → s.collecting = false → s.bit R.TBASE_STATUS 0 = true → Completes .tbaseCapture s (fun t =>
    t.dword insOffset = s.copy 0 - BitVec.ofNat 64 (s.tb.rtc.toNat * 390625 / 128) ∧ t.dword insMark = s.copy 0 ∧ BytesOnly insOffset 16 s t ∧ Only [.mem, .lines] s t)) ∧
  (∀ (s : State) i, s.gives i R.TBASE_NOW_LO = true → Completes (.tbaseNowRead i) s (fun t =>
    t.ret = (s.tb.master.setWidth 32).setWidth 64 ∧ t.tb = { s.tb with hiLatch := tabPut w32Zero (iniId i).toNat ((s.tb.master >>> 32).setWidth 32) s.tb.hiLatch } ∧
      WroteOnly i [] s t ∧ Only [.tb, .ret, .regs, .noc] s t)) ∧
  (∀ (s : State) i, s.gives i R.TBASE_RTC_LO = true → Completes (.tbaseRtcRead i) s (fun t =>
    t.ret = (s.tb.rtc.setWidth 32).setWidth 64 ∧ t.tb = { s.tb with rtcHi := ((s.tb.rtc >>> 32).setWidth 16).setWidth 32 } ∧
      WroteOnly i [] s t ∧ Only [.tb, .ret, .regs, .noc] s t)) ∧
  (∀ (s : State) i (n : Fin 8) v, s.takes i (R.TBASE_ALM_HI n.val) v = true →
    let cmp : Word := v ++ s.rd (R.TBASE_ALM_LO n.val)
    (s.bit (R.TBASE_ALM_CFG n.val) 0 = false ∨ s.tb.master.toNat < cmp.toNat → Completes (.alarmCommit i n v) s (fun t =>
      t.rd (R.TBASE_ALM_HI n.val) = v ∧ WroteOnly i [R.TBASE_ALM_HI n.val] s t ∧ Only [.regs, .tb, .noc] s t ∧
        tabGet wordZero t.tb.almCmp n.val = cmp ∧ tabGet boolTrue t.tb.almArm n.val = true)) ∧
    (s.bit (R.TBASE_ALM_CFG n.val) 0 = true → cmp.toNat ≤ s.tb.master.toNat → Completes (.alarmCommit i n v) s (fun t => t.bit R.TBASE_ALM_PEND n.val = true))) ∧
  (∀ (s : State) (n : Fin 8), s.alarmDue n.val = true → Completes (.alarmFire n) s (fun t =>
    let cfg := s.rd (R.TBASE_ALM_CFG n.val)
    let per := fget cfg F.TBASE_ALM_CFG.PERIOD
    t.bit R.TBASE_ALM_PEND n.val = true ∧ t.alarmDue n.val = false ∧ (s.bit R.TBASE_ALM_PEND n.val = true → t.bit R.TBASE_ALM_PEND (8 + n.val) = true) ∧
    (cfg.getLsbD 3 = true → per ≠ 0 → tabGet wordZero t.tb.almCmp n.val = tabGet wordZero s.tb.almCmp n.val + BitVec.ofNat 64 per) ∧
    (cfg.getLsbD 3 = false → tabGet boolTrue t.tb.almArm n.val = false) ∧
    (∀ r, cfg.getLsbD 2 = true → s.handle (s.rd (R.TBASE_ALM_SIG n.val)) false = .counter r → t.rd r = s.rd r + 1)))

/-! ### Supplies and reset -/

/-- R58, R62–R66, R70, R71, R76: rails, VBAT, the pin and the software requests. -/
def Obligations.SupplyEventsAndResetsAct : Prop :=
  (∀ (s : State) r, Completes (.railInWindow r) s (fun t => t.railIn (railKey r) = true ∧ (∀ k, k ≠ railKey r → t.railIn k = s.railIn k) ∧ Only [.sup] s t)) ∧
  (∀ (s : State) r, Completes (.railOutOfWindow r) s (fun t => t.railIn (railKey r) = false)) ∧
  (∀ (s : State) r, r ∈ [Rail.vcc5, .vddioH, .vddHeel] → s.railIn (railKey r) = true → s.sup.winter ≠ .winter →
    Completes (.railOutOfWindow r) s (fun t => t.allReset 2)) ∧
  (∀ (s : State) r, r ∈ [Rail.vio18, .vddSole, .vddLpphy, .vddqLp] → s.railIn (railKey r) = true → s.sup.winter = .none →
    Completes (.railOutOfWindow r) s (fun t => t.sup.soleHeld = true ∧ t.sup.heelHeld = s.sup.heelHeld ∧ t.bit R.PWR_RST_CAUSE 7 = true ∧ t.allOff)) ∧
  (∀ (s : State) (d : Fin 4) r, r ∈ [Rail.vddC d, .vlaceC d, .vlacehC d, .viofC d] → s.enPin d.val = true →
    (s.power = psSummer ∧ s.railIn (railKey r) = true) ∨ s.power = psToSummer → s.sup.winter = .none →
    Completes (.railOutOfWindow r) s (fun t => t.bit R.PWR_FORCE 0 = true ∧ t.power = psToAutumn ∧ t.allOff ∧ t.sup.heelHeld = s.sup.heelHeld ∧ t.sup.soleHeld = s.sup.soleHeld)) ∧
  (∀ (s : State) left, Completes (.aonPowerOnReset left) s (fun t => t.sup.aonHeld = true ∧ t.sup.heelHeld = true ∧ t.sup.soleHeld = true ∧ t.sup.winter = .none ∧
    t.tb.rtc = 0 ∧ t.tb.rtcFrac = 0 ∧ t.sup.checking = true ∧ (left = false → t.word 0x28000000 = 0) ∧ t.bit R.PWR_EN 0 = false ∧ t.allOff)) ∧
  (∀ s : State, s.sup.aonHeld = true → Completes .aonRelease s (fun t =>
    t.sup = { s.sup with aonHeld := false } ∧ t.rd R.PWR_EN = s.rd R.PWR_EN ||| 1 ∧ RegsOnly [R.PWR_EN] s t ∧ Only [.sup, .regs] s t)) ∧
  (∀ s : State, s.sup.brownout = false → s.sup.winter ≠ .winter → Completes .heelBrownout s (fun t => t.sup.brownout = true ∧ t.sup.fullModeIn = false ∧ t.allReset 2)) ∧
  (∀ s : State, s.sup.brownout = true ∨ s.sup.winter = .winter → Completes .heelBrownout s (fun t =>
    t.sup = { s.sup with brownout := true, fullModeIn := false } ∧ Only [.sup] s t)) ∧
  (∀ s : State, s.sup.winter ≠ .winter ∨ s.sup.woken = false ∨ s.sup.brownout = false → Completes .heelBrownoutRecover s (fun t => t.sup = { s.sup with brownout := false } ∧ Only [.sup] s t)) ∧
  (∀ s : State, s.sup.brownout = true → s.sup.winter = .winter → s.sup.woken = true → Completes .heelBrownoutRecover s (fun t =>
    t.sup.brownout = false ∧ t.sup.winter = .thawCheck ∧ t.sup.checking = true ∧ t.bit R.PWR_EN 0 = true)) ∧
  (∀ s : State, s.sup.winter ≠ .winter → Completes .resetPin s (fun t => t.allReset 3)) ∧
  (∀ (s : State) i, s.takes i R.PWR_RST_REQ 0xA5A5 = true → Completes (.rstReqArm i) s (fun t =>
    t.sup = { s.sup with rstArm := if s.sup.rstArm = none then some (s.copy 0) else none } ∧ WroteOnly i [] s t ∧ Only [.sup, .regs, .noc] s t)) ∧
  (∀ (s : State) i, s.takes i R.PWR_RST_REQ 0x5A5A0001 = true → s.inArm s.sup.rstArm = true → s.sup.winter ≠ .winter →
    Completes (.swSystemReset i) s (fun t => t.allReset 6)) ∧
  (∀ (s : State) i, s.takes i R.PWR_RST_REQ 0x5A5A0002 = true → s.inArm s.sup.rstArm = true → s.sup.winter = .none →
    Completes (.swSoleReset i) s (fun t => t.sup.soleHeld = true ∧ t.sup.heelHeld = s.sup.heelHeld ∧ t.sup.hmemKept = true ∧ t.bit R.PWR_RST_CAUSE 9 = true ∧ t.allOff)) ∧
  (∀ (s : State) i (d : Fin 4), s.takes i R.PWR_RST_REQ (BitVec.ofNat 32 (0x5A5A0008 + d.val)) = true → s.inArm s.sup.rstArm = true → d.val < variantDies s.variant →
    s.diePowered d.val = true → Completes (.swDieReset i d) s (fun t => t.dieState d.val = 2 ∧ d.val ∈ t.sup.dieRst ∧ t.bit R.PWR_RST_CAUSE (12 + d.val) = true ∧
      (t.core (.keeper d)).run = .held ∧ t.sup.soleHeld = s.sup.soleHeld ∧ t.sup.heelHeld = s.sup.heelHeld))

/-- R67, R70, R75: the watchdogs, the releases and the PMBus master. -/
def Obligations.WatchdogsReleasesAndPmbusAct : Prop :=
  (∀ s : State, s.wdogDue 0 = true → Completes (.watchdogExpire 0) s (fun t =>
    t.sup.heelHeld = true ∧ t.sup.heelAlone = true ∧ t.sup.soleHeld = s.sup.soleHeld ∧ t.bit R.PWR_RST_CAUSE 5 = true ∧ t.rd R.PWR_EN = s.rd R.PWR_EN ∧
      t.rd R.PWR_STATE = s.rd R.PWR_STATE)) ∧
  (∀ s : State, s.wdogDue 1 = true → s.sup.winter = .none → Completes (.watchdogExpire 1) s (fun t =>
    t.sup.soleHeld = true ∧ t.sup.heelHeld = s.sup.heelHeld ∧ t.bit R.PWR_RST_CAUSE 8 = true ∧ t.allOff)) ∧
  (∀ (s : State) i (n : Fin 2), s.takes i (R.PWR_WDOG_KICK n.val) 0xA55A = true → Completes (.wdogKick i n 0xA55A) s (fun t =>
    t.sup = (if n = 0 then { s.sup with wdogStart0 := s.copy 0 } else { s.sup with wdogStart1 := s.tb.master }) ∧ WroteOnly i [] s t ∧ Only [.sup, .regs, .noc] s t)) ∧
  (∀ (s : State) i v, s.takes i (R.PWR_WDOG_KICK 0) v = true → v ≠ 0xA55A → s.bit (R.PWR_WDOG_CFG 0) 0 = true →
    Completes (.wdogKick i 0 v) s (fun t => t.sup.heelHeld = true ∧ t.sup.heelAlone = true ∧ t.bit R.PWR_RST_CAUSE 5 = true)) ∧
  (∀ (s : State) i (n : Fin 2) v, s.takes i (R.PWR_WDOG_KICK n.val) v = true → v ≠ 0xA55A → s.bit (R.PWR_WDOG_CFG n.val) 0 = false →
    Completes (.wdogKick i n v) s (WritesRegs i [] s)) ∧
  (∀ (s : State) i (n : Fin 2) v, s.takes i (R.PWR_WDOG_CFG n.val) v = true → Completes (.wdogCfgWrite i n v) s (fun t =>
    t.rd (R.PWR_WDOG_CFG n.val) = codedWrite (R.PWR_WDOG_CFG n.val) (s.rd (R.PWR_WDOG_CFG n.val)) v ∧
      t.sup = (if n = 0 then { s.sup with wdogStart0 := s.copy 0 } else { s.sup with wdogStart1 := s.tb.master }) ∧
      WroteOnly i [R.PWR_WDOG_CFG n.val] s t ∧ Only [.sup, .regs, .noc] s t)) ∧
  (∀ s : State, s.sup.aonHeld = false → s.sup.brownout = false → s.sup.heelHeld = true → s.sup.winter ≠ .winter → Completes .regulatorInWindow s (fun t =>
    t.heelRails = true ∧ t.sup.fullModeIn = true ∧ (∀ k, 3 ≤ k → t.railIn k = s.railIn k) ∧ Only [.sup] s t)) ∧
  (∀ (s : State) ref, s.sup.heelHeld = true → s.sup.aonHeld = false → s.sup.brownout = false → s.sup.fullModeIn = true → s.heelRails = true →
    s.sup.checking = false → s.sup.winter ≠ .winter → Completes (.heelMainRelease ref) s (fun t => t.sup.heelHeld = false ∧ t.boot.heelRom = true ∧
      (ref = false → t.tb.ticking = true ∧ t.bit R.TBASE_STATUS 3 = true) ∧
      (s.sup.heelAlone = false → t.power = if s.sup.thaw then psThaw else psAutumn))) ∧
  (∀ (s : State) straps, s.sup.soleHeld = true → s.sup.heelHeld = false → s.bit R.TBASE_STATUS 0 = true → s.soleRails = true → s.sup.winter ≠ .committed →
    s.sup.winter ≠ .saved → Completes (.soleRelease straps) s (fun t => t.sup.soleHeld = false ∧ t.boot.soleRom = true ∧
      t.fld R.LACE_PKG F.LACE_PKG.ID = straps.toNat)) ∧
  (∀ (s : State) i v, s.takes i R.PWR_PMB_CMD v = true → Completes (.pmbStart i v) s (fun t =>
    t.rd R.PWR_PMB_CMD = v &&& 0x3FFFF ∧ WroteOnly i [R.PWR_PMB_CMD, R.PWR_PMB_STAT] s t ∧ Only [.sup, .regs, .noc] s t ∧
    (v.getLsbD 31 = true → s.bit R.PWR_PMB_STAT 0 = false → t.rd R.PWR_PMB_STAT = s.rd R.PWR_PMB_STAT ||| 1 ∧
      t.sup = { s.sup with pmbCmd := v &&& 0x3FFFF, pmbData := s.rd R.PWR_PMB_DATA, pmbAt := s.tb.master }) ∧
    (v.getLsbD 31 = false ∨ s.bit R.PWR_PMB_STAT 0 = true → t.rd R.PWR_PMB_STAT = s.rd R.PWR_PMB_STAT ∧ t.sup = s.sup))) ∧
  (∀ (s : State) e data, s.bit R.PWR_PMB_STAT 0 = true → Completes (.pmbDone e data) s (fun t =>
    t.rd R.PWR_PMB_STAT = (s.rd R.PWR_PMB_STAT &&& ~~~1 ||| 2 ||| (match e with
      | .done => 0
      | .nack => 4
      | .pecErr => if s.sup.pmbCmd.getLsbD 7 && s.bit R.PWR_PMB_CFG 2 then 8 else 0
      | .arbLost => 0x20)) ∧
    RegsOnly [R.PWR_PMB_STAT, R.PWR_PMB_DATA] s t ∧ Only [.regs] s t ∧
    (e = .done → s.sup.pmbCmd.getLsbD 7 = true → fget s.sup.pmbCmd F.PWR_PMB_CMD.LEN = 2 → t.fld R.PWR_PMB_DATA F.PWR_PMB_DATA.DATA = data.toNat))) ∧
  (∀ s : State, s.bit R.PWR_PMB_STAT 0 = true → s.bit R.PWR_PMB_CFG 3 = true → s.sup.pmbAt.toNat + 3500000 ≤ s.tb.master.toNat → Completes .pmbTimeout s
    (PutsRegs [(R.PWR_PMB_STAT, s.rd R.PWR_PMB_STAT &&& ~~~1 ||| 0x12)] s)) ∧
  (∀ s : State, s.tb.master.toNat < s.sup.pmbAt.toNat + 3500000 → Completes .pmbTimeout s (fun t => t = s))

/-! ### Summer, Autumn and Winter -/

/-- R80, R85, R87–R89, R105, R117, R120: the power states outside Winter, the starting of dies, and the thermal samples. -/
def Obligations.SeasonRequestsAndDieStartsAct : Prop :=
  (∀ (s : State) i, s.takes i R.PWR_REQ 1 = true → (s.power = psSummer ∨ s.power = psToSummer) → Completes (.pwrReqAutumn i) s (fun t =>
    t.power = psToAutumn ∧ t.allOff ∧ t.sup.heelHeld = s.sup.heelHeld ∧ t.sup.soleHeld = s.sup.soleHeld)) ∧
  (∀ (s : State) i, s.takes i R.PWR_REQ 1 = true → s.power = psAutumn → Completes (.pwrReqAutumn i) s (WritesRegs i [] s)) ∧
  (∀ (s : State) i x, s.takes i R.PWR_REQ 2 = true → s.power = psAutumn → x ∈ s.presentDies → s.anyState x ≠ 5 →
    Completes (.pwrReqSummer i) s (fun t => t.power = psToSummer ∧ t.enPin x = true ∧ x ∈ t.sup.dieRst)) ∧
  (∀ (s : State) (x : Fin 6), x.val ∈ s.presentDies → x.val ∈ s.sup.dieRst → s.dieRails x.val = true → s.enPin x.val = true → Completes (.dieResetRelease x) s (fun t =>
    t.anyState x.val = 2 ∧ x.val ∉ t.sup.dieRst ∧ x.val ∈ t.sup.scrub)) ∧
  (∀ (s : State) (x : Fin 6), x.val < 4 → x.val ∈ s.sup.scrub → tabGet boolFalse s.tb.loaded (1 + x.val) = true → Completes (.dieInitScrubDone x) s (fun t =>
    x.val ∉ t.sup.scrub ∧ x.val ∈ t.boot.dieRom ∧
      (∀ a, t.byte a = if engBase x.val ≤ a ∧ a < engBase x.val + 0x10000000 then memDefault a else s.byte a) ∧ Only [.sup, .boot, .mem, .lines] s t)) ∧
  (∀ (s : State) (x : Fin 6), 4 ≤ x.val → x.val ∈ s.presentDies → x.val ∈ s.sup.scrub → Completes (.dieInitScrubDone x) s (fun t =>
    x.val ∉ t.sup.scrub ∧ (t.larderState (x.val - 4) = 3 ∨ t.larderState (x.val - 4) = 6) ∧
      ∀ a, t.byte a = if larderBase (x.val - 4) ≤ a ∧ a < larderBase (x.val - 4) + 0x100000000 then memDefault a else s.byte a)) ∧
  (∀ (s : State) (d : Fin 4), d.val ∈ s.boot.dieRom → d.val < variantDies s.variant → Completes (.dieImageCheck d) s (fun t => d.val ∉ t.boot.dieRom ∧
    (s.boot.stagedDie = none → t.dieState d.val = 4 ∧ fget (t.rd R.BOOT_AGREE) ⟨4 + 2 * d.val, 2⟩ = 3) ∧
    (∀ im a, s.boot.stagedDie = some im → s.bytes 0x01E00000 im.len.toNat = s.boot.stagedBody → s.boot.sole = some a → a.di = im.di →
      t.dieState d.val = 3 ∧ fget (t.rd R.BOOT_AGREE) ⟨4 + 2 * d.val, 2⟩ = 1 ∧ ((s.core (.keeper d)).run ≠ .halted → (t.core (.keeper d)).run = .running ∧
        (t.core (.keeper d)).pc = pcOf (BitVec.ofNat 64 (dieBase d.val + 0x08000000) + im.entry.setWidth 64))) ∧
    (∀ im a, s.boot.stagedDie = some im → s.bytes 0x01E00000 im.len.toNat = s.boot.stagedBody → s.boot.sole = some a → a.di ≠ im.di →
      t.dieState d.val = 4 ∧ fget (t.rd R.BOOT_AGREE) ⟨4 + 2 * d.val, 2⟩ = 2))) ∧
  (∀ (s : State) (v : List Int), Completes (.thermalSample v) s (fun t =>
    (∀ d, d < 4 → fget (t.rd R.PWR_TEMP_C) ⟨8 * d, 8⟩ = if s.diePowered d then ((max (-127) (min 127 (v.getD d 0))) % 256).toNat else 0x80) ∧
    fget (t.rd R.PWR_TEMP_X) ⟨16, 8⟩ = ((max (-127) (min 127 (v.getD 6 0))) % 256).toNat ∧
    fget (t.rd R.PWR_TEMP_X) ⟨24, 8⟩ = ((max (-127) (min 127 (v.getD 7 0))) % 256).toNat ∧
    (∀ d, d < 4 → s.diePowered d = true → 135 < v.getD d 0 → d ∈ s.sup.hot → (s.power = psSummer ∨ s.power = psToSummer) →
      t.bit R.PWR_FORCE (1 + d) = true ∧ t.power = psToAutumn ∧ t.allOff))) ∧
  (∀ (s : State) (g : Fin 32), s.bit R.PWR_GATE_ENG g.val = true → s.diePowered (g.val / 8) = true → s.engineIdle g.val = true →
    Completes (.engineGate g) s (PutsRegs [(R.PWR_GATE_STAT, s.rd R.PWR_GATE_STAT ||| BitVec.ofNat 32 (2 ^ g.val))] s))

/-- R81–R84, R91–R104: the Winter request, the entry, the Thaw and the wake sources of the always-on domain. -/
def Obligations.WinterEntryAndThawAct : Prop :=
  (∀ (s : State) i, s.takes i R.PWR_WINTER_REQ 0xC3C3 = true → Completes (.winterReqArm i) s (fun t =>
    t.sup = { s.sup with winArm := if s.sup.winArm = none then some (s.copy 0) else none } ∧
      t.rd R.PWR_REQ_STAT = (if s.sup.winArm = none then s.rd R.PWR_REQ_STAT else s.rd R.PWR_REQ_STAT ||| 4) ∧
      WroteOnly i [R.PWR_REQ_STAT] s t ∧ Only [.sup, .regs, .noc] s t)) ∧
  (∀ (s : State) i, s.takes i R.PWR_WINTER_REQ 0x3C3C0003 = true → s.inArm s.sup.winArm = true → (s.power = psSummer ∨ s.power = psAutumn) → s.boot.swap = none →
    s.sup.winter = .none →
    (s.wakePending = true → Completes (.winterReq i) s (fun t => t.bit R.PWR_REQ_STAT 0 = true ∧
      t.fld R.PWR_REQ_STAT F.PWR_REQ_STAT.SNAP = (s.rd R.WAKE_PEND).toNat % 65536 ∧ t.sup = { s.sup with winArm := none })) ∧
    (s.wakePending = false → s.fld R.PWR_WINTER_CFG F.PWR_WINTER_CFG.GRACE = 0 → Completes (.winterReq i) s (fun t =>
      t.sup.winter = .committed ∧ t.sup.soleHeld = true ∧ t.power = psToWinter ∧ (s.power = psSummer → t.allOff))) ∧
    (s.wakePending = false → s.fld R.PWR_WINTER_CFG F.PWR_WINTER_CFG.GRACE ≠ 0 → Completes (.winterReq i) s (fun t =>
      t.sup = { s.sup with winArm := none, winter := .grace, grace := s.copy 0 + BitVec.ofNat 64 (s.fld R.PWR_WINTER_CFG F.PWR_WINTER_CFG.GRACE * 100000), forced := 0 } ∧
        WroteOnly i [] s t ∧ Only [.sup, .regs, .noc] s t))) ∧
  (∀ (s : State) i v, s.takes i R.PWR_HEEL_ACK v = true → iniHeelCore i = true → s.sup.winter = .grace →
    (s.sup.grace.toNat ≤ (s.copy 0).toNat → Completes (.pwrHeelAck i v) s (WritesRegs i [] s)) ∧
    (s.wakePending = false → (s.copy 0).toNat < s.sup.grace.toNat → Completes (.pwrHeelAck i v) s (fun t => t.sup.winter = .committed ∧ t.sup.soleHeld = true ∧ t.power = psToWinter)) ∧
    (s.wakePending = true → (s.copy 0).toNat < s.sup.grace.toNat → Completes (.pwrHeelAck i v) s (fun t => t.sup = { s.sup with winter := .none } ∧ t.bit R.PWR_REQ_STAT 0 = true ∧
      t.bit R.PWR_REQ_STAT 1 = true ∧ t.fld R.PWR_REQ_STAT F.PWR_REQ_STAT.SNAP = (s.rd R.WAKE_PEND).toNat % 65536 ∧ Only [.sup, .regs, .noc] s t))) ∧
  (∀ s : State, s.sup.winter = .grace → s.sup.grace.toNat ≤ (s.copy 0).toNat →
    (s.wakePending = false → Completes .winterGraceExpire s (fun t => t.sup.winter = .committed ∧ t.sup.soleHeld = true ∧ t.power = psToWinter ∧
      t.bit R.PWR_REQ_STAT 3 = true)) ∧
    (s.wakePending = true → Completes .winterGraceExpire s (fun t => t.sup = { s.sup with winter := .none } ∧ t.bit R.PWR_REQ_STAT 0 = true ∧
      t.bit R.PWR_REQ_STAT 1 = true ∧ t.bit R.PWR_REQ_STAT 3 = true ∧ Only [.sup, .regs] s t))) ∧
  (∀ s : State, s.sup.winter = .committed → Completes .winterSave s (fun t => t.sup.winter = .saved ∧ t.word insGen = s.word insGen + 1 ∧
    (∀ p, p ∈ saveList → t.word (0x28000100 + 4 * p.1) = s.rd p.2 &&& keptMask p.2) ∧ (∀ p, p ∈ saveList → t.rd p.2 = s.rd p.2))) ∧
  (∀ s : State, s.sup.winter = .saved → s.atXtal = true → Completes .winterCapture s (fun t => t.sup.heelHeld = true ∧ t.dword insMark = s.copy 0 ∧
    t.dword insOffset = s.copy 0 - BitVec.ofNat 64 (s.tb.rtc.toNat * 390625 / 128) ∧ t.sup.aon = s.sup.aon ∧ t.rd R.PWR_FORCE = s.rd R.PWR_FORCE &&& s.sup.forced ∧
    (s.sup.woken = false ∨ s.sup.brownout = true → t.sup.winter = .winter ∧ t.sup.fullModeIn = false ∧ t.bit R.PWR_EN 0 = false) ∧
    (s.sup.woken = true → s.sup.brownout = false → t.sup.winter = .thawCheck ∧ t.sup.checking = true ∧ t.bit R.PWR_EN 0 = true))) ∧
  (∀ s : State, s.sup.checking = true →
    let u := (s.withSup { s.sup with checking := false }).insoleCorrect
    (u.insoleGood = true → Completes .insoleCheckDone s (fun t => t.sup.checking = false ∧ t.bit R.INS_STATUS 0 = true ∧
      (s.sup.freshInsole = false → t.mem = u.mem) ∧ (s.sup.freshInsole = true → t.dword insOffset = 0 ∧ BytesOnly insOffset 8 u t))) ∧
    (u.insoleGood = false → Completes .insoleCheckDone s (fun t => t.sup.checking = false ∧ t.bit R.INS_STATUS 0 = false ∧ t.bit R.INS_STATUS 1 = true ∧
      t.sup.freshInsole = true ∧ t.sup.thaw = false ∧ ∀ a, 0x28000000 ≤ a → a < 0x28010000 → t.byte a = memDefault a))) ∧
  (∀ s : State, (s.sup.winter = .winter ∨ s.sup.winter = .thawCheck) → Completes .winterBrownout s (fun t => t.bit R.PWR_RST_CAUSE 1 = true ∧
    t.word insBrown = s.word insBrown + 1 ∧ t.bit R.WAKE_PEND 15 = true ∧ t.sup.woken = true)) ∧
  (∀ s : State, s.tb.rtc = s.sup.rtcAlm → Completes .rtcAlarmWake s (fun t => t.bit R.WAKE_PEND 13 = true ∧
    (s.collecting = false → PutsRegs [(R.WAKE_PEND, s.rd R.WAKE_PEND ||| 0x2000)] s t))) ∧
  (∀ (s : State) (n : Fin 4) rising, (let e := fget (s.aonRd R.WAKE_PIN_CFG) ⟨4 * n.val, 2⟩; e = 3 ∨ (e = 1 ∧ rising = true) ∨ (e = 2 ∧ rising = false)) →
    Completes (.wakePinConfirm n rising) s (fun t => t.bit R.WAKE_PEND (9 + n.val) = true ∧
      (s.collecting = true → t.bit R.WAKE_SRC (9 + n.val) = true) ∧
      (s.sup.winter = .winter → s.sup.brownout = false → s.sup.woken = false → s.wakeEnabled.getLsbD (9 + n.val) = true →
        t.sup.winter = .thawCheck ∧ t.sup.woken = true ∧ t.sup.wakeRtc = s.tb.rtc ∧ t.rd R.WAKE_DETAIL = BitVec.ofNat 32 (0xC0000000 + n.val))))

/-! ### Boot, images and version agreement -/

/-- R111–R117, R130: the boot of the Heel and the Sole, the verification jobs and the rollback counters. -/
def Obligations.BootAndVerificationAct : Prop :=
  (∀ s : State, s.boot.heelRom = true → s.sup.heelHeld = false →
    let sel := s.fld R.BOOT_SEL F.BOOT_SEL.HEEL
    let p := s.verify false (areaAddr 1 sel) (· == 1)
    let q := (p.1.heelEvent p.2.code).verify false (areaAddr 1 (1 - sel)) (· == 1)
    let runs (t : State) (im : Img) : Prop := t.boot.heel = some im ∧ t.boot.heelRom = false ∧ (t.core .heel).run = .running ∧
      (t.core .heel).pc = pcOf (BitVec.ofNat 64 (areaAddr 1 im.slot + 512) + im.entry.setWidth 64) ∧ t.rd R.BOOT_EPOCH_HEEL = im.hi.setWidth 32
    (p.2.code = 0 → Completes .heelBootVerify s (fun t => runs t p.2.img ∧ t.boot.heelFb = false ∧ t.bit R.BOOT_STATUS 2 = false)) ∧
    (p.2.code ≠ 0 → q.2.code = 0 → Completes .heelBootVerify s (fun t => runs t q.2.img ∧ t.boot.heelFb = true ∧ t.bit R.BOOT_STATUS 2 = true)) ∧
    (p.2.code ≠ 0 → q.2.code ≠ 0 → Completes .heelBootVerify s (fun t => t.boot.heel = none ∧ t.boot.heelRom = false ∧ t.rd R.BOOT_EPOCH_HEEL = 0))) ∧
  (∀ s : State, s.boot.soleRom = true → s.sup.soleHeld = false →
    let sel := s.fld R.BOOT_SEL F.BOOT_SEL.SOLE
    let p := s.verify false (areaAddr 2 sel) (· == 2)
    let q := ((p.1.romWipe p.2).bootEvent p.2.code).verify false (areaAddr 2 (1 - sel)) (· == 2)
    let runs (t : State) (im : Img) : Prop := t.boot.sole = some im ∧ t.boot.soleRom = false ∧ (t.core (.sole 0)).run = .running ∧
      (t.core (.sole 0)).pc = pcOf (im.load.setWidth 64 + im.entry.setWidth 64) ∧ t.rd R.BOOT_EPOCH_SOLE = im.di ++ im.hi
    (p.2.code = 0 → Completes .soleBootVerify s (fun t => runs t p.2.img ∧ t.bit R.BOOT_STATUS 3 = false)) ∧
    (p.2.code ≠ 0 → q.2.code = 0 → Completes .soleBootVerify s (fun t => runs t q.2.img ∧ t.bit R.BOOT_STATUS 3 = true)) ∧
    (p.2.code ≠ 0 → q.2.code ≠ 0 → Completes .soleBootVerify s (fun t => t.boot.sole = none ∧ t.boot.soleRom = false ∧ (t.core (.sole 0)).run = .halted ∧
      t.bit R.BOOT_STATUS 4 = true))) ∧
  (∀ (s : State) i (k : Fin 5) c, (k.val, c) ∈ [(0, Instr.verCheck i), (1, .verStageDie i), (2, .verStageSole i), (3, .verRegisterFab i), (4, .verApplyKey i)] →
    s.takes i R.BOOT_VER_CTL (BitVec.ofNat 32 (0x80000000 + k.val)) = true → s.boot.job = none → Completes c s (fun t =>
      t.boot = { s.boot with job := some (k.val, (s.rd R.BOOT_VER_SRC_HI).toNat % 65536 * 0x100000000 + (s.rd R.BOOT_VER_SRC_LO).toNat / 64 * 64) } ∧
      t.rd R.BOOT_VER_STAT = s.rd R.BOOT_VER_STAT ||| 1 ∧ t.fld R.BOOT_VER_CTL F.BOOT_VER_CTL.PURPOSE = k.val ∧
      WroteOnly i [R.BOOT_VER_CTL, R.BOOT_VER_STAT] s t ∧ Only [.boot, .regs, .noc] s t)) ∧
  (∀ (s : State) k a, s.boot.job = some (k, a) → Completes .verJobDone s (fun t => t.bit R.BOOT_VER_STAT 0 = false ∧ t.bit R.BOOT_VER_STAT 1 = true ∧
    t.fld R.BOOT_VER_STAT F.BOOT_VER_STAT.CODE = ((s.withBoot { s.boot with job := none }).verRun k a).2 % 16)) ∧
  (∀ (s : State) i v, s.takes i R.BOOT_ROLL_COMMIT v = true →
    (fget v F.BOOT_ROLL_COMMIT.KEY ≠ 0xC0DE → Completes (.rollCommit i v) s (WritesRegs i [] s)) ∧
    (fget v F.BOOT_ROLL_COMMIT.KEY = 0xC0DE → Completes (.rollCommit i v) s (fun t => WroteOnly i [R.BOOT_ROLL] s t ∧ Only [.regs, .noc] s t ∧
      ∀ k svn, (k, svn) ∈ [(0, s.boot.heel.map (·.svn.toNat)), (1, s.boot.sole.map (·.svn.toNat)), (2, s.boot.stagedDie.map (·.svn.toNat)),
          (3, some (s.boot.fabs.foldl (fun m f => max m f.img.svn.toNat) 0))] →
        fget (t.rd R.BOOT_ROLL) ⟨8 * k, 8⟩ = if v.getLsbD k then max (fget (s.rd R.BOOT_ROLL) ⟨8 * k, 8⟩) (min 127 (svn.getD 0)) else fget (s.rd R.BOOT_ROLL) ⟨8 * k, 8⟩)))

/-- R108, R109, R122–R124, R127, R128, R168: the swap, the image store and the Heel command port. -/
def Obligations.SwapStoreAndCommandPortAct : Prop :=
  (∀ (s : State) i v, s.takes i R.BOOT_SWAP v = true →
    (fget v F.BOOT_SWAP.KEY ≠ 0xA5C3 ∨ s.boot.swap.isSome = true → Completes (.swapRequest i v) s (WritesRegs i [] s)) ∧
    (fget v F.BOOT_SWAP.KEY = 0xA5C3 → s.boot.swap = none → v.getLsbD 0 = false → v.getLsbD 1 = true → s.boot.stagedSole = none →
      Completes (.swapRequest i v) s (fun t => t.bit R.BOOT_SWAP_STAT 0 = false ∧ t.bit R.BOOT_SWAP_STAT 1 = true ∧
        t.fld R.BOOT_SWAP_STAT F.BOOT_SWAP_STAT.CODE = 1 ∧ t.boot = { s.boot with swap := none })) ∧
    (∀ im, fget v F.BOOT_SWAP.KEY = 0xA5C3 → s.boot.swap = none → v.getLsbD 0 = false → v.getLsbD 1 = true → v.getLsbD 4 = false → v.getLsbD 5 = false →
      v.getLsbD 6 = false → v.getLsbD 7 = false → v.getLsbD 8 = true → s.boot.stagedSole = some im →
      Completes (.swapRequest i v) s (fun t => t.boot.swap = none ∧ t.boot.sole = some im ∧ t.boot.stagedSole = none ∧ t.bit R.BOOT_SWAP_STAT 1 = true ∧
        t.fld R.BOOT_SWAP_STAT F.BOOT_SWAP_STAT.CODE = 0 ∧ t.boot.swapEntry = pcOf (im.load.setWidth 64 + im.entry.setWidth 64) ∧
        ∀ n : Fin 10, (s.core (.sole n)).run = .running → (t.core (.sole n)).swapStop = true))) ∧
  (∀ (s : State) i v w, s.takes i R.BOOT_HEEL_HANDOVER v = true → iniHeelCore i = true → s.boot.swap = some w → w.heel = true → Completes (.heelHandover i v) s (fun t =>
    t.boot.swap = none ∧ t.bit R.BOOT_SWAP_STAT 0 = false ∧ t.bit R.BOOT_SWAP_STAT 1 = true ∧
      t.fld R.BOOT_SWAP_STAT F.BOOT_SWAP_STAT.CODE = if s.swapLate w then 4 else 0)) ∧
  (∀ (s : State) w dl, s.boot.swap = some w → w.deadline = some dl → dl.toNat < s.tb.master.toNat → Completes .handoverTimeout s (fun t =>
    t.boot = { s.boot with swap := none } ∧ t.bit R.BOOT_SWAP_STAT 0 = false ∧ t.bit R.BOOT_SWAP_STAT 1 = true ∧
      t.fld R.BOOT_SWAP_STAT F.BOOT_SWAP_STAT.CODE = 4 ∧ RegsOnly [R.BOOT_SWAP_STAT] s t ∧ Only [.boot, .regs] s t)) ∧
  (∀ (s : State) (n : Fin 10), (s.core (.sole n)).swapStop = true → Completes (.swapCoreEnter n) s (fun t => (t.core (.sole n)).run = .running ∧
    (t.core (.sole n)).pc = pcOf s.boot.swapEntry ∧ (∀ r, (t.core (.sole n)).gr r = 0) ∧ (t.core (.sole n)).srBit srStatus stWarm = true ∧
    (t.core (.sole n)).srBit srStatus stIe = false ∧ (t.core (.sole n)).priv = true ∧ (t.core (.sole n)).soft = (s.core (.sole n)).soft ∧
    CoreOnly (.sole n) s t ∧ Only [.cores] s t)) ∧
  (∀ (s : State) i (a : Word) (data : List Byte), data.length = 64 →
    let q : Req := { ini := i, kind := .write, addr := a, len := 64, posted := false, early := false, cls := s.iniLabel i }
    s.clearWay q = true → 0x24000000 ≤ a.toNat → a.toNat < 0x26000000 → (s.enter q).1.storeWriteOk i a.toNat 64 = true → iniFabric i = false →
    Completes (.storeLineWrite i a data) s (fun t => t.bytes a.toNat 64 = data ∧ BytesOnly a.toNat 64 s t ∧ t.bit R.BOOT_ST_CTL 1 = true ∧
      t.boot = { s.boot with storeOps := s.boot.storeOps + 1 } ∧ WroteOnly i [R.BOOT_ST_CTL] s t ∧ Only [.mem, .boot, .regs, .noc] s t)) ∧
  (∀ (s : State) i (sec : BitVec 9), s.takes i R.BOOT_ST_CTL (BitVec.ofNat 32 (0x80000000 + sec.toNat * 65536 + (s.bit R.BOOT_ST_CTL 0).toNat)) = true →
    Completes (.storeErase i sec) s (fun t => t.bit R.BOOT_ST_CTL 1 = true ∧ t.boot = { s.boot with storeOps := s.boot.storeOps + 1 } ∧
      WroteOnly i [R.BOOT_ST_CTL] s t ∧
      ∀ a, t.byte a = if 0x24000000 + sec.toNat * 0x10000 ≤ a ∧ a < 0x24000000 + sec.toNat * 0x10000 + 0x10000 then memDefault a else s.byte a)) ∧
  (∀ s : State, Completes .storeOpDone s (fun t => t.boot = { s.boot with storeOps := s.boot.storeOps - 1 } ∧ (s.boot.storeOps ≤ 1 → t.bit R.BOOT_ST_CTL 1 = false) ∧
    RegsOnly [R.BOOT_ST_CTL] s t ∧ Only [.boot, .regs] s t)) ∧
  (∀ (s : State) i w, s.takes i R.BOOT_HCMD_TX w = true → Completes (.hcmdPush i w) s (fun t =>
    t.boot = { s.boot with tx := s.boot.tx ++ [w] } ∧ WroteOnly i [] s t ∧ Only [.boot, .regs, .noc] s t)) ∧
  (∀ (s : State) i w ws, s.gives i R.BOOT_HCMD_RX = true → s.boot.rx = w :: ws → Completes (.hcmdPop i) s (fun t =>
    t.ret = w.setWidth 64 ∧ t.boot = { s.boot with rx := ws } ∧ WroteOnly i [] s t ∧ Only [.boot, .ret, .regs, .noc] s t)) ∧
  (∀ (s : State) op tag ops, s.hcmdHead = some (op, tag, ops) → s.bridgeLive 16 = true → s.boot.rx = [] →
    let answers (t : State) (u : State) (st : Nat) (l : List W32) : Prop :=
      t.boot.tx = s.boot.tx.drop (1 + ops.length) ∧ t.boot.rx = u.boot.rx ++ (BitVec.ofNat 32 (st + l.length * 256 + tag * 65536) :: l) ∧ t.boot.cmdSeen = true
    (op = 7 → ops = [] → s.wakePending = false → (s.power = psSummer ∨ s.power = psAutumn) → s.boot.swap = none → s.sup.winter = .none →
      s.fld R.PWR_WINTER_CFG F.PWR_WINTER_CFG.GRACE ≠ 0 → Completes .hcmdWinter s (fun t => answers t s 0 [] ∧ t.sup.winter = .grace)) ∧
    (op = 7 → ops = [] → s.wakePending = true → (s.power = psSummer ∨ s.power = psAutumn) → s.boot.swap = none → s.sup.winter = .none →
      Completes .hcmdWinter s (fun t => answers t s 6 [] ∧ t.sup.winter = .none ∧ t.bit R.PWR_REQ_STAT 0 = true)) ∧
    (∀ (st : Byte) (l : List W32), 0x80 ≤ op → l.length ≤ 31 → Completes (.hcmdImageOpcode st l) s (fun t =>
      answers t s (if s.fld R.BOOT_AGREE F.BOOT_AGREE.HEEL = 1 then st.toNat else 1) (if s.fld R.BOOT_AGREE F.BOOT_AGREE.HEEL = 1 then l else []))) ∧
    (op = 0 ∨ (8 ≤ op ∧ op < 0x80) → Completes .hcmdUnknownOpcode s (fun t => answers t s 2 [] ∧ Only [.boot] s t)))

/-! ### Quecen cores -/

/-- R140, R141: the results of the register forms of the ALU group. -/
def Obligations.AluRegisterFormsGiveTheirResult : Prop :=
  RegForm .add (fun x y => x + y) ∧ RegForm .sub (fun x y => x - y) ∧ RegForm .and (fun x y => x &&& y) ∧ RegForm .or (fun x y => x ||| y) ∧
  RegForm .xor (fun x y => x ^^^ y) ∧ RegForm .sll (fun x y => x <<< (y.toNat % 64)) ∧ RegForm .srl (fun x y => x >>> (y.toNat % 64)) ∧
  RegForm .sra (fun x y => x.sshiftRight (y.toNat % 64)) ∧ RegForm .slt (fun x y => if x.toInt < y.toInt then 1 else 0) ∧
  RegForm .sltu (fun x y => if x.toNat < y.toNat then 1 else 0) ∧ RegForm .min (fun x y => BitVec.ofInt 64 (Min.min x.toInt y.toInt)) ∧
  RegForm .max (fun x y => BitVec.ofInt 64 (Max.max x.toInt y.toInt)) ∧ RegForm .minu (fun x y => BitVec.ofNat 64 (Min.min x.toNat y.toNat)) ∧
  RegForm .maxu (fun x y => BitVec.ofNat 64 (Max.max x.toNat y.toNat)) ∧ RegForm .mul (fun x y => BitVec.ofNat 64 (x.toNat * y.toNat)) ∧
  RegForm .mulh (fun x y => (x.signExtend 128 * y.signExtend 128).extractLsb' 64 64) ∧
  RegForm .mulhu (fun x y => (x.setWidth 128 * y.setWidth 128).extractLsb' 64 64) ∧
  RegForm .addw (fun x y => (x.setWidth 32 + y.setWidth 32).signExtend 64) ∧ RegForm .subw (fun x y => (x.setWidth 32 - y.setWidth 32).signExtend 64)

/-- R141: division rounds toward zero; a zero divisor gives an all-ones quotient and the dividend as remainder; the most negative value divided by −1 gives
itself with remainder 0 (BitVec.sdiv wraps so). -/
def Obligations.DivisionGivesQuotientAndRemainder : Prop :=
  RegForm .div (fun x y => if y = 0 then BitVec.allOnes 64 else x.sdiv y) ∧ RegForm .divu (fun x y => if y = 0 then BitVec.allOnes 64 else x / y) ∧
  RegForm .rem (fun x y => if y = 0 then x else x.srem y) ∧ RegForm .remu (fun x y => if y = 0 then x else x % y) ∧
  (∀ s c d a, s.ready c = true → Results (.clz c d a) c s d (fun x => (x.gr a).clz)) ∧
  (∀ s c d a, s.ready c = true → Results (.ctz c d a) c s d (fun x => (x.gr a).ctz)) ∧
  (∀ s c d a, s.ready c = true → Results (.popc c d a) c s d (fun x => (x.gr a).cpop))

/-- R140: the results of the immediate forms. -/
def Obligations.ImmediateFormsGiveTheirResult : Prop :=
  ImmForm .addi (fun x i => x + i.signExtend 64) ∧ ImmForm .andi (fun x i => x &&& i.setWidth 64) ∧ ImmForm .ori (fun x i => x ||| i.setWidth 64) ∧
  ImmForm .xori (fun x i => x ^^^ i.setWidth 64) ∧ ImmForm .slti (fun x i => if x.toInt < i.toInt then 1 else 0) ∧
  ImmForm .sltiu (fun x i => if x.toNat < (i.signExtend 64).toNat then 1 else 0) ∧ ImmForm .shori (fun x i => x <<< 16 ||| i.setWidth 64) ∧
  (∀ s c d imm, s.ready c = true → Results (.lui c d imm) c s d (fun _ => ((imm ++ 0#16 : BitVec 32)).signExtend 64)) ∧
  (∀ s c d a sh, s.ready c = true → Results (.slli c d a sh) c s d (fun x => x.gr a <<< sh.toNat)) ∧
  (∀ s c d a sh, s.ready c = true → Results (.srli c d a sh) c s d (fun x => x.gr a >>> sh.toNat)) ∧
  (∀ s c d a sh, s.ready c = true → Results (.srai c d a sh) c s d (fun x => (x.gr a).sshiftRight sh.toNat))

/-- R138, R140: branches and jumps. -/
def Obligations.BranchesAndJumpsSetThePc : Prop :=
  BranchForm .beq (fun x y => x == y) ∧ BranchForm .bne (fun x y => x != y) ∧ BranchForm .blt (fun x y => decide (x.toInt < y.toInt)) ∧
  BranchForm .bge (fun x y => decide (y.toInt ≤ x.toInt)) ∧ BranchForm .bltu (fun x y => decide (x.toNat < y.toNat)) ∧
  BranchForm .bgeu (fun x y => decide (y.toNat ≤ x.toNat)) ∧
  (∀ s c off, s.ready c = true → Completes (.j c off) s (fun t => CoreStep c s t (fun x y => x.became y 0 0 (x.pc + 4 * off.signExtend 64)))) ∧
  (∀ s c off, s.ready c = true → Completes (.jal c off) s (fun t => CoreStep c s t (fun x y =>
    x.became y 31 (x.pc + 4) (x.pc + 4 * off.signExtend 64)))) ∧
  (∀ s c d a imm, s.ready c = true → Completes (.jalr c d a imm) s (fun t => CoreStep c s t (fun x y =>
    x.became y d (x.pc + 4) (((x.gr a + imm.signExtend 64) >>> 2) <<< 2))))

/-- R140: the loads from clean memory. -/
def Obligations.LoadsReadMemory : Prop :=
  LoadForm .lb 1 (fun v => (BitVec.ofNat 8 v).signExtend 64) ∧ LoadForm .lbu 1 (fun v => BitVec.ofNat 64 v) ∧
  LoadForm .lh 2 (fun v => (BitVec.ofNat 16 v).signExtend 64) ∧ LoadForm .lhu 2 (fun v => BitVec.ofNat 64 v) ∧
  LoadForm .lw 4 (fun v => (BitVec.ofNat 32 v).signExtend 64) ∧ LoadForm .lwu 4 (fun v => BitVec.ofNat 64 v) ∧ LoadForm .ld 8 (fun v => BitVec.ofNat 64 v)


/-- R141, R148, R156: the system and time-base instructions at the privileged level. -/
def Obligations.SystemInstructionsComplete : Prop :=
  ∀ s c, s.ready c = true →
    (∀ i, i ∈ [Instr.fenceRw c, .fenceW c] → Completes i s (fun t => CoreStep c s t (fun x y =>
      if (s.fetched c).storesOut c then y = { x with wait := some (.drain .fence) } else y = { x with pc := x.pc + 4 }))) ∧
    Completes (.fenceI c) s (fun t => CoreStep c s t (fun x y => y = { x with pc := x.pc + 4 })) ∧
    ((s.core c).priv = true → Completes (.eret c) s (fun t => CoreStep c s t (fun x y =>
      y.pc = x.srAddr srEpcLo srEpcHi ∧ y.srBit srStatus stPriv = x.srBit srStatus stPpriv ∧ y.srBit srStatus stIe = x.srBit srStatus stPie ∧
        y.srBit srStatus stExl = false ∧ (∀ b, b ∉ [stPriv, stIe, stExl] → y.srBit srStatus b = x.srBit srStatus b) ∧
        (∀ n, n ≠ srStatus → y.sr n = x.sr n) ∧ { y with sys := x.sys, pc := x.pc } = x))) ∧
    ((s.core c).priv = true → Completes (.wfi c) s (fun t => CoreStep c s t (fun x y =>
      if (s.fetched c).wfiEnds c then y = { x with pc := x.pc + 4 } else y = { x with wait := some .wfi }))) ∧
    (∀ d, Results (.rdt c d) c s d (fun _ => s.dtbOf c)) ∧
    (∀ a, Completes (.waitt c a) s (fun t => CoreStep c s t (fun x y =>
      if (x.gr a).toNat ≤ ((s.fetched c).dtbOf c).toNat then
        y.pc = x.pc + 4 ∧ y.srBit srStatus stPastdl = true ∧ (∀ b, b ≠ stPastdl → y.srBit srStatus b = x.srBit srStatus b) ∧
          (∀ n, n ≠ srStatus → y.sr n = x.sr n) ∧ { y with sys := x.sys, pc := x.pc } = x
      else y = { x with wait := some (.waitt (x.gr a)) })))

/-- R140: SRD, SWR, SSET and SCLR at the privileged level; the RW bits of a register take the written value, the RO bits stay, a W1C bit clears where the value sets
it (SSET changes RW bits alone: notes/assumptions/16.md). -/
def Obligations.SystemRegisterAccesses : Prop :=
  ∀ s c n, s.ready c = true → sysNamed c n.toNat = true →
    (∀ d, ((s.core c).priv = true ∨ n = 0 ∨ n = 0x017) → Results (.srd c d n) c s d (fun _ => ((s.fetched c).sysRead c n.toNat).setWidth 64)) ∧
    ((s.core c).priv = true → n ≠ 0x011 →
      (∀ a, Completes (.swr c a n) s (fun t => CoreStep c s t (fun x y =>
        (∀ b, (y.sr n.toNat).getLsbD b = (if (sysRw n.toNat).getLsbD b then ((x.gr a).setWidth 32).getLsbD b
          else (x.sr n.toNat).getLsbD b && !((sysW1c n.toNat).getLsbD b && (x.gr a).getLsbD b))) ∧
        (∀ m, m ≠ n.toNat → y.sr m = x.sr m) ∧ { y with sys := x.sys, pc := x.pc } = x ∧ y.pc = x.pc + 4))) ∧
      (∀ d a, Completes (.sset c d a n) s (fun t => CoreStep c s t (fun x y =>
        (∀ b, (y.sr n.toNat).getLsbD b = ((x.sr n.toNat).getLsbD b || ((sysRw n.toNat).getLsbD b && (x.gr a).getLsbD b))) ∧
        (∀ m, m ≠ n.toNat → y.sr m = x.sr m) ∧ x.became { y with sys := x.sys } d (((s.fetched c).sysRead c n.toNat).setWidth 64) (x.pc + 4)))) ∧
      (∀ d a, Completes (.sclr c d a n) s (fun t => CoreStep c s t (fun x y =>
        (∀ b, (y.sr n.toNat).getLsbD b = ((x.sr n.toNat).getLsbD b && !((sysRw n.toNat ||| sysW1c n.toNat).getLsbD b && (x.gr a).getLsbD b))) ∧
        (∀ m, m ≠ n.toNat → y.sr m = x.sr m) ∧ x.became { y with sys := x.sys } d (((s.fetched c).sysRead c n.toNat).setWidth 64) (x.pc + 4))))) ∧
    ((s.core c).priv = true → n = 0x011 →
      let soft (a : BitVec 5) (x : Core) : Bool := x.soft && !(hasLane c && (x.gr a).getLsbD 1)
      (∀ a, Completes (.swr c a n) s (fun t => CoreStep c s t (fun x y => y = { x with soft := soft a x, pc := x.pc + 4 }))) ∧
      (∀ d a, Completes (.sset c d a n) s (fun t => CoreStep c s t (fun x y =>
        x.became y d (((s.fetched c).sysRead c n.toNat).setWidth 64) (x.pc + 4)))) ∧
      (∀ d a, Completes (.sclr c d a n) s (fun t => CoreStep c s t (fun x y =>
        y.soft = soft a x ∧ x.became { y with soft := x.soft } d (((s.fetched c).sysRead c n.toNat).setWidth 64) (x.pc + 4)))))

/-- R150–R153: the counter instructions on a counter of a die in service. -/
def Obligations.CounterInstructionsComplete : Prop :=
  ∀ s c (a b d : BitVec 5), s.ready c = true →
    let u := s.fetched c
    let h : W32 := ((s.core c).gr a).setWidth 32
    let n : W32 := ((s.core c).gr b).setWidth 32
    let dl := (s.core c).gr d
    let late := d ≠ 0 ∧ dl.toNat ≤ (u.dtbOf c).toNat
    ∀ r, u.handle h false = .counter r →
      let met := 0 ≤ (u.rd r - n).toInt
      Results (.rdc c d a) c s d (fun _ => (u.rd r).setWidth 64) ∧
      Completes (.preg c d a) s (fun t => CoreStep c s t (fun x y =>
        if h ∈ x.producers then x.became y d 0 (x.pc + 4)
        else if 8 ≤ x.producers.length then x.became y d 1 (x.pc + 4)
        else y.producers = x.producers ++ [h] ∧ x.became { y with producers := x.producers } d 0 (x.pc + 4))) ∧
      Completes (.punreg c d a) s (fun t => CoreStep c s t (fun x y =>
        if h ∈ x.producers then y.producers = x.producers.filter (· != h) ∧ x.became { y with producers := x.producers } d 0 (x.pc + 4)
        else x.became y d 1 (x.pc + 4))) ∧
      Completes (.waitge c d a b) s (fun t => CoreStep c s t (fun x y =>
        y.srBit srStatus stPastdl = (x.srBit srStatus stPastdl || decide late) ∧
        (∀ m, m ≠ stPastdl → y.srBit srStatus m = x.srBit srStatus m) ∧ (∀ m, m ∉ [srStatus, srWait] → y.sr m = x.sr m) ∧
        (if met ∨ late then
          x.became { y with sys := x.sys } d (if met then 0 else 1) (x.pc + 4) ∧ y.srBit srWait 0 = !decide met
        else y.sr srWait = x.sr srWait ∧
          { y with sys := x.sys } = { x with wait := some (.waitge d h n (if d = 0 then none else some dl) true false) }))) ∧
      (u.storesOut c = false → Completes (.sig c a b) s (fun t =>
        t.rd r = u.rd r + n ∧ (t.core c).pc = (s.core c).pc + 4 ∧ (∀ g, (t.core c).gr g = (s.core c).gr g) ∧
        Only [.regs, .cores, .queues] u t ∧ (∀ q, q ≠ r → entryReg (u.coreIni c) q = false → t.rd q = u.rd q) ∧
        ∀ x, x ≠ c → ∀ g k tg l m, (u.core x).wait = some (.waitge g k tg l true m) → handleReg k = r →
          (t.core x).wait = some (.waitge g k tg l true (m || decide (0 ≤ (t.rd r - tg).toInt))))) ∧
      (u.storesOut c = true → Completes (.sig c a b) s (fun t => CoreStep c s t (fun x y => y = { x with wait := some (.drain (.sig h n)) })))


/-- R48, R151: how a wait in progress ends. -/
def Obligations.WaitsEndAsTheyShould : Prop :=
  ∀ s c, s.atBoundary c = true → (s.core c).stepping = none → s.irqDue c = none →
    (∀ dl, (s.core c).wait = some (.waitt dl) → dl.toNat ≤ (s.dtbOf c).toNat →
      Completes (.waittEnd c) s (fun t => t.core c = { s.core c with wait := none, pc := (s.core c).pc + 4 } ∧ CoreOnly c s t ∧ Only [.cores] s t)) ∧
    (∀ d h tg dl w, (s.core c).wait = some (.waitge d h tg dl w true) → Completes (.waitgeMet c) s (fun t =>
      (s.core c).became { t.core c with sys := (s.core c).sys, wait := (s.core c).wait } d 0 ((s.core c).pc + 4) ∧ (t.core c).wait = none ∧
        (t.core c).srBit srWait 0 = false ∧ (∀ n, n ≠ srWait → (t.core c).sr n = (s.core c).sr n) ∧ CoreOnly c s t ∧ Only [.cores] s t)) ∧
    (∀ d h tg dl w, (s.core c).wait = some (.waitge d h tg (some dl) w false) → dl.toNat ≤ (s.dtbOf c).toNat → Completes (.waitgeDeadline c) s (fun t =>
      (s.core c).became { t.core c with sys := (s.core c).sys, wait := (s.core c).wait } d 1 ((s.core c).pc + 4) ∧ (t.core c).wait = none ∧
        (t.core c).srBit srWait 0 = true ∧ (∀ n, n ≠ srWait → (t.core c).sr n = (s.core c).sr n) ∧ CoreOnly c s t ∧ Only [.cores] s t))


/-- R146, R163, R165, R166, R204: the other events and commands of the cores. -/
def Obligations.CoreEventsComplete : Prop :=
  (∀ (s : State) c addr ini (reason : BitVec 4), s.domainUp c = true → Completes (.noticeArrive c addr ini reason) s (fun t =>
    ((s.core c).notices.length < 16 → 
      (t.core c).notices.take ((s.core c).notices.length + 1) = (s.core c).notices ++ [⟨addr, ini, reason.toNat⟩]) ∧
    (16 ≤ (s.core c).notices.length → (t.core c).noteOvf = true ∧ (t.core c).notices = (s.core c).notices) ∧
    LoggedOnly [] s t ∧ Only [.cores, .regs, .mem, .lines, .flt, .net, .noc] s t)) ∧
  (∀ (s : State) (p : Fin 2) k rpt, s.domainUp (.sole (Fin.ofNat 10 (8 + p.val))) = true → (s.core (.sole (Fin.ofNat 10 (8 + p.val)))).run = .running →
    Completes (.pairMismatch p k rpt) s (fun t =>
      (k < s.retryCount 9 → s.fld R.CORE_PAIR_STAT ⟨8 * p.val, 8⟩ < 255 →
        t.fld R.CORE_PAIR_STAT ⟨8 * p.val, 8⟩ = s.fld R.CORE_PAIR_STAT ⟨8 * p.val, 8⟩ + 1 ∧ (t.core (.sole (Fin.ofNat 10 (8 + p.val)))).run = .running) ∧
      (s.retryCount 9 ≤ k → s.testing (unitCode 0xB p.val) = false → s.outOfService (unitCode 0xB p.val) = false →
        (t.core (.sole (Fin.ofNat 10 (8 + p.val)))).run = .retired ∧ t.isRetired (unitCode 0xB p.val) = true))) ∧
  (∀ (s : State) i v, s.takes i R.CORE_START v = true → Completes (.coreStart i v) s (fun t => ∀ n : Fin 10,
    if v.getLsbD n.val ∧ ((s.core (.sole n)).run = .held ∨ (s.core (.sole n)).run = .halted) ∧ s.boot.swap = none ∧ s.sup.soleHeld = false then
      (t.core (.sole n)).run = .running ∧ (∀ r, (t.core (.sole n)).gr r = 0) ∧ (∀ r, (t.core (.sole n)).sr r = sysReset r) ∧ (t.core (.sole n)).wait = none ∧
        (t.core (.sole n)).pc = addr48 (s.rd2 (R.CORE_ENTRY_LO n.val) (R.CORE_ENTRY_HI n.val))
    else t.core (.sole n) = s.core (.sole n))) ∧
  (∀ (s : State) i v, s.takes i R.CORE_SWI v = true → Completes (.coreSwi i v) s (fun t => ∀ n : Fin 10,
    t.core (.sole n) = { s.core (.sole n) with soft := (s.core (.sole n)).soft || v.getLsbD n.val }))

/-- R140, R141: the stores to clean memory and the atomics on a clean line; the .W forms compare and store 32 bits. -/
def Obligations.StoresAndAtomicsWriteMemory : Prop :=
  StoreForm .sb 1 ∧ StoreForm .sh 2 ∧ StoreForm .sw 4 ∧ StoreForm .sd 8 ∧
  AtomForm .amoaddW 4 (fun old _ b => (old + b.toNat) % 2 ^ 32) ∧ AtomForm .amoaddD 8 (fun old _ b => (old + b.toNat) % 2 ^ 64) ∧
  AtomForm .amoswapW 4 (fun _ _ b => b.toNat % 2 ^ 32) ∧ AtomForm .amoswapD 8 (fun _ _ b => b.toNat) ∧
  AtomForm .casW 4 (fun old d b => if old = d.toNat % 2 ^ 32 then b.toNat % 2 ^ 32 else old) ∧
  AtomForm .casD 8 (fun old d b => if old = d.toNat then b.toNat else old)

/-- R142, R137, R140, R152, R169: the traps on operands, levels and cores: a misaligned access raises ALIGN, a privileged form at user level PRIV, a bad handle HANDLE, a lane opcode
on a core without a lane ILLEGAL. -/
def Obligations.OperandsLevelsAndHandlesTrap : Prop :=
  (∀ s c, s.ready c = true → (s.core c).vectors = true →
    (∀ d a imm n i, (n, i) ∈ [(2, Instr.lh c d a imm), (2, .lhu c d a imm), (4, .lw c d a imm), (4, .lwu c d a imm), (8, .ld c d a imm),
        (2, .sh c d a imm), (4, .sw c d a imm), (8, .sd c d a imm)] →
      ((s.core c).gr a + imm.signExtend 64).toNat % n ≠ 0 → Raises i c s 4 0 ((s.core c).gr a + imm.signExtend 64)) ∧
    (∀ d a b n i, (n, i) ∈ [(4, Instr.amoaddW c d a b), (8, .amoaddD c d a b), (4, .amoswapW c d a b), (8, .amoswapD c d a b), (4, .casW c d a b),
        (8, .casD c d a b)] → ((s.core c).gr a).toNat % n ≠ 0 → Raises i c s 4 0 ((s.core c).gr a))) ∧
  (∀ s c, s.ready c = true → (s.core c).vectors = true → (s.core c).priv = false →
    (∀ i, i ∈ [Instr.eret c, .wfi c] → Raises i c s 2 0 0) ∧
    (∀ d a n i, sysNamed c n.toNat = true → i ∈ [Instr.swr c a n, .sset c d a n, .sclr c d a n] → Raises i c s 2 0 0) ∧
    (∀ d n, sysNamed c n.toNat = true → n ≠ 0 → n ≠ 0x017 → Raises (.srd c d n) c s 2 0 0)) ∧
  (∀ s c (a b d : BitVec 5) i, s.ready c = true → (s.core c).vectors = true →
    let h : W32 := ((s.core c).gr a).setWidth 32
    (i ∈ [Instr.rdc c d a, .preg c d a, .punreg c d a, .waitge c d a b] →
      ((s.fetched c).handle h false = .malformed → Raises i c s 10 1 0) ∧ ((s.fetched c).handle h false = .notLive → Raises i c s 10 2 0)) ∧
    ((s.fetched c).handle h true = .malformed → Raises (.sig c a b) c s 10 1 0) ∧ ((s.fetched c).handle h true = .notLive → Raises (.sig c a b) c s 10 2 0)) ∧
  (∀ s c, s.ready c = true → (s.core c).vectors = true → hasLane c = false → ∀ (d a b : BitVec 5) (st : BitVec 3) (sh : BitVec 6) (imm : BitVec 16) i,
    i ∈ [Instr.cmul c d a b st, .cmac c d a b st, .cmsb c d a b st, .cmacj c d a b st, .cadd c d a b st, .csub c d a b st, .crot c d a b st, .dot8 c d a b st,
      .dot8su c d a b st, .cconj c d a st, .rdcs c d a sh, .aclr c d, .cmov c d a, .cfromg c d a, .gfromc c d a, .gaccrl c d a, .gaccrh c d a, .gaccil c d a,
      .gaccih c d a, .asetr c d a b, .aseti c d a b, .lflags c d, .lclrf c, .cld c d a imm, .cldp c d a st, .cst c d a st, .cmacm c d a b st, .cmacr c d a b st,
      .dot8m c d a b st, .dot8msu c d a b st] → Raises i c s 1 0 0)

/-- R158: what taking an exception saves and where it goes, whichever exception it is, and for the instructions whose effect it is; and DOUBLE, which halts the core and
does not vector (R159). -/
def Obligations.ExceptionEntrySavesTheCore : Prop :=
  (∀ (s : State) c code sub tval, (s.core c).vectors = true → code < 256 → sub < 256 →
    let t := s.except c code sub tval
    (s.core c).entered (t.core c) tval true 0 ∧ fget ((t.core c).sr srCause) ⟨0, 8⟩ = code ∧ fget ((t.core c).sr srCause) ⟨8, 8⟩ = sub ∧
      (t.core c).srBit srCause 31 = false ∧ (t.core c).sr srThr = (s.core c).sr srThr ∧ CoreOnly c s t ∧ Only [.cores, .free, .noc] s t) ∧
  (∀ s c, s.ready c = true → (s.core c).vectors = true →
    Raises (.ecall c) c s (if (s.core c).priv then 8 else 7) 0 0 ∧ Raises (.illegalEncoding c) c s 1 0 0 ∧
    ((s.fetched c).on R.DBG_STAT F.DBG_STAT.ATTACHED = false → Raises (.brk c) c s 9 0 0) ∧
    ((s.fetched c).on R.DBG_STAT F.DBG_STAT.ATTACHED = true → Completes (.brk c) s (fun t => CoreStep c s t (fun x y =>
      { y with dhalt := x.dhalt, pc := x.pc } = x ∧ y.dhalt = some 2 ∧ y.pc = x.pc + 4)))) ∧
  (∀ s c i, s.ready c = true → (s.core c).srBit srStatus stExl = true → i ∈ [Instr.ecall c, .illegalEncoding c] →
    Completes i s (fun t => (t.core c).run = .halted ∧ (t.core c).pc = (s.core c).pc ∧ (t.core c).wait = none ∧ fget ((t.core c).sr srCause) ⟨0, 8⟩ = 12 ∧
      (∀ r, (t.core c).gr r = (s.core c).gr r)))

/-- R161: the line that is taken, and what its entry saves. -/
def Obligations.InterruptEntryTakesTheHighestLine : Prop :=
  (∀ (s : State) c n,
    let takable (m : Nat) : Prop := s.irqLine c m = true ∧ (s.core c).srBit srIrqEn m = true ∧ fget ((s.core c).sr srThr) ⟨0, 4⟩ < (s.core c).irqPri m
    s.irqBest c = some n ↔ n < 32 ∧ takable n ∧ ∀ m, m < 32 → takable m →
      (s.core c).irqPri m < (s.core c).irqPri n ∨ ((s.core c).irqPri m = (s.core c).irqPri n ∧ n ≤ m)) ∧
  (∀ (s : State) c, ((s.core c).srBit srStatus stIe = false ∧ (s.core c).wait ≠ some .wfi) ∨ s.irqBest c = none → Completes (.interruptEntry c) s (fun t => t = s)) ∧
  (∀ (s : State) c n, s.atBoundary c = true → (s.core c).stepping = none → s.irqBest c = some n → (s.core c).srBit srStatus stIe = true →
    (s.core c).srAddr srVbaseLo srVbaseHi ≠ 0 → (∀ o, (s.core c).wait ≠ some (.access o)) → (∀ o, (s.core c).wait ≠ some (.drain o)) →
    Completes (.interruptEntry c) s (fun t => (s.core c).entered (t.core c) 0 ((s.core c).srBit srStatus stExl) 0x100 ∧
      (t.core c).srBit srCause 31 = true ∧ fget ((t.core c).sr srCause) ⟨16, 5⟩ = n ∧ fget ((t.core c).sr srThr) ⟨8, 4⟩ = (s.core c).irqPri n ∧
      fget ((t.core c).sr srThr) ⟨0, 4⟩ = fget ((s.core c).sr srThr) ⟨0, 4⟩ ∧ (t.core c).srBit srStatus stInwait = (s.core c).wait.isSome ∧
      CoreOnly c s t ∧ Only [.cores, .free, .boot] s t)) ∧
  (∀ (s : State) c n, s.irqDue c = some n → ∃ t, exec (.interruptEntry c) s = .next t ∧ (∀ i, i ∈ [Instr.wfi c, .ecall c, .fenceI c] → exec i s = .next t) ∧
    (∀ dl, (s.core c).wait = some (.waitt dl) → exec (.waittEnd c) s = .next t) ∧
    (∀ d h tg dl x, (s.core c).wait = some (.waitge d h tg dl x true) → exec (.waitgeMet c) s = .next t) ∧
    (∀ d h tg dl x, (s.core c).wait = some (.waitge d h tg (some dl) x false) → exec (.waitgeDeadline c) s = .next t))

/-! ### Signal lane -/


/-- R174: the move group, and the flags. -/
def Obligations.LaneMovesCopy : Prop :=
  ∀ s c (d a b : BitVec 5), s.ready c = true → hasLane c = true →
    (d.toNat < 16 → a.toNat < 16 → Completes (.cmov c d a) s (fun t => CoreStep c s t (fun x y =>
      (∀ n, y.cr n = if n = d.toNat then x.cr a.toNat else x.cr n) ∧ { y with laneC := x.laneC, pc := x.pc } = x ∧ y.pc = x.pc + 4))) ∧
    (d.toNat < 16 → Completes (.cfromg c d a) s (fun t => CoreStep c s t (fun x y =>
      (∀ n, y.cr n = if n = d.toNat then x.gr a else x.cr n) ∧ { y with laneC := x.laneC, pc := x.pc } = x ∧ y.pc = x.pc + 4))) ∧
    (a.toNat < 16 → Results (.gfromc c d a) c s d (fun x => x.cr a.toNat)) ∧
    (a.toNat < 4 → Results (.gaccrl c d a) c s d (fun x => (x.acc a.toNat false).extractLsb' 0 64) ∧
      Results (.gaccrh c d a) c s d (fun x => ((x.acc a.toNat false).extractLsb' 64 16).signExtend 64) ∧
      Results (.gaccil c d a) c s d (fun x => (x.acc a.toNat true).extractLsb' 0 64) ∧
      Results (.gaccih c d a) c s d (fun x => ((x.acc a.toNat true).extractLsb' 64 16).signExtend 64)) ∧
    (d.toNat < 4 → Completes (.asetr c d a b) s (fun t => CoreStep c s t (fun x y =>
      y.acc d.toNat false = ((x.gr b).setWidth 16 ++ x.gr a : BitVec 80) ∧ y.acc d.toNat true = x.acc d.toNat true ∧
        (∀ n i, n ≠ d.toNat → y.acc n i = x.acc n i) ∧ { y with laneA := x.laneA, pc := x.pc } = x ∧ y.pc = x.pc + 4))) ∧
    (d.toNat < 4 → Completes (.aseti c d a b) s (fun t => CoreStep c s t (fun x y =>
      y.acc d.toNat true = ((x.gr b).setWidth 16 ++ x.gr a : BitVec 80) ∧ y.acc d.toNat false = x.acc d.toNat false ∧
        (∀ n i, n ≠ d.toNat → y.acc n i = x.acc n i) ∧ { y with laneA := x.laneA, pc := x.pc } = x ∧ y.pc = x.pc + 4))) ∧
    Results (.lflags c d) c s d (fun x => (x.sr srLane).setWidth 64) ∧
    Completes (.lclrf c) s (fun t => CoreStep c s t (fun x y =>
      (∀ n, n ≠ srLane → y.sr n = x.sr n) ∧ (∀ m, y.srBit srLane m = (x.srBit srLane m && m != 1 && m != 2)) ∧
        { y with sys := x.sys, pc := x.pc } = x ∧ y.pc = x.pc + 4))

/-- R174, R175: the memory group, once, on clean memory. -/
def Obligations.LaneMemoryFormsReadAndStore : Prop :=
  AccMemForm .cmacm (fun m v => cRe m * cRe v - cIm m * cIm v) (fun m v => cRe m * cIm v + cIm m * cRe v) ∧
  AccMemForm .dot8m (fun m v => dot8 m v false) (fun _ _ => 0) ∧ AccMemForm .dot8msu (fun m v => dot8 m v true) (fun _ _ => 0) ∧
  (∀ s c (d a b : BitVec 5) (imm : BitVec 16) (st : BitVec 3), s.ready c = true → hasLane c = true →
    let u := s.fetched c
    let w := (s.core c).gr a
    (d.toNat < 16 → (w + imm.signExtend 64).toNat % 8 = 0 → u.readsMem (u.coreReq c .read (w + imm.signExtend 64) 8) = true →
      Completes (.cld c d a imm) s (fun t => MemStep c s t (w + imm.signExtend 64).toNat 8 (u.bytes (w + imm.signExtend 64).toNat 8) (fun x y =>
        (∀ n, y.cr n = if n = d.toNat then BitVec.ofNat 64 (leNat (u.bytes (w + imm.signExtend 64).toNat 8)) else x.cr n) ∧
          { y with laneC := x.laneC, pc := x.pc } = x ∧ y.pc = x.pc + 4))) ∧
    (d.toNat < 16 → st.getLsbD 0 = false → st.getLsbD 1 = false → w.toNat % 8 = 0 → u.readsMem (u.coreReq c .read w 8) = true →
      Completes (.cldp c d a st) s (fun t => MemStep c s t w.toNat 8 (u.bytes w.toNat 8) (fun x y =>
        (∀ n, y.cr n = if n = d.toNat then BitVec.ofNat 64 (leNat (u.bytes w.toNat 8)) else x.cr n) ∧
          x.became { y with laneC := x.laneC } a (w + 8) (x.pc + 4)))) ∧
    (d.toNat < 16 → st.getLsbD 0 = false → st.getLsbD 1 = false → w.toNat % 8 = 0 → u.writesMem (u.coreReq c .write w 8) = true →
      Completes (.cst c d a st) s (fun t => MemStep c s t w.toNat 8 (leBytes 8 ((s.core c).cr d.toNat).toNat) (fun x y => x.became y 0 0 (x.pc + 4)))) ∧
    (d.toNat < 4 → b.toNat ≤ 14 → st = 0 → w.toNat % 4 = 0 → u.readsMem (u.coreReq c .read w 4) = true →
      let m : Int := (BitVec.ofNat 32 (leNat (u.bytes w.toNat 4))).toInt
      Completes (.cmacr c d a b st) s (fun t => MemStep c s t w.toNat 4 (u.bytes w.toNat 4) (fun x y =>
        let v := x.cr b.toNat
        let q := x.cr (b.toNat + 1)
        x.accumulates y d.toNat ((x.acc d.toNat false).toInt + m * cRe v) ((x.acc d.toNat true).toInt + m * cIm v) ∧
        x.computes y b.toNat (cRe v * cRe q - cIm v * cIm q) (cRe v * cIm q + cIm v * cRe q) 31 ∧ (∀ n, n ≠ srLane → y.sr n = x.sr n) ∧
        (∀ k, k ≠ 1 → k ≠ 2 → y.srBit srLane k = x.srBit srLane k) ∧
        (∀ r, y.gr r = if r = a ∧ r ≠ 0 then w + 4 else x.gr r) ∧ y.pc = x.pc + 4))))

/-- R176–R179: RPT of a register follower makes n + 1 repetitions, in which a stepped field names the next register; a memory follower outside Sole SRAM raises LOAD with
REPDONE, and a word that may not follow raises ILLEGAL with no repetition. -/
def Obligations.RepeatMakesEveryRepetition : Prop :=
  ∀ s c (n : BitVec 12), let p := (s.fetched c).fetch c ((s.core c).pc + 4)
    let v := p.1
    s.ready c = true → p.2 = none → v.core c = s.core c →
    (hasLane c = true → ∀ f (d a b : BitVec 5) (st : BitVec 3), laneRegOk f d a b st = true →
      Completes (.rpt c n (.reg f d a b st)) s (fun t => CoreStepFrom v (s.core c) c t (fun x y =>
        y = { (List.range (n.toNat + 1)).foldl (fun z k => z.laneReg f (if st.getLsbD 2 then (d.toNat + k) % 16 else d.toNat)
          (if st.getLsbD 0 then (a.toNat + k) % 16 else a.toNat) (if st.getLsbD 1 then (b.toNat + k) % 16 else b.toNat)) x with pc := x.pc + 8 }))) ∧
    ((s.core c).vectors = true → ∀ w, (followerOk w = false ∨ hasLane c = false) → RaisesFrom v (.rpt c n w) c s 1 0 0) ∧
    ((s.core c).vectors = true → hasLane c = true → ∀ f (d a b : BitVec 5) (st : BitVec 3), laneMemOk f d b st = true →
      ((s.core c).gr a).toNat % (if f = .cmacr then 4 else 8) = 0 → (∀ r lo hi, v.regionOf ((s.core c).gr a).toNat = some (r, lo, hi) → r ≠ .sram) →
      Completes (.rpt c n (.mem f d a b st)) s (fun t => fget ((t.core c).sr srCause) ⟨0, 8⟩ = 5 ∧ fget ((t.core c).sr srCause) ⟨8, 8⟩ = 6 ∧
        (t.core c).srAddr srEpcLo srEpcHi = addr48 (s.core c).pc ∧ (t.core c).srAddr srTvalLo srTvalHi = addr48 ((s.core c).gr a) ∧
        fget ((t.core c).sr srLane) ⟨16, 12⟩ = 0 ∧ (∀ r, (t.core c).gr r = (s.core c).gr r) ∧ (t.core c).laneC = (s.core c).laneC ∧
        (t.core c).laneA = (s.core c).laneA ∧ CoreOnly c v t))

/-- R171–R174: the arithmetic group; each result is rounded once, to the nearest value with ties to even where RND is 0, toward minus infinity where it is 1. -/
def Obligations.LaneArithmeticComputes : Prop :=
  (∀ (v : Int) (k : Nat),
    (let r := roundShift false v k
     2 * (r * 2 ^ k - v) ≤ 2 ^ k ∧ -(2 ^ k : Int) ≤ 2 * (r * 2 ^ k - v) ∧ (2 * (r * 2 ^ k - v) = 2 ^ k ∨ 2 * (v - r * 2 ^ k) = 2 ^ k → r % 2 = 0)) ∧
    (let r := roundShift true v k
     r * 2 ^ k ≤ v ∧ v < (r + 1) * 2 ^ k)) ∧
  AccForm .cmul (fun _ _ u v => cRe u * cRe v - cIm u * cIm v) (fun _ _ u v => cRe u * cIm v + cIm u * cRe v) ∧
  AccForm .cmac (fun r _ u v => r + (cRe u * cRe v - cIm u * cIm v)) (fun _ i u v => i + (cRe u * cIm v + cIm u * cRe v)) ∧
  AccForm .cmsb (fun r _ u v => r - (cRe u * cRe v - cIm u * cIm v)) (fun _ i u v => i - (cRe u * cIm v + cIm u * cRe v)) ∧
  AccForm .cmacj (fun r _ u v => r + (cRe u * cRe v + cIm u * cIm v)) (fun _ i u v => i + (cIm u * cRe v - cRe u * cIm v)) ∧
  AccForm .dot8 (fun r _ u v => r + dot8 u v false) (fun _ i _ _ => i) ∧ AccForm .dot8su (fun r _ u v => r + dot8 u v true) (fun _ i _ _ => i) ∧
  ComplexForm .cadd (fun u v => cRe u + cRe v) (fun u v => cIm u + cIm v) 0 ∧ ComplexForm .csub (fun u v => cRe u - cRe v) (fun u v => cIm u - cIm v) 0 ∧
  ComplexForm .crot (fun u v => cRe u * cRe v - cIm u * cIm v) (fun u v => cRe u * cIm v + cIm u * cRe v) 31 ∧
  (∀ s c d a st, s.ready c = true → hasLane c = true → d.toNat < 16 → a.toNat < 16 → st.getLsbD 1 = false →
    Completes (.cconj c d a st) s (fun t => CoreStep c s t (fun x y =>
      x.computes y d.toNat (cRe (x.cr a.toNat)) (-cIm (x.cr a.toNat)) 0 ∧ x.sysBut y 1 ∧ y.g = x.g ∧ y.laneA = x.laneA ∧ y.pc = x.pc + 4))) ∧
  (∀ s c d a sh, s.ready c = true → hasLane c = true → d.toNat < 16 → a.toNat < 4 →
    Completes (.rdcs c d a sh) s (fun t => CoreStep c s t (fun x y =>
      x.computes y d.toNat (x.acc a.toNat false).toInt (x.acc a.toNat true).toInt sh.toNat ∧ x.sysBut y 1 ∧ y.g = x.g ∧ y.laneA = x.laneA ∧ y.pc = x.pc + 4))) ∧
  (∀ s c d, s.ready c = true → hasLane c = true → d.toNat < 4 →
    Completes (.aclr c d) s (fun t => CoreStep c s t (fun x y =>
      x.accumulates y d.toNat 0 0 ∧ y.sys = x.sys ∧ y.g = x.g ∧ y.laneC = x.laneC ∧ y.pc = x.pc + 4)))

/-! ### Memory and the network -/

/-- R192, R195, R198–R205, R207, R211, R212: a request at its entry, at its target and back; host memory; the scrubbers; the guards' registers. -/
def Obligations.RequestsAndGuardsAct : Prop :=
  (∀ (s : State) i k (a : Word) n early (cls : BitVec 4) data op v, s.iniUp i = true → iniFabric i = false → 0 < n → a.toNat % 256 + n ≤ 256 → k = Kind.read ∨ k = Kind.fetch →
    let q : Req := { ini := i, kind := k, addr := a, len := n, posted := false, early := early, cls := s.reqLabel i cls.toNat }
    let p := s.enter q
    (p.2.1 = 0 → Completes (.requestEntry i k a n early cls data op v) s (fun t =>
      ∃ m, t.net = s.net ++ [m] ∧ m.req = { q with cls := p.2.2 } ∧ m.data = data.take n ∧ m.atom = none ∧ m.lace = none ∧ m.arrived = false ∧ m.passed = 0 ∧
        m.hdr.ini = iniId i ∧ m.hdr.kind = (if k = Kind.read then 0 else 4) ∧ m.hdr.cls = p.2.2 ∧ m.hdr.addr = a.setWidth 48 ∧ m.hdr.len = n ∧ WroteOnly i [] s t ∧ Only [.net, .regs, .noc] s t)) ∧
    (p.2.1 ≠ 0 → Completes (.requestEntry i k a n early cls data op v) s (fun t =>
      t.resp = s.resp ++ [{ req := q, reason := p.2.1, data := [] }] ∧ (s.logSize = 0 → t.net = s.net)))) ∧
  (∀ (s : State) k n r lo hi answer reason, s.net[k]? = some n → s.granting k n = true → n.lace = none → n.abroad = none → n.atom = none →
    n.orphan = false → s.hears n.req.ini = true → n.req.kind = .read → s.regionOf n.req.addr.toNat = some (r, lo, hi) → s.targetLive n.req.ini r n.req.addr.toNat = true → readOwnerOk r n.req.ini = true →
    s.cleanAt r n.req.addr.toNat n.req.len = true → Completes (.requestAtTarget k .clean answer reason) s (fun t =>
      t.net = (s.grant k n).net ∧ t.resp = s.resp ++ [{ req := n.req, reason := 0, data := s.bytes n.req.addr.toNat n.req.len, orig := n.orig }] ∧
        (∀ l, t.line l = s.line l) ∧ Only [.net, .resp, .lines, .noc] s t)) ∧
  (∀ (s : State) k n found answer reason, s.net[k]? = some n → s.granting k n = false → Completes (.requestAtTarget k found answer reason) s (fun t => t = s)) ∧
  (∀ (s : State) k r u, s.resp[k]? = some r → r.here = false → s.awaits r.req = false → r.req.ini = .soleUnit u → (s.withResp (s.resp.eraseIdx k)).sealOf r = none →
    Completes (.responseAtInitiator k) s (fun t => t.resp = s.resp.eraseIdx k ∧ t.ret = BitVec.ofNat 64 (leNat r.data) ∧ Only [.resp, .ret] s t)) ∧
  (∀ (s : State) k r, s.resp[k]? = some r → r.here = false → s.awaits r.req = true → Completes (.responseAtInitiator k) s (fun t =>
    t.resp = s.resp.set k { r with here := true } ∧ Only [.resp] s t)) ∧
  (∀ (s : State) k r c p d n sx, s.resp[k]? = some r → r.here = false → r.req.ini = .core c p → r.req.posted = false → r.req.early = false → r.reason = 0 →
    (s.core c).wait = some (.access (.load d n sx)) → (s.core c).stepping = none → Completes (.responseAtInitiator k) s (fun t =>
      t.resp = s.resp.eraseIdx k ∧ (s.core c).became { t.core c with wait := (s.core c).wait } d (extend n sx (leNat r.data)) ((s.core c).pc + 4) ∧
        (t.core c).wait = none ∧ CoreOnly c s t ∧ Only [.resp, .cores] s t)) ∧
  (∀ (s : State) (dn : Fin 5) r2 (g : Fin 4), s.training = true →
    let h := fput (fput (s.rd R.GRD_HMEM_STAT) F.GRD_HMEM_STAT.DENSITY (dn.val + 1)) F.GRD_HMEM_STAT.RANKS2 r2.toNat
    let hg := fput h F.GRD_HMEM_STAT.GRADE g.val
    (g = 0 → Completes (.hmemTrainDone dn r2 g) s (PutsRegs [(R.GRD_HMEM_STAT, fput h F.GRD_HMEM_STAT.FAIL 1)] s)) ∧
    (g ≠ 0 → s.on R.GRD_HMEM_STAT F.GRD_HMEM_STAT.KEPT = false → Completes (.hmemTrainDone dn r2 g) s
      (PutsRegs [(R.GRD_HMEM_STAT, fput hg F.GRD_HMEM_STAT.FILLING 1)] s)) ∧
    (g ≠ 0 → s.on R.GRD_HMEM_STAT F.GRD_HMEM_STAT.KEPT = true → Completes (.hmemTrainDone dn r2 g) s
      (PutsRegs [(R.GRD_HMEM_STAT, fput hg F.GRD_HMEM_STAT.READY 1), (R.GRD_HMEM_FILL, BitVec.ofNat 32 (2 ^ (dn.val + 1) * 7936))] s))) ∧
  (∀ (s : State) mib, s.on R.GRD_HMEM_STAT F.GRD_HMEM_STAT.FILLING = true → (s.rd R.GRD_HMEM_FILL).toNat < Min.min mib s.hostMib →
    Completes (.hmemFillDone mib) s (fun t => t.rd R.GRD_HMEM_FILL = BitVec.ofNat 32 (Min.min mib s.hostMib) ∧
      (∀ a, t.byte a = if 0x100000000000 + (s.rd R.GRD_HMEM_FILL).toNat * 0x100000 ≤ a ∧ a < 0x100000000000 + Min.min mib s.hostMib * 0x100000 then memDefault a else s.byte a) ∧
      (s.hostMib ≤ mib → t.on R.GRD_HMEM_STAT F.GRD_HMEM_STAT.READY = true ∧ t.on R.GRD_HMEM_STAT F.GRD_HMEM_STAT.FILLING = false) ∧
      RegsOnly [R.GRD_HMEM_FILL, R.GRD_HMEM_STAT] s t ∧ Only [.regs, .mem, .lines] s t)) ∧
  (∀ (s : State) (m : Fin 8) f, f ∈ [LineState.clean, .single] → s.scrubbing m.val = true →
    let n := tabGet natZero s.scrubPos m.val
    s.line ((s.scrubMem m.val).2.1 + 64 * n) = .clean → Completes (.scrubLine m f) s (fun t =>
      tabGet natZero t.scrubPos m.val = (if n + 1 < (s.scrubMem m.val).2.2 then n + 1 else 0) ∧ (∀ l, t.line l = s.line l) ∧ Only [.scrubPos, .lines, .regs] s t)) ∧
  (∀ (s : State) i (x : Fin 5) v, let a := R.GRD_SCRUB_CFG (grdBase (if x.val = 0 then 0 else 7 + x.val))
    s.takes i a v = true → Completes (.scrubCfgWrite i x v) s (WritesRegs i [(a, codedWrite a (s.rd a) v)] s)) ∧
  (∀ (s : State) i (x : Fin 6) (j n : BitVec 5) v, let c := grdDie x
    let perm := R.GRD_PERM (grdTable c) j.toNat n.toNat
    let stat := R.GRD_CFG_STAT (grdBase c)
    j.toNat < grdCount c →
    (s.takes i perm v = true → (v.getLsbD 0 = false ∨ ∀ m, m < 32 → s.grdOverlap (grdTable c) j.toNat n.toNat m = false) →
      Completes (.grdPermWrite i x j n v) s (WritesRegs i [(perm, v &&& 0xFF)] s)) ∧
    (s.takes i perm v = true → v.getLsbD 0 = true → (∃ m, m < 32 ∧ s.grdOverlap (grdTable c) j.toNat n.toNat m = true) →
      Completes (.grdPermWrite i x j n v) s (fun t => t.rd perm = v &&& 0xFE ∧ t.bit stat 0 = true ∧ WroteOnly i [perm, stat] s t ∧ Only [.regs, .noc] s t)) ∧
    (∀ w : Fin 4, let a := R.GRD_BASE_LO (grdTable c) j.toNat n.toNat + 4 * w.val
      s.takes i a v = true →
      (s.bit perm 0 = true → Completes (.grdBoundsWrite i x j n w v) s (fun t => t.bit stat 1 = true ∧ WroteOnly i [stat] s t ∧ Only [.regs, .noc] s t)) ∧
      (s.bit perm 0 = false → Completes (.grdBoundsWrite i x j n w v) s
        (WritesRegs i [(a, if w = 0 then v &&& 0xFFFFFFC0 else if w = 2 then v ||| 0x3F else codedWrite a (s.rd a) v)] s)))) ∧
  (∀ (s : State) i (x : Fin 6), let b := grdBase (grdDie x)
    (s.takes i (R.GRD_VIOL_INFO b) 0x80000000 = true → Completes (.violClear i x) s
      (WritesRegs i [(R.GRD_VIOL_INFO b, s.rd (R.GRD_VIOL_INFO b) &&& 0x7FFFFFFF), (R.GRD_VIOL_COUNT b, 0)] s)) ∧
    (∀ k p, i = .core k p → coreDie k = grdDie x →
      (s.takes i (R.GRD_NOTE_POP b) 1 = true → Completes (.noticePop i x) s (fun t =>
        t.core k = { s.core k with notices := (s.core k).notices.drop 1 } ∧ CoreOnly k s t ∧ WroteOnly i [] s t ∧ Only [.cores, .regs, .noc] s t)) ∧
      (s.takes i (R.GRD_NOTE_STAT b) 0x100 = true → Completes (.noteOvfClear i x) s (fun t =>
        t.core k = { s.core k with noteOvf := false, noteLost := 0 } ∧ CoreOnly k s t ∧ WroteOnly i [] s t ∧ Only [.cores, .regs, .noc] s t))))

/-- R226–R228, R231, R235–R238, R241–R246: route tables, bandwidth windows, Awl probes and resends. -/
def Obligations.RoutesWindowsAndProbesAct : Prop :=
  (∀ (s : State) i (d : Fin 4) (j : Fin 17) (n : Fin 8) (dest : BitVec 6), let a := R.NOC_RT_DEST d.val j.val n.val
    let v : W32 := 0x80000000 ||| dest.setWidth 32
    let code := s.routeCheck d.val j.val n.val v (s.rd (R.NOC_RT_ROUTE d.val j.val n.val))
    s.takes i a v = true → s.bit a 31 = false →
    (code = 0 → Completes (.nocRtEnable i d j n dest) s (WritesRegs i [(a, v)] s)) ∧
    (code ≠ 0 → Completes (.nocRtEnable i d j n dest) s (WritesRegs i [(a, dest.setWidth 32),
      (R.NOC_RT_STAT (nocBase (8 + d.val)), BitVec.ofNat 32 (code + 16 * j.val + 512 * n.val + 2 ^ 31))] s))) ∧
  (∀ (s : State) i (d : Fin 4) (j : Fin 17) (n : Fin 8) v, let a := R.NOC_RT_DEST d.val j.val n.val
    let b := R.NOC_RT_ROUTE d.val j.val n.val
    (s.takes i b v = true → s.bit a 31 = false → Completes (.nocRtEdit i d j n true v) s (WritesRegs i [(b, v)] s)) ∧
    (s.takes i b v = true → s.bit a 31 = true → Completes (.nocRtEdit i d j n true v) s
      (WritesRegs i [(R.NOC_RT_STAT (nocBase (8 + d.val)), BitVec.ofNat 32 (7 + 16 * j.val + 512 * n.val + 2 ^ 31))] s)) ∧
    (s.takes i a v = true → s.bit a 31 = false → v.getLsbD 31 = false → Completes (.nocRtEdit i d j n false v) s (WritesRegs i [(a, v &&& 0x3F)] s)) ∧
    (s.takes i a v = true → s.bit a 31 = true → v.getLsbD 31 = false → v.setWidth 6 = (s.rd a).setWidth 6 →
      Completes (.nocRtEdit i d j n false v) s (WritesRegs i [(a, s.rd a &&& 0x7FFFFFFF)] s))) ∧
  (∀ (s : State) (x : Fin 5), let c := netDie x.val
    let b := bwcBase c
    s.netUp x.val = true → (s.dieDtb c).toNat % s.bwcWindow c = 0 → Completes (.bwcWindowBoundary x) s (fun t =>
      (∀ cls r, cls < 16 → r < 4 → t.rd (R.BWC_COUNT b cls r) = 0 ∧ t.rd (R.BWC_LAST b cls r) =
        BitVec.ofNat 32 (s.fld (R.BWC_COUNT b cls r) F.BWC_COUNT.LINES + (s.bit (if r < 2 then R.BWC_OVER_LO b else R.BWC_OVER_HI b) (16 * (r % 2) + cls)).toNat * 2 ^ 31)) ∧
      t.rd (R.BWC_OVER_LO b) = 0 ∧ t.rd (R.BWC_OVER_HI b) = 0 ∧ tabGet bwcLen0 t.bwcLen c = s.rd (R.BWC_WINDOW b) &&& 0xFFFF ∧
      (∀ a, ¬(b ≤ a ∧ a < b + 0x400) → t.rd a = s.rd a) ∧ Only [.regs, .bwcLen] s t)) ∧
  (∀ (s : State) i (x : Fin 5) (cls : Fin 16) (r : Fin 4) v, let b := bwcBase (netDie x.val)
    let a := R.BWC_BUDGET b cls.val r.val
    (s.takes i a v = true → Completes (.bwcBudgetWrite i x cls r v) s (WritesRegs i [(a, codedWrite a (s.rd a) v)] s)) ∧
    (s.takes i (R.BWC_WINDOW b) v = true → Completes (.bwcWindowWrite i x v) s
      (WritesRegs i [(R.BWC_WINDOW b, codedWrite (R.BWC_WINDOW b) (s.rd (R.BWC_WINDOW b)) v)] s))) ∧
  (∀ (s : State) (x : Fin 5) point port dir k, let b := awlBase (netDie x.val)
    s.netUp x.val = true → s.bit (R.AWL_STAT b) 16 = false → Completes (.awlMatch x point port dir k) s (fun t =>
      (∀ p, p < awlCount x.val → t.rd (R.AWL_PKT b p) = if s.awlHits x.val p point port dir k
        then (if s.rd (R.AWL_PKT b p) = 0xFFFFFFFF then 0xFFFFFFFF else s.rd (R.AWL_PKT b p) + 1) else s.rd (R.AWL_PKT b p)) ∧
      Only [.regs, .traceQ, .awlSpent, .noc] s t)) ∧
  (∀ (s : State) (x : Fin 5) point port dir k, s.bit (R.AWL_STAT (awlBase (netDie x.val))) 16 = true → Completes (.awlMatch x point port dir k) s (fun t => Only [.traceQ] s t ∧
      (s.bit (R.AWL_TRACE (awlBase (netDie x.val))) 0 = false → t = s))) ∧
  (∀ (s : State) i (x : Fin 5) (p : Fin 16) v, let b := awlBase (netDie x.val)
    let a := R.AWL_TRIG b p.val
    s.takes i a v = true → p.val < awlCount x.val → Completes (.awlTrigWrite i x p v) s (fun t =>
      t.rd a = codedWrite a (s.rd a) v ∧ Only [.regs, .awlSpent, .noc] s t ∧
        (s.bit (R.AWL_STAT b) 16 = true → WroteOnly i [a] s t ∧ t.awlSpent = s.awlSpent.filter (· != 16 * x.val + p.val)))) ∧
  (∀ (s : State) i (x : Fin 5), let a := R.AWL_STAT (awlBase (netDie x.val))
    s.takes i a 0x10000 = true → (∀ p, p < awlCount x.val → s.awlDue x.val p = false) → Completes (.awlUnfreeze i x) s (WritesRegs i [(a, s.rd a &&& 0xFFFEFFFF)] s)) ∧
  (∀ (s : State) i (x : Fin 5) (p : Fin 16) (w : Fin 12) v, let b := awlBase (netDie x.val)
    let a := R.AWL_CFG b p.val + 4 * w.val
    s.takes i a v = true → p.val < awlCount x.val → w.val ≠ 7 → w.val ≠ 10 →
    (s.bit (R.AWL_CFG b p.val) 0 = false → Completes (.awlCfgWrite i x p w v) s (WritesRegs i [(a, codedWrite a (s.rd a) v)] s)) ∧
    (s.bit (R.AWL_CFG b p.val) 0 = true → w.val ≠ 0 → Completes (.awlCfgWrite i x p w v) s
      (WritesRegs i [(R.AWL_STAT b, s.rd (R.AWL_STAT b) ||| 0x20000)] s))) ∧
  (∀ (s : State) (d : Fin 4) router k, s.diePowered d.val = true → k < s.retryCount 6 → Completes (.meshFlitError d router k) s (fun t =>
    t.fld (R.NOC_STAT (nocBase (8 + d.val))) F.NOC_STAT.RETRY = Min.min (s.fld (R.NOC_STAT (nocBase (8 + d.val))) F.NOC_STAT.RETRY + k + 1) (2 ^ F.NOC_STAT.RETRY.w - 1) ∧
      tabGet natZero t.flt.recur 6 = tabGet natZero s.recurRoll.flt.recur 6 + 1 ∧ Only [.regs, .flt, .mem, .lines, .cores, .net, .noc] s t)) ∧
  (∀ (s : State) (b : Fin 12) k, s.bridgeLive b.val = true → k < s.retryCount 7 → Completes (.weltFlitError b k) s (fun t =>
    (b.val < 4 → fget (t.rd (R.NOC_WELT_RETRY (nocBase 0))) ⟨8 * b.val, 8⟩ = Min.min (fget (s.rd (R.NOC_WELT_RETRY (nocBase 0))) ⟨8 * b.val, 8⟩ + k + 1) 255) ∧
      tabGet natZero t.flt.recur 7 = tabGet natZero s.recurRoll.flt.recur 7 + 1 ∧ Only [.regs, .flt, .mem, .lines, .cores, .net, .noc] s t))

/-! ### Engines -/

/-- R258, R260, R261, R265, R267, R269–R273: the entries of a queue, and what ends their waits. -/
def Obligations.QueueEntriesAct : Prop :=
  (∀ (s : State) g q w op used i, (op, used, i) ∈ [(0, ([] : List Nat), Instr.entNop g q), (1, [3, 4], .entSignal g q), (2, [3, 4, 5, 6], .entWait g q), (3, [5, 6], .entWaitt g q),
      (4, [], .entIrq g q), (5, [3, 4], .entJump g q), (6, [3, 5, 6], .entAcq g q), (7, [3], .entRel g q), (8, [3], .entPreg g q), (9, [3], .entPunreg g q)] →
    s.comes (qKey g q) w → opIs op w = true →
    (entryReserved w used = false → Completes i s (fun t => (s.begun (qKey g q) w).endedAs t (qKey g q) ⟨1, 0, 0⟩)) ∧
    (op ∉ [5, 6, 7] → entryReserved w used = true → (s.begun (qKey g q) w).doneOk w = false →
      Completes i s (fun t => (s.begun (qKey g q) w).endedAs t (qKey g q) ⟨3, 0, 0⟩))) ∧
  (∀ (s : State) g q w, s.comes (qKey g q) w → knownOps.contains ((wd w 0).toNat % 256) = false →
    Completes (.entUnknownOpcode g q) s (fun t => (s.begun (qKey g q) w).endedAs t (qKey g q) ⟨1, 0, 0⟩)) ∧
  EntForm .entNop 0 [] (fun _ _ _ => true) (fun k _ u t => u.endedAs t k ⟨0, 0, 0⟩ ∧ RegsOnly [qreg R.ENG_QSTAT k] u t ∧ Only [.queues, .regs] u t) ∧
  EntForm .entSignal 1 [3, 4] (fun _ _ _ => true) (fun k w u t =>
    (∀ r, u.handle (wd w 3) true = .counter r → t.rd r = u.rd r + wd w 4 ∧ (t.queue k).fin = some ⟨0, 0, 0⟩ ∧ t.qState k = 2) ∧
    (u.handle (wd w 3) true = .malformed ∨ u.handle (wd w 3) true = .notLive → u.endedAs t k ⟨3, 0, 0⟩)) ∧
  EntForm .entWait 2 [3, 4, 5, 6] (fun _ _ _ => true) (fun k w u t =>
    (∀ r, u.handle (wd w 3) false = .counter r →
      (waitMet (u.rd r) (wd w 4) = true → u.endedAs t k ⟨0, 0, 0⟩) ∧
      (waitMet (u.rd r) (wd w 4) = false → u.qLate k (wdDeadline w) = true → u.endedAs t k ⟨4, 0, 0⟩) ∧
      (waitMet (u.rd r) (wd w 4) = false → u.qLate k (wdDeadline w) = false → u.waitsAs t k (.counter (wd w 3) (wd w 4) (wdDeadline w) true false))) ∧
    ((∀ r, u.handle (wd w 3) false ≠ .counter r) → u.endedAs t k ⟨3, 0, 0⟩)) ∧
  EntForm .entWaitt 3 [5, 6] (fun _ _ _ => true) (fun k w u t => let dl : Word := ((wd w 6) ++ (wd w 5)).setWidth 64
    (u.qLate k (some dl) = true → u.endedAs t k ⟨0, 0, 0⟩) ∧ (u.qLate k (some dl) = false → u.waitsAs t k (.time dl))) ∧
  EntForm .entIrq 4 [] (fun _ _ _ => true) (fun k _ u t => u.endedAs t k ⟨0, 0, 0⟩ ∧ t.bit (R.ENG_IRQ_PEND (queueDie k) (queueEng k)) (4 + queueNo k) = true ∧
    RegsOnly [qreg R.ENG_QSTAT k, R.ENG_IRQ_PEND (queueDie k) (queueEng k)] u t ∧ Only [.queues, .regs] u t) ∧
  EntForm .entJump 5 [3, 4] (fun s k w => wdAddrOk w 3 && (s.pipeOf k).isNone) (fun k _ u t => u.endedAs t k ⟨0, 0, 0⟩ ∧ Only [.queues, .regs] u t) ∧
  EntForm .entAcq 6 [3, 5, 6] (fun _ _ w => wd w 3 >>> 16 == 0) (fun k w u t => let me := ownerId (queueIni k)
    (u.holdRef (wd w 3) = none → u.endedAs t k ⟨3, 0, 0⟩) ∧
    (∀ key, u.holdRef (wd w 3) = some key → (u.holdEntry k .read (holdAddr key 0x400)).2 = none →
      ((u.hold key).held = false → t.hold key = ⟨true, false, me, (u.hold key).waiters⟩ ∧
        u.endedAs t k ⟨if (u.hold key).revoked && (wd w 0).getLsbD 10 then 7 else 0, 0, 0⟩) ∧
      ((u.hold key).held = true → (u.hold key).owner = me → u.endedAs t k ⟨0, 0, 0⟩ ∧ t.holds = u.holds) ∧
      ((u.hold key).held = true → (u.hold key).owner ≠ me → wd w 5 = 0 → wd w 6 = 0 → u.waitsAs t k (.hold (wd w 3) none) ∧
        t.hold key = { u.hold key with waiters := (u.hold key).waiters ++ [k] }))) ∧
  EntForm .entRel 7 [3] (fun _ _ w => wd w 3 >>> 16 == 0) (fun k w u t =>
    ∀ key, u.holdRef (wd w 3) = some key → (u.holdEntry k .write (holdAddr key 0x800)).2 = none →
      ((u.hold key).held = true → (u.hold key).owner = ownerId (queueIni k) → (u.hold key).waiters = [] → u.endedAs t k ⟨0, 0, 0⟩ ∧
        t.hold key = ⟨false, (u.hold key).revoked, 0, []⟩) ∧
      ((u.hold key).held = false ∨ (u.hold key).owner ≠ ownerId (queueIni k) → u.endedAs t k ⟨0x10, 0, 0⟩)) ∧
  EntForm .entPreg 8 [3] (fun _ _ _ => true) (fun k w u t => let l := (u.queue k).producers
    ∀ r, u.handle (wd w 3) false = .counter r →
      (l.contains (wd w 3) = true → u.endedAs t k ⟨0, 0, 0⟩) ∧ (l.contains (wd w 3) = false → 8 ≤ l.length → u.endedAs t k ⟨0xF, 0, 0⟩) ∧
      (l.contains (wd w 3) = false → l.length < 8 → (t.queue k).producers = l ++ [wd w 3] ∧ (t.queue k).fin = some ⟨0, 0, 0⟩ ∧
        t.fld (qreg R.ENG_QSTAT k) F.ENG_QSTAT.PRODUCERS = l.length + 1)) ∧
  EntForm .entPunreg 9 [3] (fun _ _ _ => true) (fun k w u t => ∀ r, u.handle (wd w 3) false = .counter r →
    (t.queue k).producers = (u.queue k).producers.filter (· != wd w 3) ∧ (t.queue k).fin = some ⟨0, 0, 0⟩) ∧
  EntForm .entCopy 0x10 [3, 4, 5, 6, 7] (fun _ _ w => wdAddrOk w 3 && wdAddrOk w 5 && copyLenOk (wd w 7)) (fun k w u t =>
    let n := (wd w 7).toNat
    let v := u.granted k
    let r := v.qRead k 0 (wdAddr w 3) n (v.qCls k)
    (u.grants k [0] (decide (u.chanUsed (k / 4) ≤ 2)) = false → u.wantsIn t k [0]) ∧
    (u.grants k [0] (decide (u.chanUsed (k / 4) ≤ 2)) = true → copyStep (wdAddr w 3).toNat (wdAddr w 5).toNat n = n →
      (∀ b, r.2 = some (.inl b) → (r.1.qWrite k 0 (wdAddr w 5) b (v.qCls k) false).2 = none →
        (t.queue k).fin = some ⟨0, 0, 0⟩ ∧ t.mem = (r.1.qWrite k 0 (wdAddr w 5) b (v.qCls k) false).1.mem) ∧
      (r.2 = none → (t.queue k).entry = some w ∧ (t.queue k).fin = none ∧ (t.queue k).copied = 0 ∧ t.net = r.1.net))) ∧
  (∀ (s : State) g q w b, let k := qKey g q
    let n := (wd w 7).toNat - (s.queue k).copied
    let a := (wdAddr w 3).toNat + (s.queue k).copied
    let c := (wdAddr w 5).toNat + (s.queue k).copied
    let r := s.qRead k 0 (BitVec.ofNat 64 a) n (s.qCls k)
    let p := r.1.qWrite k 0 (BitVec.ofNat 64 c) b (s.qCls k) false
    (s.queue k).entry = some w → opIs 0x10 w = true → (s.queue k).fin = none → (s.queue k).copied < (wd w 7).toNat → copyStep a c n = n → r.2 = some (.inl b) → p.2 = none →
      Completes (.entCopy g q) s (fun t => (t.queue k).fin = some ⟨0, 0, 0⟩ ∧ t.mem = p.1.mem)) ∧
  (∀ (s : State) g q h x dl wt, (s.queue (qKey g q)).wait = some (.counter h x dl wt true) → Completes (.entWaitMet g q) s (fun t =>
    s.endedAs t (qKey g q) ⟨0, 0, 0⟩ ∧ Only [.queues, .regs] s t)) ∧
  (∀ (s : State) g q h x dl wt, (s.queue (qKey g q)).wait = some (.counter h x dl wt false) → s.qLate (qKey g q) dl = true → Completes (.entWaitTimeout g q) s (fun t =>
    s.endedAs t (qKey g q) ⟨4, 0, 0⟩ ∧ Only [.queues, .regs] s t)) ∧
  (∀ (s : State) g q dl, (s.queue (qKey g q)).wait = some (.time dl) → s.qLate (qKey g q) (some dl) = true → Completes (.entWaittEnd g q) s (fun t =>
    s.endedAs t (qKey g q) ⟨0, 0, 0⟩ ∧ Only [.queues, .regs] s t))

/-- R250–R252, R257, R259, R278–R281: doorbells, lists, the completion of entries, and ENG_QCTL. -/
def Obligations.QueuesRunTheirLists : Prop :=
  (∀ (s : State) i g q (tail : BitVec 16), let k := qKey g q
    let head := s.qHead k
    s.takes i (qreg R.ENG_QDB k) (tail.setWidth 32) = true →
    (s.qState k ∈ [1, 2, 3, 4] → sub16 tail.toNat head ≤ s.qCap k → sub16 (s.qTail k) head ≤ sub16 tail.toNat head → tail.toNat ≠ s.qTail k →
      Completes (.queueDoorbell i g q tail) s (fun t => t.qTail k = tail.toNat ∧ t.qHead k = head ∧ t.qState k = (if s.qState k = 1 then 2 else s.qState k) ∧
        WroteOnly i [qreg R.ENG_QPTR k, qreg R.ENG_QSTAT k, R.PWR_GATE_STAT] s t ∧ Only [.regs, .noc] s t)) ∧
    (s.qState k ∈ [1, 2, 3, 4] → s.qCap k < sub16 tail.toNat head → Completes (.queueDoorbell i g q tail) s
      (WritesRegs i [(qreg R.ENG_QSTAT k, s.rd (qreg R.ENG_QSTAT k) ||| 0x100)] s))) ∧
  (∀ (s : State) g q (a : Word) b, let k := qKey g q
    let p := s.qFetch k a 64 (s.fld (qreg R.ENG_QCFG k) F.ENG_QCFG.HCLASS)
    s.qState k = 2 → (s.queue k).list = none → (s.queue k).next = some a → s.engUsable g.val = true → s.xferFailed k = false →
    (p.2 = none → Completes (.listStart g q) s (fun t => (t.queue k).next = some a ∧ (t.queue k).list = none ∧ t.qState k = 2 ∧ t.net = p.1.net)) ∧
    (p.2 = some (.inl b) → headerOk (leWords b) = true → Completes (.listStart g q) s (fun t => ∃ h, (t.queue k).list = some h ∧ h.addr = a ∧ h.count = (wd (leWords b) 1).toNat ∧
      h.ldone = (if (wd (leWords b) 0).getLsbD 20 then some (wd (leWords b) 2, wd (leWords b) 3) else none) ∧ (t.queue k).next = none ∧ (t.queue k).idx = 0 ∧
      Only [.queues] p.1 t)) ∧
    (p.2 = some (.inl b) → headerOk (leWords b) = false → Completes (.listStart g q) s (fun t => t.qState k = 4 ∧ (t.queue k).fail = some (1, a) ∧
      t.rd (qreg R.ENG_QERR k) = 0x8000000D))) ∧
  (∀ (s : State) g q w h, let k := qKey g q
    (s.queue k).entry = some w → (s.queue k).list = some h → opIs 0x11 w = false → opIs 5 w = false → s.outUnits k = [] → s.qOut k = false → s.rgnOut k = false →
    ((s.queue k).fin = some ⟨0, 0, 0⟩ → (s.queue k).idx + 1 < h.count → Completes (.entryComplete g q) s (fun t =>
      t.queue k = { s.queue k with entry := none, fin := none, wait := none, idx := (s.queue k).idx + 1 } ∧ t.qState k = 2 ∧
      (∀ r, (wd w 0).getLsbD 8 = true → s.handle (wd w 1) true = .counter r → t.rd r = s.rd r + wd w 2))) ∧
    (∀ e, (s.queue k).fin = some e → e.status ≠ 0 → e.status < 256 → (wd w 0).getLsbD 9 = false → Completes (.entryComplete g q) s (fun t =>
      t.qState k = 4 ∧ (t.queue k).fail = some (2, h.addr + BitVec.ofNat 64 (64 + 64 * (s.queue k).idx)) ∧ (t.queue k).entry = none ∧
      fget (t.rd (qreg R.ENG_QERR k)) ⟨0, 8⟩ = e.status ∧ t.bit (qreg R.ENG_QERR k) 31 = true ∧ t.bit (R.ENG_IRQ_PEND (queueDie k) (queueEng k)) (queueNo k) = true))) ∧
  (∀ (s : State) i g q a h, let k := qKey g q
    let c := qreg R.ENG_QCTL k
    s.qState k = 4 → (s.queue k).fail = some (2, a) → (s.queue k).list = some h → (s.queue k).idx + 1 < h.count →
    (s.takes i c (1 ||| (s.rd c &&& 8)) = true → Completes (.queueResume i g q) s (fun t => t.qState k = 2 ∧ (t.queue k).idx = (s.queue k).idx + 1 ∧
      (t.queue k).fail = none ∧ t.bit (qreg R.ENG_QERR k) 31 = false ∧ Only [.queues, .regs, .noc] s t)) ∧
    (s.takes i c (2 ||| (s.rd c &&& 8)) = true → Completes (.queueRetry i g q) s (fun t => t.qState k = 2 ∧ t.queue k = { s.queue k with fail := none } ∧
      t.bit (qreg R.ENG_QERR k) 31 = false ∧ Only [.queues, .regs, .noc] s t))) ∧
  (∀ (s : State) i g q rel, let k := qKey g q
    s.takes i (qreg R.ENG_QCTL k) (if rel then 12 else 4) = true → s.qState k ≠ 0 → Completes (.queueCancel i g q rel) s (fun t => t.qState k = 5 ∧
      t.queue k = { Queue.init with streams := s.queueStreams k, dying := (t.queue k).dying } ∧ ((s.queue k).fin = none → (t.queue k).dying = (s.queue k).doomed) ∧ t.qHead k = t.qTail k ∧ t.bit (qreg R.ENG_QCTL k) 2 = true ∧
      t.fld (qreg R.ENG_QSTAT k) F.ENG_QSTAT.PRODUCERS = 0)) ∧
  (∀ (s : State) g q, let k := qKey g q
    s.qState k = 5 → s.qOut k = false → s.writesOut k true = false → s.cancelOver k = true → Completes (.queueCancelDone g q) s (fun t => t.qState k = 1 ∧
      t.queue k = { s.queue k with streams := [], dying := none } ∧ t.bit (qreg R.ENG_QCTL k) 2 = false ∧ RegsOnly [qreg R.ENG_QCTL k, qreg R.ENG_QSTAT k] s t ∧ Only [.queues, .regs] s t))

/-- R150, R151, R266, R268, R270–R276: counters, holds and the stall census. -/
def Obligations.CountersHoldsAndCensusAct : Prop :=
  (∀ (s : State) i (h n : W32), iniFabric i = false → (∀ r, s.handle h false = .counter r → Completes (.counterIncrement i h n) s (fun t => t.rd r = s.rd r + n ∧
      RegsOnly [r] s t ∧ Only [.regs, .cores, .queues, .eng] s t ∧ t.eng = { s.eng with cen := t.eng.cen } ∧
      (∀ c d x tg dl m, (s.core c).wait = some (.waitge d x tg dl true m) → handleReg x = r →
        (t.core c).wait = some (.waitge d x tg dl true (m || (waitMet (s.rd r + n) tg && !reached dl (s.dtbOf c))))) ∧
      (∀ k x tg dl m, (s.queue k).wait = some (.counter x tg dl true m) → handleReg x = r →
        (t.queue k).wait = some (.counter x tg dl true (m || (waitMet (s.rd r + n) tg && !reached dl (s.copy (1 + k / 32)))))) ∧
      (∀ k z, n ≠ 0 → tabGet cenNone t.eng.cen k = some z → ∀ m, m ∈ z.seen → handleReg m.handle ≠ r))) ∧
    ((∀ r, s.handle h false ≠ .counter r) → Completes (.counterIncrement i h n) s (fun t => t = s))) ∧
  (∀ (s : State) (d : Fin 4) r p (h n : W32), let i : Ini := .region d r p
    (s.iniUp i = false → Completes (.counterIncrement i h n) s (fun t => t = s)) ∧
    (s.iniUp i = true →
      (∀ x, s.handle h false = .counter x → Completes (.counterIncrement i h n) s (fun t => t.rd x = s.rd x + n ∧ t.resp = s.resp ∧ WroteOnly i [x] s t)) ∧
      ((∀ x, s.handle h false ≠ .counter x) → (s.core (.keeper d)).notices.length < 16 → Completes (.counterIncrement i h n) s (fun t =>
        ∃ a, (t.core (.keeper d)).notices = (s.core (.keeper d)).notices ++ [⟨a, iniId i, 8⟩])))) ∧
  (∀ (s : State) i (x : Fin 5) (n : Fin 4096) v, let a := R.ENG_CNT (cntBase (syncDie x)) n.val
    s.takes i a v = true → x.val ≠ 0 ∨ n.val < 1024 → Completes (.cntWrite i x n v) s (fun t => t.rd a = v ∧ WroteOnly i [a] s t ∧ Only [.regs, .cores, .queues, .eng, .noc] s t)) ∧
  (∀ (s : State) i (x : Fin 5) (n : Fin 256), let key := 256 * syncDie x + n.val
    let h := s.hold key
    s.gives i (R.ENG_HOLD_ACQ (holdBase (syncDie x)) n.val) = true →
    (h.held = false → Completes (.holdAcqRead i x n) s (fun t => t.ret = BitVec.ofNat 64 (1 + 2 * h.revoked.toNat + (ownerId i).toNat * 65536) ∧
      t.hold key = { h with held := true, revoked := false, owner := ownerId i } ∧ (∀ j, j ≠ key → t.hold j = s.hold j) ∧ WroteOnly i [] s t ∧
        Only [.holds, .ret, .regs, .noc] s t)) ∧
    (h.held = true → h.owner ≠ ownerId i → Completes (.holdAcqRead i x n) s (fun t => t.ret = BitVec.ofNat 64 (h.owner.toNat * 65536) ∧ WroteOnly i [] s t ∧
      Only [.ret, .regs, .noc] s t))) ∧
  (∀ (s : State) i (x : Fin 5) (n : Fin 256) v, let key := 256 * syncDie x + n.val
    s.takes i (R.ENG_HOLD_REL (holdBase (syncDie x)) n.val) v = true → (s.hold key).waiters = [] → Completes (.holdRelWrite i x n v) s (fun t =>
      t.hold key = ⟨false, (s.hold key).revoked, 0, []⟩ ∧ (∀ j, j ≠ key → t.hold j = s.hold j) ∧ WroteOnly i [] s t ∧ Only [.holds, .regs, .noc] s t)) ∧
  (∀ (s : State) (k : Fin 8), let qs := s.cenQueues k.val
    let cs := s.cenCores k.val
    let ms := qs.map (fun n => queueBlocked (s.queue n)) ++ cs.map (fun c => coreBlocked (s.core c))
    let run := tabGet cenNone s.eng.cen k.val
    ((s.cenNow k.val).isSome = true ↔ s.sup.soleHeld = false ∧ s.bit R.ENG_CEN_CTL k.val = true ∧ s.bit R.ENG_CEN_STAT k.val = false ∧ ms ≠ [] ∧
      ∀ m, m ∈ ms → ∃ h tg, m = some (h, tg) ∧ s.hasIncrementer qs cs h = false) ∧
    (∀ l r, s.cenNow k.val = some l → run = some r → r.seen = l → r.since.toNat + 10000 ≤ s.tb.master.toNat → Completes (.censusFire k) s (fun t =>
      t.bit R.ENG_CEN_STAT k.val = true ∧ t.bit R.FLT_EVT 2 = true)) ∧
    ((∀ r, run = some r → s.cenNow k.val ≠ some r.seen ∨ s.tb.master.toNat < r.since.toNat + 10000) → Completes (.censusFire k) s (fun t => t = s)))

/-- R262, R286–R301, R305, R310: matrix entries, cube steps and the decode batcher. -/
def Obligations.CubesAndBatcherAct : Prop :=
  MatForm .entMatmul 0x30 [3, 4, 5, 6]
    (fun w => matFieldsOk w && fget (wd w 3) ⟨0, 16⟩ != 0 && fget (wd w 3) ⟨16, 16⟩ != 0 && fget (wd w 4) ⟨0, 24⟩ != 0 && wd w 4 >>> 24 == 0)
    (fun _ _ w => storeFits w 0) false ∧
  MatForm .entConv 0x31 [3, 4, 5, 6, 7, 8, 9] (fun w => matFieldsOk w && convOk w) (fun _ _ w => storeFits w 0) false ∧
  MatForm .entDecode 0x32 [3, 4, 5, 6]
    (fun w => matFieldsOk w && wd w 3 &&& 0xFFFF != 0 && wd w 3 >>> 16 != 0 && fget (wd w 4) ⟨7, 9⟩ == 0 && decide (1 ≤ decodeFill w) &&
      decide (decodeFill w ≤ 64) && !matAccum w)
    (fun u k _ => u.dqCap (k / 4) != 0) true ∧
  (∀ (s : State) (g : Fin 32) (q : Fin 4) m0 w, let k := 4 * g.val + q.val
    let x := matGeom w m0
    let p := s.matPull k w x m0
    let m := p.2
    s.mat k = some m0 → (s.queue k).entry = some w → (s.queue k).fin = none → m0.finished = false → (opIs 0x32 w = true → m0.batch ≠ none) → s.engUsable g.val = true →
    (matReady w x m = false → Completes (.cubeStep g q) s (fun t => t.eng.steps = s.eng.steps ∧ Only [.eng, .regs, .queues] s t)) ∧
    (matReady w x m = true → Completes (.cubeStep g q) s (fun t => tabGet wordZero t.eng.steps g.val = tabGet wordZero s.eng.steps g.val + BitVec.ofNat 64 (matQ w) ∧
      Only [.eng, .regs, .queues] s t)) ∧
    (matReady w x m = true → m0.s + 1 < x.bs → Completes (.cubeStep g q) s (fun t => ∃ n, t.mat k = some n ∧ n.s = m0.s + 1 ∧ n.i = m0.i ∧ n.j = m0.j ∧
      n.acc = (stepAcc w x m.i m.j m.s (matKta w x m) (if matFlow w = 2 then statA x m.s (m.stat.getD []) else m.la)
        (if matFlow w = 0 then statB x m.s (m.stat.getD []) else m.lb)
        (if matAccum w && !m.accIn then accOf x m.lc else if m.acc.isEmpty then List.replicate (x.mb * x.nb) 0 else m.acc)).1))) ∧
  (∀ (s : State) (g : Fin 32) (x : Fin 4) (pos : Fin 17) e n q, q < 4 → (s.queue (4 * g.val + q)).quarters.testBit x.val = true → (s.mat (4 * g.val + q)).isSome = true →
    n < s.retryCount 2 →
    (∀ k, e = .sum k ∨ e = .product k → k % 255 ≠ 0) → (∀ f : BitVec 16, e = .exponent f → ((List.range 16).filter f.getLsbD).length % 2 = 1) →
    (∀ a b, e = .rounding a b → a ≠ b) →
    Completes (.cubeStepError g x pos e n) s (fun t =>
      fget (t.rd (R.CUBE_RETRY (g.val / 8) (g.val % 8))) ⟨8 * x.val, 8⟩ = Min.min (fget (s.rd (R.CUBE_RETRY (g.val / 8) (g.val % 8))) ⟨8 * x.val, 8⟩ + (n + 1)) 255 ∧
      tabGet natZero t.flt.recur 2 = tabGet natZero s.recurRoll.flt.recur 2 + 1)) ∧
  (∀ (s : State) i (g : Fin 32) (tail : BitVec 16), let h := s.dqHead g.val
    let want := (tail.toNat + 65536 - h) % 65536
    let used := (s.dqTail g.val + 65536 - h) % 65536
    let stat := R.CUBE_DQ_STAT (g.val / 8) (g.val % 8)
    s.takes i (R.CUBE_DQ_TAIL (g.val / 8) (g.val % 8)) (tail.setWidth 32) = true →
    (want ≤ s.dqCap g.val → used ≤ want → Completes (.dqDoorbell i g tail) s (fun t => t.dqTail g.val = tail.toNat ∧ t.dqHead g.val = h ∧
      t.stamps g.val = s.stamps g.val ++ List.replicate (want - used) (s.copy (1 + g.val / 8)) ∧
      WroteOnly i [R.CUBE_DQ_PTR (g.val / 8) (g.val % 8)] s t ∧ Only [.eng, .regs, .noc] s t)) ∧
    (s.dqCap g.val < want → Completes (.dqDoorbell i g tail) s (WritesRegs i [(stat, s.rd stat ||| 1)] s))) ∧
  (∀ (s : State) (g : Fin 32) (q : Fin 4) m w, let k := 4 * g.val + q.val
    s.mat k = some m → (s.queue k).entry = some w → opIs 0x32 w = true → m.batch = none → (s.queue k).fin = none →
    (s.batchNow g.val w m.since = none → Completes (.decodeBatchClose g q) s (fun t => t = s)) ∧
    (∀ n l, s.batchNow g.val w m.since = some n → storeFits w n = true →
      let is := (List.range n).map (fun i => (s.dqHead g.val + i) % 65536)
      let z := s.askAll (is.map (fun i =>
        { ini := queueIni k, kind := .read, addr := s.dqAddr g.val i, len := 64, posted := false, early := true, cls := s.qCls k }))
      (z.2 = false → Completes (.decodeBatchClose g q) s (fun t => t = z.1)) ∧
      (z.2 = true → (z.1.readReqs k is).2 = some (.inl l) → Completes (.decodeBatchClose g q) s (fun t => t.mat k = some { m with batch := some n, reqs := l })))) ∧
  (∀ (s : State) (g : Fin 32) (q : Fin 4) m w, let k := 4 * g.val + q.val
    let y := s.stream (16 * g.val + matUnit w 3)
    s.mat k = some m → (s.queue k).entry = some w → opIs 0x32 w = true → m.finished = true → m.emit = [] → (s.queue k).fin = none → y.buf = [] → y.run = none →
    y.error = false → s.streamOut (16 * g.val + matUnit w 3) = false → m.reqs.length < 65 → Completes (.decodeBatchDone g q) s (fun t =>
      t.dqHead g.val = (s.dqHead g.val + m.reqs.length) % 65536 ∧ t.stamps g.val = (s.stamps g.val).drop m.reqs.length ∧ t.mat k = none ∧
      (t.queue k).fin = some ⟨0, 0, 0⟩ ∧ t.fld (R.CUBE_DQ_STAT (g.val / 8) (g.val % 8)) F.CUBE_DQ_STAT.LAST_COUNT = m.reqs.length)) ∧
  (∀ (s : State) i (g : Fin 32), let a := R.CUBE_STEPS_LO (g.val / 8) (g.val % 8)
    let n := tabGet wordZero s.eng.steps g.val
    s.gives i a = true → Completes (.cubeStepsRead i g) s (fun t => t.ret = (n.setWidth 32).setWidth 64 ∧ t.rd (a + 4) = (n >>> 32).setWidth 32 ∧
      WroteOnly i [a + 4] s t ∧ Only [.regs, .ret, .noc] s t))

/-- R318–R324, R331: the instructions of a stream program, from the state in which each has been fetched. -/
def Obligations.StreamInstructionsAct : Prop :=
  StrForm .strStart 1 (fun u w _ f t => let x := f.stream u
    (64 < fget w ⟨16, 7⟩ → f.failsAs t u 1) ∧
    (fget w ⟨16, 7⟩ ≤ 64 → x.bound = [] → StreamIs u f t { x.step with begun := true, write := w.getLsbD 12, dist := fget w ⟨16, 7⟩ })) ∧
  StrForm .strEnd 0 (fun u _ _ f t => let x := f.stream u
    (x.loops ≠ [] → f.failsAs t u 1) ∧
    (x.loops = [] → f.modeDue u = false → x.run = none → x.chunks ≠ [] → StreamIs u f t { x with ended := true, chain := f.bit (R.STR_CFG (u / 128) (u / 16 % 8) (u % 16)) 0, left := none }) ∧
    (x.loops = [] → f.modeDue u = false → x.run = none → x.chunks = [] → x.next = none → f.streamOut u = false →
      StreamIs u f t { x with cur := none, ended := false, chain := false, left := none, last := none })) ∧
  StrForm .strAddr 2 (fun u w v f t => StreamIs u f t ((f.stream u).setAreg (fget w ⟨8, 2⟩) (((w >>> 16).setWidth 16 ++ v).setWidth 64)).step) ∧
  StrForm .strAdd 3 (fun u w v f t => StreamIs u f t ((f.stream u).setAreg (fget w ⟨8, 2⟩) ((f.stream u).areg (fget w ⟨8, 2⟩) + v.signExtend 64)).step) ∧
  StrForm .strLoop 4 (fun u _ v f t => let x := f.stream u
    (v = 0 ∨ 6 ≤ x.loops.length → f.failsAs t u 1) ∧
    (v ≠ 0 → x.loops.length < 6 → StreamIs u f t { x.step with loops := ⟨x.pc + 8, v.toNat, (List.range 4).map x.areg⟩ :: x.loops })) ∧
  StrForm .strEndl 5 (fun u w _ f t => let x := f.stream u
    (x.loops = [] → f.failsAs t u 1) ∧
    (∀ l ls, x.loops = l :: ls → 1 < l.left → StreamIs u f t { x with pc := l.body, left := none, loops := { l with left := l.left - 1 } :: ls }) ∧
    (∀ l ls, x.loops = l :: ls → l.left ≤ 1 → StreamIs u f t { (x.restore l (fget w ⟨8, 4⟩)).step with loops := ls })) ∧
  (∀ ext, StrForm (fun g n => .strMove g n ext) 6 (fun u w v f t => let x := f.stream u
    let r := fget w ⟨8, 2⟩
    let a := (x.areg r).toNat
    let f1 := f.onStream u (fun y => { y with left := some v.toNat })
    (v = 0 → f.failsAs t u 1) ∧
    (v ≠ 0 → x.write = false → x.bound = [] → x.left = none → x.chunks = [] → x.last = none → x.error = false → a < 2 ^ 48 → v.toNat ≤ 64 - a % 64 →
      let p := f1.strLine u (a / 64 * 64) false
      (t.stream u).lines = (p.1.stream u).lines ∧
      (∀ d, p.2 = .ok d → (t.stream u).chunks = [⟨some (BitVec.ofNat 64 (a / 64 * 64)), a % 64, v.toNat, d, .ok⟩] ∧ (t.stream u).pc = x.pc + 8 ∧
        (t.stream u).areg r = BitVec.ofNat 64 ((a + v.toNat) % 2 ^ 48)) ∧
      (p.2 = .wait → (t.stream u).chunks = [] ∧ (t.stream u).pc = x.pc ∧ (t.stream u).left = some v.toNat)))) ∧
  (∀ ext, StrForm (fun g n => .strSkip g n ext) 7 (fun u _ v f t => let x := f.stream u
    (v = 0 → f.failsAs t u 1) ∧
    (v ≠ 0 → x.write = false → x.bound = [] → StreamIs u f t (x.push ⟨none, 0, v.toNat, [], .ok⟩).step))) ∧
  StrForm .strSig 8 (fun u w v f t => let x := f.stream u
    (w >>> 16 = 0 → f.failsAs t u 1) ∧
    (∀ r, w >>> 16 ≠ 0 → x.run = none → x.error = false → f.streamOut u = false → f.handle v false = .counter r →
      t.rd r = f.rd r + (w >>> 16) ∧ t.stream u = x.step) ∧
    (w >>> 16 ≠ 0 → x.run = none → x.error = false → f.streamOut u = true → t = f) ∧
    (w >>> 16 ≠ 0 → x.run = none → x.error = false → f.streamOut u = false → (∀ r, f.handle v false ≠ .counter r) → t.strFailed u 5 x.pc)) ∧
  StrForm .strTdim 9 (fun u w v f t => let x := f.stream u
    (fget w ⟨8, 2⟩ = 3 → f.failsAs t u 1) ∧
    (fget w ⟨8, 2⟩ ≠ 3 → StreamIs u f t { x.step with stride := tabPut (fun _ => none) (fget w ⟨8, 2⟩) (some v) x.stride })) ∧
  StrForm .strTrun 10 (fun u _ _ f t => let x := f.stream u
    ((∃ d, d < 3 ∧ tabGet (fun _ => none) x.stride d = (none : Option W32)) → f.failsAs t u 1) ∧
    (∀ k e m, (∀ d, d < 3 → (tabGet (fun _ => (none : Option W32)) x.stride d).isSome = true) → x.port = some (k, 0) → x.write = false → x.error = false →
      (f.queue k).entry = some e → opIs 0x31 e = true → f.mat k = some m →
      (aElem (matGeom e m) (matFlow e) (m.aGen / fmtBytes (matFmtA e)) = none → x.chunks = [] → StreamIs u f t { x.step with tensor := false }) ∧
      (aElem (matGeom e m) (matFlow e) (m.aGen / fmtBytes (matFmtA e)) = none → x.chunks ≠ [] → StreamIs u f t { x with tensor := true, left := some 0 }) ∧
      ((t.stream u).error = true ∨ ∃ n l, t.mat k = some n ∧ m.aGen ≤ n.aGen ∧ (t.stream u).chunks = x.chunks ++ l))) ∧
  StrForm .strRrow 11 (fun u _ _ f t => let x := f.stream u
    (∀ k e m, x.port = some (k, 0) → x.write = false → x.tensor = false → x.error = false → (f.queue k).entry = some e → opIs 0x32 e = true → f.mat k = some m →
      (m.batch = none → t = f) ∧
      (m.batch ≠ none → aElem (matGeom e m) (matFlow e) (m.aGen / fmtBytes (matFmtA e)) = none → StreamIs u f t { x.step with row := false }) ∧
      (m.batch ≠ none → (t.stream u).error = true ∨ ∃ n l, t.mat k = some n ∧ m.aGen ≤ n.aGen ∧ (t.stream u).chunks = x.chunks ++ l)) ∧
    (∀ k e m, x.port = some (k, 0) → x.write = false → (f.queue k).entry = some e → opIs 0x32 e = false → f.mat k = some m → f.failsAs t u 6))

/-- R261, R325, R326, R331, R332, R334–R336: programs placed and chained, faults taken, cancels. -/
def Obligations.StreamUnitsAct : Prop :=
  EntForm .entStrRun 0x20 [3, 4, 5] (fun _ _ w => wd w 3 >>> 4 == 0 && wdAddrOk w 4 && (wd w 4).toNat % 64 == 0) (fun k w u t =>
    let j := 16 * (k / 4) + (wd w 3).toNat % 16
    let r := [16 + (wd w 3).toNat % 16]
    let p : StrProg := ⟨wdAddr w 4, u.qCls k, k % 4⟩
    (u.grants k r (!u.unitHeld k j) = false → u.wantsIn t k r) ∧
    (u.grants k r (!u.unitHeld k j) = true →
      ((u.stream j).error = true → (t.queue k).fin = some ⟨0xE, 0, 0⟩) ∧
      ((u.stream j).error = false → (u.stream j).cancelling = false → (u.stream j).next = none →
        (t.queue k).fin = some ⟨0, 0, 0⟩ ∧ t.stream j = if (u.stream j).cur = none then (u.stream j).start p else { u.stream j with next := some p }) ∧
      ((u.stream j).error = false → (u.stream j).next ≠ none → t.qState k = 3 ∧ (t.queue k).fin = none ∧ t.stream j = u.stream j))) ∧
  EntForm .entStrCancel 0x21 [3] (fun _ _ w => wd w 3 >>> 16 == 0) (fun k w u t =>
    (∀ n, n < 16 → (wd w 3).getLsbD n = true → (t.stream (16 * (k / 4) + n)).status = 7 ∧ (t.stream (16 * (k / 4) + n)).cur = none ∧
      (t.stream (16 * (k / 4) + n)).chunks = []) ∧
    (∀ n, n < 16 → (wd w 3).getLsbD n = false → t.stream (16 * (k / 4) + n) = u.stream (16 * (k / 4) + n)) ∧
    ((∀ n, n < 16 → (wd w 3).getLsbD n = true → (u.stream (16 * (k / 4) + n)).cur = none ∧ (u.stream (16 * (k / 4) + n)).cancelling = false ∧
      u.streamOut (16 * (k / 4) + n) = false) → u.endedAs t k ⟨0, 0, 0⟩) ∧
    ((∃ n, n < 16 ∧ (wd w 3).getLsbD n = true ∧ u.streamOut (16 * (k / 4) + n) = true) → t.qState k = 3 ∧ t.queue k = u.queue k)) ∧
  (∀ (s : State) g n p, let u := strKey g n
    (s.stream u).next = some p → (s.stream u).error = false → (s.stream u).cancelling = false → (s.stream u).cur = none →
    Completes (.streamChain g n) s (fun t => StreamIs u s t ((s.stream u).start p))) ∧
  (∀ (s : State) g n c l k st r, let u := strKey g n
    (s.stream u).chunks = c :: l → (s.stream u).port = some k → c.st = .held st r → (s.stream u).error = false → (s.stream u).cancelling = false →
    Completes (.streamTakeFault g n) s (fun t => t.strFailed u st (c.line.getD 0) ∧ (t.stream u).reason = r ∧
      (t.stream u).dropped = Nat.min ((s.stream u).dropped + heldCount (s.stream u).chunks c.line) 0xFFFF)) ∧
  (∀ (s : State) i g n, let u := strKey g n
    s.takes i (R.STR_CTL (g.val / 8) (g.val % 8) n.val) 1 = true → Completes (.strCancelCtl i g n) s (fun t => (t.stream u).status = 7 ∧ (t.stream u).cur = none ∧
      (t.stream u).chunks = [] ∧ (t.stream u).bound = (s.stream u).bound ∧ (∀ j, j ≠ u → t.stream j = s.stream j) ∧ WroteOnly i [] s t ∧ Only [.eng, .regs, .noc] s t)) ∧
  (∀ (s : State) g n, let u := strKey g n
    (s.stream u).cancelling = true → s.streamOut u = false → Completes (.streamCancelDone g n) s (fun t =>
      t.stream u = { s.stream u with cancelling := false } ∧ ∀ j, j ≠ u → t.stream j = s.stream j)) ∧
  (∀ (s : State) i g n, let a := R.STR_LINES_LO (g.val / 8) (g.val % 8) n.val
    let x := s.stream (strKey g n)
    s.gives i a = true → Completes (.strLinesRead i g n) s (fun t => t.ret = (x.lines.setWidth 32).setWidth 64 ∧ t.rd (a + 4) = (x.lines >>> 32).setWidth 32 ∧
      WroteOnly i [a + 4] s t ∧ Only [.regs, .ret, .noc] s t))

/-- R338–R346, R350–R355: checkpoints, their trackers, and the pipeline sequencer. -/
def Obligations.CheckpointsAndPipelinesAct : Prop :=
  EntForm .entCkpt 0x11 [3, 4, 5, 6, 7, 8, 9, 10]
    (fun s _ w => wdAddrOk w 3 && wdAddrOk w 5 && copyLenOk (wd w 7) && wdAddrOk w 8 && (wdAddr w 8 == 0 || s.inWindow (wdAddr w 8).toNat) && (s.trkOpen (wd w 10)).isSome)
    (fun k w u t => let n := (wd w 7).toNat
      let v := u.granted k
      let r := v.qRead k 0 (wdAddr w 3) n (v.qCls k)
      (u.grants k [0] (decide (u.chanUsed (k / 4) ≤ 2)) = false → u.wantsIn t k [0]) ∧
      (∀ b, u.grants k [0] (decide (u.chanUsed (k / 4) ≤ 2)) = true → wdAddr w 8 = 0 → copyStep (wdAddr w 3).toNat (wdAddr w 5).toNat n = n → r.2 = some (.inl b) →
        (r.1.qWrite k 0 (wdAddr w 5) b (v.qCls k) true).2 = none → (t.queue k).fin = some ⟨0, 0, 0⟩ ∧ t.mem = (r.1.qWrite k 0 (wdAddr w 5) b (v.qCls k) true).1.mem)) ∧
  (∀ (s : State) i (n : Fin 4), s.takes i R.TRN_CK_CTL (BitVec.ofNat 32 (2 ^ n.val)) = true → s.trkState n.val ≠ 1 → s.trkState n.val ≠ 2 →
    let pieces := s.fld (R.TRN_CK_PIECES n.val) F.TRN_CK_PIECES.PIECES
    (pieces ≠ 0 → (∀ m, m < 4 → m ≠ n.val → (s.trkState m ≠ 1 ∧ s.trkState m ≠ 2) ∨ s.rd (R.TRN_CK_ID m) ≠ s.rd (R.TRN_CK_ID n.val)) →
      Completes (.trackerOpen i n) s (fun t => t.trkState n.val = 1 ∧ t.fld (R.TRN_CK_STAT n.val) F.TRN_CK_STAT.CAUSE = 0 ∧
        t.fld (R.TRN_CK_PIECES n.val) F.TRN_CK_PIECES.DONE = 0 ∧ t.fld (R.TRN_CK_PIECES n.val) F.TRN_CK_PIECES.PIECES = pieces ∧
        t.rd (R.TRN_CK_BYTES_LO n.val) = 0 ∧ t.rd (R.TRN_CK_BYTES_HI n.val) = 0 ∧
        WroteOnly i [R.TRN_CK_STAT n.val, R.TRN_CK_PIECES n.val, R.TRN_CK_BYTES_LO n.val, R.TRN_CK_BYTES_HI n.val] s t ∧ Only [.regs, .noc] s t)) ∧
    (pieces = 0 → Completes (.trackerOpen i n) s (WritesRegs i [(R.TRN_CK_STAT n.val, s.rd (R.TRN_CK_STAT n.val) ||| 8)] s))) ∧
  (∀ (s : State) i (n : Fin 4), s.takes i R.TRN_CK_CTL (BitVec.ofNat 32 (2 ^ (4 + n.val))) = true →
    (s.trkState n.val = 1 → Completes (.trackerAbort i n) s (fun t => t.trkState n.val = 5 ∧ WroteOnly i [R.TRN_CK_STAT n.val] s t ∧ Only [.regs, .noc] s t)) ∧
    (s.trkState n.val ≠ 1 → Completes (.trackerAbort i n) s (WritesRegs i [] s))) ∧
  (∀ (s : State) (n : Fin 4), s.eng.sealLocal.contains n.val = true → Completes (.sealWriteAck n) s (fun t => t.trkState n.val = 3 ∧ t.bit R.TRN_CK_EVT n.val = true ∧
    t.rd R.TRN_LAST_ID = s.rd (R.TRN_CK_ID n.val) ∧ t.rd R.TRN_LAST_STEP = s.rd (R.TRN_CK_STEP n.val) ∧ t.eng.sealLocal = s.eng.sealLocal.filter (· != n.val) ∧
    RegsOnly [R.TRN_CK_STAT n.val, R.TRN_CK_EVT, R.TRN_LAST_ID, R.TRN_LAST_STEP] s t ∧ Only [.eng, .regs] s t)) ∧
  EntForm .entPipe 0x50 [3, 4] (fun s k w => wdAddrOk w 3 && (wd w 3).toNat % 64 == 0 && (s.pipeOf k).isNone) (fun k w u t =>
    let free := (u.pipe (k / 4)).isNone && decide (u.chanUsed (k / 4) ≤ 1)
    (u.grants k [0, 7] free = false → u.wantsIn t k [0, 7]) ∧
    (∀ h b, u.grants k [0, 7] free = true → (u.queue k).list = some h → ((u.granted k).qFetch k (wdAddr w 3) 64 h.cls).2 = some (.inl b) →
      (pipeDescOk (leWords b) = false → (t.queue k).fin = some ⟨1, 0, 0⟩) ∧
      (pipeDescOk (leWords b) = true → ((u.granted k).qFetch k (wdAddr w 3) 64 h.cls).1.phaseOk (leWords b) = true →
        t.pipe (k / 4) = some ⟨k, h, (u.queue k).idx, w, leWords b, 1, 0, 0, 0, 0, 0, 0, none, none, false, 0⟩ ∧ (t.queue k).list = none ∧ (t.queue k).entry = none ∧ t.qState k = 2))) ∧
  (∀ (s : State) (g : Fin 32) p, s.pipeGoes g.val = some p → p.key / 4 = g.val →
    (s.fwdDue p = true → p.slotFree = true → Completes (.pipeFwdSubmit g) s (fun t => t.pipe g.val = some { p with fwdSub := p.fwdSub + 1 } ∧
      t.queue p.key = { s.queue p.key with next := some (BitVec.ofNat 64 (((wdAddr p.desc 2).toNat + p.fwdSub * (wd p.desc 4).toNat) % 2 ^ 48)) } ∧ Only [.eng, .queues, .regs] s t)) ∧
    (s.bwdDue p = true → p.fetched = true → Completes (.pipeBwdSubmit g) s (fun t => t.pipe g.val = some { p with bwdSub := p.bwdSub + 1 } ∧
      t.queue p.key = { s.queue p.key with next := some (BitVec.ofNat 64 (((wdAddr p.desc 5).toNat + p.bwdNext * (wd p.desc 7).toNat) % 2 ^ 48)) } ∧ Only [.eng, .queues, .regs] s t)) ∧
    (let n := (wd p.desc 10).toNat
      let r := s.copyRun p.key 1 (fget (wd p.desc 1) ⟨8, 4⟩) (p.slotAddr p.offNext) (p.offAddr p.offNext) n true n
      p.phase ≠ 3 → p.xfer = none → p.offDone < p.moved → p.offDone < p.fwdEnd →
      (r.2.2 = some ⟨0, 0, 0⟩ → Completes (.pipeOffloadStart g) s (fun t => t.pipe g.val = some { p with xfer := some false, copied := n })) ∧
      (r.2.2 = none → Completes (.pipeOffloadStart g) s (fun t => t.pipe g.val = some { p with xfer := some false, copied := n - r.2.1 }))) ∧
    (let n := (wd p.desc 10).toNat
      let r := s.copyRun p.key 1 (fget (wd p.desc 1) ⟨8, 4⟩) (p.offAddr p.pfNext) (p.slotAddr p.pfNext) n true n
      p.pfDue = true → p.xfer = none →
      (r.2.2 = some ⟨0, 0, 0⟩ → Completes (.pipePrefetchStart g) s (fun t => t.pipe g.val = some { p with xfer := some true, copied := n })) ∧
      (r.2.2 = none → Completes (.pipePrefetchStart g) s (fun t => t.pipe g.val = some { p with xfer := some true, copied := n - r.2.1 })))) ∧
  (∀ (s : State) (g : Fin 32) p, s.pipe g.val = some p →
    (∀ d, p.xfer = some d → p.xfail = none → p.copying d = false → p.xstop = false → s.writesOut p.key true = false → Completes (.pipeTransferDone g) s (fun t =>
      t.pipe g.val = some (if d then { p with xfer := none, pfDone := p.pfDone + 1 } else { p with xfer := none, offDone := p.offDone + 1 }) ∧ Only [.eng, .regs] s t)) ∧
    (p.phase ≠ 3 → p.fwdEnd = p.mb → p.offDone = p.moved → (wd p.desc 1).getLsbD 12 = false → Completes (.pipePhaseEnd g) s (fun t =>
      t.pipe g.val = some { p with phase := 3 } ∧ Only [.eng, .regs] s t)) ∧
    (∀ r, p.phase ≠ 3 → p.fwdEnd = p.mb → p.offDone = p.moved → (wd p.desc 1).getLsbD 12 = true → s.handle (wd p.desc 14) false = .counter r →
      Completes (.pipePhaseEnd g) s (fun t => t.pipe g.val = some { p with phase := 3 } ∧ t.rd r = s.rd r + wd p.desc 15)) ∧
    (p.phase = 3 → p.bwdEnd = p.mb → (s.queue p.key).list = none → Completes (.pipeComplete g) s (fun t => t.pipe g.val = none ∧
      t.queue p.key = { s.queue p.key with list := some p.list, next := none, idx := p.idx, entry := some p.entry, fin := some ⟨0, 0, 0⟩ } ∧ t.qState p.key = 2 ∧
      Only [.eng, .queues, .regs] s t)))

/-- R364, R366–R372, R377, R380, R381: fabric regions loaded, called, restarted, emptied and patrolled; a tick of their logic changes what a LOADED design holds and drives
and nothing else (that it acts at DTB ticks is the model's choice, notes/assumptions/52.md); an integer slice operation adds 8 products and saturates. -/
def Obligations.FabricRegionsAct : Prop :=
  EntForm .entFabLoad 0x40 [3, 4] (fun _ _ w => wd w 3 >>> 3 == 0 && wd w 4 >>> 6 == 0) (fun k w u t =>
    let v := u.granted k
    let x := fabX k w
    (u.grants k [1] (!u.fabPortUsed (k / 4) k) = false → u.wantsIn t k [1]) ∧
    (u.grants k [1] (!u.fabPortUsed (k / 4) k) = true →
      (u.rgnState x = 4 → (t.queue k).fin = some ⟨0xA, 0, 0⟩) ∧
      (u.rgnState x ≠ 4 → u.boot.fabs[(wd w 4).toNat % 64]? = none → (t.queue k).fin = some ⟨1, 0, 0⟩) ∧
      (∀ f im, u.rgnState x ≠ 4 → u.boot.fabs[(wd w 4).toNat % 64]? = some f → u.boot.swap = none → tabGet (fun _ => none) u.boot.die (k / 32) = some im →
        (im.fi ≠ f.img.fi → (t.queue k).fin = some ⟨8, 0, 0⟩) ∧
        (im.fi = f.img.fi → f.img.svn.toNat < u.fld R.BOOT_ROLL ⟨24, 8⟩ → (t.queue k).fin = some ⟨0xC, 0, 0⟩ ∧ t.fld (R.FAB_RSTAT (x / 8) (x % 8)) F.FAB_RSTAT.CAUSE = 3) ∧
        (im.fi = f.img.fi → u.fld R.BOOT_ROLL ⟨24, 8⟩ ≤ f.img.svn.toNat →
          let z := v.askAll (readsOf (queueIni k) (v.qCls k) f.bodyAddr 256)
          let p := z.1.qReadAll k (v.qCls k) f.bodyAddr 256 2
          (z.2 = false → t = z.1) ∧
          (z.2 = true → p.2.2 = none → preambleOk p.2.1 f.img.len.toNat = true → p.1.pinTaken x (bodyNat p.2.1 0x0C 4) = false →
            (t.rgn x).waiting = (p.1.rgn x).waiting ++ [k] ∧ (t.queue k).pins = bodyNat p.2.1 0x0C 4 ∧ t.qState k = 3))))) ∧
  (∀ (s : State) (g : Fin 32) (q : Fin 4) w f, let k := 4 * g.val + q.val
    let x := fabX k w
    let r := s.rgn x
    (s.queue k).entry = some w → opIs 0x40 w = true → r.head = some k → r.call = none → r.ending = none → r.loading = none → (s.rgnState x = 0 ∨ s.rgnState x = 2) →
    s.boot.fabs[(wd w 4).toNat % 64]? = some f → s.pinTaken x (s.queue k).pins = false → Completes (.fabLoadBegin g q) s (fun t =>
      t.rgn x = { Rgn.init with waiting := r.waiting.drop 1, loading := some k } ∧ t.rgnState x = 1 ∧ t.qState k = 2)) ∧
  (∀ (s : State) (d : Fin 4) (r : Fin 8) n k w f, let x := 8 * d.val + r.val
    let u := s.advSat (R.FAB_CFG_CE d.val r.val) F.FAB_CFG_CE.COUNT n
    let z := u.askAll (readsOf (queueIni k) (u.qCls k) f.bodyAddr f.img.len.toNat)
    let p := z.1.qReadAll k (u.qCls k) f.bodyAddr f.img.len.toNat f.img.len.toNat
    (∀ m, m ∈ s.net → ofRgn x m.req = false) → (∀ m, m ∈ s.resp → ofRgn x m.req = false) → z.2 = true →
    (s.rgn x).loading = some k → (s.queue k).entry = some w → s.boot.fabs[(wd w 4).toNat % 64]? = some f → (p.1.rgn x).loading = some k →
    (framesOf p.2.1).all frameOk = true → p.2.2 = none → sha384 p.2.1 = f.digest → Completes (.fabLoadDone d r n none) s (fun t =>
      (t.rgn x).body = p.2.1 ∧ (t.rgn x).loading = none ∧ fget (t.rd (R.FAB_STAT d.val)) ⟨3 * r.val, 3⟩ = 2 ∧ t.bit (R.FAB_EVT d.val) r.val = true ∧
        t.rd (R.FAB_RINFO d.val r.val) = BitVec.ofNat 32 ((wd w 4).toNat % 64 + 128 + 65536 * f.img.fi.toNat) ∧ (t.queue k).fin = some ⟨0, 0, 0⟩)) ∧
  EntForm .entFabCall 0x41 [3, 4, 5, 6, 7, 8, 9, 10, 11, 12, 13, 14, 15] (fun _ _ w => wd w 3 &&& 0xFFFF00F8 == 0 && wd w 4 >>> 10 == 0) (fun k w u t =>
    let x := fabX k w
    let twice := fget (wd w 4) ⟨8, 2⟩ = 3 ∧ fget (wd w 4) ⟨0, 4⟩ = fget (wd w 4) ⟨4, 4⟩
    (twice → u.endedAs t k ⟨1, 0, 0⟩) ∧
    (¬ twice → u.grants k [1] (!u.fabPortUsed (k / 4) k) = false → u.wantsIn t k [1]) ∧
    (¬ twice → u.grants k [1] (!u.fabPortUsed (k / 4) k) = true →
      (u.callCheck x w = none → (∀ p, p ∈ callPorts w → (u.stream (16 * (k / 4) + p.1)).cur = none) →
        (t.rgn x).waiting = (u.rgn x).waiting ++ [k] ∧ t.qState k = 3 ∧ ∀ p, p ∈ callPorts w → (k, p.2) ∈ (t.stream (16 * (k / 4) + p.1)).bound) ∧
      (∀ st c, u.callCheck x w = some (st, c) → (t.queue k).fin = some ⟨st, 0, 0⟩))) ∧
  (∀ (s : State) (g : Fin 32) (q : Fin 4) w, let k := 4 * g.val + q.val
    let x := fabX k w
    let r := s.rgn x
    (s.queue k).entry = some w → opIs 0x41 w = true → r.head = some k → r.call = none → r.ending = none → r.loading = none → s.callCheck x w = none →
    (∀ p, p ∈ callPorts w → (s.stream (16 * g.val + p.1)).chunks = []) → Completes (.fabFuncStart g q) s (fun t =>
      t.rgn x = { r with waiting := r.waiting.drop 1, call := some k, started := some (s.copy (1 + k / 32)), handed := s.callHands k w, part := [], used := 0 } ∧ t.bit (R.FAB_RSTAT (x / 8) (x % 8)) 16 = true ∧
        t.fld (R.FAB_RSTAT (x / 8) (x % 8)) F.FAB_RSTAT.FUNC = fget (wd w 3) ⟨8, 8⟩ ∧ t.qState k = 2)) ∧
  (∀ (s : State) (d : Fin 4) (r : Fin 8) k t0 w code, let x := 8 * d.val + r.val
    (s.rgn x).call = some k → (s.rgn x).started = some t0 → (s.queue k).entry = some w → (s.queue k).fin = none → Completes (.fabFuncReturn d r code) s (fun t =>
      t.rgn x = { s.rgn x with call := none, started := none, handed := [], part := [], used := 0 } ∧ (t.queue k).fin = some ⟨if code = 0 then 0 else 0xC, 0, 0⟩ ∧
        t.bit (R.FAB_RSTAT d.val r.val) 16 = false ∧ (code ≠ 0 → t.rd (R.FAB_FCODE d.val r.val) = code ∧ t.fld (R.FAB_RSTAT d.val r.val) F.FAB_RSTAT.CAUSE = 10))) ∧
  (∀ (s : State) (d : Fin 4) (r : Fin 8) k t0 fl m, let x := 8 * d.val + r.val
    (s.rgn x).call = some k → (s.rgn x).started = some t0 → bodyFunc (s.rgn x).body (s.fld (R.FAB_RSTAT d.val r.val) F.FAB_RSTAT.FUNC) = some (fl, m) → m ≠ 0 →
    t0.toNat + 100 * m ≤ (s.copy (1 + d.val)).toNat → Completes (.fabMaxtime d r) s (fun t =>
      t.rgn x = { (s.rgn x).rest with call := none, started := none, ending := some (k, 0xC) } ∧ t.fld (R.FAB_RSTAT d.val r.val) F.FAB_RSTAT.CAUSE = 7 ∧
        fget (t.rd (R.FAB_STAT d.val)) ⟨3 * r.val, 3⟩ = 3 ∧ RegsOnly [R.FAB_RSTAT d.val r.val, R.FAB_STAT d.val] s t ∧ Only [.eng, .regs] s t)) ∧
  (∀ (s : State) i (d : Fin 4) (r : Fin 8), let x := 8 * d.val + r.val
    (s.takes i (R.FAB_RCTL d.val r.val) 1 = true → s.rgnState x = 2 → (s.rgn x).call = none → Completes (.fabRestart i d r) s (fun t =>
      t.rgn x = { (s.rgn x).rest with call := none, started := none, ending := none } ∧ fget (t.rd (R.FAB_STAT d.val)) ⟨3 * r.val, 3⟩ = 3 ∧ WroteOnly i [R.FAB_RSTAT d.val r.val, R.FAB_STAT d.val] s t ∧ Only [.eng, .regs, .noc] s t)) ∧
    (s.rgnState x = 3 → s.net = [] → (s.rgn x).ending = none → Completes (.fabRestartDone d r) s (fun t =>
      fget (t.rd (R.FAB_STAT d.val)) ⟨3 * r.val, 3⟩ = 2 ∧ t.resp = s.resp.filter (fun p => !ofRgn x p.req) ∧ RegsOnly [R.FAB_STAT d.val] s t ∧ Only [.eng, .regs, .resp] s t)) ∧
    (s.takes i (R.FAB_RCTL d.val r.val) 2 = true → s.rgnState x ≠ 1 → s.rgnState x ≠ 4 → (s.rgn x).call = none → (s.rgn x).ending = none → Completes (.fabEmpty i d r) s (fun t =>
      t.rgn x = { Rgn.init with waiting := (s.rgn x).waiting } ∧ fget (t.rd (R.FAB_STAT d.val)) ⟨3 * r.val, 3⟩ = 0 ∧ t.bit (R.FAB_RINFO d.val r.val) 7 = false ∧ Only [.eng, .regs, .noc] s t)) ∧
    (∀ n, s.rgnState x = 2 → Completes (.fabPatrol d r n false) s (fun t =>
      t.fld (R.FAB_CFG_CE d.val r.val) F.FAB_CFG_CE.COUNT = Min.min (s.fld (R.FAB_CFG_CE d.val r.val) F.FAB_CFG_CE.COUNT + n) (2 ^ F.FAB_CFG_CE.COUNT.w - 1) ∧
        RegsOnly [R.FAB_CFG_CE d.val r.val] s t ∧ Only [.regs] s t)) ∧
    (∀ n, s.rgnState x = 2 → Completes (.fabPatrol d r n true) s (fun t =>
      fget (t.rd (R.FAB_STAT d.val)) ⟨3 * r.val, 3⟩ = 0 ∧ t.bit (R.FAB_EVT d.val) (16 + r.val) = true ∧ (t.rgn x).body = [] ∧ (t.rgn x).call = none))) ∧
  (∀ (s was : State) x, let r := s.rgn x
    let t := s.fabTick was
    (∀ n, cellMode r.body (n / 16) (n % 16) % 4 = 2 → s.copy (1 + x / 8) = was.copy (1 + x / 8) → tabGet cellRest (t.rgn x).cells n = tabGet cellRest r.cells n) ∧
    { t.rgn x with cells := r.cells, accs := r.accs, oe := r.oe, drive := r.drive, send := r.send, recv := r.recv } = r ∧ (s.rgnState x ≠ 2 → t.rgn x = r) ∧
      (∀ n, (t.rgn x).oe.getLsbD n = true → r.oe.getLsbD n = true ∨ (bodyNat r.body 0x0C 4).testBit n = true) ∧ Only [.eng, .free] s t) ∧
  (∀ (u : Nat) (acc : W32) (a b : Word), u < 2 →
    let sum := (List.range 8).foldl (fun n i => n + (a.extractLsb' (8 * i) 8).toInt *
      (if u = 1 then ((b.extractLsb' (8 * i) 8).toNat : Int) else (b.extractLsb' (8 * i) 8).toInt)) acc.toInt
    (sliceOp u acc a b).toInt = max (-2147483648) (min 2147483647 sum))

/-! ### Lace lanes -/

/-- R389, R391, R392, R395–R404, R410: taps, electrical idle, the fast exit and cold training. -/
def Obligations.LanesIdleAndTrain : Prop :=
  (∀ (s : State) i (n : Fin 48) (l : Fin 4) v, let a := lnreg R.LACE_TX n.val l.val
    let pre := fget v F.LACE_TX.PRE
    let main := fget v F.LACE_TX.MAIN
    let post := fget v F.LACE_TX.POST
    s.takes i a v = true →
    (pre + main + post = 48 → 16 + pre + post ≤ main → pre ≤ 8 → post ≤ 16 → Completes (.laceTxWrite i n l v) s (WritesRegs i [(a, codedWrite a (s.rd a) v)] s)) ∧
    (¬(pre + main + post = 48 ∧ 16 + pre + post ≤ main ∧ pre ≤ 8 ∧ post ≤ 16) → Completes (.laceTxWrite i n l v) s (fun t =>
      t.bit (lreg R.LACE_PHY_EVT n.val) 15 = true ∧ t.fld (lreg R.LACE_PHY_EVT n.val) F.LACE_PHY_EVT.TAPSUM_LANE = l.val ∧
        WroteOnly i [lreg R.LACE_PHY_EVT n.val] s t ∧ Only [.regs, .noc] s t))) ∧
  (∀ (s : State) (n : Fin 48) (l : Fin 4), let x := s.link n.val
    let ex := lreg R.LACE_EXITS n.val
    (s.linkSt n.val = 2 → x.idleReq = true → s.fastRate n.val = true → Completes (.laneIdleEnter n) s (fun t => LinkIs n.val s t { x.sendsOn (s.activeLanes n.val) setEIE with tx := true })) ∧
    (s.laneSt n.val l.val = 3 → s.lanePhase n.val l.val = 0 → Completes (.laneEieReceive n l) s (fun t => LinkIs n.val s t { x with rx := tabPut natZero l.val 1 x.rx })) ∧
    (x.tx = true → x.idleReq = false → Completes (.laneExit n) s (fun t => LinkIs n.val s t
      ({ x with tx := false, txRd := [], slots := 0, skipped := false }.sendsOn (s.activeLanes n.val) setBurst))) ∧
    (s.laneSt n.val l.val = 3 → s.lanePhase n.val l.val = 1 → Completes (.laneSquelchExit n l) s (fun t => LinkIs n.val s t { x with rx := tabPut natZero l.val 2 x.rx })) ∧
    (s.laneSt n.val l.val = 3 → (∀ i, i < 4 → s.laneSt n.val i = 3 → s.lanePhase n.val i = 2) → Completes (.laneExitAligned n) s (fun t =>
      t.link n.val = { x with rx := [] } ∧ t.fld ex F.LACE_EXITS.FAST = min (s.fld ex F.LACE_EXITS.FAST + 1) (2 ^ F.LACE_EXITS.FAST.w - 1) ∧ LinkOnly n.val s t ∧
        RegsOnly [ex] s t ∧ Only [.io, .regs] s t)) ∧
    (s.laneSt n.val l.val = 3 → s.lanePhase n.val l.val = 2 → Completes (.laneExitFail n l) s (fun t => t.bit (lreg R.LACE_PHY_EVT n.val) (4 + l.val) = true ∧ s.wants t n.val ∧
      (s.linkSt n.val ≠ 2 → t.laneSt n.val l.val = 6 ∧ t.fld (lnreg R.LACE_LNSTAT n.val l.val) F.LACE_LNSTAT.LOCK = 0))) ∧
    (s.laneSt n.val l.val = 3 → s.lanePhase n.val l.val = 2 → Completes (.laneFalseExit n l) s (fun t => t.link n.val = { x with rx := tabPut natZero l.val 1 x.rx } ∧
      t.fld ex F.LACE_EXITS.FALSE = min (s.fld ex F.LACE_EXITS.FALSE + 1) (2 ^ F.LACE_EXITS.FALSE.w - 1) ∧ LinkOnly n.val s t ∧ RegsOnly [ex] s t ∧ Only [.io, .regs] s t)) ∧
    (s.laneSt n.val l.val = 3 → s.lanePhase n.val l.val = 0 → Completes (.laneLockLost n l) s (fun t => t.bit (lreg R.LACE_PHY_EVT n.val) l.val = true ∧ s.wants t n.val)) ∧
    (∀ idle, let ls := if s.linkSt n.val = 2 then s.activeLanes n.val else bitsOf x.lpb 4
      let stays := (s.linkSt n.val = 2 ∧ x.tx = true) ∨ ls = [] ∨ (x.skipped = true ∧ x.slots + idle < 4096)
      (¬ stays → Completes (.skipSetSend n idle) s (fun t => LinkIs n.val s t
        { (x.sendsOn ls (if s.linkSt n.val = 2 then List.replicate (idle % 2) symIDL else [])).sendsOn ls setSKIP with
          slots := if x.skipped then x.slots + idle - 4096 else 0, skipped := true })) ∧
      (stays → Completes (.skipSetSend n idle) s (fun t => t = s))) ∧
    (s.laneSt n.val l.val = 3 → s.lanePhase n.val l.val = 0 → let rd := tabGet rdNeg x.rxRd l.val
      let err := lnreg R.LACE_SYMERR n.val l.val
      let counts (f : Fld) (bad : Prop) (t : State) : Prop := (bad → t.fld err f = min (s.fld err f + 1) 65535) ∧ (¬ bad → t.fld err f = s.fld err f)
      (∀ gs g, Completes (.skipSetReceive n l (gs ++ [g])) s (fun t => ∃ u, exec (.skipSetReceive n l gs) s = .next u ∧ exec (.skipSetReceive n l [g]) u = .next t)) ∧
      (∀ g, Completes (.skipSetReceive n l [g]) s (fun t => t.link n.val = { x with rxRd := tabPut rdNeg l.val (afterGroup rd g) x.rxRd } ∧
        counts F.LACE_SYMERR.CV (judgeGroup rd g = .violation) t ∧ counts F.LACE_SYMERR.DISP (∃ y, judgeGroup rd g = .disparity y) t ∧ LinkOnly n.val s t ∧
        RegsOnly [err] s t ∧ Only [.io, .regs] s t))) ∧
    (∀ gs, s.laneSt n.val l.val ≠ 3 ∨ s.lanePhase n.val l.val ≠ 0 → Completes (.skipSetReceive n l gs) s (fun t => t = s))) ∧
  (∀ (s : State) (n : Fin 48), let x := s.link n.val
    let mask := if s.linkSt n.val = 0 then s.fld (lreg R.LACE_TEST n.val) F.LACE_TEST.LANES else 15
    (s.mayRetrain n.val → Completes (.trainStart n) s (fun t => s.retrains t n.val)) ∧
    (s.linkSt n.val ≠ 2 → s.trains n.val = true → x.phase = 0 → Completes (.trainStart n) s (fun t => t.linkSt n.val = s.linkSt n.val ∧ (t.link n.val).phase = 1 ∧
      (t.link n.val).began = s.linkDtb n.val ∧ (t.link n.val).tried = 0 ∧ t.rd (lreg R.LACE_PEER n.val) = 0 ∧ t.fld (lreg R.LACE_PHY_STAT n.val) F.LACE_PHY_STAT.RATE = 4 ∧
      (∀ i, i < 4 → (t.link n.val).part.testBit i = (mask.testBit i && !s.laneRetired n.val i)) ∧
      (∀ i, i < 4 → (t.link n.val).part.testBit i = true → (t.link n.val).shows i (t.ownSet n.val i false)) ∧ LinkOnly n.val s t ∧ Only [.io, .regs] s t)) ∧
    (∀ (l : Fin 4) (ts : TrainSet) (inv : Bool) gs, x.part.testBit l.val = true → x.phase = 1 → ts.phase = 0 → Completes (.tsReceive n l ts inv gs) s (fun t =>
      t.fld (lreg R.LACE_PEER n.val) F.LACE_PEER.PKG = ts.pkg.toNat ∧ t.fld (lreg R.LACE_PEER n.val) F.LACE_PEER.LINK = ts.link.toNat ∧
      t.fld (lreg R.LACE_PEER n.val) F.LACE_PEER.RATES = ts.rates.toNat ∧ t.fld (lreg R.LACE_PEER n.val) F.LACE_PEER.WARDEN = ts.warden.toNat ∧
      t.bit (lreg R.LACE_PEER n.val) 31 = true ∧ t.fld (lnreg R.LACE_LNSTAT n.val l.val) F.LACE_LNSTAT.LOCK = 1 ∧
      t.fld (lnreg R.LACE_LNSTAT n.val l.val) F.LACE_LNSTAT.POLINV = inv.toNat ∧
      (let y := { (x.agrees l.val ts).hears l.val ts with rxRd := ((s.rxGroups n.val l.val gs).link n.val).rxRd }
       t.link n.val = if (tabGet noGoal x.goal l.val).isSome then y
         else { y with goal := tabPut noGoal l.val (some (s.linkDtb n.val)) x.goal }.sends l.val (setTS (t.ownSet n.val l.val true))) ∧
      tabGet noAgree (t.link n.val).agree l.val = (if ts.ts2 = false then (none, 0)
        else if (tabGet noAgree x.agree l.val).1 = some ts then (some ts, (tabGet noAgree x.agree l.val).2 + 1) else (some ts, 1)) ∧
      LinkOnly n.val s t ∧ RegsOnly [lreg R.LACE_PEER n.val, lnreg R.LACE_LNSTAT n.val l.val, lreg R.LACE_PHY_STAT n.val, lnreg R.LACE_SYMERR n.val l.val] s t ∧
      (gs = [] → t.rd (lnreg R.LACE_SYMERR n.val l.val) = s.rd (lnreg R.LACE_SYMERR n.val l.val)) ∧ Only [.io, .regs] s t)) ∧
    (∀ (l : Fin 4) (ts : TrainSet) (inv : Bool), x.part.testBit l.val = true → x.phase = 2 → ts.phase.toNat = s.trainBit n.val → Completes (.tsReceive n l ts inv []) s (fun t =>
      t.fld (lnreg R.LACE_LNSTAT n.val l.val) F.LACE_LNSTAT.LOCK = 1 ∧ (t.link n.val).agree = (x.agrees l.val ts).agree ∧ (tabGet noGoal (t.link n.val).goal l.val).isSome = true ∧
      (tabGet noGoal x.goal l.val = none → (t.link n.val).goal = tabPut noGoal l.val (some (s.linkDtb n.val)) x.goal) ∧ LinkOnly n.val s t ∧
      RegsOnly [lnreg R.LACE_LNSTAT n.val l.val, lreg R.LACE_PHY_STAT n.val, lnreg R.LACE_DFE n.val l.val] s t ∧ Only [.io, .regs, .free] s t)) ∧
    (∀ b, x.phase = 1 → x.part ≠ 0 → x.part < 16 → (∀ i, i < 4 → x.part.testBit i = true → tabGet natZero x.heard i = i + 1 ∧ 8 ≤ (tabGet noAgree x.agree i).2 ∧ s.sentTs2 n.val i = true) →
      s.nextRate n.val = some b →
      Completes (.trainNegotiateDone n) s (fun t => s.attempts t n.val b ∧ t.fld (lreg R.LACE_PHY_STAT n.val) F.LACE_PHY_STAT.REVERSED = 0 ∧ LinkOnly n.val s t ∧
        Only [.io, .regs] s t)) ∧
    (∀ b, x.phase = 1 → x.part ≠ 0 → x.part < 16 → (∀ i, i < 4 → x.part.testBit i = true → tabGet natZero x.heard i = 4 - i ∧ 8 ≤ (tabGet noAgree x.agree i).2 ∧ s.sentTs2 n.val i = true) →
      s.nextRate n.val = some b →
      Completes (.trainNegotiateDone n) s (fun t => s.attempts t n.val b ∧ t.fld (lreg R.LACE_PHY_STAT n.val) F.LACE_PHY_STAT.REVERSED = 1 ∧ LinkOnly n.val s t ∧
        Only [.io, .regs] s t)) ∧
    (let ls := s.heardIn n.val
     let peer := s.fld (lreg R.LACE_PEER n.val) F.LACE_PEER.PKG
     let cfg := lreg R.LACE_LCFG n.val
     let own := s.on cfg F.LACE_LCFG.WARDEN_PREF
     let other := s.on (lreg R.LACE_PEER n.val) F.LACE_PEER.WARDEN
     x.phase = 2 → maskOf ls = x.part → s.linkSt n.val = 1 → x.crOut = false →
     (ls.length < s.minWidth n.val → Completes (.trainRateDone n) s (fun t => t.linkFailed n.val 5)) ∧
     (s.minWidth n.val ≤ ls.length → peer = s.pkgId → Completes (.trainRateDone n) s (fun t => t.linkFailed n.val 3)) ∧
     (s.minWidth n.val ≤ ls.length → peer ≠ s.pkgId → s.on cfg F.LACE_LCFG.EXPECT_EN = true → s.fld cfg F.LACE_LCFG.EXPECT ≠ peer →
       Completes (.trainRateDone n) s (fun t => t.linkFailed n.val 4)) ∧
     (s.minWidth n.val ≤ ls.length → peer ≠ s.pkgId → s.on cfg F.LACE_LCFG.EXPECT_EN = false ∨ s.fld cfg F.LACE_LCFG.EXPECT = peer → Completes (.trainRateDone n) s (fun t =>
       let warden := if own = other then decide (s.pkgId < peer) else own
       t.linkSt n.val = 1 ∧ (t.link n.val).phase = 0 ∧ (t.link n.val).crOut = warden ∧ t.fld (lreg R.LACE_LSTAT n.val) F.LACE_LSTAT.WIDTH = ls.length ∧
         (warden = true → ∃ h, (t.link n.val).sent = some ⟨none, h, some (.creditInit 64 64 64)⟩) ∧
         (t.link n.val).order = (if s.on (lreg R.LACE_PHY_STAT n.val) F.LACE_PHY_STAT.REVERSED then ls.reverse else ls) ∧
         t.on (lreg R.LACE_LSTAT n.val) F.LACE_LSTAT.WARDEN = warden ∧ t.bit (lreg R.LACE_PHY_EVT n.val) 12 = true ∧ (∀ i, i ∈ ls → s.laneRetired n.val i = false → t.laneSt n.val i = 3) ∧
         LinkOnly n.val s t ∧ Only [.io, .regs, .free] s t))) ∧
    ((s.linkDtb n.val).toNat < x.began.toNat + s.trainTmo n.val → Completes (.trainTimeout n) s (fun t => t = s)) ∧
    (x.began.toNat + s.trainTmo n.val ≤ (s.linkDtb n.val).toNat →
      (x.phase = 1 → s.heardIn n.val = [] → s.linkSt n.val = 1 → Completes (.trainTimeout n) s (fun t => t.linkFailed n.val 5)) ∧
      (∀ b, x.phase = 2 → (bitsOf x.part 4).all (s.heardIn n.val).contains = false → s.nextRate n.val = some b →
        Completes (.trainTimeout n) s (fun t => s.attempts t n.val b ∧ LinkOnly n.val s t ∧ Only [.io, .regs] s t))))

/-- R405–R409: the lane tests, the loopbacks and the pattern checker. -/
def Obligations.LaneTestsAct : Prop :=
  (∀ (s : State) i (n : Fin 48) v, let a := lreg R.LACE_TEST n.val
    let w := codedWrite a (s.rd a) v
    s.takes i a v = true → v.getLsbD 7 = false → fget v F.LACE_TEST.MODE ≠ 0 →
    (s.linkSt n.val ≠ 0 → Completes (.laceTestStart i n v) s (fun t => t.bit (lreg R.LACE_PHY_EVT n.val) 18 = true ∧ WroteOnly i [lreg R.LACE_PHY_EVT n.val] s t ∧ Only [.regs, .noc] s t)) ∧
    (s.linkSt n.val = 0 → fget v F.LACE_TEST.MODE = 7 → Completes (.laceTestStart i n v) s (fun t => t.rd a = w ∧ (t.link n.val).phase = 1 ∧
      (t.link n.val).began = s.linkDtb n.val ∧ LinkOnly n.val s t ∧ Only [.io, .regs, .noc] s t)) ∧
    (s.linkSt n.val = 0 → fget v F.LACE_TEST.MODE ≠ 7 → s.fld a F.LACE_TEST.MODE ≠ 7 → Completes (.laceTestStart i n v) s (fun t => t.rd a = w ∧
      (∀ l, l < 4 → s.laneRetired n.val l = false → t.laneSt n.val l = if (fget v F.LACE_TEST.LANES).testBit l then 7 else 0) ∧
      (∀ l, l < 4 → t.rd (lnreg R.LACE_SYMERR n.val l) = 0 ∧ t.rd (lnreg R.LACE_PRBS_ERR n.val l) = 0) ∧
      t.fld (lreg R.LACE_PHY_STAT n.val) F.LACE_PHY_STAT.RATE = fget v F.LACE_TEST.RATE + 1 ∧ LinkOnly n.val s t ∧ Only [.io, .regs, .noc] s t)) ∧
    (s.linkSt n.val = 0 → 4 ≤ fget v F.LACE_TEST.MODE → fget v F.LACE_TEST.MODE < 7 → s.fld a F.LACE_TEST.MODE = 7 → s.testRateTrained n.val v = true →
      (∀ l, l < 4 → (fget v F.LACE_TEST.LANES).testBit l = true → s.laneSt n.val l = 3) → Completes (.laceTestStart i n v) s (fun t => t.rd a = w ∧
      (∀ l, l < 4 → s.laneRetired n.val l = false → t.laneSt n.val l = (if (fget v F.LACE_TEST.LANES).testBit l then 7 else 0) ∧
        t.bit (lreg R.LACE_PHY_STAT n.val) (8 + l) = false) ∧
      (∀ l, l < 4 → t.rd (lnreg R.LACE_SYMERR n.val l) = 0 ∧ t.rd (lnreg R.LACE_PRBS_ERR n.val l) = 0) ∧ (t.link n.val).order = [] ∧ LinkOnly n.val s t ∧
      Only [.io, .regs, .noc] s t))) ∧
  (∀ (s : State) i (n : Fin 48) v, let a := lreg R.LACE_TEST n.val
    let u := v &&& 0xFFFFFF78
    s.takes i a u = true →
    (s.fld a F.LACE_TEST.MODE = 0 → Completes (.laceTestEnd i n v) s (WritesRegs i [(a, codedWrite a (s.rd a) u)] s)) ∧
    (s.fld a F.LACE_TEST.MODE ≠ 0 → Completes (.laceTestEnd i n v) s (fun t => t.rd a = codedWrite a (s.rd a) u ∧ t.rd (lreg R.LACE_PHY_STAT n.val) = 0 ∧
      (∀ l, l < 4 → t.fld (lnreg R.LACE_LNSTAT n.val l) F.LACE_LNSTAT.STATE = 0) ∧ LinkOnly n.val s t ∧ Only [.io, .regs, .noc] s t))) ∧
  (∀ (s : State) i (n : Fin 48) v, let a := lreg R.LACE_TEST n.val
    let u := v ||| 0x87
    s.takes i a u = true →
    (s.fld a F.LACE_TEST.MODE = 7 → fget u F.LACE_TEST.LANES ≠ 0 → (∀ l, l < 4 → (fget u F.LACE_TEST.LANES).testBit l = true → s.laneSt n.val l = 3) →
      Completes (.laceTestLpb i n v) s (fun t => t.fld a F.LACE_TEST.MODE = 7 ∧ t.bit a 7 = false ∧ t.fld a F.LACE_TEST.LANES = fget u F.LACE_TEST.LANES ∧ WroteOnly i [a] s t ∧
        t.link n.val = { (s.link n.val).sendsOn (bitsOf (fget u F.LACE_TEST.LANES) 4) setLPB with lpb := fget u F.LACE_TEST.LANES, slots := 0, skipped := false } ∧ LinkOnly n.val s t ∧ Only [.io, .regs, .noc] s t)) ∧
    (s.fld a F.LACE_TEST.MODE ≠ 7 → Completes (.laceTestLpb i n v) s (fun t => t.bit (lreg R.LACE_PHY_EVT n.val) 18 = true ∧ WroteOnly i [lreg R.LACE_PHY_EVT n.val] s t ∧
      Only [.regs, .noc] s t))) ∧
  (∀ (s : State) (n : Fin 48) (l : Fin 4), let x := s.link n.val
    let st := lnreg R.LACE_LNSTAT n.val l.val
    (s.laneSt n.val l.val = 3 → s.linkSt n.val = 0 → s.on (lreg R.LACE_PHY_CFG n.val) F.LACE_PHY_CFG.FEL_ALLOW = true → Completes (.lpbReceive n l) s (fun t =>
      t.laneSt n.val l.val = 7 ∧ t.link n.val = { x with fel := x.fel ||| 2 ^ l.val } ∧ LinkOnly n.val s t ∧ RegsOnly [st] s t ∧ Only [.io, .regs] s t)) ∧
    (s.laneSt n.val l.val = 3 → s.linkSt n.val ≠ 0 ∨ s.on (lreg R.LACE_PHY_CFG n.val) F.LACE_PHY_CFG.FEL_ALLOW = false → Completes (.lpbReceive n l) s (fun t =>
      t.bit (lreg R.LACE_PHY_EVT n.val) 19 = true ∧ RegsOnly [lreg R.LACE_PHY_EVT n.val] s t ∧ Only [.regs] s t)) ∧
    (x.fel.testBit l.val = true → Completes (.felEnd n l) s (fun t => t.fld st F.LACE_LNSTAT.STATE = 0 ∧ t.fld st F.LACE_LNSTAT.LOCK = 0 ∧
      (t.link n.val).fel.testBit l.val = false ∧ LinkOnly n.val s t ∧ RegsOnly [st, lreg R.LACE_PHY_STAT n.val] s t ∧ Only [.io, .regs] s t)) ∧
    (∀ i, s.gives i (lnreg R.LACE_PRBS_BITS_LO n.val l.val) = true → let b := tabGet wordZero s.io.lace.bits (4 * n.val + l.val)
      Completes (.prbsBitsRead i n l) s (fun t => t.ret = (b.setWidth 32).setWidth 64 ∧ t.rd (lnreg R.LACE_PRBS_BITS_HI n.val l.val) = (b >>> 32).setWidth 32 ∧
        WroteOnly i [lnreg R.LACE_PRBS_BITS_HI n.val l.val] s t ∧ Only [.regs, .ret, .noc] s t)) ∧
    (s.laneSt n.val l.val = 7 → x.fel.testBit l.val = false → s.fld (lreg R.LACE_TEST n.val) F.LACE_TEST.MODE ∈ [1, 2] → ∀ bits,
      Completes (.prbsCheckerSync n l bits) s (fun t => t = (s.looped n.val l.val bits.length).2.foldl (fun u b => u.prbsBit n.val l.val b) (s.looped n.val l.val bits.length).1)) ∧
    (s.laneSt n.val l.val = 7 → s.fld (lreg R.LACE_TEST n.val) F.LACE_TEST.MODE = 3 ∨ x.fel.testBit l.val = true → ∀ bits,
      Completes (.prbsCheckerSync n l bits) s (fun t => LinkIs n.val s t (x.sendsBits l.val bits))) ∧
    (s.laneSt n.val l.val = 7 → x.fel.testBit l.val = false → ∀ bits, let p := s.looped n.val l.val bits.length
      let u := p.1.onLink n.val (fun y => y.sendsBits l.val p.2)
      (s.fld (lreg R.LACE_TEST n.val) F.LACE_TEST.MODE = 4 → Completes (.prbsCheckerSync n l bits) s (fun t => t = u)) ∧
      (s.fld (lreg R.LACE_TEST n.val) F.LACE_TEST.MODE = 6 → Completes (.prbsCheckerSync n l bits) s (fun t => t = bits.foldl (fun v b => v.prbsBit n.val l.val b) u))) ∧
    (s.laneSt n.val l.val = 7 → x.fel.testBit l.val = false → s.fld (lreg R.LACE_TEST n.val) F.LACE_TEST.MODE = 5 →
      let p := s.testPattern n.val
      let c := tabGet noPrbs s.io.lace.prbs (4 * n.val + l.val)
      let bits := tabGet wordZero s.io.lace.bits (4 * n.val + l.val)
      let err := lnreg R.LACE_PRBS_ERR n.val l.val
      (∀ bs b, Completes (.prbsCheckerSync n l (bs ++ [b])) s (fun t => ∃ u, exec (.prbsCheckerSync n l bs) s = .next u ∧ exec (.prbsCheckerSync n l [b]) u = .next t)) ∧
      (∀ b, s.on st F.LACE_LNSTAT.PRBS_SYNC = false → p < 4 → Completes (.prbsCheckerSync n l [b]) s (fun t => tabGet noPrbs t.io.lace.prbs (4 * n.val + l.val) = ⟨b :: c.reg, []⟩ ∧
        t.on st F.LACE_LNSTAT.PRBS_SYNC = decide (c.reg.length + 1 = (prbsTaps p).1) ∧ RegsOnly [st] s t ∧ Only [.io, .regs] s t)) ∧
      (∀ b, s.on st F.LACE_LNSTAT.PRBS_SYNC = true → Completes (.prbsCheckerSync n l [b]) s (fun t => tabGet wordZero t.io.lace.bits (4 * n.val + l.val) = bits + 1 ∧
        t.fld err F.LACE_PRBS_ERR.ERRORS = (if b = (c.expect p).1 then s.fld err F.LACE_PRBS_ERR.ERRORS
          else min (s.fld err F.LACE_PRBS_ERR.ERRORS + 1) (2 ^ F.LACE_PRBS_ERR.ERRORS.w - 1)) ∧
        (t.on st F.LACE_LNSTAT.PRBS_SYNC = false ↔ 8 ≤ ((((b != (c.expect p).1) :: c.errs).take 64).filter id).length) ∧ RegsOnly [st, err] s t ∧ Only [.io, .regs] s t))))

/-! ### Lace links -/

/-- R413, R424–R428, R434, R450: the commands of a link, the package ID, the routes and the windows. -/
def Obligations.LinkCommandsAct : Prop :=
  (∀ (s : State) i (n : Fin 48) v, let a := lreg R.LACE_LCFG n.val
    (s.takes i a (v ||| 1) = true →
      ((s.linkSt n.val = 0 ∧ s.bit a 0 = false) ∨ s.linkSt n.val = 4 → Completes (.linkEnable i n v) s (fun t => t.rd a = codedWrite a (s.rd a) (v ||| 1) ∧ t.linkSt n.val = 1 ∧
        t.fld (lreg R.LACE_LSTAT n.val) F.LACE_LSTAT.CAUSE = 0 ∧ (t.link n.val).phase = 1 ∧ (t.link n.val).began = s.linkDtb n.val ∧ (t.link n.val).replay = [] ∧
        LinkOnly n.val s t ∧ Only [.io, .regs, .noc] s t)) ∧
      (¬((s.linkSt n.val = 0 ∧ s.bit a 0 = false) ∨ s.linkSt n.val = 4) → Completes (.linkEnable i n v) s (WritesRegs i [(a, codedWrite a (s.rd a) (v ||| 1))] s))) ∧
    (s.takes i a (v &&& 0xFFFFFFFE) = true →
      (s.linkSt n.val = 0 ∨ s.linkSt n.val = 5 → Completes (.linkDisable i n v) s (WritesRegs i [(a, codedWrite a (s.rd a) (v &&& 0xFFFFFFFE))] s)) ∧
      (s.linkSt n.val ≠ 0 → s.linkSt n.val ≠ 5 → Completes (.linkDisable i n v) s (fun t => t.rd a = codedWrite a (s.rd a) (v &&& 0xFFFFFFFE) ∧ t.linkSt n.val = 0 ∧
        t.fld (lreg R.LACE_LSTAT n.val) F.LACE_LSTAT.WIDTH = 0 ∧ (t.link n.val).replay = [] ∧
        (∀ m, m ≠ n.val → (∀ o, o ∈ s.io.lace.out → o.link = some n.val → o.src.map (·.1) ≠ some m) → t.link m = s.link m))))) ∧
  (∀ (s : State) i (n : Fin 48), let a := lreg R.LACE_LCTL n.val
    let st := lreg R.LACE_LSTAT n.val
    let x := s.link n.val
    let now := s.linkDtb n.val
    (s.takes i a 1 = true →
      (s.linkSt n.val ≠ 2 → Completes (.linkRetrainCmd i n) s (WritesRegs i [] s)) ∧
      (s.mayRetrain n.val → s.on st F.LACE_LSTAT.WARDEN = true → Completes (.linkRetrainCmd i n) s (fun t => s.retrains t n.val ∧ LinkOnly n.val s t ∧ Only [.io, .regs, .noc] s t)) ∧
      (s.linkSt n.val = 2 → s.on st F.LACE_LSTAT.WARDEN = false → Completes (.linkRetrainCmd i n) s (fun t =>
        t.link n.val = { x.queued now (!x.tx && x.room 1) .retrain with asked := x.asked.or (some now) } ∧ LinkOnly n.val s t ∧ WroteOnly i [] s t ∧ Only [.io, .regs, .noc] s t))) ∧
    (s.takes i a 2 = true →
      (s.linkSt n.val = 2 ∨ s.linkSt n.val = 3 → Completes (.linkSwapCmd i n) s (fun t =>
        t.link n.val = Link.queued { x with swaps := x.swaps ++ [(x.mark, true)] } now (s.linkSt n.val == 2 && !x.tx && x.room 1) .swap ∧ LinkOnly n.val s t ∧
        WroteOnly i [] s t ∧ Only [.io, .regs, .noc] s t)) ∧
      (s.linkSt n.val ≠ 2 → s.linkSt n.val ≠ 3 → Completes (.linkSwapCmd i n) s (fun t => t.fld st F.LACE_LSTAT.SWAP = 3 ∧ t.bit (lreg R.LACE_LEVT n.val) 2 = true ∧
        WroteOnly i [st, lreg R.LACE_LEVT n.val] s t ∧ Only [.regs, .noc] s t))) ∧
    (s.takes i a 4 = true →
      (s.linkSt n.val = 5 → Completes (.linkRetireCmd i n) s (WritesRegs i [] s)) ∧
      (s.linkSt n.val ≠ 5 → Completes (.linkRetireCmd i n) s (fun t => t.isRetired (linkUnit n.val) = true ∧ t.linkSt n.val = 5 ∧ t.fld st F.LACE_LSTAT.CAUSE = 7))) ∧
    (s.takes i a 8 = true →
      (s.dieLive (n.val / 12) = false → Completes (.linkReadmitCmd i n) s (WritesRegs i [] s)) ∧
      (s.dieLive (n.val / 12) = true → s.linkSt n.val = 5 → Completes (.linkReadmitCmd i n) s (fun t => t.isRetired (linkUnit n.val) = false ∧ t.linkSt n.val = 0 ∧
        t.fld (lreg R.LACE_LCFG n.val) F.LACE_LCFG.EN = 0 ∧ t.fld st F.LACE_LSTAT.CAUSE = 0)))) ∧
  (∀ (s : State) i v, s.takes i R.LACE_PKG v = true →
    (s.linksIdle = true → Completes (.pkgIdWrite i v) s (fun t => t.pkgId = v.toNat % 256 ∧ t.bit R.LACE_PKG 8 = true ∧ WroteOnly i [R.LACE_PKG] s t ∧ Only [.regs, .noc] s t)) ∧
    (s.linksIdle = false → Completes (.pkgIdWrite i v) s (fun t => t.pkgId = s.pkgId ∧ t.bit R.LACE_PKG 9 = true ∧ WroteOnly i [R.LACE_PKG] s t ∧ Only [.regs, .noc] s t))) ∧
  (∀ (s : State) i (p : BitVec 8) v, s.takes i (R.LACE_RT p.toNat) v = true → Completes (.routeWrite i p v) s
    (WritesRegs i [(R.LACE_RT p.toNat, codedWrite (R.LACE_RT p.toNat) (s.rd (R.LACE_RT p.toNat)) v)] s)) ∧
  (∀ (s : State) i (w : Fin 64) v, let lo := R.LACE_WIN_LO w.val
    let hi := R.LACE_WIN_HI w.val
    (s.takes i lo v = true → Completes (.windowWrite i w false v) s (if s.windowEn w.val then WritesRegs i [] s
      else WritesRegs i [(lo, codedWrite lo (s.rd lo) (v &&& 0xFFFFF000))] s)) ∧
    (s.takes i hi v = true → Completes (.windowWrite i w true v) s (if s.windowEn w.val then
        WritesRegs i [(hi, codedWrite hi (s.rd hi) ((v &&& 0xC0000000) ||| (s.rd hi &&& 0x00FFFFFF)))] s
      else WritesRegs i [(hi, codedWrite hi (s.rd hi) v)] s)))

/-- R413–R422, R424–R426, R430, R431, R433: packets that arrive, the warden and the timers. -/
def Obligations.LinkPacketsAct : Prop :=
  (∀ (s : State) (n : Fin 48) rx, let t := s.rxLanes n.val rx
    t.link n.val = { s.link n.val with rxRd := (t.link n.val).rxRd } ∧ LinkOnly n.val s t ∧ RegsOnly ((List.range 4).map (lnreg R.LACE_SYMERR n.val)) s t ∧ Only [.io, .regs] s t) ∧
  (∀ (s0 : State) (n : Fin 48) rx (h : LHdr), let s := s0.rxLanes n.val rx
    let x := s.link n.val
    let c := Instr.linkAckReceive n rx h
    s.linkSt n.val = 2 → s.linkHears n.val = true →
    (s.linkClean n.val = false ∨ s0.rxBad n.val rx = true → Completes c s0 (fun t => t = s)) ∧
    (s.linkClean n.val = true → s0.rxBad n.val rx = false → h.nak = false →
    (h.ackv = false → Completes c s0 (fun t => LinkIs n.val s t (if h.cvc = 0 then { x with crReq := x.crReq + h.credits.toNat }
      else if h.cvc = 1 then { x with crRsp := x.crRsp + h.credits.toNat } else if h.cvc = 2 then { x with crFwd := x.crFwd + h.credits.toNat } else x))) ∧
    (∀ pre p post, h.ackv = true → x.replay = pre ++ p :: post → p.seq = h.ackseq.toNat → (∀ q, q ∈ pre → q.seq ≠ p.seq) → Completes c s0 (fun t =>
      (t.link n.val).replay = post ∧ (t.link n.val).retrains = 0 ∧ LinkOnly n.val s t ∧ Only [.io, .net, .sigOut] s t)))) ∧
  (∀ (s0 : State) (n : Fin 48) rx, let s := s0.rxLanes n.val rx
    let x := s.link n.val
    let m := (x.replay.map (fun p => p.count + 1)).foldl max 0
    let again (t : State) : Prop := (t.link n.val).replay = x.replay.map (fun p => { p with count := p.count + 1, sentAt := s.linkDtb n.val }) ∧
      t.fld (lreg R.LACE_LCNT n.val) F.LACE_LCNT.REPLAYS = min (s.fld (lreg R.LACE_LCNT n.val) F.LACE_LCNT.REPLAYS + 1) (2 ^ F.LACE_LCNT.REPLAYS.w - 1) ∧ t.linkSt n.val = 2 ∧
      (∀ pre p, x.replay = pre ++ [p] → ∃ hd, (t.link n.val).sent = some ⟨some p.seq, hd, some p.what⟩)
    s.linkSt n.val = 2 → x.replay ≠ [] → m ≤ s.retryCount 8 →
    (∀ h : LHdr, s.linkHears n.val = true → s.linkClean n.val = true → s0.rxBad n.val rx = false → h.ackv = false → h.nak = true → h.cvc = 3 →
      Completes (.linkAckReceive n rx h) s0 again) ∧
    ((∀ p, x.replay.head? = some p → p.sentAt.toNat + 100 * max 1 (s.fld (lreg R.LACE_LCFG n.val) F.LACE_LCFG.RTO) ≤ (s.linkDtb n.val).toNat) →
      Completes (.replayTimeout n) s again)) ∧
  (∀ (s0 : State) (n : Fin 48) rx (h : LHdr) req rsp fwd, let s := s0.rxLanes n.val rx
    let x := s.link n.val
    let c := Instr.linkCreditInitReceive n rx h req rsp fwd
    x.phase = 0 → s.fld (lreg R.LACE_LSTAT n.val) F.LACE_LSTAT.WIDTH ≠ 0 → x.crIn = false → s.linkHears n.val = true → s.linkSt n.val = 1 ∨ s.linkSt n.val = 3 →
    (s.linkClean n.val = false ∨ s0.rxBad n.val rx = true → Completes c s0 (fun t => t = s)) ∧
    (s.linkClean n.val = true → s0.rxBad n.val rx = false →
      Completes c s0 (fun t => ∃ u, exec (.linkCreditInitReceive n rx noHdr req rsp fwd) s0 = .next u ∧ t = u.takeHdr n.val h) ∧
      (h = noHdr → Completes c s0 (fun t => t.linkSt n.val = 2 ∧ t.bit (lreg R.LACE_LEVT n.val) (if s.linkSt n.val = 1 then 0 else 3) = true ∧ LinkOnly n.val s t ∧
        (t.link n.val).crIn = true ∧ (t.link n.val).crOut = true ∧ (t.link n.val).asked = none ∧
        (s.linkSt n.val = 1 → let y := { x with crIn := true, asked := none, quiet := s.linkDtb n.val, crReq := req.toNat, crRsp := rsp.toNat, crFwd := fwd.toNat }
          t.link n.val = if x.crOut then y else y.creditOut (s.linkDtb n.val)) ∧
        (s.linkSt n.val = 3 → (t.link n.val).replay = x.replay.map (fun p => { p with count := 0, sentAt := s.linkDtb n.val }) ∧ (t.link n.val).crReq = x.crReq ∧
          (t.link n.val).crRsp = x.crRsp ∧ (t.link n.val).crFwd = x.crFwd ∧ (t.link n.val).nextSeq = x.nextSeq ∧
          (∀ pre p, x.replay = pre ++ [p] → ∃ hd, (t.link n.val).sent = some ⟨some p.seq, hd, some p.what⟩)))))) ∧
  (∀ (s0 : State) (n : Fin 48) rx good (seq : BitVec 12) (h : LHdr) (p : LData), let s := s0.rxLanes n.val rx
    let x := s.link n.val
    let c := Instr.linkDataReceive n rx good seq h p
    let nak (t : State) : Prop := LinkIs n.val s t (if x.nakked then x else { x with nakked := true, oweAck := true, oweNak := true })
    (s.linkSt n.val ≠ 2 ∨ s.linkHears n.val = false → Completes c s0 (fun t => t = s0)) ∧
    (s.linkSt n.val = 2 → s.linkHears n.val = true → good = false ∨ s.bufRoom n.val p = false ∨ s.linkClean n.val = false ∨ s0.rxBad n.val rx = true → Completes c s0 nak) ∧
    (s.linkSt n.val = 2 → s.linkHears n.val = true → s.linkClean n.val = true → s0.rxBad n.val rx = false → good = true → s.bufRoom n.val p = true → seq.toNat ≠ x.expect →
      Completes c s0 (fun t => ∃ u, exec (.linkDataReceive n rx good seq noHdr p) s0 = .next u ∧ t = u.takeHdr n.val h) ∧
      (h = noHdr → (seq.toNat + 4096 - x.expect) % 4096 < 2048 → Completes c s0 nak) ∧
      (h = noHdr → 2048 ≤ (seq.toNat + 4096 - x.expect) % 4096 → Completes c s0 (fun t => LinkIs n.val s t { x with oweAck := true }))) ∧
    (s.linkSt n.val = 2 → s.linkHears n.val = true → s.linkClean n.val = true → s0.rxBad n.val rx = false → good = true → s.bufRoom n.val p = true → seq.toNat = x.expect →
      plainHdr h = true →
      let inOrder (t : State) : Prop := (t.link n.val).expect = (x.expect + 1) % 4096 ∧ (t.link n.val).nakked = false ∧ (t.link n.val).oweAck = true ∧ LinkOnly n.val s t
      let took (t : State) : Prop := inOrder t ∧ (t.link n.val).owed (dataVc p) = x.owed (dataVc p) + dataUnits p
      let answer (reason : Nat) : LOut := ⟨1, p.tag.toNat % 256, none, ⟨p.spkg, BitVec.ofNat 8 s.pkgId, 0, p.ini, p.tag, p.cls, .resp (BitVec.ofNat 4 reason) []⟩, none⟩
      (p.dpkg.toNat ≠ s.pkgId →
        let isResp := match p.body with
          | .resp _ _ => true
          | _ => false
        let way := match p.body with
          | .resp _ _ => p.tag.toNat % 256
          | .req _ a _ _ _ _ _ _ => a.toNat / 4096 % 256
          | .sig hd _ => hd.toNat % 256
        (p.hops.toNat + 1 < s.maxHop → Completes c s0 (fun t => inOrder t ∧
          tabGet natZero (t.link n.val).buf (dataVc p) = tabGet natZero x.buf (dataVc p) + dataUnits p ∧
          t.io.lace.out = s.io.lace.out ++ [⟨if isResp then 1 else 2, way, none, { p with hops := p.hops + 1 }, some (n.val, dataVc p)⟩] ∧ Only [.io] s t)) ∧
        (s.maxHop ≤ p.hops.toNat + 1 → Completes c s0 (fun t => took t ∧ t.io.lace.out = s.io.lace.out ++ (if isResp then [] else [answer 0xC]) ∧
          RegsOnly [R.LACE_CL_STAT] s t ∧ Only [.io, .regs] s t ∧
          t.fld R.LACE_CL_STAT F.LACE_CL_STAT.HOPDROP = min (s.fld R.LACE_CL_STAT F.LACE_CL_STAT.HOPDROP + 1) (2 ^ F.LACE_CL_STAT.HOPDROP.w - 1) ∧
          t.fld R.LACE_CL_STAT F.LACE_CL_STAT.UNREACH = (if isResp then s.fld R.LACE_CL_STAT F.LACE_CL_STAT.UNREACH
            else min (s.fld R.LACE_CL_STAT F.LACE_CL_STAT.UNREACH + 1) (2 ^ F.LACE_CL_STAT.UNREACH.w - 1))))) ∧
      (∀ reason data, p.body = .resp reason data → p.dpkg.toNat = s.pkgId → s.net = [] → s.sigOut = [] → Completes c s0 (fun t => took t ∧ RegsOnly [R.LACE_CL_STAT] s t ∧
        t.fld R.LACE_CL_STAT F.LACE_CL_STAT.LATE = min (s.fld R.LACE_CL_STAT F.LACE_CL_STAT.LATE + 1) (2 ^ F.LACE_CL_STAT.LATE.w - 1) ∧ Only [.io, .regs] s t)) ∧
      (∀ hd am, p.body = .sig hd am → p.dpkg.toNat = s.pkgId → Completes c s0 (fun t => took t ∧
        t.io.lace.out = s.io.lace.out ++ [answer (match s.handle (hd &&& 0x0000FFFF ||| (hd &&& 0x00FE0000)) false with
          | .counter _ => 0
          | _ => 8)])) ∧
      (∀ k a len posted early data op v, p.body = .req k a len posted early data op v → p.dpkg.toNat = s.pkgId →
        let u := (s0.linkTake n.val rx seq.toNat true h).1.oweUnits n.val (dataVc p) (dataUnits p)
        let len := if k = Kind.write then data.length else len.toNat
        let q : Req := { ini := .package p.spkg (Fin.ofNat 4 (n.val / 12)), kind := k, addr := a, len := len, posted := posted, early := early && (k == Kind.read || k == Kind.fetch), cls := p.cls.toNat,
                         via := n.val }
        len ≠ 0 →
        ((u.enter q).2.1 = 0 → Completes c s0 (fun t => took t ∧ ∃ m, t.net = s.net ++ [m] ∧ m.req = { q with cls := (u.enter q).2.2 } ∧ m.data = data ∧
          m.atom = (if k = Kind.atomic then some (op, v) else none) ∧ m.orig = dataOrig p ∧ m.lace = none ∧ m.hdr.ini = iniId q.ini ∧ m.hdr.vc = 2)) ∧
        ((u.enter q).2.1 ≠ 0 → Completes c s0 (fun t => took t ∧ (s.logSize = 0 → t.net = s.net) ∧ t.io.lace.out = s.io.lace.out ++ [answer (u.enter q).2.1]))))) ∧
  (∀ (s0 : State) (n : Fin 48) rx (seq : BitVec 12) (h : LHdr), let s := s0.rxLanes n.val rx
    let x := s.link n.val
    let st := lreg R.LACE_LSTAT n.val
    let cs := fun (w : BitVec 16) (out : BitVec 2) => [Instr.mgmtMarkReceive n rx seq h w out, .mgmtSwapReceive n rx seq h, .mgmtRetrainReceive n rx seq h]
    s.linkSt n.val = 2 → s.linkHears n.val = true →
    (s.linkClean n.val = false ∨ s0.rxBad n.val rx = true → ∀ w out, ∀ c, c ∈ cs w out → Completes c s0 (fun t =>
      LinkIs n.val s t (if x.nakked then x else { x with nakked := true, oweAck := true, oweNak := true }))) ∧
    (s.linkClean n.val = true → s0.rxBad n.val rx = false → seq.toNat = x.expect → plainHdr h = true →
    (∀ (w : BitVec 16) (out : BitVec 2), Completes (.mgmtMarkReceive n rx seq h w out) s0 (fun t => (t.link n.val).mark = w.toNat ∧
      (t.link n.val).swaps = x.swaps.filter (fun y => (out = 0 ∧ y.2 = true) ∨ (w.toNat + 65536 - y.1) % 65536 < 2) ∧ LinkOnly n.val s t ∧ Only [.io, .regs] s t ∧
      (out = 0 → RegsOnly [] s t) ∧ (out ≠ 0 → t.fld st F.LACE_LSTAT.SWAP = out.toNat ∧ t.bit (lreg R.LACE_LEVT n.val) 2 = true ∧
        t.fld st F.LACE_LSTAT.WARDEN = if out = 1 then 1 - s.fld st F.LACE_LSTAT.WARDEN
          else if out = 2 then (if s.pkgId < s.fld (lreg R.LACE_PEER n.val) F.LACE_PEER.PKG then 1 else 0) else s.fld st F.LACE_LSTAT.WARDEN))) ∧
    Completes (.mgmtSwapReceive n rx seq h) s0 (fun t => (t.link n.val).swaps = x.swaps ++ [(x.mark, false)] ∧ (t.link n.val).expect = (x.expect + 1) % 4096 ∧
      LinkOnly n.val s t ∧ Only [.io] s t) ∧
    (s.mayRetrain n.val → s.on st F.LACE_LSTAT.WARDEN = true → Completes (.mgmtRetrainReceive n rx seq h) s0 (fun t => s.retrains t n.val ∧ LinkOnly n.val s t)))) ∧
  (∀ (s : State) (n : Fin 48), let x := s.link n.val
    let st := lreg R.LACE_LSTAT n.val
    let w := (x.mark + 1) % 65536
    let old := fun y : Nat × Bool => decide (2 ≤ (w + 65536 - y.1) % 65536)
    let due := x.swaps.filter old
    s.on st F.LACE_LSTAT.WARDEN = true → s.linkSt n.val = 2 ∨ s.linkSt n.val = 3 → s.markDue n.val = true → Completes (.wardenMark n) s (fun t => (t.link n.val).mark = w ∧
      (t.link n.val).swaps = x.swaps.filter (fun y => !old y) ∧ (t.link n.val).markAt = some (s.linkDtb n.val) ∧
      (let m := LWhat.mark w (if due = [] then 0 else t.fld st F.LACE_LSTAT.SWAP)
       if s.linkSt n.val = 2 ∧ x.tx = false ∧ x.room 1 = true ∧ x.mgmt = [] then (t.link n.val).replay = x.replay ++ [⟨x.nextSeq, 3, 1, 0, s.linkDtb n.val, m⟩] ∧
         (t.link n.val).mgmt = []
       else (t.link n.val).replay = x.replay ∧ (t.link n.val).mgmt = x.mgmt ++ [m]) ∧ LinkOnly n.val s t ∧ Only [.io, .regs] s t ∧
      (due = [] → RegsOnly [] s t) ∧
      (due ≠ [] → t.bit (lreg R.LACE_LEVT n.val) 2 = true ∧ t.fld st F.LACE_LSTAT.SWAP =
        if s.linkSt n.val = 3 then 3 else if due.any (·.2) && due.any (fun y => !y.2) then 2 else 1))) ∧
  (∀ (s : State) (n : Fin 48), let x := s.link n.val
    (∀ d, x.asked = some d → d.toNat + 2000 ≤ (s.linkDtb n.val).toNat → s.mayRetrain n.val → Completes (.retrainReqTimeout n) s (fun t => s.retrains t n.val ∧ LinkOnly n.val s t)) ∧
    (s.linkSt n.val = 2 → s.fld (lreg R.LACE_LCFG n.val) F.LACE_LCFG.IDLE_AFTER ≠ 0 → s.fld (lreg R.LACE_PHY_STAT n.val) F.LACE_PHY_STAT.RATE ≠ 4 → x.replay = [] →
      s.linkWaits n.val = false → x.owes = false → x.quiet.toNat + s.fld (lreg R.LACE_LCFG n.val) F.LACE_LCFG.IDLE_AFTER ≤ (s.linkDtb n.val).toNat →
      Completes (.linkIdleAfter n) s (fun t => LinkIs n.val s t { x with idleReq := true }))) ∧
  (∀ (s : State) k,
    (∀ r t0, s.net[k]? = some r → r.lace = some t0 → t0.since.toNat + s.remoteTmo ≤ s.tb.master.toNat → Completes (.remoteTimeout k false) s (fun t => t.net = s.net.eraseIdx k ∧
      t.resp = s.resp ++ [{ req := r.req, reason := 0xC, data := [], orig := r.orig }] ∧
      t.fld R.LACE_CL_STAT F.LACE_CL_STAT.UNREACH = min (s.fld R.LACE_CL_STAT F.LACE_CL_STAT.UNREACH + 1) (2 ^ F.LACE_CL_STAT.UNREACH.w - 1))) ∧
    (∀ g t0, s.sigOut[k]? = some g → g.lace = some t0 → t0.since.toNat + s.remoteTmo ≤ s.tb.master.toNat → Completes (.remoteTimeout k true) s (fun t =>
      t.sigOut = s.sigOut.eraseIdx k ∧ t.fld R.LACE_CL_STAT F.LACE_CL_STAT.UNREACH = min (s.fld R.LACE_CL_STAT F.LACE_CL_STAT.UNREACH + 1) (2 ^ F.LACE_CL_STAT.UNREACH.w - 1))))

/-! ### Faults -/

/-- R444, R445, R450–R453, R455, R456: reports, records, the repair actions and the Insole summary. -/
def Obligations.FaultManagerActs : Prop :=
  (∀ (s : State) (kind : BitVec 8) u sub k ini addr detail, s.sup.soleHeld = false → 0x20 ≤ kind.toNat → kind.toNat ≤ 0x2B → kind.toNat ≠ 0x28 →
    Completes (.faultReport kind u sub k ini addr detail) s (fun t => LoggedOnly [R.FLT_STAT] s t ∧ Only [.regs, .mem, .lines, .flt, .cores, .net, .noc] s t ∧
      (s.logSize ≠ 0 → s.logUsed ≠ s.logSize → s.flt.held = [] → s.flt.refused = false →
        (s.passEntry s.logReq).2.1 = 0 → (∃ g lo hi, s.regionOf s.logReq.addr.toNat = some (g, lo, hi) ∧ (g = .sram ∨ g = .host)) →
        t.bytes s.logReq.addr.toNat 64 = recBytes { s.mkEvent kind.toNat u ini addr detail with seq := s.rd R.FLT_SEQ } ∧
        BytesOnly s.logReq.addr.toNat 64 s t ∧ t.rd R.FLT_SEQ = s.rd R.FLT_SEQ + 1 ∧ t.bit R.FLT_EVT 0 = true ∧
        t.fld R.FLT_LOG_HEAD F.FLT_LOG_HEAD.INDEX = (s.fld R.FLT_LOG_HEAD F.FLT_LOG_HEAD.INDEX + 1) % 131072))) ∧
  (∀ s : State, let w := 6000000000 * max 1 (s.fld R.FLT_CFG F.FLT_CFG.RECUR_WIN)
    let dtb := s.tb.master.toNat
    s.sup.soleHeld = false →
    (s.flt.recurEnd ≤ dtb → Completes .recurWindow s (fun t => t.flt = { s.flt with recur := [], recurEnd := t.flt.recurEnd } ∧ t.flt.recurEnd % w = 0 ∧
      dtb < t.flt.recurEnd ∧ t.flt.recurEnd ≤ dtb + w ∧ Only [.flt] s t)) ∧
    (dtb < s.flt.recurEnd → Completes .recurWindow s (fun t => t = s))) ∧
  (∀ (s : State) i (g : Fin 32), let u := unitCode 3 g.val
    s.takes i R.FLT_ACT (actWord 1 u) = true → s.unitLive u = true → s.containersLive u = true → Completes (.fltRetire i u) s (fun t =>
      t.isRetired u = true ∧ t.bit R.LIVE_ENGINES g.val = false ∧ t.rd R.LIVE_SEQ = s.rd R.LIVE_SEQ + 1 ∧ t.fld R.FLT_ACT_STAT F.FLT_ACT_STAT.CODE = 0 ∧
        t.bit R.FLT_EVT 5 = true ∧ ∀ q, q < 4 → t.queue (4 * g.val + q) = Queue.init)) ∧
  (∀ (s : State) i (g : Fin 32), let u := unitCode 3 g.val
    s.takes i R.FLT_ACT (actWord 2 u) = true → s.isRetired u = true → s.testing u = false → s.unitPresent u = true → s.containersLive u = true →
    (∃ n, n < 4 ∧ s.bit (R.FLT_TEST n) 31 = false) → Completes (.fltTest i u) s (fun t =>
      t.testing u = true ∧ t.isRetired u = true ∧ t.fld R.FLT_ACT_STAT F.FLT_ACT_STAT.CODE = 0)) ∧
  (∀ (s : State) i (g : Fin 32), let u := unitCode 3 g.val
    s.takes i R.FLT_ACT (actWord 3 u) = true → s.isRetired u = true → s.unitPresent u = true → s.containersLive u = true → Completes (.fltAdmit i u) s (fun t =>
      t.isRetired u = false ∧ t.testing u = false ∧ t.bit R.LIVE_ENGINES g.val = true ∧ t.fld R.FLT_ACT_STAT F.FLT_ACT_STAT.CODE = 0)) ∧
  (∀ (s : State) i (g : Fin 32), let u := unitCode 3 g.val
    s.takes i R.FLT_ACT (actWord 4 u) = true → s.unitPresent u = true → s.testing u = true → Completes (.fltAbandon i u) s (fun t =>
      t.testing u = false ∧ t.fld R.FLT_ACT_STAT F.FLT_ACT_STAT.CODE = 0 ∧ t.bit R.FLT_EVT 5 = true)) ∧
  (∀ (s : State) i (p : BitVec 8), s.takes i R.FLT_ACT (actWord 5 (BitVec.ofNat 16 (0xF000 + p.toNat))) = true → Completes (.fltRevoke i p) s (fun t =>
    t.fld R.FLT_ACT_STAT F.FLT_ACT_STAT.CODE = 0 ∧ t.bit R.FLT_EVT 5 = true)) ∧
  (∀ (s : State) i v, s.takes i R.FLT_LOG_CFG v = true → s.flt.held = [] → Completes (.fltLogCfgWrite i v) s (fun t =>
    t.rd R.FLT_LOG_CFG = codedWrite R.FLT_LOG_CFG (s.rd R.FLT_LOG_CFG) v ∧ t.flt = { s.flt with refused := false } ∧ WroteOnly i [R.FLT_LOG_CFG] s t ∧
      Only [.regs, .flt, .noc] s t)) ∧
  (∀ (s : State) i v, s.takes i R.FLT_LOG_TAIL v = true → s.flt.held = [] → Completes (.fltLogTailWrite i v) s
    (WritesRegs i [(R.FLT_LOG_TAIL, codedWrite R.FLT_LOG_TAIL (s.rd R.FLT_LOG_TAIL) v)] s)) ∧
  (∀ (s : State) x xs, s.flt.summary = x :: xs →
    (s.bridgeLive 16 = false → Completes .summaryUpdate s (PutsRegs [(R.FLT_STAT, s.rd R.FLT_STAT ||| 2), (R.FLT_HEVT, s.rd R.FLT_HEVT ||| 2)] s)) ∧
    (s.bridgeLive 16 = true → Completes .summaryUpdate s (fun t => t.flt = { s.flt with summary := xs } ∧ Only [.flt, .mem, .lines, .regs] s t ∧
      RegsOnly [R.FLT_STAT, R.FLT_HEVT] s t ∧ (xs = [] → t.bit R.FLT_STAT 1 = false ∧ t.bit R.FLT_HEVT 1 = false))))

/-! ### Outputs -/

/-- R458–R461, R465, R474, R476, R478, R123: what drives an output stage. -/
def Obligations.OutputStagesAreDriven : Prop :=
  (∀ (s : State) i (n : Fin 40) v, s.takes i (R.HSO_CTL n.val) v = true → s.stageRetired n.val = false → s.owner n.val = none → Completes (.hsoCtlWrite i n v) s (fun t =>
    t.rd (R.HSO_CTL n.val) = codedWrite (R.HSO_CTL n.val) (s.rd (R.HSO_CTL n.val)) v ∧ (t.stage n.val).next = 0 ∧ s.driven t n.val ∧
      WroteOnly i [R.HSO_CTL n.val, R.HSO_DIAG n.val, R.HSO_EVT_LO, R.HSO_EVT_HI] s t ∧ Only [.io, .regs, .noc] s t)) ∧
  (∀ (s : State) i (j : Fin 8) v, let x := 40 + j.val
    s.takes i (R.HBR_HCTL j.val) v = true →
    (s.stageRetired x = false → s.owner x = none → Completes (.hbrHctlWrite i j v) s (fun t => s.driven t x ∧
      t.rd (R.HBR_HCTL j.val) = codedWrite (R.HBR_HCTL j.val) (s.rd (R.HBR_HCTL j.val)) v ∧ WroteOnly i [R.HBR_HCTL j.val, R.HBR_HDIAG j.val, R.HBR_EVT] s t ∧ Only [.io, .regs, .noc] s t)) ∧
    (s.stageRetired x = true ∨ (s.owner x).isSome = true → Completes (.hbrHctlWrite i j v) s (fun t =>
      t.bit R.HBR_EVT j.val = true ∧ WroteOnly i [R.HBR_EVT] s t ∧ Only [.regs, .noc] s t))) ∧
  (∀ (s : State) i (p : Fin 4) v, let x := 48 + p.val
    s.takes i (R.HBR_PCTL p.val) v = true →
    (s.stageRetired x = false → s.owner x = none → Completes (.hbrPctlWrite i p v) s (fun t => s.driven t x ∧
      t.rd (R.HBR_PCTL p.val) = codedWrite (R.HBR_PCTL p.val) (s.rd (R.HBR_PCTL p.val)) v ∧ WroteOnly i [R.HBR_PCTL p.val] s t ∧ Only [.io, .regs, .noc] s t)) ∧
    (s.stageRetired x = true ∨ (s.owner x).isSome = true → Completes (.hbrPctlWrite i p v) s (fun t =>
      t.bit R.HBR_EVT (8 + p.val) = true ∧ WroteOnly i [R.HBR_EVT] s t ∧ Only [.regs, .noc] s t))) ∧
  (∀ (s : State) (x : Fin 52) d from_ pre post, s.stageBlocked x.val = false → s.owner x.val = none → (s.stage x.val).pend = pre ++ (d, from_) :: post →
    (∀ p, p ∈ pre → p.2.toNat ≤ s.heelDtb.toNat) → from_.toNat ≤ s.heelDtb.toNat → (∀ p, p ∈ post → s.heelDtb.toNat < p.2.toNat) →
    pwmMode x.val d.mode = true → s.periodOver x.val = true → s.tb.body / perUnit x.val % d.period = 0 → Completes (.pwmPeriodStart x) s (fun t =>
      (t.stage x.val).cur = d ∧ (t.stage x.val).pend = post ∧ (t.stage x.val).start = s.tb.body / perUnit x.val * perUnit x.val ∧
      (t.stage x.val).num = (s.stage x.val).next ∧ (t.stage x.val).next = (s.stage x.val).next + 1 ∧ StageOnly x.val s t ∧ Only [.io, .regs] s t ∧
      (d.duty ≠ 1024 → (t.stage x.val).fresh = (d.duty != 0)) ∧
      (turns x.val (s.stage x.val).cur.mode d.mode = false →
        (d.duty = 1024 → s.edgedTo t x.val (onMask x.val d.mode)) ∧
        (d.duty = 0 ∨ (d.duty ≠ 1024 ∧ d.phase ≠ 0) → (s.stage x.val).inPwm x.val = false ∨ s.inPhase x.val = false ∨ s.phaseOver x.val = true →
          s.switched t x.val (offMask x.val d.mode)) ∧
        (d.duty ≠ 0 → d.duty ≠ 1024 → d.phase = 0 → (t.stage x.val).closed = (s.stage x.val).closed)))) ∧
  (∀ (s : State) (x : Fin 52), s.edgeWaits x.val = true → s.edgeAt x.val ≤ 1024 * s.tb.body → s.edgeBehind x.val = false → s.edgeBusy x.val = false →
    Completes (.stageOnEdge x) s (fun t => s.switched t x.val (s.wantMask x.val) ∧ (t.stage x.val).fresh = false ∧ (t.stage x.val).onAt = s.tb.body ∧
      (t.stage x.val).probe = s.probeDue x.val ∧
      (t.stage x.val).onFor = (if s.probeDue x.val then 1024 * 4000 else (s.stage x.val).cur.duty * (s.stage x.val).cur.period * perUnit x.val) ∧ StageOnly x.val s t ∧
      (x.val < 48 → tabGet noCount t.io.outs.edges (stageRail x.val) = some s.tb.body) ∧ Only [.io, .regs] s t)) ∧
  (∀ (s : State) (x : Fin 52), s.stageBlocked x.val = false → s.owner x.val = none → (s.stage x.val).inPwm x.val = true → (s.stage x.val).cur.duty ≠ 1024 →
    s.inPhase x.val = true → (s.stage x.val).onFor ≤ 1024 * (s.tb.body - (s.stage x.val).onAt) → Completes (.stageOffEdge x) s (fun t =>
      s.switched t x.val (offMask x.val (s.stage x.val).cur.mode) ∧ StageOnly x.val s t ∧ Only [.io, .regs] s t)) ∧
  (∀ (s : State) (x : Fin 52) m, s.stageBlocked x.val = false → (s.stage x.val).after = some m → s.needDead x.val m = false → Completes (.deadtimeEnd x) s (fun t =>
    t.stage x.val = { (s.stage x.val).move m s.tb.body with after := none } ∧ StageOnly x.val s t ∧ Only [.io] s t)) ∧
  (∀ (s : State) op tag ops w, s.hcmdHead = some (op, tag, ops) → s.bridgeLive 16 = true → s.boot.rx = [] → ops.head? = some w →
    let answers (t : State) (st : Nat) : Prop := t.boot.tx = s.boot.tx.drop (1 + ops.length) ∧ t.boot.rx = [BitVec.ofNat 32 (st + tag * 65536)] ∧ t.boot.cmdSeen = true
    (∀ c, (op = 1 ∧ c = Instr.hcmdOutSet) ∨ (op = 2 ∧ c = .hcmdOutClear) ∨ (op = 3 ∧ c = .hcmdOutPwm) → hcmdStage w = none →
      Completes c s (fun t => answers t 2 ∧ Only [.boot] s t)) ∧
    (∀ x, hcmdStage w = some x → s.stageRetired x = false → s.owner x = none →
      (op = 1 → ops.length = 1 → Completes .hcmdOutSet s (fun t => answers t 0 ∧ s.driven t x ∧ (t.desired x).mode = 1 ∧ Only [.boot, .io, .regs] s t)) ∧
      (op = 2 → ops.length = 1 → Completes .hcmdOutClear s (fun t => answers t 0 ∧ s.driven t x ∧ (t.desired x).mode = 0 ∧ Only [.boot, .io, .regs] s t)) ∧
      (∀ v, op = 3 → ops = [w, v] → pwmOk v = true → Completes .hcmdOutPwm s (fun t => answers t 0 ∧ s.driven t x ∧ (t.desired x).mode = (if x < 40 then 2 else 3) ∧
        (t.desired x).duty = fget v ⟨0, 11⟩ ∧ (t.desired x).period = fget v ⟨16, 16⟩ ∧ Only [.boot, .io, .regs] s t))))

/-- R62, R462–R464, R477, R479, R480, R483: VBAT's conditions, shutdowns and restarts, and the pre-drivers' faults. -/
def Obligations.OutputProtectionActs : Prop :=
  (∀ s : State, s.sup.vbatLow = false → Completes .vbatLowEnter s (fun t => t.sup = { s.sup with vbatLow := true } ∧ t.bit R.PWR_SUP_EVT 1 = true ∧
    (s.io.outs.stopped = none → t.io.outs = { s.io.outs with stopped := some s.heelDtb }) ∧ RegsOnly [R.PWR_SUP_EVT] s t ∧ Only [.sup, .io, .regs] s t)) ∧
  (∀ s : State, Completes .vbatLowExit s (fun t => t.sup = { s.sup with vbatLow := false } ∧ Only [.sup, .io] s t ∧
    ∀ d, s.sup.vbatOv = false → s.io.outs.stopped = some d → t.io.outs = { s.io.outs with stopped := none, lost := s.io.outs.lost + (s.heelDtb.toNat - d.toNat) })) ∧
  (∀ s : State, s.sup.vbatOv = false → Completes .vbatOvEnter s (fun t => t.sup = { s.sup with vbatOv := true, ovOff := true, ovWait := none } ∧ t.bit R.PWR_SUP_EVT 2 = true ∧
    (∀ k, k < 4 → t.pat k = none) ∧ (∀ x, x < 52 → (t.stage x).closed = 0 ∧ (t.stage x).after = none) ∧ Only [.sup, .io, .regs] s t)) ∧
  (∀ s : State, s.sup.vbatOv = true → Completes .vbatOvExit s (fun t => t.sup = { s.sup with vbatOv := false, ovWait := some s.tb.body } ∧ Only [.sup, .io] s t)) ∧
  (∀ (s : State) w, s.sup.ovWait = some w → s.sup.heelHeld = true ∨ w + 100000 ≤ s.tb.body → Completes .vbatOvRestore s (fun t => t.sup = { s.sup with ovOff := false, ovWait := none } ∧ Only [.sup, .io, .regs] s t ∧
    ∀ x, x < 52 → s.sup.heelHeld = false → s.stageRetired x = false → (s.stage x).due = none → (s.stage x).uv = false → s.owner x = none →
      (s.stage x).closed = 0 → (s.stage x).after = none → s.needDead x (onMask x (s.desired x).mode) = false →
      (pwmMode x (s.desired x).mode = false → (t.stage x).closed = onMask x (s.desired x).mode ∨
        (x < 48 ∧ (onMask x (s.desired x).mode).testBit 0 = true ∧ (t.stage x).fresh = true)) ∧
      (pwmMode x (s.desired x).mode = true → (t.stage x).pend = [(s.desired x, s.heelDtb)]))) ∧
  (∀ (s : State) (x : Fin 48),
    ((s.stage x.val).closed ≠ 0 → (s.stage x.val).since = none → Completes (.stageCurrentLimit x true) s (fun t =>
      t.stage x.val = { s.stage x.val with since := some s.heelDtb, limited := true } ∧ t.fld (diagReg x.val) F.HSO_DIAG.PROT = 1 ∧ StageOnly x.val s t ∧
        RegsOnly [diagReg x.val, R.HSO_EVT_LO, R.HSO_EVT_HI, R.HBR_EVT] s t ∧ Only [.io, .regs] s t)) ∧
    (∀ d, (s.stage x.val).since = some d → Completes (.stageCurrentLimit x false) s (fun t =>
      t.stage x.val = { s.stage x.val with since := none, trip := (s.stage x.val).trip + (s.heelDtb.toNat - d.toNat) } ∧ t.fld (diagReg x.val) F.HSO_DIAG.PROT = 0 ∧
        StageOnly x.val s t ∧ RegsOnly [diagReg x.val, R.HSO_EVT_LO, R.HSO_EVT_HI, R.HBR_EVT] s t ∧ Only [.io, .regs] s t)) ∧
    (∀ d, (s.stage x.val).since = some d → s.tripTime x.val ≤ (s.stage x.val).trip + (s.heelDtb.toNat - d.toNat) →
      (s.owner x.val = none → s.restarts x.val + 1 ≤ s.restartMax x.val → Completes (.stageTrip x) s (fun t => s.tripped t x.val 2)) ∧
      (s.owner x.val = none → s.restartMax x.val ≤ s.restarts x.val → s.sup.soleHeld = true → Completes (.stageTrip x) s (fun t =>
        (t.stage x.val).dead = true ∧ (t.stage x.val).closed = 0 ∧ (t.stage x.val).due = none ∧ ∃ y, t.sup.late = s.sup.late ++ [y] ∧ y.item.unit = stageUnit x.val)) ∧
      (s.owner x.val = none → s.restartMax x.val ≤ s.restarts x.val → s.heelUp = true → s.sup.late = [] → s.testing (stageUnit x.val) = false →
        s.outOfService (stageUnit x.val) = false → Completes (.stageTrip x) s (fun t => t.stageRetired x.val = true ∧ (t.stage x.val).closed = 0)) ∧
      (∀ k, s.owner x.val = some k → s.restarts x.val + 1 ≤ s.restartMax x.val → Completes (.stageTrip x) s (fun t =>
        t.pat k = none ∧ t.fld (R.HBR_PATSTAT k) F.HBR_PATSTAT.STATE = 5 ∧ (t.stage x.val).closed = 0))) ∧
    (s.stageBlocked x.val = false → (s.stage x.val).cur.mode ≠ 0 ∨ (s.stage x.val).closed ≠ 0 → s.owner x.val = none → s.restarts x.val + 1 ≤ s.restartMax x.val →
      Completes (.stageOvertemp x) s (fun t => s.tripped t x.val 3))) ∧
  (∀ (s : State) (x : Fin 52) d (cool : Bool), (s.stage x.val).due = some d → d.toNat ≤ s.heelDtb.toNat → cool = true ∨ 48 ≤ x.val ∨ s.fld (diagReg x.val) F.HSO_DIAG.PROT ≠ 3 →
    Completes (.stageRestart x cool) s (fun t =>
    (t.stage x.val).due = none ∧ (if x.val < 48 then t.fld (diagReg x.val) F.HSO_DIAG.PROT else t.fld (diagReg x.val) F.HBR_PSTAT.STATE) = 0 ∧ StageOnly x.val s t ∧
      Only [.io, .regs] s t ∧ (s.sup.heelHeld = false → s.sup.ovOff = false → s.stageRetired x.val = false → (s.stage x.val).uv = false → s.owner x.val = none →
        (s.stage x.val).closed = 0 → (s.stage x.val).after = none → s.needDead x.val (onMask x.val (s.desired x.val).mode) = false →
        (pwmMode x.val (s.desired x.val).mode = false → (48 ≤ x.val ∨ s.edgeClear x.val → (t.stage x.val).closed = onMask x.val (s.desired x.val).mode) ∧
          (s.rises x.val (onMask x.val (s.desired x.val).mode) = true → s.edgeBusy x.val = true → (t.stage x.val).fresh = true)) ∧
        (pwmMode x.val (s.desired x.val).mode = true → (t.stage x.val).pend = [(s.desired x.val, s.heelDtb)])))) ∧
  (∀ (s : State) (x : Fin 52) d, (s.stage x.val).shutAt = some d → d.toNat + 100000000 ≤ s.heelDtb.toNat →
    (s.restarts x.val = 0 ∨ s.stageRetired x.val = true → Completes (.restartCountClear x) s (fun t => t.restarts x.val = 0 ∧ (t.stage x.val).shutAt = none ∧ StageOnly x.val s t ∧
      RegsOnly [diagReg x.val] s t ∧ Only [.io, .regs] s t)) ∧
    (s.restarts x.val ≠ 0 → s.stageRetired x.val = false → s.heelUp = false → Completes (.restartCountClear x) s (fun t => t.restarts x.val = 0 ∧ (t.stage x.val).shutAt = none ∧
      (∃ y, t.sup.late = s.sup.late ++ [y] ∧ y.item.unit = stageUnit x.val ∧ y.item.retries = s.restarts x.val) ∧ RegsOnly [diagReg x.val] s t ∧ Only [.io, .regs, .sup] s t))) ∧
  (∀ (s : State) (p : Fin 4), let x := 48 + p.val
    (∀ f : Fin 4, s.vdsSeen x f.val = true → s.stageBlocked x = false → s.owner x = none → s.restarts x + 1 ≤ s.restartMax x →
      Completes (.pdVdsFault p f) s (fun t => s.tripped t x 1 ∧ t.fld (R.HBR_PSTAT p.val) F.HBR_PSTAT.VDS_FET = 2 ^ f.val)) ∧
    ((s.stage x).closed ≠ 0 → s.on (R.HBR_PCFG p.val) F.HBR_PCFG.SHUNT = true → s.on (R.HBR_PCFG p.val) F.HBR_PCFG.OC_LIM = true → s.stageBlocked x = false →
      s.owner x = none → s.restarts x + 1 ≤ s.restartMax x → Completes (.pdOvercurrent p) s (fun t => s.tripped t x 2)) ∧
    (s.sup.heelHeld = false → Completes (.pdPumpUndervoltage p) s (fun t => (t.stage x).uv = true ∧ (t.stage x).closed = 0 ∧ (t.stage x).after = none ∧
      StageOnly x s t ∧ Only [.io, .regs] s t)) ∧
    ((s.stage x).uv = true → Completes (.pdPumpRecover p) s (fun t => (t.stage x).uv = false ∧ StageOnly x s t ∧ Only [.io, .regs] s t ∧
      (s.sup.heelHeld = false → s.sup.ovOff = false → s.stageRetired x = false → (s.stage x).due = none → s.owner x = none → (s.stage x).closed = 0 →
        (s.stage x).after = none → s.needDead x (onMask x (s.desired x).mode) = false → pwmMode x (s.desired x).mode = false → (t.stage x).closed = onMask x (s.desired x).mode))) ∧
    (∀ uv : Int, let n := s.fld (R.HBR_PCFG p.val) F.HBR_PCFG.SHUNT
      let i := (max (-200000) (min 200000 uv)).tdiv n
      s.sup.heelHeld = false → n ≠ 0 → Completes (.pdCurrentSample p uv) s (fun t =>
        (-32768 ≤ i → i < 32768 → (BitVec.ofNat 16 (t.fld (R.HBR_PCUR p.val) F.HBR_PCUR.CUR)).toInt = i ∧ Only [.regs] s t) ∧ RegsOnly [R.HBR_PCUR p.val] s t ∧
        Only [.regs, .free] s t)))

/-- R466–R469, R473, R475, R481–R483: diagnosis, the keep paths and the patterns. -/
def Obligations.DiagnosisKeepsAndPatternsAct : Prop :=
  (∀ (s : State) (x : Fin 48) (op : Bool) ma, s.diagOn = true → s.onDiag x.val = true → longOn x.val (s.stage x.val).cur = true → s.onPhase x.val = true →
    (s.stage x.val).onAt + 4000 ≤ s.tb.body →
    (s.stage x.val).mark = none ∨ (∃ m, (s.stage x.val).mark = some m ∧ (s.stage x.val).inPwm x.val = false ∧ m + 100000 ≤ s.tb.body) →
    Completes (.hsoOnMeasure x op ma) s (fun t =>
      s.measuredAs t x.val 1 (if op then 2 else 1) ∧ t.fld (if x.val < 40 then R.HSO_CUR x.val else R.HBR_HCUR (x.val - 40)) F.HSO_CUR.CUR = ma.toNat ∧
        (t.stage x.val).sampled = some s.diagNow ∧ (t.stage x.val).mark = some s.tb.body)) ∧
  (∀ (s : State) (x : Fin 40) (op : Bool) ma, s.diagOn = true → (s.stage x.val).probe = true → s.onPhase x.val = true → (s.stage x.val).onAt + 4000 ≤ s.tb.body →
    (s.stage x.val).mark = none → Completes (.hsoProbePulse x op ma) s (fun t =>
      s.measuredAs t x.val 2 (if op then 2 else 1) ∧ t.fld (R.HSO_CUR x.val) F.HSO_CUR.CUR = ma.toNat ∧ (t.stage x.val).sampled = some s.diagNow ∧
        (t.stage x.val).mark = some s.tb.body)) ∧
  (∀ (s : State) (x : Fin 40) d, (s.stage x.val).offAt = some d →
    (s.on (R.HSO_DCFG x.val) F.HSO_DCFG.OFFDIAG = true → s.diagOn = true → (s.stage x.val).closed = 0 → (s.stage x.val).off = 0 → s.stageRetired x.val = false →
      s.sup.heelHeld = false → d + 10000 ≤ s.tb.body →
      Completes (.hsoOffPullup x) s (fun t => t.stage x.val = { s.stage x.val with off := 1 } ∧ StageOnly x.val s t ∧ Only [.io] s t)) ∧
    (∀ high : Bool, (s.stage x.val).off = 1 → d + 25000 ≤ s.tb.body → Completes (.hsoOffOpenMeasure x high) s (fun t =>
      t.stage x.val = { s.stage x.val with off := if high then 3 else 2 } ∧ StageOnly x.val s t ∧ Only [.io] s t)) ∧
    (∀ high : Bool, (s.stage x.val).off = 2 ∨ (s.stage x.val).off = 3 → d + 30000 ≤ s.tb.body → s.diagOn = true → Completes (.hsoOffShortMeasure x high) s (fun t =>
      s.measuredAs t x.val 3 (if (s.stage x.val).off = 2 then 1 else if high then 3 else 2) ∧ (t.stage x.val).off = 0 ∧
        (t.stage x.val).offAt = some (s.tb.body + 970000)))) ∧
  (∀ (s : State) (x : Fin 48), s.sup.heelHeld = false → s.stageRetired x.val = false → s.ageOut (s.stage x.val).meas = true → Completes (.diagAgeOut x) s (fun t =>
    t.fld (diagReg x.val) F.HSO_DIAG.STATE = 0 ∧ t.stage x.val = { s.stage x.val with val := 0, cnt := 0 } ∧ StageOnly x.val s t ∧
      RegsOnly [diagReg x.val, R.HSO_EVT_LO, R.HSO_EVT_HI, R.HBR_EVT] s t ∧ Only [.io, .regs] s t)) ∧
  (∀ (s : State) (k : Fin 2), let v := s.aonRd R.HSO_KEEP
    let bon := max 1 (fget v F.HSO_KEEP.BON)
    let per := max 1 (fget v F.HSO_KEEP.BPER)
    ((s.keep k.val).armed = true → keepMode v k.val = 2 → Completes (.keepBlink k) s (fun t =>
      t.keep k.val = { s.keep k.val with lit := decide ((s.tb.rtc - (s.keep k.val).from_).toNat % (16384 * per) < 256 * bon) } ∧ (∀ j, j ≠ k.val → t.keep j = s.keep j) ∧ Only [.io] s t)) ∧
    (s.keepActive v k.val = true → Completes (.keepTrip k) s (fun t => t.keep k.val = { s.keep k.val with tripped := true } ∧ t.bit R.HSO_KEEP_STAT k.val = true ∧
      (∀ j, j ≠ k.val → t.keep j = s.keep j) ∧ RegsOnly [R.HSO_KEEP_STAT] s t ∧ Only [.io, .regs] s t))) ∧
  (∀ (s : State) i (k : Fin 4), let xs := s.patStages k.val
    s.takes i (R.HBR_PATCTL k.val) 1 = true → s.pat k.val = none →
    (xs.Nodup → (∀ x, x ∈ xs → s.stageRetired x = false ∧ s.owner x = none) → s.fld (R.HBR_PATSTEP k.val 0) F.HBR_PATSTEP.END ≠ 2 → Completes (.patternStart i k) s (fun t =>
      t.pat k.val = some s.heelDtb ∧ t.fld (R.HBR_PATSTAT k.val) F.HBR_PATSTAT.STATE = 1 ∧ t.fld (R.HBR_PATSTAT k.val) F.HBR_PATSTAT.STEP = 0 ∧
        (∀ x, x ∈ xs → s.stageBlocked x = false → s.edgedTo t x (driveMask (decide (48 ≤ x)) (xs.headD 0 != x) (s.fld (R.HBR_PATSTEP k.val 0) F.HBR_PATSTEP.DRIVE))) ∧
        (∀ x, x ∉ xs → t.stage x = s.stage x) ∧ Only [.io, .regs, .noc] s t)) ∧
    (¬ xs.Nodup ∨ (∃ x, x ∈ xs ∧ (s.stageRetired x = true ∨ (s.owner x).isSome = true)) → Completes (.patternStart i k) s (fun t =>
      t.fld (R.HBR_PATSTAT k.val) F.HBR_PATSTAT.STATE = 6 ∧ WroteOnly i [R.HBR_PATSTAT k.val] s t ∧ Only [.regs, .noc] s t))) ∧
  (∀ (s : State) i (k : Fin 4) d, s.takes i (R.HBR_PATCTL k.val) 2 = true → s.pat k.val = some d → Completes (.patternAbort i k) s (fun t => t.pat k.val = none ∧
    t.fld (R.HBR_PATSTAT k.val) F.HBR_PATSTAT.STATE = 4 ∧ t.bit R.HBR_EVT (12 + k.val) = true ∧
    (∀ x, x ∈ s.patStages k.val → (t.stage x).closed = 0 ∧ t.fld (ctlReg x) F.HBR_HCTL.MODE = 0) ∧ (∀ x, x ∉ s.patStages k.val → t.stage x = s.stage x) ∧ Only [.io, .regs, .noc] s t)) ∧
  (∀ (s : State) (k : Fin 4) d, s.pat k.val = some d →
    let n := s.fld (R.HBR_PATSTAT k.val) F.HBR_PATSTAT.STEP
    let w := s.rd (R.HBR_PATSTEP k.val n)
    let goes (c : Instr) : Prop :=
      (s.fld (R.HBR_PATCFG k.val) F.HBR_PATCFG.NSTEPS ≤ n → Completes c s (fun t => t.pat k.val = none ∧ t.fld (R.HBR_PATSTAT k.val) F.HBR_PATSTAT.STATE = 2 ∧
        Only [.io, .regs, .noc] s t)) ∧
      (n < s.fld (R.HBR_PATCFG k.val) F.HBR_PATCFG.NSTEPS → s.fld (R.HBR_PATSTEP k.val (n + 1)) F.HBR_PATSTEP.END ≠ 2 → Completes c s (fun t =>
        t.pat k.val = some s.heelDtb ∧ t.fld (R.HBR_PATSTAT k.val) F.HBR_PATSTAT.STEP = n + 1 ∧ Only [.io, .regs, .noc] s t))
    (d.toNat + 100000 * max 1 (fget w F.HBR_PATSTEP.DUR) ≤ s.heelDtb.toNat →
      (fget w F.HBR_PATSTEP.END = 0 → goes (.patternStepTime k)) ∧
      (fget w F.HBR_PATSTEP.END = 1 ∨ (fget w F.HBR_PATSTEP.END = 2 ∧ s.patSwitch k.val = false) → Completes (.patternStepTime k) s (fun t =>
        t.pat k.val = none ∧ t.fld (R.HBR_PATSTAT k.val) F.HBR_PATSTAT.STATE = 3 ∧ Only [.io, .regs] s t))) ∧
    (d.toNat + 500000 ≤ s.heelDtb.toNat → fget w F.HBR_PATSTEP.END = 1 → goes (.patternStall k)))

/-! ### Inputs -/

/-- R123, R487–R493, R495–R498, R500, R502: the switch inputs, cyclic sensing and the quadrature decoders. -/
def Obligations.InputsAct : Prop :=
  (∀ (s : State) tag, s.hcmdHead = some (4, tag, []) → s.bridgeLive 16 = true → s.boot.rx = [] → Completes .hcmdInRead s (fun t =>
    t.boot.tx = s.boot.tx.drop 1 ∧ t.boot.rx = [BitVec.ofNat 32 (512 + tag * 65536), s.rd R.SWI_LVL_LO, s.rd R.SWI_LVL_HI] ∧ Only [.boot] s t)) ∧
  (∀ (s : State) pins, s.sup.heelHeld = false → s.swDue = true → (∀ k, k < 4 → s.pat k = none) → Completes (.swiSample pins) s (fun t => Only [.io, .regs, .free] s t ∧
    t.io.outs = s.io.outs ∧ t.io.swi.last = some s.tb.body ∧ ∀ i, i < 64 → let n := tabGet natZero s.io.swi.cand i + 1
      let f := max 1 (s.fld (R.SWI_CFG i) F.SWI_CFG.FILT)
      let lv := t.io.swi.raw.getLsbD i
      s.rawOf i (pins.getD i 0) lv ∧
      (lv = s.swLevel i → t.swLevel i = lv ∧ tabGet natZero t.io.swi.cand i = 0) ∧
      (lv ≠ s.swLevel i → f ≤ n → t.swLevel i = lv ∧ tabGet natZero t.io.swi.cand i = 0 ∧
        ((s.fld (R.SWI_CFG i) F.SWI_CFG.IRQEDGE).testBit (if lv then 0 else 1) = true → t.bit (swReg R.SWI_EVT_LO R.SWI_EVT_HI i) (i % 32) = true)) ∧
      (lv ≠ s.swLevel i → n < f → t.swLevel i = s.swLevel i ∧ tabGet natZero t.io.swi.cand i = n) ∧
      (s.on (R.SWI_CFG i) F.SWI_CFG.ANA = true → t.bit (R.SWI_ADC i) 31 = true ∧ adcWithin (pins.getD i 0) (t.fld (R.SWI_ADC i) F.SWI_ADC.V)))) ∧
  (∀ (s : State) pins, s.cycDue = true → s.swMoved ≠ [] → Completes (.swiCyclicSample pins) s (fun t => RegsOnly [R.SWI_WCHG_LO, R.SWI_WCHG_HI] s t ∧
    Only [.io, .regs, .free] s t ∧ t.io.swi.cycAt = some s.tb.rtc ∧ ∀ i, i < 64 → s.rawOf i (pins.getD i 0) (t.io.swi.raw.getLsbD i) ∧ (s.swNamed i = true →
      let n := tabGet natZero s.io.swi.diff i + 1
      let ref := s.bit (swReg R.SWI_CYC_REF_LO R.SWI_CYC_REF_HI i) (i % 32)
      (t.io.swi.raw.getLsbD i = ref → tabGet natZero t.io.swi.diff i = 0) ∧
      (t.io.swi.raw.getLsbD i ≠ ref → tabGet natZero t.io.swi.diff i = n ∧ (fget (s.aonRd R.SWI_CYC_CFG) F.SWI_CYC_CFG.CFILT + 1 ≤ n →
        t.bit (swReg R.SWI_WCHG_LO R.SWI_WCHG_HI i) (i % 32) = true))))) ∧
  (∀ (s : State) (n : Fin 4) pa pb, s.sup.heelHeld = false → s.isRetired (qdecUnit n.val) = false → s.qdecDue n.val = true →
    (s.qdec n.val).learn = false →
    let y := s.qdec n.val
    let f := max 1 (s.fld (R.QDEC_CFG n.val) F.QDEC_CFG.FILT)
    let fa := lineFilt f y.a y.ca pa
    let fb := lineFilt f y.b y.cb pb
    let swap := s.bit (R.QDEC_CFG n.val) 8
    let old := if swap then (y.b, y.a) else (y.a, y.b)
    let new := if swap then (fb.1, fa.1) else (fa.1, fb.1)
    let kept (t : State) : Prop := (t.qdec n.val).a = fa.1 ∧ (t.qdec n.val).b = fb.1 ∧ (t.qdec n.val).ca = fa.2 ∧ (t.qdec n.val).cb = fb.2 ∧
      (∀ j, j ≠ n.val → t.qdec j = s.qdec j) ∧ Only [.io, .regs] s t
    (s.bit (R.QDEC_CFG n.val) 0 = false ∨ old = new → Completes (.qdecSample n pa pb) s (fun t => kept t ∧ Only [.io] s t)) ∧
    (s.bit (R.QDEC_CFG n.val) 0 = true → old.1 ≠ new.1 → old.2 ≠ new.2 → Completes (.qdecSample n pa pb) s (fun t => kept t ∧
      t.fld (R.QDEC_STAT n.val) F.QDEC_STAT.ERRCNT = min (s.fld (R.QDEC_STAT n.val) F.QDEC_STAT.ERRCNT + 1) (2 ^ F.QDEC_STAT.ERRCNT.w - 1) ∧
      t.fld (R.QDEC_STAT n.val) F.QDEC_STAT.UNCERTAIN = 1 ∧ t.fld (R.QDEC_STAT n.val) F.QDEC_STAT.REF_VALID = 0 ∧ t.bit R.QDEC_EVT n.val = true ∧
      RegsOnly [R.QDEC_STAT n.val, R.QDEC_EVT] s t)) ∧
    (s.bit (R.QDEC_CFG n.val) 0 = true → old ≠ new → old.1 = new.1 ∨ old.2 = new.2 → Completes (.qdecSample n pa pb) s (fun t => kept t ∧
      (let fwd := decide (new = if old.1 = old.2 then (!old.1, old.2) else (old.1, !old.2))
       t.rd (R.QDEC_POS n.val) = (if fwd then s.rd (R.QDEC_POS n.val) + 1 else s.rd (R.QDEC_POS n.val) - 1) ∧
         t.fld (R.QDEC_STAT n.val) F.QDEC_STAT.DIR = if fwd then 0 else 1) ∧
      (t.qdec n.val).last = s.heelDtb ∧ (y.counts ≠ 0 → t.rd (R.QDEC_PERIOD n.val) = BitVec.ofNat 32 (min (s.heelDtb.toNat - y.last.toNat) 0xFFFFFFFF)) ∧
      RegsOnly [R.QDEC_POS n.val, R.QDEC_STAT n.val, R.QDEC_PERIOD n.val] s t))) ∧
  (∀ (s : State) (n : Fin 4) pa pb, s.sup.heelHeld = false → s.isRetired (qdecUnit n.val) = false → s.qdecDue n.val = true →
    (s.qdec n.val).learn = true → Completes (.qdecSample n pa pb) s (fun t =>
    t.rd (R.QDEC_POS n.val) = s.rd (R.QDEC_REFPOS n.val) ∧ t.fld (R.QDEC_STAT n.val) F.QDEC_STAT.REF_VALID = 1 ∧ t.fld (R.QDEC_STAT n.val) F.QDEC_STAT.UNCERTAIN = 0 ∧
      (t.qdec n.val).learn = false ∧ t.bit (R.QDEC_CTL n.val) 0 = false)) ∧
  (∀ (s : State) i (n : Fin 4),
    (s.takes i (R.QDEC_CTL n.val) 1 = true → s.isRetired (qdecUnit n.val) = false → Completes (.qdecLearn i n) s (fun t =>
      t.qdec n.val = { s.qdec n.val with learn := true } ∧ t.bit (R.QDEC_CTL n.val) 0 = true ∧ WroteOnly i [R.QDEC_CTL n.val] s t ∧ Only [.io, .regs, .noc] s t)) ∧
    (s.takes i (R.QDEC_CTL n.val) 2 = true → Completes (.qdecClrerr i n) s (fun t =>
      t.fld (R.QDEC_STAT n.val) F.QDEC_STAT.ERRCNT = 0 ∧ t.fld (R.QDEC_STAT n.val) F.QDEC_STAT.UNCERTAIN = s.fld (R.QDEC_STAT n.val) F.QDEC_STAT.UNCERTAIN ∧
        WroteOnly i [R.QDEC_STAT n.val] s t ∧ Only [.regs, .noc] s t)) ∧
    (∀ v, s.takes i (R.QDEC_POS n.val) v = true →
      (s.bit (R.QDEC_CFG n.val) 0 = false → Completes (.qdecPosWrite i n v) s (fun t => t.rd (R.QDEC_POS n.val) = v ∧
        t.fld (R.QDEC_STAT n.val) F.QDEC_STAT.REF_VALID = 0 ∧ WroteOnly i [R.QDEC_POS n.val, R.QDEC_STAT n.val] s t ∧ Only [.regs, .noc] s t)) ∧
      (s.bit (R.QDEC_CFG n.val) 0 = true → Completes (.qdecPosWrite i n v) s (fun t => t.bit R.QDEC_EVT (4 + n.val) = true ∧ WroteOnly i [R.QDEC_EVT] s t ∧
        Only [.regs, .noc] s t)))) ∧
  (∀ (s : State) (n : Fin 4) bad, s.sup.heelHeld = false → s.isRetired (qdecUnit n.val) = false →
    (bad = 0 → Completes (.qdecSelfCheck n bad) s (fun t => t = s)) ∧
    (bad ≠ 0 → s.heelUp = false → Completes (.qdecSelfCheck n bad) s (fun t => Only [.sup] s t ∧ ∃ y, t.sup.late = s.sup.late ++ [y] ∧ y.item.unit = qdecUnit n.val)) ∧
    (bad ≠ 0 → s.heelUp = true → s.sup.late = [] → bad ≤ s.retryCount 0xB → Completes (.qdecSelfCheck n bad) s (fun t => LoggedOnly [R.FLT_STAT, R.FLT_RECUR] s t ∧ Only [.regs, .mem, .lines, .flt, .cores, .net, .noc] s t ∧
      t.flt.retired = s.flt.retired)) ∧
    (s.retryCount 0xB < bad → s.heelUp = true → s.sup.late = [] → s.testing (qdecUnit n.val) = false → s.outOfService (qdecUnit n.val) = false → Completes (.qdecSelfCheck n bad) s (fun t =>
      t.isRetired (qdecUnit n.val) = true)))

/-! ### Message buses and the Last matrix -/

/-- R503–R517, R528: a message bus controller's INIT, requests, attempts, reception, errors and recovery. -/
def Obligations.MessageBusesAct : Prop :=
  (∀ (s : State) i (n : Fin 8) v, let a := R.MBC_CTL n.val
    (s.takes i a (v &&& ~~~1) = true → s.mbcInit n.val = true →
      (s.timingOk n.val = true → Completes (.mbcInitClear i n v) s (fun t => t.rd a = (s.rd a &&& ~~~0x3F) ||| (v &&& 0x3E) ∧ t.fld (R.MBC_STAT n.val) F.MBC_STAT.PXE = 0 ∧
        WroteOnly i [a, R.MBC_STAT n.val] s t ∧ Only [.regs, .noc] s t)) ∧
      (s.timingOk n.val = false → Completes (.mbcInitClear i n v) s (fun t => t.bit (R.MBC_EVT n.val) 11 = true ∧ WroteOnly i [R.MBC_EVT n.val] s t ∧ Only [.regs, .noc] s t))) ∧
    (s.takes i a (v ||| 1) = true → s.mbcInit n.val = false → s.mbcState n.val < 2 → (s.mbc n.val).tx = none → (s.mbc n.val).cell = none →
      Completes (.mbcInitSet i n v) s (fun t => t.mbcInit n.val = true ∧ t.rd (R.MBC_ECNT n.val) = 0 ∧ t.mbcState n.val = 0 ∧ t.rd (R.MBC_TXREQ n.val) = 0 ∧
        (t.mbc n.val).joined = false ∧ MbcOnly n.val s t ∧ Only [.io, .regs, .noc] s t))) ∧
  (∀ (s : State) (n : Fin 8), let x := s.mbc n.val
    s.mbcUp n.val = true → s.mbcInit n.val = false → s.mbcState n.val < 2 → x.joined = false → x.tx = none →
    (s.mbcReady n.val = [] → Completes (.mbcBusIntegrated n) s (fun t => t.mbc n.val = { x with joined := true } ∧ t.fld (R.MBC_STAT n.val) F.MBC_STAT.ACT = 1 ∧
      MbcOnly n.val s t ∧ RegsOnly [R.MBC_STAT n.val] s t ∧ Only [.io, .regs] s t)) ∧
    (∀ b l, s.fld (R.MBC_CTL n.val) F.MBC_CTL.MODE = 0 ∨ s.fld (R.MBC_CTL n.val) F.MBC_CTL.MODE = 3 → s.mbcReady n.val = [(b, l)] → txBad (txFrame l) = false →
      Completes (.mbcBusIntegrated n) s (fun t => (t.mbc n.val).joined = true ∧ (t.mbc n.val).tx = some b ∧ (t.mbc n.val).snap = l ∧
        t.fld (R.MBC_STAT n.val) F.MBC_STAT.ACT = 3 ∧ MbcOnly n.val s t ∧ RegsOnly [R.MBC_STAT n.val] s t ∧ Only [.io, .regs] s t))) ∧
  (∀ (s : State) i (n : Fin 8), s.takes i (R.MBC_CTL n.val) (s.rd (R.MBC_CTL n.val) ||| 0x100) = true → s.mbcInit n.val = false →
    (s.mbcState n.val = 2 → Completes (.mbcRecover i n) s (fun t => t.mbcState n.val = 3 ∧ WroteOnly i [R.MBC_STAT n.val] s t ∧ Only [.regs, .noc] s t)) ∧
    (s.mbcState n.val ≠ 2 → Completes (.mbcRecover i n) s (WritesRegs i [] s))) ∧
  (∀ (s : State) (n : Fin 8), s.mbcUp n.val = true → s.mbcInit n.val = false → s.mbcState n.val = 3 → Completes (.mbcRecovered n) s (fun t => t.mbcState n.val = 0 ∧
    t.rd (R.MBC_ECNT n.val) = 0 ∧ t.bit (R.MBC_EVT n.val) 8 = true ∧ (t.mbc n.val).joined = true ∧ MbcOnly n.val s t ∧ Only [.io, .regs] s t)) ∧
  (∀ (s : State) i (n : Fin 8) v, let a := R.MBC_TXREQ n.val
    s.takes i a v = true →
    (s.mbcCanSend n.val = false ∨ (s.mbc n.val).tx ≠ none → Completes (.mbcTxreq i n v) s (fun t =>
      (∀ b, b < 32 → t.bit a b = (s.bit a b || (v.getLsbD b && !s.lastOwns n.val b))) ∧ (t.mbc n.val).tx = (s.mbc n.val).tx ∧ MbcOnly n.val s t ∧ WroteOnly i [a] s t ∧
        Only [.io, .regs, .noc] s t)) ∧
    (∀ b : Fin 32, let l := s.bytes (txElem n.val b.val) 80
      s.mbcCanSend n.val = true → (s.mbc n.val).tx = none → (s.mbc n.val).cell = none → s.rd a = 0 → s.on (R.MBC_PT_STAT n.val) F.MBC_PT_STAT.PTX_BUSY = false →
      s.lastRun n.val = false → s.lastState n.val ≠ 2 → v = BitVec.ofNat 32 (2 ^ b.val) →
      (txBad (txFrame l) = false → Completes (.mbcTxreq i n v) s (fun t => (t.mbc n.val).tx = some b.val ∧ (t.mbc n.val).snap = l ∧ (t.mbc n.val).txCell = none ∧
        t.bit a b.val = true ∧ t.fld (R.MBC_STAT n.val) F.MBC_STAT.ACT = 3 ∧ MbcOnly n.val s t ∧ WroteOnly i [a, R.MBC_STAT n.val] s t ∧ Only [.io, .regs, .noc] s t)) ∧
      (txBad (txFrame l) = true → (s.mbc n.val).fails.length < 16 → Completes (.mbcTxreq i n v) s (fun t => (t.mbc n.val).tx = none ∧
        (t.mbc n.val).fails = (s.mbc n.val).fails ++ [⟨b.val, 6, 0, 0, s.heelDtb⟩] ∧ t.bit a b.val = false ∧ t.bit (R.MBC_EVT n.val) 4 = true)))) ∧
  (∀ (s : State) i (n : Fin 8) (b : Fin 32), let v := BitVec.ofNat 32 (2 ^ b.val)
    let x := s.mbc n.val
    s.takes i (R.MBC_TXCAN n.val) v = true →
    (x.tx = none → x.cell = none → s.bit (R.MBC_TXREQ n.val) b.val = true → x.fails.length < 16 → Completes (.mbcTxcan i n v) s (fun t =>
      t.bit (R.MBC_TXREQ n.val) b.val = false ∧ t.mbc n.val = { x with fails := x.fails ++ [⟨b.val, 8, 0, 0, s.heelDtb⟩], since := x.since.filter (fun p => p.1 != b.val) } ∧
        t.bit (R.MBC_EVT n.val) 4 = true ∧ WroteOnly i [R.MBC_TXREQ n.val, R.MBC_TXCAN n.val, R.MBC_EVT n.val] s t ∧ Only [.io, .regs, .noc] s t)) ∧
    (x.tx = some b.val → x.orphan = false → x.abort = none → x.txCell = none → x.cell = none → Completes (.mbcTxcan i n v) s (fun t => t.bit (R.MBC_TXCAN n.val) b.val = true ∧
      t.mbc n.val = { x with abort := some 8 } ∧ WroteOnly i [R.MBC_TXCAN n.val] s t ∧ Only [.io, .regs, .noc] s t))) ∧
  (∀ (s : State) (n : Fin 8) (b : Fin 32) (b33 : Fin 33) sof tdcv, let x := s.mbc n.val
    let a := R.MBC_TXREQ n.val
    b33.val = b.val → s.mbcUp n.val = true → s.mbcInit n.val = false → x.tx = some b.val → x.orphan = false → x.txCell = none →
    (∀ lo hi, x.win = some (lo, hi) → lo ≤ sof.toNat ∧ sof.toNat < hi) → (n.val < 4 → s.mbState n.val = 4) →
    (s.mbcTec n.val ≤ 256 → s.fld (R.MBC_CTL n.val) F.MBC_CTL.MODE ≠ 3 → Completes (.mbcTxAttemptEnd n b33 sof tdcv .ok) s (fun t =>
      t.bit a b.val = false ∧ t.bit (R.MBC_TXDONE n.val) b.val = true ∧ t.bit (R.MBC_EVT n.val) 3 = true ∧ t.mbcTec n.val = s.mbcTec n.val - 1 ∧
        t.bytes (txElem n.val b.val + 8) 8 = leBytes 8 sof.toNat ∧ BytesOnly (txElem n.val b.val + 8) 8 s t)) ∧
    (x.abort = none → s.bit (R.MBC_CTL n.val) 3 = false → txOneshot x.snap = false → txBad (txFrame (s.bytes (txElem n.val b.val) 80)) = false → s.bit a b.val = true →
      Completes (.mbcTxAttemptEnd n b33 sof tdcv .lost) s (fun t => t.bit a b.val = true)) ∧
    (x.abort = none → s.bit (R.MBC_CTL n.val) 3 = true ∨ txOneshot x.snap = true → Completes (.mbcTxAttemptEnd n b33 sof tdcv .lost) s (fun t => t.bit a b.val = false)) ∧
    (∀ e data more, e ≠ BusErr.ack → s.mbcTec n.val + 8 + 8 * more ≤ 255 → Completes (.mbcTxAttemptEnd n b33 sof tdcv (.err e data false more)) s (fun t =>
      t.mbcTec n.val = s.mbcTec n.val + 8 + 8 * more ∧ t.fld (R.MBC_STAT n.val) (if data then F.MBC_STAT.DLEC else F.MBC_STAT.LEC) = lecCode e))) ∧
  (∀ (s : State) (n : Fin 8) (f : CanFrame) stamp, let st := R.MBC_RXF_STAT n.val
    let fill := s.fld st F.MBC_RXF_STAT.FILL
    let at_ := msgRam n.val (0xA00 + 0x50 * ((s.fld st F.MBC_RXF_STAT.GET + fill) % 48))
    s.mbcListens n.val = true → s.mbcRec n.val ≤ 127 → s.mbcTec n.val ≤ 255 →
    (∀ j, s.filterOf n.val f = some j → s.fld (R.MBC_FLT_ID n.val j) F.MBC_FLT_ID.ACT = 1 → fill < 48 → Completes (.mbcFrameReceived n f stamp) s (fun t =>
      t.bytes at_ 80 = rxElem f (some j) stamp ∧ BytesOnly at_ 80 s t ∧ t.fld st F.MBC_RXF_STAT.FILL = fill + 1 ∧ t.bit (R.MBC_EVT n.val) 0 = true ∧
        t.mbcRec n.val = s.mbcRec n.val - 1)) ∧
    (s.filterOf n.val f = none → s.bit (R.MBC_CTL n.val) 5 = false → Completes (.mbcFrameReceived n f stamp) s (fun t => t.mem = s.mem ∧ t.fld st F.MBC_RXF_STAT.FILL = fill ∧
      t.mbcRec n.val = s.mbcRec n.val - 1))) ∧
  (∀ (s : State) i (n : Fin 8), let st := R.MBC_RXF_STAT n.val
    (s.takes i (R.MBC_RXF_ACK n.val) 0 = true → s.fld st F.MBC_RXF_STAT.FILL ≠ 0 → Completes (.mbcRxfAck i n) s (fun t =>
      t.fld st F.MBC_RXF_STAT.FILL = s.fld st F.MBC_RXF_STAT.FILL - 1 ∧ t.fld st F.MBC_RXF_STAT.GET = (s.fld st F.MBC_RXF_STAT.GET + 1) % 48 ∧ WroteOnly i [st] s t ∧
        Only [.regs, .noc] s t)) ∧
    (s.takes i (R.MBC_FAIL_POP n.val) 0 = true → Completes (.mbcFailPop i n) s (fun t => t.mbc n.val = { s.mbc n.val with fails := (s.mbc n.val).fails.drop 1 } ∧
      MbcOnly n.val s t ∧ WroteOnly i [] s t ∧ Only [.io, .regs, .noc] s t))) ∧
  (∀ (s : State) (n : Fin 8) k, s.mbcUp n.val = true →
    Completes (.mbcRamError n .corrected k) s (fun t => t.fld (R.MBC_STAT n.val) F.MBC_STAT.RAMCE = 1) ∧
    (s.mbcInit n.val = false → k < s.retryCount 0xB → Completes (.mbcRamError n .engine k) s (fun t => (t.mbc n.val).joined = false ∧ t.flt.retired = s.flt.retired)) ∧
    (∀ e : Fin 48, (e.val + 48 - s.fld (R.MBC_RXF_STAT n.val) F.MBC_RXF_STAT.GET) % 48 < s.fld (R.MBC_RXF_STAT n.val) F.MBC_RXF_STAT.FILL → k < s.retryCount 0xB →
      Completes (.mbcRamError n (.rx true e true) k) s (fun t => t.fld (R.MBC_RXF_STAT n.val) F.MBC_RXF_STAT.FILL = s.fld (R.MBC_RXF_STAT n.val) F.MBC_RXF_STAT.FILL - 1 ∧ t.bit (R.MBC_EVT n.val) 1 = true)) ∧
    (s.mbcListens n.val = true →
      (∀ e data first more, s.mbcTec n.val ≤ 255 → Completes (.mbcRxError n (.err e data first more)) s (fun t =>
        t.mbcRec n.val = min (s.mbcRec n.val + 1 + (if first then 8 else 0) + 8 * more) 255 ∧ t.mbcTec n.val = s.mbcTec n.val ∧
          t.fld (R.MBC_STAT n.val) (if data then F.MBC_STAT.DLEC else F.MBC_STAT.LEC) = lecCode e)) ∧
      (s.bit (R.MBC_CTL n.val) 4 = false → Completes (.mbcRxError n .res) s (fun t => t.fld (R.MBC_STAT n.val) F.MBC_STAT.PXE = 1 ∧ (t.mbc n.val).joined = false))))

/-- R123, R513, R518–R522, R542: the Last matrix, and the epoch-0 bus commands. -/
def Obligations.MatrixAndBusCommandsAct : Prop :=
  (∀ (s : State) i (n : Fin 8) (mode : Fin 4), let a := R.LAST_CTL n.val
    let st := R.LAST_STAT n.val
    let u := s.setFld a F.LAST_CTL.MODE mode.val
    s.takes i a (BitVec.ofNat 32 (1 + 2 * mode.val)) = true →
    (s.lastRun n.val = true → Completes (.lastRun i n mode) s (WritesRegs i [(a, fput (s.rd a) F.LAST_CTL.MODE mode.val)] s)) ∧
    (s.lastRun n.val = false → u.lastCode n.val = 0 → Completes (.lastRun i n mode) s (fun t => t.lastRun n.val = true ∧ t.fld a F.LAST_CTL.MODE = mode.val ∧
      t.lastState n.val = 1 ∧ t.fld st F.LAST_STAT.CODE = 0 ∧ (t.mbc n.val).openSlot = none ∧ (t.mbc n.val).ref = none ∧ MbcOnly n.val s t ∧ WroteOnly i [a, st] s t ∧
      Only [.io, .regs, .noc] s t)) ∧
    (s.lastRun n.val = false → u.lastCode n.val ≠ 0 → Completes (.lastRun i n mode) s (fun t => t.lastRun n.val = false ∧ t.lastState n.val = 0 ∧
      t.fld st F.LAST_STAT.CODE = u.lastCode n.val ∧ t.bit (R.LAST_EVT n.val) 4 = true ∧ WroteOnly i [a, st, R.LAST_EVT n.val, R.MBC_EVT n.val] s t ∧ Only [.regs, .noc] s t))) ∧
  (∀ (s : State) i (n : Fin 8), s.takes i (R.LAST_CTL n.val) (s.rd (R.LAST_CTL n.val) &&& 6) = true → s.lastRun n.val = true → Completes (.lastStop i n) s (fun t =>
    t.lastRun n.val = false ∧ t.lastState n.val = 0 ∧ (t.mbc n.val).openSlot = none ∧ (t.mbc n.val).cell = none ∧ MbcOnly n.val s t ∧ Only [.io, .regs, .noc] s t)) ∧
  (∀ (s : State) (n : Fin 8), let x := s.mbc n.val
    let st := R.LAST_STAT n.val
    let cycles (t : State) (row : Nat) (at_ : Word) : Prop := t.lastState n.val = 2 ∧ t.fld st F.LAST_STAT.ROW = row ∧ t.fld st F.LAST_STAT.SLOT = 0 ∧
      t.fld (R.LAST_CNT n.val) F.LAST_CNT.CYC = (s.fld (R.LAST_CNT n.val) F.LAST_CNT.CYC + 1) % 65536 ∧ (t.mbc n.val).start = at_ ∧ (t.mbc n.val).nextSlot = 0 ∧
      (t.mbc n.val).k = x.k + 1 ∧ (t.mbc n.val).openSlot = none ∧ MbcOnly n.val s t ∧ Only [.io, .regs, .noc] s t
    s.mbcUp n.val = true → s.lastRun n.val = true →
    (s.lastMode n.val ≠ 2 → s.lastState n.val = 1 ∨ s.lastState n.val = 2 → s.lastStart n.val x.k ≤ s.heelDtb.toNat → Completes (.lastCycleStart n) s (fun t =>
      cycles t (x.k % s.lastCycles n.val) (BitVec.ofNat 64 (s.lastStart n.val x.k)))) ∧
    (∀ row at_, s.lastMode n.val = 2 → s.lastState n.val = 1 ∨ s.lastState n.val = 2 ∨ s.lastState n.val = 3 → x.ref = some (row, at_) → Completes (.lastCycleStart n) s (fun t =>
      cycles t (match row with
        | some r => r % s.lastCycles n.val
        | none => (s.fld st F.LAST_STAT.ROW + 1) % s.lastCycles n.val) at_ ∧ (t.mbc n.val).ref = none ∧ (s.lastState n.val = 3 → t.bit (R.LAST_EVT n.val) 3 = true))) ∧
    (s.lastMode n.val = 2 → s.lastState n.val = 1 ∨ s.lastState n.val = 2 → x.ref = none → (s.mbc n.val).refAt.toNat + 100 * s.fld (R.LAST_LEN n.val) F.LAST_LEN.LEN +
        1000 * s.fld (R.LAST_CFG n.val) F.LAST_CFG.REFTMO ≤ s.heelDtb.toNat → Completes (.lastRefTimeout n) s (fun t => t.lastState n.val = 3 ∧
      t.bit (R.LAST_EVT n.val) 2 = true ∧ (t.mbc n.val).openSlot = none))) ∧
  (∀ (s : State) (n : Fin 8), let x := s.mbc n.val
    let c := s.lastCell n.val (s.fld (R.LAST_STAT n.val) F.LAST_STAT.ROW) x.nextSlot
    s.mbcUp n.val = true → s.lastState n.val = 2 → x.nextSlot < s.lastSlots n.val → x.start.toNat + 100 * s.slotOff n.val x.nextSlot ≤ s.heelDtb.toNat → x.openSlot = none →
    Completes (.lastSlotStart n) s (fun t => t.fld (R.LAST_STAT n.val) F.LAST_STAT.SLOT = x.nextSlot ∧ (t.mbc n.val).nextSlot = x.nextSlot + 1 ∧
      (t.mbc n.val).openSlot = some x.nextSlot ∧ MbcOnly n.val s t ∧ Only [.io, .regs] s t ∧
      ∀ b, c = (1, some b) → let l := s.bytes (txElem n.val b) 80
        (txReady l = true → s.mbcCanSend n.val = true → x.tx = none → txBad (txFrame l) = false → (t.mbc n.val).tx = some b ∧ (t.mbc n.val).snap = l ∧ (t.mbc n.val).cell = none ∧
          (t.mbc n.val).txCell = some ⟨b, s.fld (R.LAST_STAT n.val) F.LAST_STAT.ROW, x.nextSlot, l, (x.k + 63) % 64⟩) ∧
        (txReady l = false → t.fld (R.LAST_CNT n.val) F.LAST_CNT.SKIP = min (s.fld (R.LAST_CNT n.val) F.LAST_CNT.SKIP + 1) 255))) ∧
  (∀ (s : State) (n : Fin 8) c, let x := s.mbc n.val
    s.mbcUp n.val = true → x.openSlot = some c → x.start.toNat + 100 * (s.slotOff n.val c + s.slotWin n.val c) ≤ s.heelDtb.toNat →
    (x.cell = none → Completes (.lastWindowEnd n true) s (fun t => t.mbc n.val = { x with openSlot := none } ∧ MbcOnly n.val s t ∧ Only [.io] s t)) ∧
    (∀ e, x.cell = some e → x.fails.length < 16 → Completes (.lastWindowEnd n true) s (fun t =>
      t.mbc n.val = { x with openSlot := none, cell := none, fails := x.fails ++ [⟨e.buf, 9, e.row, e.slot, s.heelDtb⟩] } ∧ t.bit (R.LAST_EVT n.val) 1 = true ∧
        t.fld (R.LAST_CNT n.val) F.LAST_CNT.MISSED = min (s.fld (R.LAST_CNT n.val) F.LAST_CNT.MISSED + 1) 255 ∧ MbcOnly n.val s t ∧ Only [.io, .regs] s t)) ∧
    (∀ b, x.cell = none → x.tx = some b → x.orphan = false → x.abort = none → x.fails.length < 16 →
        x.win = some (x.start.toNat + 100 * s.slotOff n.val c, x.start.toNat + 100 * s.slotOff n.val c + 100 * s.slotWin n.val c) →
      (x.txCell = none → Completes (.lastWindowEnd n false) s (fun t => (t.mbc n.val).tx = none ∧ (t.mbc n.val).openSlot = none ∧ (t.mbc n.val).fails = x.fails ∧
        t.fld (R.MBC_STAT n.val) F.MBC_STAT.ACT = 1 ∧ MbcOnly n.val s t ∧ RegsOnly [R.MBC_STAT n.val] s t ∧ Only [.io, .regs] s t)) ∧
      (∀ e, x.txCell = some e → e.slot = c → Completes (.lastWindowEnd n false) s (fun t => (t.mbc n.val).tx = none ∧ (t.mbc n.val).openSlot = none ∧ (t.mbc n.val).cell = none ∧
        (t.mbc n.val).fails = x.fails ++ [⟨e.buf, 9, e.row, e.slot, s.heelDtb⟩] ∧ t.bit (R.LAST_EVT n.val) 1 = true ∧ MbcOnly n.val s t ∧ Only [.io, .regs] s t)))) ∧
  (∀ (s : State) tag w1 w2 ds, s.bridgeLive 16 = true → s.boot.rx = [] → let ch := fget w1 ⟨0, 4⟩
    let len := fget w1 ⟨8, 7⟩
    let data := (ds.flatMap (fun d => leBytes 4 d.toNat)).take len
    s.hcmdHead = some (5, tag, w1 :: w2 :: ds) →
    (ds.length ≠ (len + 3) / 4 → Completes .hcmdBusTx s (fun t => s.answered t tag (2 + ds.length) 2 [] ∧ Only [.boot] s t)) ∧
    (∀ dlc, ds.length = (len + 3) / 4 → ch < 8 → lenDlc (w2.getLsbD 30) len = some dlc → w2.getLsbD 31 = false ∨ w2.getLsbD 30 = true →
      (s.isRetired (mbcUnit ch) = true → Completes .hcmdBusTx s (fun t => s.answered t tag (2 + ds.length) 5 [] ∧ Only [.boot] s t)) ∧
      (s.isRetired (mbcUnit ch) = false → s.mbcInit ch = true → Completes .hcmdBusTx s (fun t => s.answered t tag (2 + ds.length) 3 [] ∧ Only [.boot] s t)) ∧
      (s.isRetired (mbcUnit ch) = false → s.mbcInit ch = false → s.on (R.MBC_PT_STAT ch) F.MBC_PT_STAT.PTX_BUSY = false → Completes .hcmdBusTx s (fun t =>
        s.answered t tag (2 + ds.length) 0 [] ∧ t.bytes (txElem ch 32) 80 = leBytes 4 (w2.toNat % 0x40000000) ++
          leBytes 4 (dlc + 16 * (w2.getLsbD 30).toNat + 32 * (w2.getLsbD 31).toNat + 256) ++ leBytes 8 0 ++ data ++ List.replicate (64 - data.length) 0 ∧
        BytesOnly (txElem ch 32) 80 s t))) ∧
    (ds.length = (len + 3) / 4 → 8 ≤ ch → len ≤ 8 → len ≠ 0 → w2.toNat ≤ 63 → s.linMode (ch - 8) = 0 → s.isRetired (linUnit (ch - 8)) = false → s.bit (R.LIN_CTL (ch - 8)) 0 = true →
      Completes .hcmdBusTx s (fun t => s.answered t tag (2 + ds.length) 0 [] ∧ t.fld (R.LIN_RESP (ch - 8) w2.toNat) F.LIN_RESP.ACT = 1 ∧
        t.fld (R.LIN_RESP (ch - 8) w2.toNat) F.LIN_RESP.LEN = len ∧ t.linData (ch - 8) w2.toNat = data ++ List.replicate (8 - data.length) 0 ∧ Only [.boot, .regs] s t))) ∧
  (∀ (s : State) tag w1, s.bridgeLive 16 = true → s.boot.rx = [] → let ch := fget w1 ⟨0, 4⟩
    let l := s.bytes (msgRam ch (0x1900 + 0x50 * (s.mbc ch).ptGet)) 80
    let f := txFrame l
    s.hcmdHead = some (6, tag, [w1]) →
    (ch < 8 → s.isRetired (mbcUnit ch) = false → s.mbcInit ch = false →
      (s.fld (R.MBC_PT_STAT ch) F.MBC_PT_STAT.PTRX_FILL = 0 → Completes .hcmdBusRx s (fun t => s.answered t tag 1 4 [] ∧ Only [.boot] s t)) ∧
      (s.fld (R.MBC_PT_STAT ch) F.MBC_PT_STAT.PTRX_FILL ≠ 0 → Completes .hcmdBusRx s (fun t =>
        s.answered t tag 1 0 ([BitVec.ofNat 32 (ch + 256 * f.data.length), BitVec.ofNat 32 (f.id.toNat + 0x20000000 * f.ide.toNat + 0x40000000 * f.fdf.toNat +
          0x80000000 * f.brs.toNat)] ++ packWords f.data) ∧
        t.fld (R.MBC_PT_STAT ch) F.MBC_PT_STAT.PTRX_FILL = s.fld (R.MBC_PT_STAT ch) F.MBC_PT_STAT.PTRX_FILL - 1 ∧ (t.mbc ch).ptGet = ((s.mbc ch).ptGet + 1) % 16))) ∧
    (∀ id d r, 8 ≤ ch → s.linMode (ch - 8) ≠ 2 → s.isRetired (linUnit (ch - 8)) = false → s.bit (R.LIN_CTL (ch - 8)) 0 = true → (s.lin (ch - 8)).pass = (id, d) :: r →
      d.length ≤ 8 → Completes .hcmdBusRx s (fun t => s.answered t tag 1 0 ([BitVec.ofNat 32 (ch + 256 * d.length), BitVec.ofNat 32 id] ++ packWords d) ∧
        t.lin (ch - 8) = { s.lin (ch - 8) with pass := r } ∧ LinOnly (ch - 8) s t)))

/-! ### LIN and the network wakes -/

/-- R530–R542, R556: a LIN controller's headers, responses, wake-up signal, queues and UART. -/
def Obligations.LinControllersAct : Prop :=
  (∀ (s : State) i (n : Fin 8) (id : BitVec 6), s.takes i (R.LIN_HDR n.val) (id.setWidth 32) = true → s.linUp n.val = true → s.linMode n.val = 1 →
    ((s.lin n.val).frame = none → Completes (.linHeaderSend i n id) s (fun t => LinOnly n.val s t ∧ WroteOnly i [] s t ∧ Only [.io, .regs, .noc] s t ∧
      ∃ f, t.lin n.val = { s.lin n.val with frame := some f } ∧ f.phase = .header ∧ f.start = s.heelDtb ∧ f.div = s.linDiv n.val ∧ f.pid.setWidth 6 = id ∧
        f.pid.getLsbD 6 = (id.getLsbD 0 ^^ id.getLsbD 1 ^^ id.getLsbD 2 ^^ id.getLsbD 4) ∧
        f.pid.getLsbD 7 = !(id.getLsbD 1 ^^ id.getLsbD 3 ^^ id.getLsbD 4 ^^ id.getLsbD 5))) ∧
    ((s.lin n.val).frame ≠ none → Completes (.linHeaderSend i n id) s (fun t => t.bit (R.LIN_EVT n.val) 7 = true ∧ WroteOnly i [R.LIN_EVT n.val] s t ∧ Only [.regs, .noc] s t))) ∧
  (∀ (s : State) (n : Fin 8), let x := s.lin n.val
    s.linUp n.val = true → s.linOnBus n.val = true →
    (∀ start stamp : Word, x.waking = false → x.quiet.toNat ≤ start.toNat → 11 * 5 * s.linDiv n.val ≤ 4 * (stamp.toNat - start.toNat) →
      (s.linMode n.val = 0 → x.frame = none → Completes (.linBreak n start stamp) s (fun t =>
        t.lin n.val = { x with low := false, frame := some (linFrame .break_ start stamp (s.linDiv n.val)) } ∧ LinOnly n.val s t ∧ Only [.io] s t)) ∧
      (∀ f, s.linMode n.val = 1 → x.frame = some f → f.phase = .header → 5 * s.linDiv n.val * (13 + s.fld (R.LIN_CTL n.val) F.LIN_CTL.BRKLEN) < 4 * (stamp.toNat - start.toNat + 1) →
        Completes (.linBreak n start stamp) s (fun t =>
        t.lin n.val = { x with low := false, frame := some { linFrame .break_ start stamp (s.linDiv n.val) with pid := f.pid } } ∧ LinOnly n.val s t ∧ Only [.io] s t))) ∧
    (∀ samples cyc idle, s.linMode n.val ≠ 2 → charOf samples 0 false = none → Completes (.linCharReceive n samples cyc idle) s (fun t => t = s)) ∧
    (∀ samples cyc, x.low = true → Completes (.linCharReceive n samples cyc false) s (fun t => t = s)) ∧
    (∀ samples cyc idle b pe f, s.linMode n.val = 1 → x.low = false ∨ idle = true → charOf samples 0 false = some (b, false, pe) → x.frame = some f →
      (f.phase = .break_ → b = 0x55 → 5 * s.linDiv n.val * (10 + s.fld (R.LIN_CTL n.val) F.LIN_CTL.DELIM) ≤ 4 * (s.heelDtb.toNat - f.stamp.toNat + 1) →
        Completes (.linCharReceive n samples cyc idle) s (fun t => t.lin n.val = { x with low := false, frame := some { f with phase := .sync, div := s.linDiv n.val } } ∧
        LinOnly n.val s t ∧ Only [.io] s t)) ∧
      (f.phase = .sync → Completes (.linCharReceive n samples cyc idle) s (fun t => t.lin n.val = { x with low := false, frame := some { f with phase := .pid, pid := b } } ∧
        LinOnly n.val s t ∧ Only [.io] s t)) ∧
      (f.phase = .response → f.publish = false → f.data.length ≤ f.len → Completes (.linCharReceive n samples cyc idle) s (fun t =>
        t.lin n.val = { x with low := false, frame := some { f with data := f.data ++ [b] } } ∧ LinOnly n.val s t ∧ Only [.io] s t))) ∧
    (∀ samples cyc idle c, s.linMode n.val = 2 → x.low = false ∨ idle = true → charOf samples (s.fld (R.LIN_CTL n.val) F.LIN_CTL.PAR) (s.bit (R.LIN_CTL n.val) 12) = some c →
      (x.urx.length < 16 → Completes (.linCharReceive n samples cyc idle) s (fun t => t.lin n.val = { x with
        low := !lastStop samples (s.fld (R.LIN_CTL n.val) F.LIN_CTL.PAR) (s.bit (R.LIN_CTL n.val) 12), urx := x.urx ++ [c] } ∧ t.bit (R.LIN_EVT n.val) 4 = true ∧ LinOnly n.val s t ∧
        RegsOnly [R.LIN_EVT n.val] s t ∧ Only [.io, .regs] s t)) ∧
      (16 ≤ x.urx.length → Completes (.linCharReceive n samples cyc idle) s (fun t => t.bit (R.LIN_UART_STAT n.val) 16 = true ∧ (t.lin n.val).urx = x.urx ∧ LinOnly n.val s t ∧
        RegsOnly [R.LIN_UART_STAT n.val] s t ∧ Only [.io, .regs] s t))) ∧
    (∀ f, x.frame = some f → f.phase = .pid → let id := f.pid.toNat % 64
      let w := s.rd (R.LIN_RESP n.val id)
      let len := min 8 (max 1 (fget w F.LIN_RESP.LEN))
      (f.pid ≠ linPid id → Completes (.linPidReceive n) s (fun t => s.linEnded t n.val ⟨f.pid, 5, [], f.stamp⟩)) ∧
      (f.pid = linPid id → fget w F.LIN_RESP.ACT = 0 ∨ fget w F.LIN_RESP.ACT = 3 → Completes (.linPidReceive n) s (fun t => t.lin n.val = { x with frame := none } ∧
        LinOnly n.val s t ∧ Only [.io] s t)) ∧
      (f.pid = linPid id → fget w F.LIN_RESP.ACT = 1 ∨ fget w F.LIN_RESP.ACT = 2 → Completes (.linPidReceive n) s (fun t => LinOnly n.val s t ∧ Only [.io] s t ∧
        t.lin n.val = { x with frame := some { f with phase := .response, publish := fget w F.LIN_RESP.ACT == 1, len := len, classic := w.getLsbD 2 || id == 60 || id == 61, pt := w.getLsbD 3, once := w.getLsbD 8, data := if fget w F.LIN_RESP.ACT = 1 then (s.linData n.val id).take len else [] } }))) ∧
    (∀ f, x.frame = some f → f.phase = .response → f.once = false → f.pt = false →
      (∀ bit : Bool, f.publish = true → Completes (.linResponseEnd n bit) s (fun t => s.linEnded t n.val ⟨f.pid, if bit then 6 else 0, f.data, f.stamp⟩)) ∧
      (f.publish = false → f.fe = true → Completes (.linResponseEnd n false) s (fun t => s.linEnded t n.val ⟨f.pid, 4, f.data.take f.len, f.stamp⟩)) ∧
      (∀ d c, f.publish = false → f.fe = false → f.data = d ++ [c] → d.length = f.len → Completes (.linResponseEnd n false) s (fun t =>
        s.linEnded t n.val ⟨f.pid, if c = linCsum (if f.classic then d else f.pid :: d) then 0 else 3, d, f.stamp⟩)) ∧
      (f.publish = false → tframe4 f ≤ 4 * (s.heelDtb.toNat - f.start.toNat) → Completes (.linFrameTimeout n) s (fun t =>
        s.linEnded t n.val ⟨f.pid, if f.data = [] then 1 else 2, f.data.take f.len, f.stamp⟩))) ∧
    (x.waking = true → x.wakeAt + 5000 * max 5 (min 100 (s.fld (R.LIN_WUTX n.val) F.LIN_WUTX.DUR)) ≤ s.tb.body → Completes (.linWutxEnd n) s (fun t => t.lin n.val = { x with waking := false, quiet := s.heelDtb + BitVec.ofNat 64 (5 * s.linDiv n.val) } ∧ t.bit (R.LIN_WUTX n.val) 0 = false ∧ LinOnly n.val s t ∧
      RegsOnly [R.LIN_WUTX n.val] s t ∧ Only [.io, .regs] s t)) ∧
    (∀ c r, s.linMode n.val = 2 → x.utx = c :: r → Completes (.linUartCharSent n) s (fun t => t.lin n.val = { x with utx := r } ∧ (r = [] → t.bit (R.LIN_EVT n.val) 5 = true) ∧
      LinOnly n.val s t ∧ RegsOnly [R.LIN_EVT n.val] s t ∧ Only [.io, .regs] s t))) ∧
  (∀ (s : State) i (n : Fin 8), let x := s.lin n.val
    (∀ dur : Byte, s.takes i (R.LIN_WUTX n.val) (BitVec.ofNat 32 (1 + 256 * dur.toNat)) = true → s.linUp n.val = true → s.linMode n.val ≠ 2 → x.waking = false → x.frame = none →
      Completes (.linWutxSend i n dur) s (fun t => t.lin n.val = { x with waking := true, wakeAt := s.tb.body } ∧ t.bit (R.LIN_WUTX n.val) 0 = true ∧
        t.fld (R.LIN_WUTX n.val) F.LIN_WUTX.DUR = dur.toNat ∧ LinOnly n.val s t ∧ WroteOnly i [R.LIN_WUTX n.val] s t ∧ Only [.io, .regs, .noc] s t)) ∧
    (∀ v, s.takes i (R.LIN_BAUD n.val) v = true →
      (v.toNat % 65536 < 80 → Completes (.linBaudWrite i n v) s (fun t => t.bit (R.LIN_EVT n.val) 8 = true ∧ WroteOnly i [R.LIN_EVT n.val] s t ∧ Only [.regs, .noc] s t)) ∧
      (80 ≤ v.toNat % 65536 → Completes (.linBaudWrite i n v) s (WritesRegs i [(R.LIN_BAUD n.val, codedWrite (R.LIN_BAUD n.val) (s.rd (R.LIN_BAUD n.val)) v)] s))) ∧
    (s.takes i (R.LIN_RQ_POP n.val) 0 = true → Completes (.linRqPop i n) s (fun t => t.lin n.val = { x with rq := x.rq.drop 1 } ∧ LinOnly n.val s t ∧ WroteOnly i [] s t ∧
      Only [.io, .regs, .noc] s t)) ∧
    (∀ c : Byte, s.takes i (R.LIN_UART_TX n.val) (c.setWidth 32) = true → x.utx.length < 16 → Completes (.linUartTx i n c) s (fun t => t.lin n.val = { x with utx := x.utx ++ [c] } ∧
      LinOnly n.val s t ∧ WroteOnly i [] s t ∧ Only [.io, .regs, .noc] s t)) ∧
    (∀ b fe pe r, s.gives i (R.LIN_UART_RX n.val) = true → x.urx = (b, fe, pe) :: r → Completes (.linUartRxPop i n) s (fun t => t.lin n.val = { x with urx := r } ∧
      t.ret = BitVec.ofNat 64 (b.toNat + 256 * fe.toNat + 512 * pe.toNat + 0x80000000) ∧ LinOnly n.val s t ∧ WroteOnly i [] s t ∧ Only [.io, .regs, .ret, .noc] s t))) ∧
  (∀ (s : State) (n : Fin 8) k, s.sup.heelHeld = false → s.isRetired (linUnit n.val) = false → (s.lin n.val).frame = none →
    (s.heelUp = false → Completes (.linSelfCheckError n k) s (fun t => Only [.sup] s t ∧ ∃ y, t.sup.late = s.sup.late ++ [y] ∧ y.item.unit = linUnit n.val)) ∧
    (s.heelUp = true → s.sup.late = [] → k < s.retryCount 0xB → Completes (.linSelfCheckError n k) s (fun t => LoggedOnly [R.FLT_STAT, R.FLT_RECUR] s t ∧ Only [.regs, .mem, .lines, .flt, .cores, .net, .noc] s t ∧
      t.flt.retired = s.flt.retired)) ∧
    (s.retryCount 0xB ≤ k → s.heelUp = true → s.sup.late = [] → s.testing (linUnit n.val) = false → s.outOfService (linUnit n.val) = false → Completes (.linSelfCheckError n k) s (fun t =>
      t.isRetired (linUnit n.val) = true)))

/-- R543–R553: the on-die transceivers and what wakes the package over a bus. -/
def Obligations.TransceiversAndBusWakesAct : Prop :=
  (∀ (s : State) i (x : Fin 4) v,
    (s.takes i (R.WAKE_XCFG x.val) v = true → s.isRetired (mbcUnit x.val) = false → Completes (.xcvrModeWrite i (Fin.castAdd 4 x) v) s (fun t =>
      t.rd (R.WAKE_XCFG x.val) = codedWrite (R.WAKE_XCFG x.val) (s.rd (R.WAKE_XCFG x.val)) v ∧
        t.mbState x.val = (if v.toNat % 4 < 2 then v.toNat % 4 else v.toNat % 4 + 1) ∧ (t.xcv x.val).ready = false ∧
        WroteOnly i [R.WAKE_XCFG x.val, R.WAKE_XSTAT x.val, R.WAKE_SWTIME x.val] s t ∧ Only [.io, .regs, .noc] s t)) ∧
    (s.takes i (R.LIN_XCVR x.val) v = true → s.isRetired (linUnit x.val) = false → Completes (.xcvrModeWrite i (Fin.natAdd 4 x) v) s (fun t =>
      t.rd (R.LIN_XCVR x.val) = codedWrite (R.LIN_XCVR x.val) (s.rd (R.LIN_XCVR x.val)) (v ||| 0x10) ∧ (t.xcv (4 + x.val)).st = min (v.toNat % 4) 2 ∧
        WroteOnly i [R.LIN_XCVR x.val] s t ∧ Only [.io, .regs, .noc] s t))) ∧
  (∀ (s : State) (x : Fin 4) (dom : Bool), s.sup.heelHeld = false →
    (s.mbState x.val = 4 → Completes (.xcvrDominantTimeout (Fin.castAdd 4 x) dom) s (fun t => t.xcv x.val = { s.xcv x.val with released := dom } ∧
      t.fld (R.WAKE_XSTAT x.val) F.WAKE_XSTAT.DOMTO = dom.toNat ∧ RegsOnly [R.WAKE_XSTAT x.val] s t ∧ Only [.io, .regs] s t)) ∧
    ((s.xcv (4 + x.val)).st = 2 → Completes (.xcvrDominantTimeout (Fin.natAdd 4 x) dom) s (fun t => t.xcv (4 + x.val) = { s.xcv (4 + x.val) with released := dom } ∧
      (dom = true → t.bit (R.LIN_EVT x.val) 6 = true) ∧ RegsOnly [R.LIN_EVT x.val] s t ∧ Only [.io, .regs] s t))) ∧
  (∀ (s : State) (x : Fin 4), s.sup.aonHeld = false →
    (∀ d1 r d2, s.mbState x.val = 1 → 1800 ≤ d1 → 1800 ≤ r → 1800 ≤ d2 →
      100 * (d1 + r + 1800) ≤ 95 * (if (s.aonRd (R.WAKE_XCFG x.val)).getLsbD 8 then 8000000 else 1000000) →
     ((s.aonRd (R.WAKE_XCFG x.val)).getLsbD 4 = true → Completes (.mbWakePattern x d1 r d2) s (fun t => t.mbState x.val = 2 ∧
      t.fld (R.WAKE_SWCNT x.val) F.WAKE_SWCNT.ENTRIES = min (s.fld (R.WAKE_SWCNT x.val) F.WAKE_SWCNT.ENTRIES + 1) 255 ∧ (t.xcv x.val).dec = some s.tb.rtc ∧
      (t.xcv x.val).ready = false ∧ RegsOnly [R.WAKE_SWCNT x.val, R.WAKE_XSTAT x.val, R.WAKE_SWTIME x.val] s t ∧ Only [.io, .regs, .free] s t)) ∧
     ((s.aonRd (R.WAKE_XCFG x.val)).getLsbD 4 = false → Completes (.mbWakePattern x d1 r d2) s (fun t => s.wokeBy t x.val (wakePattern x.val) ∧
      t.fld (R.WAKE_XSTAT x.val) F.WAKE_XSTAT.LASTWK = 1))) ∧
    (∀ d1 r d2, d1 < 500 ∨ r < 500 ∨ d2 < 500 → Completes (.mbWakePattern x d1 r d2) s (fun t => Only [.free] s t)) ∧
    (∀ ticks, (s.xcv (4 + x.val)).st = 1 →
      (fget (s.aonRd R.WAKE_LCFG) ⟨2 * x.val, 2⟩ + 2 ≤ ticks → Completes (.linBusWake x ticks) s (fun t => s.wokeBy t (4 + x.val) (wakeIndex x.val))) ∧
      (ticks < fget (s.aonRd R.WAKE_LCFG) ⟨2 * x.val, 2⟩ + 2 → Completes (.linBusWake x ticks) s (fun t => t = s)))) ∧
  (∀ (s : State) (x : Fin 4), s.mbState x.val = 2 →
    Completes (.swDecoderReady x) s (fun t => t.xcv x.val = { s.xcv x.val with ready := true } ∧ Only [.io] s t) ∧
    Completes (.decodingSilence x) s (fun t => t.mbState x.val = 1 ∧ (t.xcv x.val).dec = none ∧ (t.xcv x.val).ready = false ∧
      t.rd (R.WAKE_SWTIME x.val) = BitVec.ofNat 32 (s.swTime x.val) ∧ RegsOnly [R.WAKE_XSTAT x.val, R.WAKE_SWTIME x.val] s t ∧ Only [.io, .regs] s t)) ∧
  (∀ (s : State) (x : Fin 4), let st := R.WAKE_XSTAT x.val
    let cnt := R.WAKE_SWCNT x.val
    s.mbState x.val = 2 → (s.xcv x.val).ready = true →
    (s.fld st F.WAKE_XSTAT.FEC < 31 → Completes (.swFrameDecode x .bad) s (fun t => t.fld st F.WAKE_XSTAT.FEC = s.fld st F.WAKE_XSTAT.FEC + 1 ∧
      t.fld cnt F.WAKE_SWCNT.ERRORS = min (s.fld cnt F.WAKE_SWCNT.ERRORS + 1) 255 ∧ RegsOnly [st, cnt] s t ∧ Only [.regs] s t)) ∧
    (s.fld st F.WAKE_XSTAT.FEC = 31 → Completes (.swFrameDecode x .bad) s (fun t => t.fld st F.WAKE_XSTAT.FEC = 0 ∧ t.fld st F.WAKE_XSTAT.LASTWK = 3 ∧
      s.wokeBy t x.val (wakePattern x.val))) ∧
    ((s.aonRd (R.WAKE_XCFG x.val)).getLsbD 5 = true → Completes (.swFrameDecode x .fd) s (fun t => t.fld st F.WAKE_XSTAT.FDSEEN = 1 ∧ RegsOnly [st] s t ∧ Only [.regs] s t)) ∧
    (∀ f : CanFrame, let id := s.aonRd (R.WAKE_SWID x.val)
      let hit := ((f.id ^^^ id.setWidth 29) &&& (s.aonRd (R.WAKE_SWMASK x.val)).setWidth 29) = 0 ∧ f.ide = id.getLsbD 29 ∧ f.rtr = false
      (¬ hit → Completes (.swFrameDecode x (.valid f)) s (fun t => t.fld st F.WAKE_XSTAT.FEC = s.fld st F.WAKE_XSTAT.FEC - 1 ∧
        t.fld cnt F.WAKE_SWCNT.FRAMES = min (s.fld cnt F.WAKE_SWCNT.FRAMES + 1) 65535 ∧ RegsOnly [st, cnt] s t ∧ Only [.regs] s t)) ∧
      (hit → (s.aonRd (R.WAKE_XCFG x.val)).getLsbD 9 = false → Completes (.swFrameDecode x (.valid f)) s (fun t =>
        let w := BitVec.ofNat 32 (f.id.toNat + 0x20000000 * f.ide.toNat + 0x80000000)
        s.wokeBy t x.val w ∧ t.rd (R.WAKE_SWCAP_ID x.val) = w ∧ t.rd (R.WAKE_SWCAP_DLC x.val) = f.dlc.setWidth 32 ∧ t.fld st F.WAKE_XSTAT.LASTWK = 2))))

/-! ### The angle unit -/

/-- R557–R574, R576: teeth, synchronisation, direction, the event channels and the unit's registers. -/
def Obligations.AngleUnitTurnsTeethIntoEvents : Prop :=
  (∀ (s : State) rising cam volts, s.angUp = true → rising = s.bit R.ANG_CTL 4 → Completes (.angCrankEdge rising cam volts) s (fun t => t = s)) ∧
  (∀ (s : State) rising cam volts, s.angUp = true → rising ≠ s.bit R.ANG_CTL 4 → Completes (.angCrankEdge rising cam volts) s (fun t =>
    t.ang.last = some (BitVec.ofNat 64 s.angStamp) ∧ t.ang.judge = s.coded ∧ t.ang.stallFrom = some (BitVec.ofNat 64 s.angStamp) ∧
      t.rd R.ANG_TSTAMP_LO = BitVec.ofNat 32 s.angStamp ∧ (∀ a, ¬(0x2000F000 ≤ a ∧ a < 0x20010000) → t.rd a = s.rd a) ∧ Only [.io, .regs] s t ∧
      (s.ang.last = none → t.angSt = s.angSt ∧ RegsOnly [R.ANG_TSTAMP_LO] s t))) ∧
  (∀ (s : State) rising cam volts d, s.angUp = true → rising ≠ s.bit R.ANG_CTL 4 → s.ang.last = some d →
    let p := s.angStamp - d.toNat
    let cand := s.gapCand p
    let n := s.ang.since + 1
    let due := decide (n = s.teeth - s.angGap)
    let rev := s.fld R.ANG_STAT F.ANG_STAT.REV
    let per := if cand then p / (s.angGap + 1) else p
    let e := Instr.angCrankEdge rising cam volts
    let lost (cause : Nat) (t : State) : Prop := t.angSt = (if s.coded then 1 else 4) ∧ t.fld R.ANG_BLOCK F.ANG_BLOCK.CAUSE = cause ∧ t.bit R.ANG_EVT 1 = true ∧
      t.bit R.ANG_EVT (if cause = 2 then 5 else 6) = true ∧ ∀ c, c < 24 → t.chSt c ≠ 1 ∧ t.chSt c ≠ 2
    Completes e s (fun t => t.rd R.ANG_PERIOD = BitVec.ofNat 32 (min p 0xFFFFFFFF)) ∧
    (s.angSt = 1 → cand = false → Completes e s (fun t => t.angSt = 1)) ∧
    (s.angSt = 1 → cand = true → s.twoRev = true → Completes e s (fun t => t.angSt = 2 ∧ t.ang.since = 0 ∧ t.ang.gapCam = cam)) ∧
    (s.angSt = 1 → cand = true → s.twoRev = false → Completes e s (fun t => t.angSt = 3 ∧ t.bit R.ANG_EVT 0 = true ∧ t.ang.a = 0)) ∧
    (s.angSt = 2 → cand = true → due = true → cam ≠ s.ang.gapCam → Completes e s (fun t => t.angSt = 3 ∧ t.bit R.ANG_EVT 0 = true)) ∧
    (s.angSt = 2 → cand = true → due = true → cam = s.ang.gapCam → Completes e s (fun t => t.angSt = 2 ∧ t.bit R.ANG_EVT 6 = true ∧ t.ang.since = 0)) ∧
    (s.angSt = 2 → cand = true → due = false → Completes e s (fun t => t.angSt = 2 ∧ t.bit R.ANG_EVT 5 = true ∧ t.ang.since = 0)) ∧
    (s.angSt = 3 → cand ≠ due → Completes e s (lost 2)) ∧
    (s.angSt = 3 → cand = true → due = true → s.twoRev = true → (decide (rev = 1)) = (cam != s.bit R.ANG_CTL 5) → Completes e s (lost 3)) ∧
    (s.angSt = 3 → cand = due → 200 ≤ p → due = false ∨ s.twoRev = false ∨ (decide (rev = 1)) ≠ (cam != s.bit R.ANG_CTL 5) → Completes e s (fun t => t.angSt = 3 ∧
      t.ang.since = (if due then 0 else n) ∧ t.ang.a = ((if due && s.twoRev then 1 - rev else rev) * s.teeth + if due then 0 else n) * 64 ∧
      t.ang.p = max 1 (if s.bit R.ANG_CTL 3 then max (2 * per - s.ang.tk) ((per + 1) / 2) else per))) ∧
    (s.angSt = 4 → cand = true → s.coded = false → Completes e s (fun t => t.angSt = 5 ∧ t.ang.gaps = 1)) ∧
    (s.angSt = 5 → cand = true → s.ang.gaps ≠ 0 → due = false → Completes e s (fun t => t.angSt = 4 ∧ t.bit R.ANG_EVT 2 = true ∧ t.fld R.ANG_BLOCK F.ANG_BLOCK.CAUSE = 2)) ∧
    (s.angSt = 5 → cand = true → s.ang.gaps = 0 → s.coded = true → s.twoRev = false → s.fwdn ≤ s.fld R.ANG_STAT F.ANG_STAT.FWDCNT →
      Completes e s (fun t => t.angSt = 3 ∧ t.bit R.ANG_EVT 0 = true ∧ t.bit R.ANG_EVT 3 = true))) ∧
  (∀ s : State, s.angUp = true → s.ang.judge = true →
    (s.angStamp < s.lastStamp + s.dirth → Completes .angTrailingEdge s (fun t => t.ang.judge = false ∧ t.fld R.ANG_STAT F.ANG_STAT.DIR = 0 ∧
      (s.angSt = 4 → t.angSt = 5 ∧ t.fld R.ANG_STAT F.ANG_STAT.FWDCNT = 0) ∧
      (s.angSt = 5 → t.angSt = 5 ∧ t.fld R.ANG_STAT F.ANG_STAT.FWDCNT = min (s.fld R.ANG_STAT F.ANG_STAT.FWDCNT + 1) 127) ∧
      (s.angSt ≠ 4 → s.angSt ≠ 5 → t.angSt = s.angSt) ∧ RegsOnly [R.ANG_STAT] s t ∧ Only [.io, .regs] s t)) ∧
    (s.lastStamp + s.dirth ≤ s.angStamp → Completes .angDirthExpire s (fun t => t.ang.judge = false ∧ t.fld R.ANG_STAT F.ANG_STAT.DIR = 1 ∧ t.angSt = 4 ∧
      (s.angSt ≠ 4 → t.fld R.ANG_BLOCK F.ANG_BLOCK.CAUSE = 1 ∧ t.bit R.ANG_EVT 2 = true ∧ t.bit R.ANG_EVT 1 = true ∧ ∀ c, c < 24 → t.chSt c ≠ 1 ∧ t.chSt c ≠ 2) ∧
      (s.angSt = 4 → RegsOnly [R.ANG_STAT] s t) ∧ Only [.io, .regs] s t))) ∧
  (∀ (s : State) from_, s.angUp = true → s.ang.stallFrom = some from_ → from_.toNat + 100000 * max 1 (s.fld R.ANG_CONF F.ANG_CONF.STALL) ≤ s.heelDtb.toNat →
    Completes .angStall s (fun t => t.angSt = 1 ∧ t.bit R.ANG_EVT 4 = true ∧ (s.angSt ≠ 3 → RegsOnly [R.ANG_STAT, R.ANG_EVT] s t) ∧
      (s.angSt = 3 → t.fld R.ANG_BLOCK F.ANG_BLOCK.CAUSE = 4 ∧ ∀ c, c < 24 → t.chSt c ≠ 1 ∧ t.chSt c ≠ 2) ∧ Only [.io, .regs] s t)) ∧
  (∀ (s : State) (c : Fin 24) volts, let x := s.angCh c.val
    let len := s.angDist x.start x.fin
    s.angUp = true → s.chSt c.val = 1 → x.at_.toNat ≤ s.heelDtb.toNat → s.chMode c.val = 2 ∨ s.reaches x.ahead = true → Completes (.angOccurrenceBegin c volts) s (fun t => t.chSt c.val = 2 ∧
      t.rd (R.ANG_CHSTAMP c.val) = x.at_.setWidth 32 ∧
      (s.chMode c.val = 1 → (t.angCh c.val).timed = true ∧ (t.angCh c.val).at_ = BitVec.ofNat 64 (x.at_.toNat + x.dur)) ∧
      (s.chMode c.val = 0 → len = 0 → (t.angCh c.val).timed = true ∧ (t.angCh c.val).at_ = BitVec.ofNat 64 (x.at_.toNat + 1)) ∧
      (s.chMode c.val = 0 → len ≠ 0 → (t.angCh c.val).ahead = x.ahead + len ∧ (t.angCh c.val).at_ = BitVec.ofNat 64 (s.timeOf (x.ahead + len))) ∧
      (s.chMode c.val = 2 → (t.angCh c.val).at_ = BitVec.ofNat 64 (s.timeOf x.ahead)) ∧
      (∀ v, s.bit (R.ANG_CHCFG c.val) 8 = true → volts[s.fld (R.ANG_CHCFG c.val) F.ANG_CHCFG.SW]? = some v → t.rd (R.ANG_CHSAMP c.val) = BitVec.ofNat 32 (v.toNat + 2 ^ 31)) ∧
      (∀ n, s.fld (R.ANG_CHCFG c.val) F.ANG_CHCFG.ROUTE = n → n < 12 → t.aevLevels.testBit n = s.bit R.ANG_OUTPOL n) ∧
      (∀ j, j ≠ c.val → t.angCh j = s.angCh j) ∧ RegsOnly [R.ANG_CHSTAT c.val, R.ANG_CHSTAMP c.val, R.ANG_CHSAMP c.val, R.ANG_CHPRED c.val] s t ∧ Only [.io, .regs] s t)) ∧
  (∀ (s : State) (c : Fin 24), let x := s.angCh c.val
    s.angUp = true → s.chSt c.val = 2 → x.at_.toNat ≤ s.heelDtb.toNat → x.timed = true ∨ s.reaches x.ahead = true → Completes (.angOccurrenceEnd c) s (fun t =>
      t.fld (R.ANG_CHSTAT c.val) F.ANG_CHSTAT.LAST = (if x.short then 2 else 1) ∧ t.bit R.ANG_DONE c.val = true ∧ t.bit R.ANG_EVT 7 = true ∧
      (s.bit (R.ANG_CHCFG c.val) 3 = false → t.chSt c.val = 0 ∧ t.bit (R.ANG_CHCFG c.val) 0 = false) ∧
      (s.bit (R.ANG_CHCFG c.val) 3 = true → s.angSt = 3 → t.chSt c.val = 1) ∧ (s.bit (R.ANG_CHCFG c.val) 3 = true → s.angSt ≠ 3 → t.chSt c.val = 0) ∧
      (∀ j, j ≠ c.val → t.angCh j = s.angCh j) ∧ RegsOnly [R.ANG_CHSTAT c.val, R.ANG_DONE, R.ANG_EVT, R.ANG_CHCFG c.val, R.ANG_CHPRED c.val] s t ∧ Only [.io, .regs] s t)) ∧
  (∀ (s : State) i (c : Fin 24) (dur : Bool) v, let a := if dur then R.ANG_CHDUR c.val else R.ANG_CHANG c.val
    s.takes i a v = true → Completes (.angChangWrite i c dur v) s (WritesRegs i [(a, codedWrite a (s.rd a) v)] s)) ∧
  (∀ (s : State) i (c : Fin 24) v, let a := R.ANG_CHCFG c.val
    let coded := codedWrite a (s.rd a) v
    s.takes i a v = true →
    (s.chSt c.val = 0 → v.getLsbD 0 = false ∨ s.angSt ≠ 3 → Completes (.angChcfgWrite i c v) s (WritesRegs i [(a, coded)] s)) ∧
    (s.chSt c.val = 0 → v.getLsbD 0 = true → s.angSt = 3 → Completes (.angChcfgWrite i c v) s (fun t => t.rd a = coded ∧ t.chSt c.val = 1 ∧
      (t.angCh c.val).ang = s.rd (R.ANG_CHANG c.val) ∧ WroteOnly i [a, R.ANG_CHSTAT c.val, R.ANG_CHPRED c.val] s t ∧ Only [.io, .regs, .noc] s t)) ∧
    (s.chSt c.val ≠ 0 → v.getLsbD 0 = true → Completes (.angChcfgWrite i c v) s (fun t => t.bit R.ANG_EVT 8 = true ∧ WroteOnly i [R.ANG_EVT] s t ∧ Only [.regs, .noc] s t)) ∧
    (s.chSt c.val = 1 ∨ s.chSt c.val = 2 → v.getLsbD 0 = false → Completes (.angChcfgWrite i c v) s (fun t => t.rd a = coded ∧ t.chSt c.val = 0 ∧
      t.fld (R.ANG_CHSTAT c.val) F.ANG_CHSTAT.LAST = 5 - s.chSt c.val ∧ t.fld (R.ANG_CHSTAT c.val) F.ANG_CHSTAT.CAUSE = 5 ∧ t.bit R.ANG_CANCEL c.val = true ∧
      t.bit R.ANG_EVT 7 = true ∧ WroteOnly i [a, R.ANG_CHSTAT c.val, R.ANG_CANCEL, R.ANG_EVT] s t ∧ Only [.regs, .noc] s t))) ∧
  (∀ (s : State) i v, s.takes i R.ANG_CTL v = true →
    (s.bit R.ANG_CTL 0 = false → v.getLsbD 0 = true → Completes (.angCtlWrite i v) s (fun t => t.rd R.ANG_CTL = codedWrite R.ANG_CTL (s.rd R.ANG_CTL) v ∧ t.angSt = 1 ∧
      t.ang.last = none ∧ t.ang.stallFrom = some s.heelDtb ∧ WroteOnly i [R.ANG_CTL, R.ANG_STAT] s t ∧ Only [.io, .regs, .noc] s t)) ∧
    (s.bit R.ANG_CTL 0 = false → v.getLsbD 0 = false → Completes (.angCtlWrite i v) s (WritesRegs i [(R.ANG_CTL, codedWrite R.ANG_CTL (s.rd R.ANG_CTL) v)] s)) ∧
    (s.bit R.ANG_CTL 0 = true → v.getLsbD 0 = true → Completes (.angCtlWrite i v) s (fun t => ((s.rd R.ANG_CTL ^^^ v) &&& 0xFF3E ≠ 0 → t.bit R.ANG_EVT 8 = true) ∧
      WroteOnly i [R.ANG_EVT] s t ∧ Only [.regs, .noc] s t)) ∧
    (s.bit R.ANG_CTL 0 = true → v.getLsbD 0 = false → Completes (.angCtlWrite i v) s (fun t => t.rd R.ANG_CTL = s.rd R.ANG_CTL &&& ~~~1 ∧ t.angSt = 0 ∧
      t.fld R.ANG_BLOCK F.ANG_BLOCK.CAUSE = 5 ∧ t.bit R.ANG_EVT 1 = true ∧ ∀ c, c < 24 → t.chSt c ≠ 1 ∧ t.chSt c ≠ 2))) ∧
  (∀ (s : State) i, s.gives i R.ANG_TSTAMP_LO = true → Completes (.angTstampRead i) s (fun t => t.ret = (s.rd R.ANG_TSTAMP_LO).setWidth 64 ∧
    t.rd R.ANG_TSTAMP_HI = BitVec.ofNat 32 (s.lastStamp / 2 ^ 32) ∧ WroteOnly i [R.ANG_TSTAMP_HI] s t ∧ Only [.regs, .ret, .noc] s t))

/-! ### Debug -/

/-- R578–R582, R588–R590: the test access port, the debug access register, attaches and the debug log. -/
def Obligations.DebugPortActs : Prop :=
  (∀ s : State, s.sup.heelHeld = false → s.tapReset = true → s.sup.winter ≠ .committed → s.sup.winter ≠ .saved →
    (s.bit R.DBG_STAT 0 = true → Completes .dbgAttach s (fun t => t.io = { s.io with dbg := { s.io.dbg with tlrAt := none } } ∧ t.bit R.DBG_STAT 2 = false ∧
      t.bit R.DBG_STAT 0 = true ∧ RegsOnly [R.DBG_STAT] s t ∧ Only [.io, .regs] s t)) ∧
    (s.bit R.DBG_STAT 0 = false → Completes .dbgAttach s (fun t => let n := (s.word 0x28003008).toNat % 252
      t.io = { s.io with dbg := { s.io.dbg with tlrAt := none, live := true } } ∧ t.bit R.DBG_STAT 0 = true ∧ t.bit R.DBG_STAT 2 = false ∧
      t.word 0x28003004 = (if s.word 0x28003004 = 0xFFFFFFFF then 0xFFFFFFFF else s.word 0x28003004 + 1) ∧
      t.word 0x28003008 = BitVec.ofNat 32 ((n + 1) % 252) ∧ t.word 0x2800300C = s.word 0x2800300C + 1 ∧
      t.bytes (0x28003040 + 16 * n) 16 = leBytes 8 s.heelDtb.toNat ++ leBytes 6 s.tb.rtc.toNat ++ [1, BitVec.ofNat 8 s.power] ∧
      (∀ a, ¬(0x28003004 ≤ a ∧ a < 0x28003010) → ¬(0x28003040 + 16 * n ≤ a ∧ a < 0x28003050 + 16 * n) → t.byte a = s.byte a) ∧
      RegsOnly [R.DBG_STAT] s t ∧ Only [.io, .regs, .mem, .lines] s t))) ∧
  (∀ s : State, s.detachDue = true → Completes .dbgDetach s (fun t => let n := (s.word 0x28003008).toNat % 252
    t.bit R.DBG_STAT 1 = true ∧ t.io = { s.io with dbg := { s.io.dbg with live := false } } ∧ t.word 0x28003004 = s.word 0x28003004 ∧
    t.word 0x2800300C = s.word 0x2800300C + 1 ∧ t.byte (0x2800304E + 16 * n) = 2 ∧ RegsOnly [R.DBG_STAT] s t ∧ Only [.io, .regs, .mem, .lines] s t)) ∧
  (∀ (s : State) i, s.takes i R.DBG_STAT 1 = true →
    (s.tapReset = true → Completes (.dbgAttachedClear i) s (fun t => t.rd R.DBG_STAT = s.rd R.DBG_STAT &&& ~~~1 ∧ WroteOnly i [R.DBG_STAT] s t ∧ Only [.regs, .noc] s t)) ∧
    (s.tapReset = false → Completes (.dbgAttachedClear i) s (fun t => WroteOnly i [] s t ∧ Only [.regs, .noc] s t))) ∧
  (∀ s : State, s.tapUp = true →
    let d := s.io.dbg
    let loads (e : Instr) (code : Byte) : Prop := Completes e s (fun t => t.io = { s.io with dbg := { d with ir := code } } ∧ Only [.io] s t)
    Completes .tapReset s (fun t => t.io = { s.io with dbg := { d with tlrAt := some s.heelDtb, ir := 1 } } ∧ t.bit R.DBG_STAT 2 = true ∧
      RegsOnly [R.DBG_STAT] s t ∧ Only [.io, .regs] s t) ∧
    loads .jtagExtest 0x00 ∧ loads .jtagClamp 0x03 ∧ loads .jtagHighz 0x04 ∧ loads .jtagDap 0x10 ∧
    (∀ c : Byte, c ∉ [0x00, 0x01, 0x02, 0x03, 0x04, 0x10, 0x11] → loads (.jtagBypass c) c) ∧
    Completes .jtagIdcode s (fun t => t.ret = (match s.variant with
      | .nx848 => 0x1084858F
      | .nx524 => 0x1052458F
      | .nx312 => 0x1031258F
      | .nx200 => 0x1020058F) ∧ t.io = { s.io with dbg := { d with ir := 0x01 } } ∧ Only [.io, .ret] s t) ∧
    (∀ cells, Completes (.jtagSamplePreload cells) s (fun t => t.io = { s.io with dbg := { d with ir := 0x02, cells := cells } } ∧ Only [.io] s t)) ∧
    (s.sup.winter ≠ .winter → Completes .dbgSysreset s (fun t => t.allReset 4))) ∧
  (∀ s : State, s.tapUp = true → s.io.dbg.ir = 0x10 →
    let d := s.io.dbg
    let cap : Word := if d.busy ≠ none ∨ d.dropped = true then 1 else BitVec.ofNat 64 (d.out.status + 4 * d.out.data.toNat + 2 ^ 34 * d.out.reason)
    let u := (s.withRet cap).withDbg { d with dropped := false }
    let made (t : State) (p : State × Served) : Prop := t.ret = p.1.ret ∧ (∀ a, t.rd a = p.1.rd a) ∧ t.mem = p.1.mem ∧ t.io.dbg.dropped = p.1.io.dbg.dropped ∧ t.io.dbg.ir = p.1.io.dbg.ir ∧
      (∀ b, p.2 = .ok b → t.io.dbg.busy = some (some ⟨0, BitVec.ofNat 32 (leNat b), 0⟩)) ∧ (∀ c, p.2 = .bad c → t.io.dbg.busy = some (some ⟨2, 0, c⟩)) ∧
      (p.2 = .other → t.io.dbg.busy = some none ∧ t.net.length = p.1.net.length + 1)
    let q (kind : Kind) (addr : BitVec 48) : Req := { ini := .debug, kind := kind, addr := (addr &&& ~~~3).setWidth 64, len := 4, posted := false, early := false, cls := u.iniLabel .debug, via := 1 }
    Completes .dapNop s (fun t => t = u) ∧
    (∀ addr data, d.busy ≠ none →
      Completes (.dapRead addr) s (fun t => t.ret = 1 ∧ t.io = { s.io with dbg := { d with dropped := true } } ∧ Only [.io, .ret] s t) ∧
      Completes (.dapWrite addr data) s (fun t => t.ret = 1 ∧ t.io = { s.io with dbg := { d with dropped := true } } ∧ Only [.io, .ret] s t)) ∧
    (∀ addr data, d.busy = none → Completes (.dapRead addr) s (fun t => made t (u.busRead (q .read addr))) ∧
      Completes (.dapWrite addr data) s (fun t => made t (u.busWrite (q .write addr) (leBytes 4 data.toNat))))) ∧
  (∀ s : State, let d := s.io.dbg
    (∀ o, d.busy = some (some o) → Completes .dapAccessDone s (fun t => t.io = { s.io with dbg := { d with busy := none, out := o } } ∧ Only [.io] s t)) ∧
    (d.busy = some none → Completes .dapAccessDone s (fun t => t = s)))

/-- R584, R592, R593: halting, stepping and reading a core; the debug wake and the trace buffer. -/
def Obligations.CoreDebugAndTraceAct : Prop :=
  (∀ (s : State) i c, s.dbgCore = some c → s.domainUp c = true →
    let x := s.core c
    let became (t : State) (y : Core) : Prop := t.core c = y ∧ CoreOnly c s t ∧ WroteOnly i [] s t ∧ Only [.cores, .regs, .noc] s t
    (s.takes i R.DBG_CCTL 1 = true →
      (x.dhalt ≠ none → Completes (.dbgHalt i) s (fun t => became t x)) ∧
      (x.dhalt = none → x.wait = none ∨ x.wait = some .wfi ∨ (∃ w, x.wait = some (.waitt w)) ∨ (∃ r h g w b m, x.wait = some (.waitge r h g w b m)) →
        Completes (.dbgHalt i) s (fun t => became t { x with dhalt := some 1, stepping := none })) ∧
      (x.dhalt = none → (∃ o, x.wait = some (.access o)) ∨ (∃ o, x.wait = some (.drain o)) → Completes (.dbgHalt i) s (fun t => became t { x with stepping := some 1 }))) ∧
    (s.takes i R.DBG_CCTL 2 = true →
      (x.dhalt ≠ none → Completes (.dbgResume i) s (fun t => became t { x with dhalt := none, stepping := none })) ∧
      (x.dhalt = none → Completes (.dbgResume i) s (fun t => became t x))) ∧
    (s.takes i R.DBG_CCTL 4 = true →
      (x.dhalt ≠ none → Completes (.dbgStep i) s (fun t => became t { x with dhalt := none, stepping := some 3 })) ∧
      (x.dhalt = none → Completes (.dbgStep i) s (fun t => became t x)))) ∧
  (∀ (s : State) i c (n : Nat) (wr : Bool), let v := BitVec.ofNat 32 (n + if wr then 2 ^ 31 else 0)
    n < 8192 → s.takes i R.DBG_CREG v = true → s.dbgCore = some c →
    let x := s.core c
    let data : Word := BitVec.ofNat 64 ((s.rd R.DBG_CDATA_LO).toNat + 2 ^ 32 * (s.rd R.DBG_CDATA_HI).toNat)
    let became (y : Core) : Prop := Completes (.dbgCregAccess i v) s (fun t => t.core c = y ∧ CoreOnly c s t ∧ t.rd R.DBG_CREG = v ∧ WroteOnly i [R.DBG_CREG] s t ∧ Only [.cores, .regs, .noc] s t)
    let shows (w : Word) : Prop := Completes (.dbgCregAccess i v) s (fun t => t.rd R.DBG_CDATA_LO = w.setWidth 32 ∧ t.rd R.DBG_CDATA_HI = (w >>> 32).setWidth 32 ∧ t.rd R.DBG_CREG = v ∧
      WroteOnly i [R.DBG_CREG, R.DBG_CDATA_LO, R.DBG_CDATA_HI] s t ∧ Only [.regs, .noc] s t)
    (x.dhalt = none → Completes (.dbgCregAccess i v) s (fun t => t.bit R.DBG_CSTAT 4 = true ∧ t.rd R.DBG_CDATA_LO = 0 ∧ t.rd R.DBG_CDATA_HI = 0 ∧
      WroteOnly i [R.DBG_CREG, R.DBG_CSTAT, R.DBG_CDATA_LO, R.DBG_CDATA_HI] s t ∧ Only [.regs, .noc] s t)) ∧
    (s.domainUp c = true → x.dhalt ≠ none → wr = true → n < 32 → became (x.setGr (BitVec.ofNat 5 n) data)) ∧
    (s.domainUp c = true → x.dhalt ≠ none → wr = true → n = 0x40 → became { x with pc := pcOf data, wait := none }) ∧
    (s.domainUp c = true → x.dhalt ≠ none → wr = true → 0x80 ≤ n → n < 0x90 → hasLane c = true → became (x.setCr (n - 0x80) data)) ∧
    (s.domainUp c = true → x.dhalt ≠ none → wr = false → n < 32 → shows (x.gr (BitVec.ofNat 5 n))) ∧
    (s.domainUp c = true → x.dhalt ≠ none → wr = false → n = 0x40 → shows x.pc) ∧
    (s.domainUp c = true → x.dhalt ≠ none → wr = false → 0x80 ≤ n → n < 0x90 → hasLane c = true → shows (x.cr (n - 0x80))) ∧
    (∀ k m, s.domainUp c = true → x.dhalt ≠ none → wr = false → k < 4 → m < 4 → n = 0x90 + 4 * k + m → hasLane c = true →
      shows (if m % 2 = 0 then (x.acc k (decide (2 ≤ m))).setWidth 64 else (x.acc k (decide (2 ≤ m)) >>> 64).setWidth 64))) ∧
  (∀ s : State, s.sup.aonHeld = false → Completes .debugWake s (fun t => s.wokeBy t 14 0)) ∧
  (∀ (s : State) r q, s.sup.soleHeld = false → s.traceQ = r :: q → r.length = 32 →
    let w := s.fld R.DBG_TRC_WPTR F.DBG_TRC_WPTR.INDEX
    let drop := R.AWL_STAT (awlBase (r.getD 21 0).toNat)
    (s.bit R.DBG_TRC_CTL 0 = true → s.bit R.DBG_TRC_CTL 1 = false ∨ s.bit R.DBG_TRC_STAT 0 = false → Completes .traceRecord s (fun t => t.traceQ = q ∧
      t.bytes (0x30000000 + 32 * w) 32 = r ∧ BytesOnly (0x30000000 + 32 * w) 32 s t ∧ t.fld R.DBG_TRC_WPTR F.DBG_TRC_WPTR.INDEX = (w + 1) % 131072 ∧
      (w = 131071 → t.bit R.DBG_TRC_STAT 0 = true ∧ (s.bit R.DBG_TRC_CTL 1 = false → t.bit R.DBG_TRC_STAT 1 = true)) ∧
      (w ≠ 131071 → t.rd R.DBG_TRC_STAT = s.rd R.DBG_TRC_STAT) ∧ RegsOnly [R.DBG_TRC_WPTR, R.DBG_TRC_STAT] s t ∧ Only [.traceQ, .mem, .regs] s t)) ∧
    (s.bit R.DBG_TRC_CTL 0 = false ∨ (s.bit R.DBG_TRC_CTL 1 = true ∧ s.bit R.DBG_TRC_STAT 0 = true) → Completes .traceRecord s (fun t => t.traceQ = q ∧
      t.fld drop F.AWL_STAT.DROP = min (s.fld drop F.AWL_STAT.DROP + 1) (2 ^ F.AWL_STAT.DROP.w - 1) ∧ RegsOnly [drop] s t ∧ Only [.traceQ, .regs] s t)))

/-! ### Steps and the whole machine -/

/-- A step takes the command at the front of the queue and runs it on the state with the rest of the queue. -/
def Obligations.StepRunsTheFrontCommand : Prop := ∀ (c : Instr) (cs : List Instr) (s : State), step { s with pending := c :: cs } = exec c { s with pending := cs }

/-- On an empty queue one DTB tick passes (the model's choice, notes/assumptions/8.md): the RTC keeps its ratio to the DTB while XTAL32 times it (R44), stands in an
always-on power-on reset (R70), and while the tick is forwarded the
copies that no sync message holds count one, and so does the master while the Sole is out of reset (R39, R40, R620). -/
def Obligations.EmptyQueuePassesOneTick : Prop :=
  ∀ s : State, s.pending = [] → ∃ t, step s = .next t ∧ t.pending = [] ∧
    (s.sup.aonHeld = false → s.tb.lprc = none → s.tb.quiet = none → t.tb.rtc = s.tb.rtc + BitVec.ofNat 48 ((s.tb.rtcFrac + 128) / 390625) ∧
      t.tb.rtcFrac = (s.tb.rtcFrac + 128) % 390625) ∧
    (s.sup.aonHeld = true ∨ s.tb.lprc = none ∧ s.tb.quiet.isSome = true → t.tb.rtc = s.tb.rtc ∧ t.tb.rtcFrac = s.tb.rtcFrac) ∧
    (∀ k, s.sup.aonHeld = false → s.tb.lprc = some k → t.tb.rtc = (if k + 1 < 3125 then s.tb.rtc else s.tb.rtc + BitVec.ofNat 48 ((s.tb.rtcFrac + 400000) / 390625))) ∧
    (s.tb.ticking = true → t.tb.master = (if s.sup.soleHeld then s.tb.master else s.tb.master + 1) ∧ ∀ k, k < 9 → t.copy k = if k ∈ s.tb.hold then s.copy k else s.copy k + 1) ∧
    (s.tb.ticking = false → t.tb.master = s.tb.master ∧ ∀ k, t.copy k = s.copy k)

/-- Registers, memory, line states, cores, queues and holds keep their canonical form under every step. -/
def Obligations.StepKeepsTheCanonicalForm : Prop := ∀ s t : State, s.wf = true → step s = .next t → t.wf = true

/-- The state after reset is canonical and holds what the register tables, R131 and R137 give: A0 and the Heel core run, at the privileged level with interrupts
disabled, the other cores are held, no command waits. That reset is one state is the model's choice (notes/assumptions/3.md). -/
def Obligations.ResetIsCanonicalAndReleased : Prop :=
  State.reset.wf = true ∧ State.reset.pending = [] ∧
    (∀ c, (State.reset.core c).run = if c = .sole 0 ∨ c = .heel then .running else .held) ∧
    (∀ c, (State.reset.core c).srBit srStatus stPriv = true ∧ (State.reset.core c).srBit srStatus stIe = false ∧ (State.reset.core c).srBit srStatus stExl = false) ∧
    State.reset.rd R.PWR_STATE = 1 ∧ State.reset.rd R.ANG_WHEEL = 0x2010023C ∧ State.reset.rd R.ANG_OUTPOL = 0xFFF ∧ State.reset.rd R.DBG_STAT = 4

/-- Every command of the table completes in every state; none changes the package's variant, so no CAP_ value (R19, R22), and none touches the queue. -/
def Obligations.EveryCommandCompletes : Prop :=
  ∀ (c : Instr) (s : State), ∃ t, exec c s = .next t ∧ t.pending = s.pending ∧ t.variant = s.variant ∧ ∀ a, capRead t.variant a = capRead s.variant a

/-- R79: a write of PWR_REQ or PWR_WINTER_REQ by anyone but privileged Sole firmware, the Heel core and the debug port included, is refused, with a precise access fault
where a core made it, and has no effect. A request that waits and comes before it at its target would be served first (notes/assumptions/122.md). -/
def Obligations.SeasonRequestsAreForSoleFirmware : Prop :=
  ∀ (s : State) i v, (iniPrivSole i = false ∨ i = .debug) → ∀ a c, (a, c) ∈ [(R.PWR_REQ, Instr.pwrReqAutumn i), (R.PWR_REQ, .pwrReqSummer i), (R.PWR_WINTER_REQ, .winterReqArm i),
      (R.PWR_WINTER_REQ, .winterReq i), (R.PWR_REQ, .regWrite i (BitVec.ofNat 64 R.PWR_REQ) 4 v), (R.PWR_WINTER_REQ, .regWrite i (BitVec.ofNat 64 R.PWR_WINTER_REQ) 4 v)] →
    ((s.enter (s.regReq i .write a)).2.1 = 0 → s.clearWay (s.regReq i .write a) = true) →
    Completes c s (fun t => t.sup = s.sup ∧ t.tb = s.tb ∧ t.boot = s.boot ∧ t.eng = s.eng ∧ t.io = s.io ∧ (s.logSize = 0 → t.net = s.net) ∧
      (∀ b, logReg b = false → entryReg i b = false → violReg (iniDie i) b = false → t.rd b = s.rd b) ∧
      ∀ k p, i = .core k p → (s.core k).vectors = true → s.sup.heelHeld = false → (s.enter (s.regReq i .write a)).2.1 = 0 →
        fget ((t.core k).sr srCause) ⟨0, 8⟩ = 6 ∧ fget ((t.core k).sr srCause) ⟨8, 8⟩ = 6 ∧ (t.core k).srAddr srTvalLo srTvalHi = BitVec.ofNat 64 a ∧
          (t.core k).srAddr srEpcLo srEpcHi = addr48 (s.core k).pc)

/-! ### Encodings -/

/-- R138–R141, R172–R174, R176: what a core's instruction is encoded as decodes to it, with every operand at every value and whatever follows; a word that is not ILLEGAL is
the encoding of what it decodes to; and the words that chapter 7 writes out. SRLI and SRAI need IMM[15:6] zero (notes/assumptions/109.md). -/
def Obligations.CoreWordsDecodeAsEncoded : Prop :=
  (∀ i c w n, encodeCore i = some (c, w, n) → decodeCore c w n = i) ∧
  (∀ c w n, decodeCore c w n ≠ .illegalEncoding c → ∃ m, encodeCore (decodeCore c w n) = some (c, w, m)) ∧
  (∀ c, decodeCore c 0xDC000FFF 0xEC081004 = .rpt c 4095 (.mem .cmacr 0 8 2 0)) ∧
  (∀ c n, decodeCore c 0xE0A0054A n = .rdcs c 5 0 42)
end

