-- ==== Sys2Proof/Laws/State.lean ====
section
/-! SUPPORT. Laws/State.lean: one lemma per field per update of State, each true by unfolding. -/
namespace Sys2Proof.Machine

@[simp] theorem State.withVariant_variant (s : State) (x : Variant) : (s.withVariant x).variant = x := rfl
@[simp] theorem State.withVariant_regs (s : State) (x : Variant) : (s.withVariant x).regs = s.regs := rfl
@[simp] theorem State.withVariant_mem (s : State) (x : Variant) : (s.withVariant x).mem = s.mem := rfl
@[simp] theorem State.withVariant_lines (s : State) (x : Variant) : (s.withVariant x).lines = s.lines := rfl
@[simp] theorem State.withVariant_tb (s : State) (x : Variant) : (s.withVariant x).tb = s.tb := rfl
@[simp] theorem State.withVariant_sup (s : State) (x : Variant) : (s.withVariant x).sup = s.sup := rfl
@[simp] theorem State.withVariant_cores (s : State) (x : Variant) : (s.withVariant x).cores = s.cores := rfl
@[simp] theorem State.withVariant_boot (s : State) (x : Variant) : (s.withVariant x).boot = s.boot := rfl
@[simp] theorem State.withVariant_holds (s : State) (x : Variant) : (s.withVariant x).holds = s.holds := rfl
@[simp] theorem State.withVariant_queues (s : State) (x : Variant) : (s.withVariant x).queues = s.queues := rfl
@[simp] theorem State.withVariant_rot (s : State) (x : Variant) : (s.withVariant x).rot = s.rot := rfl
@[simp] theorem State.withVariant_eng (s : State) (x : Variant) : (s.withVariant x).eng = s.eng := rfl
@[simp] theorem State.withVariant_io (s : State) (x : Variant) : (s.withVariant x).io = s.io := rfl
@[simp] theorem State.withVariant_flt (s : State) (x : Variant) : (s.withVariant x).flt = s.flt := rfl
@[simp] theorem State.withVariant_net (s : State) (x : Variant) : (s.withVariant x).net = s.net := rfl
@[simp] theorem State.withVariant_resp (s : State) (x : Variant) : (s.withVariant x).resp = s.resp := rfl
@[simp] theorem State.withVariant_noc (s : State) (x : Variant) : (s.withVariant x).noc = s.noc := rfl
@[simp] theorem State.withVariant_scrubPos (s : State) (x : Variant) : (s.withVariant x).scrubPos = s.scrubPos := rfl
@[simp] theorem State.withVariant_bwcLen (s : State) (x : Variant) : (s.withVariant x).bwcLen = s.bwcLen := rfl
@[simp] theorem State.withVariant_awlSpent (s : State) (x : Variant) : (s.withVariant x).awlSpent = s.awlSpent := rfl
@[simp] theorem State.withVariant_traceQ (s : State) (x : Variant) : (s.withVariant x).traceQ = s.traceQ := rfl
@[simp] theorem State.withVariant_sigOut (s : State) (x : Variant) : (s.withVariant x).sigOut = s.sigOut := rfl
@[simp] theorem State.withVariant_ret (s : State) (x : Variant) : (s.withVariant x).ret = s.ret := rfl
@[simp] theorem State.withVariant_free (s : State) (x : Variant) : (s.withVariant x).free = s.free := rfl
@[simp] theorem State.withVariant_pending (s : State) (x : Variant) : (s.withVariant x).pending = s.pending := rfl
@[simp] theorem State.withRegs_variant (s : State) (x : Tab W32) : (s.withRegs x).variant = s.variant := rfl
@[simp] theorem State.withRegs_regs (s : State) (x : Tab W32) : (s.withRegs x).regs = x := rfl
@[simp] theorem State.withRegs_mem (s : State) (x : Tab W32) : (s.withRegs x).mem = s.mem := rfl
@[simp] theorem State.withRegs_lines (s : State) (x : Tab W32) : (s.withRegs x).lines = s.lines := rfl
@[simp] theorem State.withRegs_tb (s : State) (x : Tab W32) : (s.withRegs x).tb = s.tb := rfl
@[simp] theorem State.withRegs_sup (s : State) (x : Tab W32) : (s.withRegs x).sup = s.sup := rfl
@[simp] theorem State.withRegs_cores (s : State) (x : Tab W32) : (s.withRegs x).cores = s.cores := rfl
@[simp] theorem State.withRegs_boot (s : State) (x : Tab W32) : (s.withRegs x).boot = s.boot := rfl
@[simp] theorem State.withRegs_holds (s : State) (x : Tab W32) : (s.withRegs x).holds = s.holds := rfl
@[simp] theorem State.withRegs_queues (s : State) (x : Tab W32) : (s.withRegs x).queues = s.queues := rfl
@[simp] theorem State.withRegs_rot (s : State) (x : Tab W32) : (s.withRegs x).rot = s.rot := rfl
@[simp] theorem State.withRegs_eng (s : State) (x : Tab W32) : (s.withRegs x).eng = s.eng := rfl
@[simp] theorem State.withRegs_io (s : State) (x : Tab W32) : (s.withRegs x).io = s.io := rfl
@[simp] theorem State.withRegs_flt (s : State) (x : Tab W32) : (s.withRegs x).flt = s.flt := rfl
@[simp] theorem State.withRegs_net (s : State) (x : Tab W32) : (s.withRegs x).net = s.net := rfl
@[simp] theorem State.withRegs_resp (s : State) (x : Tab W32) : (s.withRegs x).resp = s.resp := rfl
@[simp] theorem State.withRegs_noc (s : State) (x : Tab W32) : (s.withRegs x).noc = s.noc := rfl
@[simp] theorem State.withRegs_scrubPos (s : State) (x : Tab W32) : (s.withRegs x).scrubPos = s.scrubPos := rfl
@[simp] theorem State.withRegs_bwcLen (s : State) (x : Tab W32) : (s.withRegs x).bwcLen = s.bwcLen := rfl
@[simp] theorem State.withRegs_awlSpent (s : State) (x : Tab W32) : (s.withRegs x).awlSpent = s.awlSpent := rfl
@[simp] theorem State.withRegs_traceQ (s : State) (x : Tab W32) : (s.withRegs x).traceQ = s.traceQ := rfl
@[simp] theorem State.withRegs_sigOut (s : State) (x : Tab W32) : (s.withRegs x).sigOut = s.sigOut := rfl
@[simp] theorem State.withRegs_ret (s : State) (x : Tab W32) : (s.withRegs x).ret = s.ret := rfl
@[simp] theorem State.withRegs_free (s : State) (x : Tab W32) : (s.withRegs x).free = s.free := rfl
@[simp] theorem State.withRegs_pending (s : State) (x : Tab W32) : (s.withRegs x).pending = s.pending := rfl
@[simp] theorem State.withMem_variant (s : State) (x : List Host.Cell) : (s.withMem x).variant = s.variant := rfl
@[simp] theorem State.withMem_regs (s : State) (x : List Host.Cell) : (s.withMem x).regs = s.regs := rfl
@[simp] theorem State.withMem_mem (s : State) (x : List Host.Cell) : (s.withMem x).mem = x := rfl
@[simp] theorem State.withMem_lines (s : State) (x : List Host.Cell) : (s.withMem x).lines = s.lines := rfl
@[simp] theorem State.withMem_tb (s : State) (x : List Host.Cell) : (s.withMem x).tb = s.tb := rfl
@[simp] theorem State.withMem_sup (s : State) (x : List Host.Cell) : (s.withMem x).sup = s.sup := rfl
@[simp] theorem State.withMem_cores (s : State) (x : List Host.Cell) : (s.withMem x).cores = s.cores := rfl
@[simp] theorem State.withMem_boot (s : State) (x : List Host.Cell) : (s.withMem x).boot = s.boot := rfl
@[simp] theorem State.withMem_holds (s : State) (x : List Host.Cell) : (s.withMem x).holds = s.holds := rfl
@[simp] theorem State.withMem_queues (s : State) (x : List Host.Cell) : (s.withMem x).queues = s.queues := rfl
@[simp] theorem State.withMem_rot (s : State) (x : List Host.Cell) : (s.withMem x).rot = s.rot := rfl
@[simp] theorem State.withMem_eng (s : State) (x : List Host.Cell) : (s.withMem x).eng = s.eng := rfl
@[simp] theorem State.withMem_io (s : State) (x : List Host.Cell) : (s.withMem x).io = s.io := rfl
@[simp] theorem State.withMem_flt (s : State) (x : List Host.Cell) : (s.withMem x).flt = s.flt := rfl
@[simp] theorem State.withMem_net (s : State) (x : List Host.Cell) : (s.withMem x).net = s.net := rfl
@[simp] theorem State.withMem_resp (s : State) (x : List Host.Cell) : (s.withMem x).resp = s.resp := rfl
@[simp] theorem State.withMem_noc (s : State) (x : List Host.Cell) : (s.withMem x).noc = s.noc := rfl
@[simp] theorem State.withMem_scrubPos (s : State) (x : List Host.Cell) : (s.withMem x).scrubPos = s.scrubPos := rfl
@[simp] theorem State.withMem_bwcLen (s : State) (x : List Host.Cell) : (s.withMem x).bwcLen = s.bwcLen := rfl
@[simp] theorem State.withMem_awlSpent (s : State) (x : List Host.Cell) : (s.withMem x).awlSpent = s.awlSpent := rfl
@[simp] theorem State.withMem_traceQ (s : State) (x : List Host.Cell) : (s.withMem x).traceQ = s.traceQ := rfl
@[simp] theorem State.withMem_sigOut (s : State) (x : List Host.Cell) : (s.withMem x).sigOut = s.sigOut := rfl
@[simp] theorem State.withMem_ret (s : State) (x : List Host.Cell) : (s.withMem x).ret = s.ret := rfl
@[simp] theorem State.withMem_free (s : State) (x : List Host.Cell) : (s.withMem x).free = s.free := rfl
@[simp] theorem State.withMem_pending (s : State) (x : List Host.Cell) : (s.withMem x).pending = s.pending := rfl
@[simp] theorem State.withLines_variant (s : State) (x : Tab LineState) : (s.withLines x).variant = s.variant := rfl
@[simp] theorem State.withLines_regs (s : State) (x : Tab LineState) : (s.withLines x).regs = s.regs := rfl
@[simp] theorem State.withLines_mem (s : State) (x : Tab LineState) : (s.withLines x).mem = s.mem := rfl
@[simp] theorem State.withLines_lines (s : State) (x : Tab LineState) : (s.withLines x).lines = x := rfl
@[simp] theorem State.withLines_tb (s : State) (x : Tab LineState) : (s.withLines x).tb = s.tb := rfl
@[simp] theorem State.withLines_sup (s : State) (x : Tab LineState) : (s.withLines x).sup = s.sup := rfl
@[simp] theorem State.withLines_cores (s : State) (x : Tab LineState) : (s.withLines x).cores = s.cores := rfl
@[simp] theorem State.withLines_boot (s : State) (x : Tab LineState) : (s.withLines x).boot = s.boot := rfl
@[simp] theorem State.withLines_holds (s : State) (x : Tab LineState) : (s.withLines x).holds = s.holds := rfl
@[simp] theorem State.withLines_queues (s : State) (x : Tab LineState) : (s.withLines x).queues = s.queues := rfl
@[simp] theorem State.withLines_rot (s : State) (x : Tab LineState) : (s.withLines x).rot = s.rot := rfl
@[simp] theorem State.withLines_eng (s : State) (x : Tab LineState) : (s.withLines x).eng = s.eng := rfl
@[simp] theorem State.withLines_io (s : State) (x : Tab LineState) : (s.withLines x).io = s.io := rfl
@[simp] theorem State.withLines_flt (s : State) (x : Tab LineState) : (s.withLines x).flt = s.flt := rfl
@[simp] theorem State.withLines_net (s : State) (x : Tab LineState) : (s.withLines x).net = s.net := rfl
@[simp] theorem State.withLines_resp (s : State) (x : Tab LineState) : (s.withLines x).resp = s.resp := rfl
@[simp] theorem State.withLines_noc (s : State) (x : Tab LineState) : (s.withLines x).noc = s.noc := rfl
@[simp] theorem State.withLines_scrubPos (s : State) (x : Tab LineState) : (s.withLines x).scrubPos = s.scrubPos := rfl
@[simp] theorem State.withLines_bwcLen (s : State) (x : Tab LineState) : (s.withLines x).bwcLen = s.bwcLen := rfl
@[simp] theorem State.withLines_awlSpent (s : State) (x : Tab LineState) : (s.withLines x).awlSpent = s.awlSpent := rfl
@[simp] theorem State.withLines_traceQ (s : State) (x : Tab LineState) : (s.withLines x).traceQ = s.traceQ := rfl
@[simp] theorem State.withLines_sigOut (s : State) (x : Tab LineState) : (s.withLines x).sigOut = s.sigOut := rfl
@[simp] theorem State.withLines_ret (s : State) (x : Tab LineState) : (s.withLines x).ret = s.ret := rfl
@[simp] theorem State.withLines_free (s : State) (x : Tab LineState) : (s.withLines x).free = s.free := rfl
@[simp] theorem State.withLines_pending (s : State) (x : Tab LineState) : (s.withLines x).pending = s.pending := rfl
@[simp] theorem State.withTb_variant (s : State) (x : TimeBase) : (s.withTb x).variant = s.variant := rfl
@[simp] theorem State.withTb_regs (s : State) (x : TimeBase) : (s.withTb x).regs = s.regs := rfl
@[simp] theorem State.withTb_mem (s : State) (x : TimeBase) : (s.withTb x).mem = s.mem := rfl
@[simp] theorem State.withTb_lines (s : State) (x : TimeBase) : (s.withTb x).lines = s.lines := rfl
@[simp] theorem State.withTb_tb (s : State) (x : TimeBase) : (s.withTb x).tb = x := rfl
@[simp] theorem State.withTb_sup (s : State) (x : TimeBase) : (s.withTb x).sup = s.sup := rfl
@[simp] theorem State.withTb_cores (s : State) (x : TimeBase) : (s.withTb x).cores = s.cores := rfl
@[simp] theorem State.withTb_boot (s : State) (x : TimeBase) : (s.withTb x).boot = s.boot := rfl
@[simp] theorem State.withTb_holds (s : State) (x : TimeBase) : (s.withTb x).holds = s.holds := rfl
@[simp] theorem State.withTb_queues (s : State) (x : TimeBase) : (s.withTb x).queues = s.queues := rfl
@[simp] theorem State.withTb_rot (s : State) (x : TimeBase) : (s.withTb x).rot = s.rot := rfl
@[simp] theorem State.withTb_eng (s : State) (x : TimeBase) : (s.withTb x).eng = s.eng := rfl
@[simp] theorem State.withTb_io (s : State) (x : TimeBase) : (s.withTb x).io = s.io := rfl
@[simp] theorem State.withTb_flt (s : State) (x : TimeBase) : (s.withTb x).flt = s.flt := rfl
@[simp] theorem State.withTb_net (s : State) (x : TimeBase) : (s.withTb x).net = s.net := rfl
@[simp] theorem State.withTb_resp (s : State) (x : TimeBase) : (s.withTb x).resp = s.resp := rfl
@[simp] theorem State.withTb_noc (s : State) (x : TimeBase) : (s.withTb x).noc = s.noc := rfl
@[simp] theorem State.withTb_scrubPos (s : State) (x : TimeBase) : (s.withTb x).scrubPos = s.scrubPos := rfl
@[simp] theorem State.withTb_bwcLen (s : State) (x : TimeBase) : (s.withTb x).bwcLen = s.bwcLen := rfl
@[simp] theorem State.withTb_awlSpent (s : State) (x : TimeBase) : (s.withTb x).awlSpent = s.awlSpent := rfl
@[simp] theorem State.withTb_traceQ (s : State) (x : TimeBase) : (s.withTb x).traceQ = s.traceQ := rfl
@[simp] theorem State.withTb_sigOut (s : State) (x : TimeBase) : (s.withTb x).sigOut = s.sigOut := rfl
@[simp] theorem State.withTb_ret (s : State) (x : TimeBase) : (s.withTb x).ret = s.ret := rfl
@[simp] theorem State.withTb_free (s : State) (x : TimeBase) : (s.withTb x).free = s.free := rfl
@[simp] theorem State.withTb_pending (s : State) (x : TimeBase) : (s.withTb x).pending = s.pending := rfl
@[simp] theorem State.withSup_variant (s : State) (x : Supply) : (s.withSup x).variant = s.variant := rfl
@[simp] theorem State.withSup_regs (s : State) (x : Supply) : (s.withSup x).regs = s.regs := rfl
@[simp] theorem State.withSup_mem (s : State) (x : Supply) : (s.withSup x).mem = s.mem := rfl
@[simp] theorem State.withSup_lines (s : State) (x : Supply) : (s.withSup x).lines = s.lines := rfl
@[simp] theorem State.withSup_tb (s : State) (x : Supply) : (s.withSup x).tb = s.tb := rfl
@[simp] theorem State.withSup_sup (s : State) (x : Supply) : (s.withSup x).sup = x := rfl
@[simp] theorem State.withSup_cores (s : State) (x : Supply) : (s.withSup x).cores = s.cores := rfl
@[simp] theorem State.withSup_boot (s : State) (x : Supply) : (s.withSup x).boot = s.boot := rfl
@[simp] theorem State.withSup_holds (s : State) (x : Supply) : (s.withSup x).holds = s.holds := rfl
@[simp] theorem State.withSup_queues (s : State) (x : Supply) : (s.withSup x).queues = s.queues := rfl
@[simp] theorem State.withSup_rot (s : State) (x : Supply) : (s.withSup x).rot = s.rot := rfl
@[simp] theorem State.withSup_eng (s : State) (x : Supply) : (s.withSup x).eng = s.eng := rfl
@[simp] theorem State.withSup_io (s : State) (x : Supply) : (s.withSup x).io = s.io := rfl
@[simp] theorem State.withSup_flt (s : State) (x : Supply) : (s.withSup x).flt = s.flt := rfl
@[simp] theorem State.withSup_net (s : State) (x : Supply) : (s.withSup x).net = s.net := rfl
@[simp] theorem State.withSup_resp (s : State) (x : Supply) : (s.withSup x).resp = s.resp := rfl
@[simp] theorem State.withSup_noc (s : State) (x : Supply) : (s.withSup x).noc = s.noc := rfl
@[simp] theorem State.withSup_scrubPos (s : State) (x : Supply) : (s.withSup x).scrubPos = s.scrubPos := rfl
@[simp] theorem State.withSup_bwcLen (s : State) (x : Supply) : (s.withSup x).bwcLen = s.bwcLen := rfl
@[simp] theorem State.withSup_awlSpent (s : State) (x : Supply) : (s.withSup x).awlSpent = s.awlSpent := rfl
@[simp] theorem State.withSup_traceQ (s : State) (x : Supply) : (s.withSup x).traceQ = s.traceQ := rfl
@[simp] theorem State.withSup_sigOut (s : State) (x : Supply) : (s.withSup x).sigOut = s.sigOut := rfl
@[simp] theorem State.withSup_ret (s : State) (x : Supply) : (s.withSup x).ret = s.ret := rfl
@[simp] theorem State.withSup_free (s : State) (x : Supply) : (s.withSup x).free = s.free := rfl
@[simp] theorem State.withSup_pending (s : State) (x : Supply) : (s.withSup x).pending = s.pending := rfl
@[simp] theorem State.withCores_variant (s : State) (x : Tab Core) : (s.withCores x).variant = s.variant := rfl
@[simp] theorem State.withCores_regs (s : State) (x : Tab Core) : (s.withCores x).regs = s.regs := rfl
@[simp] theorem State.withCores_mem (s : State) (x : Tab Core) : (s.withCores x).mem = s.mem := rfl
@[simp] theorem State.withCores_lines (s : State) (x : Tab Core) : (s.withCores x).lines = s.lines := rfl
@[simp] theorem State.withCores_tb (s : State) (x : Tab Core) : (s.withCores x).tb = s.tb := rfl
@[simp] theorem State.withCores_sup (s : State) (x : Tab Core) : (s.withCores x).sup = s.sup := rfl
@[simp] theorem State.withCores_cores (s : State) (x : Tab Core) : (s.withCores x).cores = x := rfl
@[simp] theorem State.withCores_boot (s : State) (x : Tab Core) : (s.withCores x).boot = s.boot := rfl
@[simp] theorem State.withCores_holds (s : State) (x : Tab Core) : (s.withCores x).holds = s.holds := rfl
@[simp] theorem State.withCores_queues (s : State) (x : Tab Core) : (s.withCores x).queues = s.queues := rfl
@[simp] theorem State.withCores_rot (s : State) (x : Tab Core) : (s.withCores x).rot = s.rot := rfl
@[simp] theorem State.withCores_eng (s : State) (x : Tab Core) : (s.withCores x).eng = s.eng := rfl
@[simp] theorem State.withCores_io (s : State) (x : Tab Core) : (s.withCores x).io = s.io := rfl
@[simp] theorem State.withCores_flt (s : State) (x : Tab Core) : (s.withCores x).flt = s.flt := rfl
@[simp] theorem State.withCores_net (s : State) (x : Tab Core) : (s.withCores x).net = s.net := rfl
@[simp] theorem State.withCores_resp (s : State) (x : Tab Core) : (s.withCores x).resp = s.resp := rfl
@[simp] theorem State.withCores_noc (s : State) (x : Tab Core) : (s.withCores x).noc = s.noc := rfl
@[simp] theorem State.withCores_scrubPos (s : State) (x : Tab Core) : (s.withCores x).scrubPos = s.scrubPos := rfl
@[simp] theorem State.withCores_bwcLen (s : State) (x : Tab Core) : (s.withCores x).bwcLen = s.bwcLen := rfl
@[simp] theorem State.withCores_awlSpent (s : State) (x : Tab Core) : (s.withCores x).awlSpent = s.awlSpent := rfl
@[simp] theorem State.withCores_traceQ (s : State) (x : Tab Core) : (s.withCores x).traceQ = s.traceQ := rfl
@[simp] theorem State.withCores_sigOut (s : State) (x : Tab Core) : (s.withCores x).sigOut = s.sigOut := rfl
@[simp] theorem State.withCores_ret (s : State) (x : Tab Core) : (s.withCores x).ret = s.ret := rfl
@[simp] theorem State.withCores_free (s : State) (x : Tab Core) : (s.withCores x).free = s.free := rfl
@[simp] theorem State.withCores_pending (s : State) (x : Tab Core) : (s.withCores x).pending = s.pending := rfl
@[simp] theorem State.withBoot_variant (s : State) (x : Boot) : (s.withBoot x).variant = s.variant := rfl
@[simp] theorem State.withBoot_regs (s : State) (x : Boot) : (s.withBoot x).regs = s.regs := rfl
@[simp] theorem State.withBoot_mem (s : State) (x : Boot) : (s.withBoot x).mem = s.mem := rfl
@[simp] theorem State.withBoot_lines (s : State) (x : Boot) : (s.withBoot x).lines = s.lines := rfl
@[simp] theorem State.withBoot_tb (s : State) (x : Boot) : (s.withBoot x).tb = s.tb := rfl
@[simp] theorem State.withBoot_sup (s : State) (x : Boot) : (s.withBoot x).sup = s.sup := rfl
@[simp] theorem State.withBoot_cores (s : State) (x : Boot) : (s.withBoot x).cores = s.cores := rfl
@[simp] theorem State.withBoot_boot (s : State) (x : Boot) : (s.withBoot x).boot = x := rfl
@[simp] theorem State.withBoot_holds (s : State) (x : Boot) : (s.withBoot x).holds = s.holds := rfl
@[simp] theorem State.withBoot_queues (s : State) (x : Boot) : (s.withBoot x).queues = s.queues := rfl
@[simp] theorem State.withBoot_rot (s : State) (x : Boot) : (s.withBoot x).rot = s.rot := rfl
@[simp] theorem State.withBoot_eng (s : State) (x : Boot) : (s.withBoot x).eng = s.eng := rfl
@[simp] theorem State.withBoot_io (s : State) (x : Boot) : (s.withBoot x).io = s.io := rfl
@[simp] theorem State.withBoot_flt (s : State) (x : Boot) : (s.withBoot x).flt = s.flt := rfl
@[simp] theorem State.withBoot_net (s : State) (x : Boot) : (s.withBoot x).net = s.net := rfl
@[simp] theorem State.withBoot_resp (s : State) (x : Boot) : (s.withBoot x).resp = s.resp := rfl
@[simp] theorem State.withBoot_noc (s : State) (x : Boot) : (s.withBoot x).noc = s.noc := rfl
@[simp] theorem State.withBoot_scrubPos (s : State) (x : Boot) : (s.withBoot x).scrubPos = s.scrubPos := rfl
@[simp] theorem State.withBoot_bwcLen (s : State) (x : Boot) : (s.withBoot x).bwcLen = s.bwcLen := rfl
@[simp] theorem State.withBoot_awlSpent (s : State) (x : Boot) : (s.withBoot x).awlSpent = s.awlSpent := rfl
@[simp] theorem State.withBoot_traceQ (s : State) (x : Boot) : (s.withBoot x).traceQ = s.traceQ := rfl
@[simp] theorem State.withBoot_sigOut (s : State) (x : Boot) : (s.withBoot x).sigOut = s.sigOut := rfl
@[simp] theorem State.withBoot_ret (s : State) (x : Boot) : (s.withBoot x).ret = s.ret := rfl
@[simp] theorem State.withBoot_free (s : State) (x : Boot) : (s.withBoot x).free = s.free := rfl
@[simp] theorem State.withBoot_pending (s : State) (x : Boot) : (s.withBoot x).pending = s.pending := rfl
@[simp] theorem State.withHolds_variant (s : State) (x : Tab Hold) : (s.withHolds x).variant = s.variant := rfl
@[simp] theorem State.withHolds_regs (s : State) (x : Tab Hold) : (s.withHolds x).regs = s.regs := rfl
@[simp] theorem State.withHolds_mem (s : State) (x : Tab Hold) : (s.withHolds x).mem = s.mem := rfl
@[simp] theorem State.withHolds_lines (s : State) (x : Tab Hold) : (s.withHolds x).lines = s.lines := rfl
@[simp] theorem State.withHolds_tb (s : State) (x : Tab Hold) : (s.withHolds x).tb = s.tb := rfl
@[simp] theorem State.withHolds_sup (s : State) (x : Tab Hold) : (s.withHolds x).sup = s.sup := rfl
@[simp] theorem State.withHolds_cores (s : State) (x : Tab Hold) : (s.withHolds x).cores = s.cores := rfl
@[simp] theorem State.withHolds_boot (s : State) (x : Tab Hold) : (s.withHolds x).boot = s.boot := rfl
@[simp] theorem State.withHolds_holds (s : State) (x : Tab Hold) : (s.withHolds x).holds = x := rfl
@[simp] theorem State.withHolds_queues (s : State) (x : Tab Hold) : (s.withHolds x).queues = s.queues := rfl
@[simp] theorem State.withHolds_rot (s : State) (x : Tab Hold) : (s.withHolds x).rot = s.rot := rfl
@[simp] theorem State.withHolds_eng (s : State) (x : Tab Hold) : (s.withHolds x).eng = s.eng := rfl
@[simp] theorem State.withHolds_io (s : State) (x : Tab Hold) : (s.withHolds x).io = s.io := rfl
@[simp] theorem State.withHolds_flt (s : State) (x : Tab Hold) : (s.withHolds x).flt = s.flt := rfl
@[simp] theorem State.withHolds_net (s : State) (x : Tab Hold) : (s.withHolds x).net = s.net := rfl
@[simp] theorem State.withHolds_resp (s : State) (x : Tab Hold) : (s.withHolds x).resp = s.resp := rfl
@[simp] theorem State.withHolds_noc (s : State) (x : Tab Hold) : (s.withHolds x).noc = s.noc := rfl
@[simp] theorem State.withHolds_scrubPos (s : State) (x : Tab Hold) : (s.withHolds x).scrubPos = s.scrubPos := rfl
@[simp] theorem State.withHolds_bwcLen (s : State) (x : Tab Hold) : (s.withHolds x).bwcLen = s.bwcLen := rfl
@[simp] theorem State.withHolds_awlSpent (s : State) (x : Tab Hold) : (s.withHolds x).awlSpent = s.awlSpent := rfl
@[simp] theorem State.withHolds_traceQ (s : State) (x : Tab Hold) : (s.withHolds x).traceQ = s.traceQ := rfl
@[simp] theorem State.withHolds_sigOut (s : State) (x : Tab Hold) : (s.withHolds x).sigOut = s.sigOut := rfl
@[simp] theorem State.withHolds_ret (s : State) (x : Tab Hold) : (s.withHolds x).ret = s.ret := rfl
@[simp] theorem State.withHolds_free (s : State) (x : Tab Hold) : (s.withHolds x).free = s.free := rfl
@[simp] theorem State.withHolds_pending (s : State) (x : Tab Hold) : (s.withHolds x).pending = s.pending := rfl
@[simp] theorem State.withQueues_variant (s : State) (x : Tab Queue) : (s.withQueues x).variant = s.variant := rfl
@[simp] theorem State.withQueues_regs (s : State) (x : Tab Queue) : (s.withQueues x).regs = s.regs := rfl
@[simp] theorem State.withQueues_mem (s : State) (x : Tab Queue) : (s.withQueues x).mem = s.mem := rfl
@[simp] theorem State.withQueues_lines (s : State) (x : Tab Queue) : (s.withQueues x).lines = s.lines := rfl
@[simp] theorem State.withQueues_tb (s : State) (x : Tab Queue) : (s.withQueues x).tb = s.tb := rfl
@[simp] theorem State.withQueues_sup (s : State) (x : Tab Queue) : (s.withQueues x).sup = s.sup := rfl
@[simp] theorem State.withQueues_cores (s : State) (x : Tab Queue) : (s.withQueues x).cores = s.cores := rfl
@[simp] theorem State.withQueues_boot (s : State) (x : Tab Queue) : (s.withQueues x).boot = s.boot := rfl
@[simp] theorem State.withQueues_holds (s : State) (x : Tab Queue) : (s.withQueues x).holds = s.holds := rfl
@[simp] theorem State.withQueues_queues (s : State) (x : Tab Queue) : (s.withQueues x).queues = x := rfl
@[simp] theorem State.withQueues_rot (s : State) (x : Tab Queue) : (s.withQueues x).rot = s.rot := rfl
@[simp] theorem State.withQueues_eng (s : State) (x : Tab Queue) : (s.withQueues x).eng = s.eng := rfl
@[simp] theorem State.withQueues_io (s : State) (x : Tab Queue) : (s.withQueues x).io = s.io := rfl
@[simp] theorem State.withQueues_flt (s : State) (x : Tab Queue) : (s.withQueues x).flt = s.flt := rfl
@[simp] theorem State.withQueues_net (s : State) (x : Tab Queue) : (s.withQueues x).net = s.net := rfl
@[simp] theorem State.withQueues_resp (s : State) (x : Tab Queue) : (s.withQueues x).resp = s.resp := rfl
@[simp] theorem State.withQueues_noc (s : State) (x : Tab Queue) : (s.withQueues x).noc = s.noc := rfl
@[simp] theorem State.withQueues_scrubPos (s : State) (x : Tab Queue) : (s.withQueues x).scrubPos = s.scrubPos := rfl
@[simp] theorem State.withQueues_bwcLen (s : State) (x : Tab Queue) : (s.withQueues x).bwcLen = s.bwcLen := rfl
@[simp] theorem State.withQueues_awlSpent (s : State) (x : Tab Queue) : (s.withQueues x).awlSpent = s.awlSpent := rfl
@[simp] theorem State.withQueues_traceQ (s : State) (x : Tab Queue) : (s.withQueues x).traceQ = s.traceQ := rfl
@[simp] theorem State.withQueues_sigOut (s : State) (x : Tab Queue) : (s.withQueues x).sigOut = s.sigOut := rfl
@[simp] theorem State.withQueues_ret (s : State) (x : Tab Queue) : (s.withQueues x).ret = s.ret := rfl
@[simp] theorem State.withQueues_free (s : State) (x : Tab Queue) : (s.withQueues x).free = s.free := rfl
@[simp] theorem State.withQueues_pending (s : State) (x : Tab Queue) : (s.withQueues x).pending = s.pending := rfl
@[simp] theorem State.withRot_variant (s : State) (x : Tab Nat) : (s.withRot x).variant = s.variant := rfl
@[simp] theorem State.withRot_regs (s : State) (x : Tab Nat) : (s.withRot x).regs = s.regs := rfl
@[simp] theorem State.withRot_mem (s : State) (x : Tab Nat) : (s.withRot x).mem = s.mem := rfl
@[simp] theorem State.withRot_lines (s : State) (x : Tab Nat) : (s.withRot x).lines = s.lines := rfl
@[simp] theorem State.withRot_tb (s : State) (x : Tab Nat) : (s.withRot x).tb = s.tb := rfl
@[simp] theorem State.withRot_sup (s : State) (x : Tab Nat) : (s.withRot x).sup = s.sup := rfl
@[simp] theorem State.withRot_cores (s : State) (x : Tab Nat) : (s.withRot x).cores = s.cores := rfl
@[simp] theorem State.withRot_boot (s : State) (x : Tab Nat) : (s.withRot x).boot = s.boot := rfl
@[simp] theorem State.withRot_holds (s : State) (x : Tab Nat) : (s.withRot x).holds = s.holds := rfl
@[simp] theorem State.withRot_queues (s : State) (x : Tab Nat) : (s.withRot x).queues = s.queues := rfl
@[simp] theorem State.withRot_rot (s : State) (x : Tab Nat) : (s.withRot x).rot = x := rfl
@[simp] theorem State.withRot_eng (s : State) (x : Tab Nat) : (s.withRot x).eng = s.eng := rfl
@[simp] theorem State.withRot_io (s : State) (x : Tab Nat) : (s.withRot x).io = s.io := rfl
@[simp] theorem State.withRot_flt (s : State) (x : Tab Nat) : (s.withRot x).flt = s.flt := rfl
@[simp] theorem State.withRot_net (s : State) (x : Tab Nat) : (s.withRot x).net = s.net := rfl
@[simp] theorem State.withRot_resp (s : State) (x : Tab Nat) : (s.withRot x).resp = s.resp := rfl
@[simp] theorem State.withRot_noc (s : State) (x : Tab Nat) : (s.withRot x).noc = s.noc := rfl
@[simp] theorem State.withRot_scrubPos (s : State) (x : Tab Nat) : (s.withRot x).scrubPos = s.scrubPos := rfl
@[simp] theorem State.withRot_bwcLen (s : State) (x : Tab Nat) : (s.withRot x).bwcLen = s.bwcLen := rfl
@[simp] theorem State.withRot_awlSpent (s : State) (x : Tab Nat) : (s.withRot x).awlSpent = s.awlSpent := rfl
@[simp] theorem State.withRot_traceQ (s : State) (x : Tab Nat) : (s.withRot x).traceQ = s.traceQ := rfl
@[simp] theorem State.withRot_sigOut (s : State) (x : Tab Nat) : (s.withRot x).sigOut = s.sigOut := rfl
@[simp] theorem State.withRot_ret (s : State) (x : Tab Nat) : (s.withRot x).ret = s.ret := rfl
@[simp] theorem State.withRot_free (s : State) (x : Tab Nat) : (s.withRot x).free = s.free := rfl
@[simp] theorem State.withRot_pending (s : State) (x : Tab Nat) : (s.withRot x).pending = s.pending := rfl
@[simp] theorem State.withEng_variant (s : State) (x : Eng) : (s.withEng x).variant = s.variant := rfl
@[simp] theorem State.withEng_regs (s : State) (x : Eng) : (s.withEng x).regs = s.regs := rfl
@[simp] theorem State.withEng_mem (s : State) (x : Eng) : (s.withEng x).mem = s.mem := rfl
@[simp] theorem State.withEng_lines (s : State) (x : Eng) : (s.withEng x).lines = s.lines := rfl
@[simp] theorem State.withEng_tb (s : State) (x : Eng) : (s.withEng x).tb = s.tb := rfl
@[simp] theorem State.withEng_sup (s : State) (x : Eng) : (s.withEng x).sup = s.sup := rfl
@[simp] theorem State.withEng_cores (s : State) (x : Eng) : (s.withEng x).cores = s.cores := rfl
@[simp] theorem State.withEng_boot (s : State) (x : Eng) : (s.withEng x).boot = s.boot := rfl
@[simp] theorem State.withEng_holds (s : State) (x : Eng) : (s.withEng x).holds = s.holds := rfl
@[simp] theorem State.withEng_queues (s : State) (x : Eng) : (s.withEng x).queues = s.queues := rfl
@[simp] theorem State.withEng_rot (s : State) (x : Eng) : (s.withEng x).rot = s.rot := rfl
@[simp] theorem State.withEng_eng (s : State) (x : Eng) : (s.withEng x).eng = x := rfl
@[simp] theorem State.withEng_io (s : State) (x : Eng) : (s.withEng x).io = s.io := rfl
@[simp] theorem State.withEng_flt (s : State) (x : Eng) : (s.withEng x).flt = s.flt := rfl
@[simp] theorem State.withEng_net (s : State) (x : Eng) : (s.withEng x).net = s.net := rfl
@[simp] theorem State.withEng_resp (s : State) (x : Eng) : (s.withEng x).resp = s.resp := rfl
@[simp] theorem State.withEng_noc (s : State) (x : Eng) : (s.withEng x).noc = s.noc := rfl
@[simp] theorem State.withEng_scrubPos (s : State) (x : Eng) : (s.withEng x).scrubPos = s.scrubPos := rfl
@[simp] theorem State.withEng_bwcLen (s : State) (x : Eng) : (s.withEng x).bwcLen = s.bwcLen := rfl
@[simp] theorem State.withEng_awlSpent (s : State) (x : Eng) : (s.withEng x).awlSpent = s.awlSpent := rfl
@[simp] theorem State.withEng_traceQ (s : State) (x : Eng) : (s.withEng x).traceQ = s.traceQ := rfl
@[simp] theorem State.withEng_sigOut (s : State) (x : Eng) : (s.withEng x).sigOut = s.sigOut := rfl
@[simp] theorem State.withEng_ret (s : State) (x : Eng) : (s.withEng x).ret = s.ret := rfl
@[simp] theorem State.withEng_free (s : State) (x : Eng) : (s.withEng x).free = s.free := rfl
@[simp] theorem State.withEng_pending (s : State) (x : Eng) : (s.withEng x).pending = s.pending := rfl
@[simp] theorem State.withIo_variant (s : State) (x : Io) : (s.withIo x).variant = s.variant := rfl
@[simp] theorem State.withIo_regs (s : State) (x : Io) : (s.withIo x).regs = s.regs := rfl
@[simp] theorem State.withIo_mem (s : State) (x : Io) : (s.withIo x).mem = s.mem := rfl
@[simp] theorem State.withIo_lines (s : State) (x : Io) : (s.withIo x).lines = s.lines := rfl
@[simp] theorem State.withIo_tb (s : State) (x : Io) : (s.withIo x).tb = s.tb := rfl
@[simp] theorem State.withIo_sup (s : State) (x : Io) : (s.withIo x).sup = s.sup := rfl
@[simp] theorem State.withIo_cores (s : State) (x : Io) : (s.withIo x).cores = s.cores := rfl
@[simp] theorem State.withIo_boot (s : State) (x : Io) : (s.withIo x).boot = s.boot := rfl
@[simp] theorem State.withIo_holds (s : State) (x : Io) : (s.withIo x).holds = s.holds := rfl
@[simp] theorem State.withIo_queues (s : State) (x : Io) : (s.withIo x).queues = s.queues := rfl
@[simp] theorem State.withIo_rot (s : State) (x : Io) : (s.withIo x).rot = s.rot := rfl
@[simp] theorem State.withIo_eng (s : State) (x : Io) : (s.withIo x).eng = s.eng := rfl
@[simp] theorem State.withIo_io (s : State) (x : Io) : (s.withIo x).io = x := rfl
@[simp] theorem State.withIo_flt (s : State) (x : Io) : (s.withIo x).flt = s.flt := rfl
@[simp] theorem State.withIo_net (s : State) (x : Io) : (s.withIo x).net = s.net := rfl
@[simp] theorem State.withIo_resp (s : State) (x : Io) : (s.withIo x).resp = s.resp := rfl
@[simp] theorem State.withIo_noc (s : State) (x : Io) : (s.withIo x).noc = s.noc := rfl
@[simp] theorem State.withIo_scrubPos (s : State) (x : Io) : (s.withIo x).scrubPos = s.scrubPos := rfl
@[simp] theorem State.withIo_bwcLen (s : State) (x : Io) : (s.withIo x).bwcLen = s.bwcLen := rfl
@[simp] theorem State.withIo_awlSpent (s : State) (x : Io) : (s.withIo x).awlSpent = s.awlSpent := rfl
@[simp] theorem State.withIo_traceQ (s : State) (x : Io) : (s.withIo x).traceQ = s.traceQ := rfl
@[simp] theorem State.withIo_sigOut (s : State) (x : Io) : (s.withIo x).sigOut = s.sigOut := rfl
@[simp] theorem State.withIo_ret (s : State) (x : Io) : (s.withIo x).ret = s.ret := rfl
@[simp] theorem State.withIo_free (s : State) (x : Io) : (s.withIo x).free = s.free := rfl
@[simp] theorem State.withIo_pending (s : State) (x : Io) : (s.withIo x).pending = s.pending := rfl
@[simp] theorem State.withFlt_variant (s : State) (x : Flt) : (s.withFlt x).variant = s.variant := rfl
@[simp] theorem State.withFlt_regs (s : State) (x : Flt) : (s.withFlt x).regs = s.regs := rfl
@[simp] theorem State.withFlt_mem (s : State) (x : Flt) : (s.withFlt x).mem = s.mem := rfl
@[simp] theorem State.withFlt_lines (s : State) (x : Flt) : (s.withFlt x).lines = s.lines := rfl
@[simp] theorem State.withFlt_tb (s : State) (x : Flt) : (s.withFlt x).tb = s.tb := rfl
@[simp] theorem State.withFlt_sup (s : State) (x : Flt) : (s.withFlt x).sup = s.sup := rfl
@[simp] theorem State.withFlt_cores (s : State) (x : Flt) : (s.withFlt x).cores = s.cores := rfl
@[simp] theorem State.withFlt_boot (s : State) (x : Flt) : (s.withFlt x).boot = s.boot := rfl
@[simp] theorem State.withFlt_holds (s : State) (x : Flt) : (s.withFlt x).holds = s.holds := rfl
@[simp] theorem State.withFlt_queues (s : State) (x : Flt) : (s.withFlt x).queues = s.queues := rfl
@[simp] theorem State.withFlt_rot (s : State) (x : Flt) : (s.withFlt x).rot = s.rot := rfl
@[simp] theorem State.withFlt_eng (s : State) (x : Flt) : (s.withFlt x).eng = s.eng := rfl
@[simp] theorem State.withFlt_io (s : State) (x : Flt) : (s.withFlt x).io = s.io := rfl
@[simp] theorem State.withFlt_flt (s : State) (x : Flt) : (s.withFlt x).flt = x := rfl
@[simp] theorem State.withFlt_net (s : State) (x : Flt) : (s.withFlt x).net = s.net := rfl
@[simp] theorem State.withFlt_resp (s : State) (x : Flt) : (s.withFlt x).resp = s.resp := rfl
@[simp] theorem State.withFlt_noc (s : State) (x : Flt) : (s.withFlt x).noc = s.noc := rfl
@[simp] theorem State.withFlt_scrubPos (s : State) (x : Flt) : (s.withFlt x).scrubPos = s.scrubPos := rfl
@[simp] theorem State.withFlt_bwcLen (s : State) (x : Flt) : (s.withFlt x).bwcLen = s.bwcLen := rfl
@[simp] theorem State.withFlt_awlSpent (s : State) (x : Flt) : (s.withFlt x).awlSpent = s.awlSpent := rfl
@[simp] theorem State.withFlt_traceQ (s : State) (x : Flt) : (s.withFlt x).traceQ = s.traceQ := rfl
@[simp] theorem State.withFlt_sigOut (s : State) (x : Flt) : (s.withFlt x).sigOut = s.sigOut := rfl
@[simp] theorem State.withFlt_ret (s : State) (x : Flt) : (s.withFlt x).ret = s.ret := rfl
@[simp] theorem State.withFlt_free (s : State) (x : Flt) : (s.withFlt x).free = s.free := rfl
@[simp] theorem State.withFlt_pending (s : State) (x : Flt) : (s.withFlt x).pending = s.pending := rfl
@[simp] theorem State.withNet_variant (s : State) (x : List NetReq) : (s.withNet x).variant = s.variant := rfl
@[simp] theorem State.withNet_regs (s : State) (x : List NetReq) : (s.withNet x).regs = s.regs := rfl
@[simp] theorem State.withNet_mem (s : State) (x : List NetReq) : (s.withNet x).mem = s.mem := rfl
@[simp] theorem State.withNet_lines (s : State) (x : List NetReq) : (s.withNet x).lines = s.lines := rfl
@[simp] theorem State.withNet_tb (s : State) (x : List NetReq) : (s.withNet x).tb = s.tb := rfl
@[simp] theorem State.withNet_sup (s : State) (x : List NetReq) : (s.withNet x).sup = s.sup := rfl
@[simp] theorem State.withNet_cores (s : State) (x : List NetReq) : (s.withNet x).cores = s.cores := rfl
@[simp] theorem State.withNet_boot (s : State) (x : List NetReq) : (s.withNet x).boot = s.boot := rfl
@[simp] theorem State.withNet_holds (s : State) (x : List NetReq) : (s.withNet x).holds = s.holds := rfl
@[simp] theorem State.withNet_queues (s : State) (x : List NetReq) : (s.withNet x).queues = s.queues := rfl
@[simp] theorem State.withNet_rot (s : State) (x : List NetReq) : (s.withNet x).rot = s.rot := rfl
@[simp] theorem State.withNet_eng (s : State) (x : List NetReq) : (s.withNet x).eng = s.eng := rfl
@[simp] theorem State.withNet_io (s : State) (x : List NetReq) : (s.withNet x).io = s.io := rfl
@[simp] theorem State.withNet_flt (s : State) (x : List NetReq) : (s.withNet x).flt = s.flt := rfl
@[simp] theorem State.withNet_net (s : State) (x : List NetReq) : (s.withNet x).net = x := rfl
@[simp] theorem State.withNet_resp (s : State) (x : List NetReq) : (s.withNet x).resp = s.resp := rfl
@[simp] theorem State.withNet_noc (s : State) (x : List NetReq) : (s.withNet x).noc = s.noc := rfl
@[simp] theorem State.withNet_scrubPos (s : State) (x : List NetReq) : (s.withNet x).scrubPos = s.scrubPos := rfl
@[simp] theorem State.withNet_bwcLen (s : State) (x : List NetReq) : (s.withNet x).bwcLen = s.bwcLen := rfl
@[simp] theorem State.withNet_awlSpent (s : State) (x : List NetReq) : (s.withNet x).awlSpent = s.awlSpent := rfl
@[simp] theorem State.withNet_traceQ (s : State) (x : List NetReq) : (s.withNet x).traceQ = s.traceQ := rfl
@[simp] theorem State.withNet_sigOut (s : State) (x : List NetReq) : (s.withNet x).sigOut = s.sigOut := rfl
@[simp] theorem State.withNet_ret (s : State) (x : List NetReq) : (s.withNet x).ret = s.ret := rfl
@[simp] theorem State.withNet_free (s : State) (x : List NetReq) : (s.withNet x).free = s.free := rfl
@[simp] theorem State.withNet_pending (s : State) (x : List NetReq) : (s.withNet x).pending = s.pending := rfl
@[simp] theorem State.withResp_variant (s : State) (x : List NetResp) : (s.withResp x).variant = s.variant := rfl
@[simp] theorem State.withResp_regs (s : State) (x : List NetResp) : (s.withResp x).regs = s.regs := rfl
@[simp] theorem State.withResp_mem (s : State) (x : List NetResp) : (s.withResp x).mem = s.mem := rfl
@[simp] theorem State.withResp_lines (s : State) (x : List NetResp) : (s.withResp x).lines = s.lines := rfl
@[simp] theorem State.withResp_tb (s : State) (x : List NetResp) : (s.withResp x).tb = s.tb := rfl
@[simp] theorem State.withResp_sup (s : State) (x : List NetResp) : (s.withResp x).sup = s.sup := rfl
@[simp] theorem State.withResp_cores (s : State) (x : List NetResp) : (s.withResp x).cores = s.cores := rfl
@[simp] theorem State.withResp_boot (s : State) (x : List NetResp) : (s.withResp x).boot = s.boot := rfl
@[simp] theorem State.withResp_holds (s : State) (x : List NetResp) : (s.withResp x).holds = s.holds := rfl
@[simp] theorem State.withResp_queues (s : State) (x : List NetResp) : (s.withResp x).queues = s.queues := rfl
@[simp] theorem State.withResp_rot (s : State) (x : List NetResp) : (s.withResp x).rot = s.rot := rfl
@[simp] theorem State.withResp_eng (s : State) (x : List NetResp) : (s.withResp x).eng = s.eng := rfl
@[simp] theorem State.withResp_io (s : State) (x : List NetResp) : (s.withResp x).io = s.io := rfl
@[simp] theorem State.withResp_flt (s : State) (x : List NetResp) : (s.withResp x).flt = s.flt := rfl
@[simp] theorem State.withResp_net (s : State) (x : List NetResp) : (s.withResp x).net = s.net := rfl
@[simp] theorem State.withResp_resp (s : State) (x : List NetResp) : (s.withResp x).resp = x := rfl
@[simp] theorem State.withResp_noc (s : State) (x : List NetResp) : (s.withResp x).noc = s.noc := rfl
@[simp] theorem State.withResp_scrubPos (s : State) (x : List NetResp) : (s.withResp x).scrubPos = s.scrubPos := rfl
@[simp] theorem State.withResp_bwcLen (s : State) (x : List NetResp) : (s.withResp x).bwcLen = s.bwcLen := rfl
@[simp] theorem State.withResp_awlSpent (s : State) (x : List NetResp) : (s.withResp x).awlSpent = s.awlSpent := rfl
@[simp] theorem State.withResp_traceQ (s : State) (x : List NetResp) : (s.withResp x).traceQ = s.traceQ := rfl
@[simp] theorem State.withResp_sigOut (s : State) (x : List NetResp) : (s.withResp x).sigOut = s.sigOut := rfl
@[simp] theorem State.withResp_ret (s : State) (x : List NetResp) : (s.withResp x).ret = s.ret := rfl
@[simp] theorem State.withResp_free (s : State) (x : List NetResp) : (s.withResp x).free = s.free := rfl
@[simp] theorem State.withResp_pending (s : State) (x : List NetResp) : (s.withResp x).pending = s.pending := rfl
@[simp] theorem State.withNoc_variant (s : State) (x : Noc) : (s.withNoc x).variant = s.variant := rfl
@[simp] theorem State.withNoc_regs (s : State) (x : Noc) : (s.withNoc x).regs = s.regs := rfl
@[simp] theorem State.withNoc_mem (s : State) (x : Noc) : (s.withNoc x).mem = s.mem := rfl
@[simp] theorem State.withNoc_lines (s : State) (x : Noc) : (s.withNoc x).lines = s.lines := rfl
@[simp] theorem State.withNoc_tb (s : State) (x : Noc) : (s.withNoc x).tb = s.tb := rfl
@[simp] theorem State.withNoc_sup (s : State) (x : Noc) : (s.withNoc x).sup = s.sup := rfl
@[simp] theorem State.withNoc_cores (s : State) (x : Noc) : (s.withNoc x).cores = s.cores := rfl
@[simp] theorem State.withNoc_boot (s : State) (x : Noc) : (s.withNoc x).boot = s.boot := rfl
@[simp] theorem State.withNoc_holds (s : State) (x : Noc) : (s.withNoc x).holds = s.holds := rfl
@[simp] theorem State.withNoc_queues (s : State) (x : Noc) : (s.withNoc x).queues = s.queues := rfl
@[simp] theorem State.withNoc_rot (s : State) (x : Noc) : (s.withNoc x).rot = s.rot := rfl
@[simp] theorem State.withNoc_eng (s : State) (x : Noc) : (s.withNoc x).eng = s.eng := rfl
@[simp] theorem State.withNoc_io (s : State) (x : Noc) : (s.withNoc x).io = s.io := rfl
@[simp] theorem State.withNoc_flt (s : State) (x : Noc) : (s.withNoc x).flt = s.flt := rfl
@[simp] theorem State.withNoc_net (s : State) (x : Noc) : (s.withNoc x).net = s.net := rfl
@[simp] theorem State.withNoc_resp (s : State) (x : Noc) : (s.withNoc x).resp = s.resp := rfl
@[simp] theorem State.withNoc_noc (s : State) (x : Noc) : (s.withNoc x).noc = x := rfl
@[simp] theorem State.withNoc_scrubPos (s : State) (x : Noc) : (s.withNoc x).scrubPos = s.scrubPos := rfl
@[simp] theorem State.withNoc_bwcLen (s : State) (x : Noc) : (s.withNoc x).bwcLen = s.bwcLen := rfl
@[simp] theorem State.withNoc_awlSpent (s : State) (x : Noc) : (s.withNoc x).awlSpent = s.awlSpent := rfl
@[simp] theorem State.withNoc_traceQ (s : State) (x : Noc) : (s.withNoc x).traceQ = s.traceQ := rfl
@[simp] theorem State.withNoc_sigOut (s : State) (x : Noc) : (s.withNoc x).sigOut = s.sigOut := rfl
@[simp] theorem State.withNoc_ret (s : State) (x : Noc) : (s.withNoc x).ret = s.ret := rfl
@[simp] theorem State.withNoc_free (s : State) (x : Noc) : (s.withNoc x).free = s.free := rfl
@[simp] theorem State.withNoc_pending (s : State) (x : Noc) : (s.withNoc x).pending = s.pending := rfl
@[simp] theorem State.withScrubPos_variant (s : State) (x : Tab Nat) : (s.withScrubPos x).variant = s.variant := rfl
@[simp] theorem State.withScrubPos_regs (s : State) (x : Tab Nat) : (s.withScrubPos x).regs = s.regs := rfl
@[simp] theorem State.withScrubPos_mem (s : State) (x : Tab Nat) : (s.withScrubPos x).mem = s.mem := rfl
@[simp] theorem State.withScrubPos_lines (s : State) (x : Tab Nat) : (s.withScrubPos x).lines = s.lines := rfl
@[simp] theorem State.withScrubPos_tb (s : State) (x : Tab Nat) : (s.withScrubPos x).tb = s.tb := rfl
@[simp] theorem State.withScrubPos_sup (s : State) (x : Tab Nat) : (s.withScrubPos x).sup = s.sup := rfl
@[simp] theorem State.withScrubPos_cores (s : State) (x : Tab Nat) : (s.withScrubPos x).cores = s.cores := rfl
@[simp] theorem State.withScrubPos_boot (s : State) (x : Tab Nat) : (s.withScrubPos x).boot = s.boot := rfl
@[simp] theorem State.withScrubPos_holds (s : State) (x : Tab Nat) : (s.withScrubPos x).holds = s.holds := rfl
@[simp] theorem State.withScrubPos_queues (s : State) (x : Tab Nat) : (s.withScrubPos x).queues = s.queues := rfl
@[simp] theorem State.withScrubPos_rot (s : State) (x : Tab Nat) : (s.withScrubPos x).rot = s.rot := rfl
@[simp] theorem State.withScrubPos_eng (s : State) (x : Tab Nat) : (s.withScrubPos x).eng = s.eng := rfl
@[simp] theorem State.withScrubPos_io (s : State) (x : Tab Nat) : (s.withScrubPos x).io = s.io := rfl
@[simp] theorem State.withScrubPos_flt (s : State) (x : Tab Nat) : (s.withScrubPos x).flt = s.flt := rfl
@[simp] theorem State.withScrubPos_net (s : State) (x : Tab Nat) : (s.withScrubPos x).net = s.net := rfl
@[simp] theorem State.withScrubPos_resp (s : State) (x : Tab Nat) : (s.withScrubPos x).resp = s.resp := rfl
@[simp] theorem State.withScrubPos_noc (s : State) (x : Tab Nat) : (s.withScrubPos x).noc = s.noc := rfl
@[simp] theorem State.withScrubPos_scrubPos (s : State) (x : Tab Nat) : (s.withScrubPos x).scrubPos = x := rfl
@[simp] theorem State.withScrubPos_bwcLen (s : State) (x : Tab Nat) : (s.withScrubPos x).bwcLen = s.bwcLen := rfl
@[simp] theorem State.withScrubPos_awlSpent (s : State) (x : Tab Nat) : (s.withScrubPos x).awlSpent = s.awlSpent := rfl
@[simp] theorem State.withScrubPos_traceQ (s : State) (x : Tab Nat) : (s.withScrubPos x).traceQ = s.traceQ := rfl
@[simp] theorem State.withScrubPos_sigOut (s : State) (x : Tab Nat) : (s.withScrubPos x).sigOut = s.sigOut := rfl
@[simp] theorem State.withScrubPos_ret (s : State) (x : Tab Nat) : (s.withScrubPos x).ret = s.ret := rfl
@[simp] theorem State.withScrubPos_free (s : State) (x : Tab Nat) : (s.withScrubPos x).free = s.free := rfl
@[simp] theorem State.withScrubPos_pending (s : State) (x : Tab Nat) : (s.withScrubPos x).pending = s.pending := rfl
@[simp] theorem State.withBwcLen_variant (s : State) (x : Tab W32) : (s.withBwcLen x).variant = s.variant := rfl
@[simp] theorem State.withBwcLen_regs (s : State) (x : Tab W32) : (s.withBwcLen x).regs = s.regs := rfl
@[simp] theorem State.withBwcLen_mem (s : State) (x : Tab W32) : (s.withBwcLen x).mem = s.mem := rfl
@[simp] theorem State.withBwcLen_lines (s : State) (x : Tab W32) : (s.withBwcLen x).lines = s.lines := rfl
@[simp] theorem State.withBwcLen_tb (s : State) (x : Tab W32) : (s.withBwcLen x).tb = s.tb := rfl
@[simp] theorem State.withBwcLen_sup (s : State) (x : Tab W32) : (s.withBwcLen x).sup = s.sup := rfl
@[simp] theorem State.withBwcLen_cores (s : State) (x : Tab W32) : (s.withBwcLen x).cores = s.cores := rfl
@[simp] theorem State.withBwcLen_boot (s : State) (x : Tab W32) : (s.withBwcLen x).boot = s.boot := rfl
@[simp] theorem State.withBwcLen_holds (s : State) (x : Tab W32) : (s.withBwcLen x).holds = s.holds := rfl
@[simp] theorem State.withBwcLen_queues (s : State) (x : Tab W32) : (s.withBwcLen x).queues = s.queues := rfl
@[simp] theorem State.withBwcLen_rot (s : State) (x : Tab W32) : (s.withBwcLen x).rot = s.rot := rfl
@[simp] theorem State.withBwcLen_eng (s : State) (x : Tab W32) : (s.withBwcLen x).eng = s.eng := rfl
@[simp] theorem State.withBwcLen_io (s : State) (x : Tab W32) : (s.withBwcLen x).io = s.io := rfl
@[simp] theorem State.withBwcLen_flt (s : State) (x : Tab W32) : (s.withBwcLen x).flt = s.flt := rfl
@[simp] theorem State.withBwcLen_net (s : State) (x : Tab W32) : (s.withBwcLen x).net = s.net := rfl
@[simp] theorem State.withBwcLen_resp (s : State) (x : Tab W32) : (s.withBwcLen x).resp = s.resp := rfl
@[simp] theorem State.withBwcLen_noc (s : State) (x : Tab W32) : (s.withBwcLen x).noc = s.noc := rfl
@[simp] theorem State.withBwcLen_scrubPos (s : State) (x : Tab W32) : (s.withBwcLen x).scrubPos = s.scrubPos := rfl
@[simp] theorem State.withBwcLen_bwcLen (s : State) (x : Tab W32) : (s.withBwcLen x).bwcLen = x := rfl
@[simp] theorem State.withBwcLen_awlSpent (s : State) (x : Tab W32) : (s.withBwcLen x).awlSpent = s.awlSpent := rfl
@[simp] theorem State.withBwcLen_traceQ (s : State) (x : Tab W32) : (s.withBwcLen x).traceQ = s.traceQ := rfl
@[simp] theorem State.withBwcLen_sigOut (s : State) (x : Tab W32) : (s.withBwcLen x).sigOut = s.sigOut := rfl
@[simp] theorem State.withBwcLen_ret (s : State) (x : Tab W32) : (s.withBwcLen x).ret = s.ret := rfl
@[simp] theorem State.withBwcLen_free (s : State) (x : Tab W32) : (s.withBwcLen x).free = s.free := rfl
@[simp] theorem State.withBwcLen_pending (s : State) (x : Tab W32) : (s.withBwcLen x).pending = s.pending := rfl
@[simp] theorem State.withAwlSpent_variant (s : State) (x : List Nat) : (s.withAwlSpent x).variant = s.variant := rfl
@[simp] theorem State.withAwlSpent_regs (s : State) (x : List Nat) : (s.withAwlSpent x).regs = s.regs := rfl
@[simp] theorem State.withAwlSpent_mem (s : State) (x : List Nat) : (s.withAwlSpent x).mem = s.mem := rfl
@[simp] theorem State.withAwlSpent_lines (s : State) (x : List Nat) : (s.withAwlSpent x).lines = s.lines := rfl
@[simp] theorem State.withAwlSpent_tb (s : State) (x : List Nat) : (s.withAwlSpent x).tb = s.tb := rfl
@[simp] theorem State.withAwlSpent_sup (s : State) (x : List Nat) : (s.withAwlSpent x).sup = s.sup := rfl
@[simp] theorem State.withAwlSpent_cores (s : State) (x : List Nat) : (s.withAwlSpent x).cores = s.cores := rfl
@[simp] theorem State.withAwlSpent_boot (s : State) (x : List Nat) : (s.withAwlSpent x).boot = s.boot := rfl
@[simp] theorem State.withAwlSpent_holds (s : State) (x : List Nat) : (s.withAwlSpent x).holds = s.holds := rfl
@[simp] theorem State.withAwlSpent_queues (s : State) (x : List Nat) : (s.withAwlSpent x).queues = s.queues := rfl
@[simp] theorem State.withAwlSpent_rot (s : State) (x : List Nat) : (s.withAwlSpent x).rot = s.rot := rfl
@[simp] theorem State.withAwlSpent_eng (s : State) (x : List Nat) : (s.withAwlSpent x).eng = s.eng := rfl
@[simp] theorem State.withAwlSpent_io (s : State) (x : List Nat) : (s.withAwlSpent x).io = s.io := rfl
@[simp] theorem State.withAwlSpent_flt (s : State) (x : List Nat) : (s.withAwlSpent x).flt = s.flt := rfl
@[simp] theorem State.withAwlSpent_net (s : State) (x : List Nat) : (s.withAwlSpent x).net = s.net := rfl
@[simp] theorem State.withAwlSpent_resp (s : State) (x : List Nat) : (s.withAwlSpent x).resp = s.resp := rfl
@[simp] theorem State.withAwlSpent_noc (s : State) (x : List Nat) : (s.withAwlSpent x).noc = s.noc := rfl
@[simp] theorem State.withAwlSpent_scrubPos (s : State) (x : List Nat) : (s.withAwlSpent x).scrubPos = s.scrubPos := rfl
@[simp] theorem State.withAwlSpent_bwcLen (s : State) (x : List Nat) : (s.withAwlSpent x).bwcLen = s.bwcLen := rfl
@[simp] theorem State.withAwlSpent_awlSpent (s : State) (x : List Nat) : (s.withAwlSpent x).awlSpent = x := rfl
@[simp] theorem State.withAwlSpent_traceQ (s : State) (x : List Nat) : (s.withAwlSpent x).traceQ = s.traceQ := rfl
@[simp] theorem State.withAwlSpent_sigOut (s : State) (x : List Nat) : (s.withAwlSpent x).sigOut = s.sigOut := rfl
@[simp] theorem State.withAwlSpent_ret (s : State) (x : List Nat) : (s.withAwlSpent x).ret = s.ret := rfl
@[simp] theorem State.withAwlSpent_free (s : State) (x : List Nat) : (s.withAwlSpent x).free = s.free := rfl
@[simp] theorem State.withAwlSpent_pending (s : State) (x : List Nat) : (s.withAwlSpent x).pending = s.pending := rfl
@[simp] theorem State.withTraceQ_variant (s : State) (x : List (List Byte)) : (s.withTraceQ x).variant = s.variant := rfl
@[simp] theorem State.withTraceQ_regs (s : State) (x : List (List Byte)) : (s.withTraceQ x).regs = s.regs := rfl
@[simp] theorem State.withTraceQ_mem (s : State) (x : List (List Byte)) : (s.withTraceQ x).mem = s.mem := rfl
@[simp] theorem State.withTraceQ_lines (s : State) (x : List (List Byte)) : (s.withTraceQ x).lines = s.lines := rfl
@[simp] theorem State.withTraceQ_tb (s : State) (x : List (List Byte)) : (s.withTraceQ x).tb = s.tb := rfl
@[simp] theorem State.withTraceQ_sup (s : State) (x : List (List Byte)) : (s.withTraceQ x).sup = s.sup := rfl
@[simp] theorem State.withTraceQ_cores (s : State) (x : List (List Byte)) : (s.withTraceQ x).cores = s.cores := rfl
@[simp] theorem State.withTraceQ_boot (s : State) (x : List (List Byte)) : (s.withTraceQ x).boot = s.boot := rfl
@[simp] theorem State.withTraceQ_holds (s : State) (x : List (List Byte)) : (s.withTraceQ x).holds = s.holds := rfl
@[simp] theorem State.withTraceQ_queues (s : State) (x : List (List Byte)) : (s.withTraceQ x).queues = s.queues := rfl
@[simp] theorem State.withTraceQ_rot (s : State) (x : List (List Byte)) : (s.withTraceQ x).rot = s.rot := rfl
@[simp] theorem State.withTraceQ_eng (s : State) (x : List (List Byte)) : (s.withTraceQ x).eng = s.eng := rfl
@[simp] theorem State.withTraceQ_io (s : State) (x : List (List Byte)) : (s.withTraceQ x).io = s.io := rfl
@[simp] theorem State.withTraceQ_flt (s : State) (x : List (List Byte)) : (s.withTraceQ x).flt = s.flt := rfl
@[simp] theorem State.withTraceQ_net (s : State) (x : List (List Byte)) : (s.withTraceQ x).net = s.net := rfl
@[simp] theorem State.withTraceQ_resp (s : State) (x : List (List Byte)) : (s.withTraceQ x).resp = s.resp := rfl
@[simp] theorem State.withTraceQ_noc (s : State) (x : List (List Byte)) : (s.withTraceQ x).noc = s.noc := rfl
@[simp] theorem State.withTraceQ_scrubPos (s : State) (x : List (List Byte)) : (s.withTraceQ x).scrubPos = s.scrubPos := rfl
@[simp] theorem State.withTraceQ_bwcLen (s : State) (x : List (List Byte)) : (s.withTraceQ x).bwcLen = s.bwcLen := rfl
@[simp] theorem State.withTraceQ_awlSpent (s : State) (x : List (List Byte)) : (s.withTraceQ x).awlSpent = s.awlSpent := rfl
@[simp] theorem State.withTraceQ_traceQ (s : State) (x : List (List Byte)) : (s.withTraceQ x).traceQ = x := rfl
@[simp] theorem State.withTraceQ_sigOut (s : State) (x : List (List Byte)) : (s.withTraceQ x).sigOut = s.sigOut := rfl
@[simp] theorem State.withTraceQ_ret (s : State) (x : List (List Byte)) : (s.withTraceQ x).ret = s.ret := rfl
@[simp] theorem State.withTraceQ_free (s : State) (x : List (List Byte)) : (s.withTraceQ x).free = s.free := rfl
@[simp] theorem State.withTraceQ_pending (s : State) (x : List (List Byte)) : (s.withTraceQ x).pending = s.pending := rfl
@[simp] theorem State.withSigOut_variant (s : State) (x : List RemoteSig) : (s.withSigOut x).variant = s.variant := rfl
@[simp] theorem State.withSigOut_regs (s : State) (x : List RemoteSig) : (s.withSigOut x).regs = s.regs := rfl
@[simp] theorem State.withSigOut_mem (s : State) (x : List RemoteSig) : (s.withSigOut x).mem = s.mem := rfl
@[simp] theorem State.withSigOut_lines (s : State) (x : List RemoteSig) : (s.withSigOut x).lines = s.lines := rfl
@[simp] theorem State.withSigOut_tb (s : State) (x : List RemoteSig) : (s.withSigOut x).tb = s.tb := rfl
@[simp] theorem State.withSigOut_sup (s : State) (x : List RemoteSig) : (s.withSigOut x).sup = s.sup := rfl
@[simp] theorem State.withSigOut_cores (s : State) (x : List RemoteSig) : (s.withSigOut x).cores = s.cores := rfl
@[simp] theorem State.withSigOut_boot (s : State) (x : List RemoteSig) : (s.withSigOut x).boot = s.boot := rfl
@[simp] theorem State.withSigOut_holds (s : State) (x : List RemoteSig) : (s.withSigOut x).holds = s.holds := rfl
@[simp] theorem State.withSigOut_queues (s : State) (x : List RemoteSig) : (s.withSigOut x).queues = s.queues := rfl
@[simp] theorem State.withSigOut_rot (s : State) (x : List RemoteSig) : (s.withSigOut x).rot = s.rot := rfl
@[simp] theorem State.withSigOut_eng (s : State) (x : List RemoteSig) : (s.withSigOut x).eng = s.eng := rfl
@[simp] theorem State.withSigOut_io (s : State) (x : List RemoteSig) : (s.withSigOut x).io = s.io := rfl
@[simp] theorem State.withSigOut_flt (s : State) (x : List RemoteSig) : (s.withSigOut x).flt = s.flt := rfl
@[simp] theorem State.withSigOut_net (s : State) (x : List RemoteSig) : (s.withSigOut x).net = s.net := rfl
@[simp] theorem State.withSigOut_resp (s : State) (x : List RemoteSig) : (s.withSigOut x).resp = s.resp := rfl
@[simp] theorem State.withSigOut_noc (s : State) (x : List RemoteSig) : (s.withSigOut x).noc = s.noc := rfl
@[simp] theorem State.withSigOut_scrubPos (s : State) (x : List RemoteSig) : (s.withSigOut x).scrubPos = s.scrubPos := rfl
@[simp] theorem State.withSigOut_bwcLen (s : State) (x : List RemoteSig) : (s.withSigOut x).bwcLen = s.bwcLen := rfl
@[simp] theorem State.withSigOut_awlSpent (s : State) (x : List RemoteSig) : (s.withSigOut x).awlSpent = s.awlSpent := rfl
@[simp] theorem State.withSigOut_traceQ (s : State) (x : List RemoteSig) : (s.withSigOut x).traceQ = s.traceQ := rfl
@[simp] theorem State.withSigOut_sigOut (s : State) (x : List RemoteSig) : (s.withSigOut x).sigOut = x := rfl
@[simp] theorem State.withSigOut_ret (s : State) (x : List RemoteSig) : (s.withSigOut x).ret = s.ret := rfl
@[simp] theorem State.withSigOut_free (s : State) (x : List RemoteSig) : (s.withSigOut x).free = s.free := rfl
@[simp] theorem State.withSigOut_pending (s : State) (x : List RemoteSig) : (s.withSigOut x).pending = s.pending := rfl
@[simp] theorem State.withRet_variant (s : State) (x : Word) : (s.withRet x).variant = s.variant := rfl
@[simp] theorem State.withRet_regs (s : State) (x : Word) : (s.withRet x).regs = s.regs := rfl
@[simp] theorem State.withRet_mem (s : State) (x : Word) : (s.withRet x).mem = s.mem := rfl
@[simp] theorem State.withRet_lines (s : State) (x : Word) : (s.withRet x).lines = s.lines := rfl
@[simp] theorem State.withRet_tb (s : State) (x : Word) : (s.withRet x).tb = s.tb := rfl
@[simp] theorem State.withRet_sup (s : State) (x : Word) : (s.withRet x).sup = s.sup := rfl
@[simp] theorem State.withRet_cores (s : State) (x : Word) : (s.withRet x).cores = s.cores := rfl
@[simp] theorem State.withRet_boot (s : State) (x : Word) : (s.withRet x).boot = s.boot := rfl
@[simp] theorem State.withRet_holds (s : State) (x : Word) : (s.withRet x).holds = s.holds := rfl
@[simp] theorem State.withRet_queues (s : State) (x : Word) : (s.withRet x).queues = s.queues := rfl
@[simp] theorem State.withRet_rot (s : State) (x : Word) : (s.withRet x).rot = s.rot := rfl
@[simp] theorem State.withRet_eng (s : State) (x : Word) : (s.withRet x).eng = s.eng := rfl
@[simp] theorem State.withRet_io (s : State) (x : Word) : (s.withRet x).io = s.io := rfl
@[simp] theorem State.withRet_flt (s : State) (x : Word) : (s.withRet x).flt = s.flt := rfl
@[simp] theorem State.withRet_net (s : State) (x : Word) : (s.withRet x).net = s.net := rfl
@[simp] theorem State.withRet_resp (s : State) (x : Word) : (s.withRet x).resp = s.resp := rfl
@[simp] theorem State.withRet_noc (s : State) (x : Word) : (s.withRet x).noc = s.noc := rfl
@[simp] theorem State.withRet_scrubPos (s : State) (x : Word) : (s.withRet x).scrubPos = s.scrubPos := rfl
@[simp] theorem State.withRet_bwcLen (s : State) (x : Word) : (s.withRet x).bwcLen = s.bwcLen := rfl
@[simp] theorem State.withRet_awlSpent (s : State) (x : Word) : (s.withRet x).awlSpent = s.awlSpent := rfl
@[simp] theorem State.withRet_traceQ (s : State) (x : Word) : (s.withRet x).traceQ = s.traceQ := rfl
@[simp] theorem State.withRet_sigOut (s : State) (x : Word) : (s.withRet x).sigOut = s.sigOut := rfl
@[simp] theorem State.withRet_ret (s : State) (x : Word) : (s.withRet x).ret = x := rfl
@[simp] theorem State.withRet_free (s : State) (x : Word) : (s.withRet x).free = s.free := rfl
@[simp] theorem State.withRet_pending (s : State) (x : Word) : (s.withRet x).pending = s.pending := rfl
@[simp] theorem State.withFree_variant (s : State) (x : Nat) : (s.withFree x).variant = s.variant := rfl
@[simp] theorem State.withFree_regs (s : State) (x : Nat) : (s.withFree x).regs = s.regs := rfl
@[simp] theorem State.withFree_mem (s : State) (x : Nat) : (s.withFree x).mem = s.mem := rfl
@[simp] theorem State.withFree_lines (s : State) (x : Nat) : (s.withFree x).lines = s.lines := rfl
@[simp] theorem State.withFree_tb (s : State) (x : Nat) : (s.withFree x).tb = s.tb := rfl
@[simp] theorem State.withFree_sup (s : State) (x : Nat) : (s.withFree x).sup = s.sup := rfl
@[simp] theorem State.withFree_cores (s : State) (x : Nat) : (s.withFree x).cores = s.cores := rfl
@[simp] theorem State.withFree_boot (s : State) (x : Nat) : (s.withFree x).boot = s.boot := rfl
@[simp] theorem State.withFree_holds (s : State) (x : Nat) : (s.withFree x).holds = s.holds := rfl
@[simp] theorem State.withFree_queues (s : State) (x : Nat) : (s.withFree x).queues = s.queues := rfl
@[simp] theorem State.withFree_rot (s : State) (x : Nat) : (s.withFree x).rot = s.rot := rfl
@[simp] theorem State.withFree_eng (s : State) (x : Nat) : (s.withFree x).eng = s.eng := rfl
@[simp] theorem State.withFree_io (s : State) (x : Nat) : (s.withFree x).io = s.io := rfl
@[simp] theorem State.withFree_flt (s : State) (x : Nat) : (s.withFree x).flt = s.flt := rfl
@[simp] theorem State.withFree_net (s : State) (x : Nat) : (s.withFree x).net = s.net := rfl
@[simp] theorem State.withFree_resp (s : State) (x : Nat) : (s.withFree x).resp = s.resp := rfl
@[simp] theorem State.withFree_noc (s : State) (x : Nat) : (s.withFree x).noc = s.noc := rfl
@[simp] theorem State.withFree_scrubPos (s : State) (x : Nat) : (s.withFree x).scrubPos = s.scrubPos := rfl
@[simp] theorem State.withFree_bwcLen (s : State) (x : Nat) : (s.withFree x).bwcLen = s.bwcLen := rfl
@[simp] theorem State.withFree_awlSpent (s : State) (x : Nat) : (s.withFree x).awlSpent = s.awlSpent := rfl
@[simp] theorem State.withFree_traceQ (s : State) (x : Nat) : (s.withFree x).traceQ = s.traceQ := rfl
@[simp] theorem State.withFree_sigOut (s : State) (x : Nat) : (s.withFree x).sigOut = s.sigOut := rfl
@[simp] theorem State.withFree_ret (s : State) (x : Nat) : (s.withFree x).ret = s.ret := rfl
@[simp] theorem State.withFree_free (s : State) (x : Nat) : (s.withFree x).free = x := rfl
@[simp] theorem State.withFree_pending (s : State) (x : Nat) : (s.withFree x).pending = s.pending := rfl
@[simp] theorem State.withPending_variant (s : State) (x : List Instr) : (s.withPending x).variant = s.variant := rfl
@[simp] theorem State.withPending_regs (s : State) (x : List Instr) : (s.withPending x).regs = s.regs := rfl
@[simp] theorem State.withPending_mem (s : State) (x : List Instr) : (s.withPending x).mem = s.mem := rfl
@[simp] theorem State.withPending_lines (s : State) (x : List Instr) : (s.withPending x).lines = s.lines := rfl
@[simp] theorem State.withPending_tb (s : State) (x : List Instr) : (s.withPending x).tb = s.tb := rfl
@[simp] theorem State.withPending_sup (s : State) (x : List Instr) : (s.withPending x).sup = s.sup := rfl
@[simp] theorem State.withPending_cores (s : State) (x : List Instr) : (s.withPending x).cores = s.cores := rfl
@[simp] theorem State.withPending_boot (s : State) (x : List Instr) : (s.withPending x).boot = s.boot := rfl
@[simp] theorem State.withPending_holds (s : State) (x : List Instr) : (s.withPending x).holds = s.holds := rfl
@[simp] theorem State.withPending_queues (s : State) (x : List Instr) : (s.withPending x).queues = s.queues := rfl
@[simp] theorem State.withPending_rot (s : State) (x : List Instr) : (s.withPending x).rot = s.rot := rfl
@[simp] theorem State.withPending_eng (s : State) (x : List Instr) : (s.withPending x).eng = s.eng := rfl
@[simp] theorem State.withPending_io (s : State) (x : List Instr) : (s.withPending x).io = s.io := rfl
@[simp] theorem State.withPending_flt (s : State) (x : List Instr) : (s.withPending x).flt = s.flt := rfl
@[simp] theorem State.withPending_net (s : State) (x : List Instr) : (s.withPending x).net = s.net := rfl
@[simp] theorem State.withPending_resp (s : State) (x : List Instr) : (s.withPending x).resp = s.resp := rfl
@[simp] theorem State.withPending_noc (s : State) (x : List Instr) : (s.withPending x).noc = s.noc := rfl
@[simp] theorem State.withPending_scrubPos (s : State) (x : List Instr) : (s.withPending x).scrubPos = s.scrubPos := rfl
@[simp] theorem State.withPending_bwcLen (s : State) (x : List Instr) : (s.withPending x).bwcLen = s.bwcLen := rfl
@[simp] theorem State.withPending_awlSpent (s : State) (x : List Instr) : (s.withPending x).awlSpent = s.awlSpent := rfl
@[simp] theorem State.withPending_traceQ (s : State) (x : List Instr) : (s.withPending x).traceQ = s.traceQ := rfl
@[simp] theorem State.withPending_sigOut (s : State) (x : List Instr) : (s.withPending x).sigOut = s.sigOut := rfl
@[simp] theorem State.withPending_ret (s : State) (x : List Instr) : (s.withPending x).ret = s.ret := rfl
@[simp] theorem State.withPending_free (s : State) (x : List Instr) : (s.withPending x).free = s.free := rfl
@[simp] theorem State.withPending_pending (s : State) (x : List Instr) : (s.withPending x).pending = x := rfl

end Sys2Proof.Machine
end

