-- ==== Sys2Proof/Laws/Tab.lean ====
section
/-! SUPPORT. Laws/Tab.lean: what reading a table gives after each way of writing it, and that each keeps the canonical form. -/
namespace Sys2Proof.Machine

variable {α : Type}

theorem tabGet_del (d : Nat → α) (k a : Nat) (t : Tab α) : tabGet d (tabDel k t) a = if a = k then d k else tabGet d t a := by
  induction t with
  | nil => by_cases h : a = k <;> simp [tabDel, tabGet, h]
  | cons e t ih =>
    by_cases he : e.1 = k
    · by_cases ha : a = k
      · simp_all [tabDel, tabGet]
      · have : e.1 ≠ a := by omega
        simp_all [tabDel, tabGet]
    · by_cases ha : e.1 = a
      · have : a ≠ k := by omega
        simp_all [tabDel, tabGet]
      · simp_all [tabDel, tabGet]

theorem tabGet_ins_self (d : Nat → α) (k : Nat) (v : α) (t : Tab α) (h : ∀ e ∈ t, e.1 ≠ k) : tabGet d (tabIns k v t) k = v := by
  induction t with
  | nil => simp [tabIns, tabGet]
  | cons e t ih =>
    have he := h e (by simp)
    have := ih (fun x hx => h x (by simp [hx]))
    by_cases hk : k < e.1 <;> simp [tabIns, tabGet, hk, he, this]

theorem tabGet_ins_other (d : Nat → α) (k a : Nat) (v : α) (t : Tab α) (ha : a ≠ k) : tabGet d (tabIns k v t) a = tabGet d t a := by
  induction t with
  | nil => simp [tabIns, tabGet]; intro h; exact absurd h.symm ha
  | cons e t ih =>
    by_cases hk : k < e.1
    · simp [tabIns, tabGet, hk]; intro h; exact absurd h.symm ha
    · simp [tabIns, tabGet, hk, ih]

theorem tabDel_ne (k : Nat) (t : Tab α) : ∀ e ∈ tabDel k t, e.1 ≠ k := by
  induction t with
  | nil => simp [tabDel]
  | cons e t ih =>
    by_cases he : e.1 = k
    · simpa [tabDel, he] using ih
    · intro x hx
      simp [tabDel, he] at hx
      rcases hx with rfl | hx
      · exact he
      · exact ih x hx

/-- A table reads what was written, and elsewhere what it read before. -/
@[simp] theorem tabGet_put [DecidableEq α] (d : Nat → α) (k a : Nat) (v : α) (t : Tab α) :
    tabGet d (tabPut d k v t) a = if a = k then v else tabGet d t a := by
  by_cases ha : a = k
  · subst ha
    by_cases hv : v = d a
    · simp [tabPut, hv, tabGet_del]
    · simp [tabPut, hv, tabGet_ins_self _ _ _ _ (tabDel_ne a t)]
  · by_cases hv : v = d k
    · simp [tabPut, hv, tabGet_del, ha]
    · simp [tabPut, hv, ha, tabGet_ins_other, tabGet_del]

/-- A kept table reads as before at the kept keys, and elsewhere as an unlisted key. -/
@[simp] theorem tabGet_keep (d : Nat → α) (p : Nat → Bool) (a : Nat) (t : Tab α) :
    tabGet d (tabKeep p t) a = if p a then tabGet d t a else d a := by
  induction t with
  | nil => simp [tabKeep, tabGet]
  | cons e t ih =>
    by_cases he : p e.1 = true
    · by_cases ha : e.1 = a
      · subst ha; simp [tabKeep, tabGet, he]
      · simp [tabKeep, tabGet, he, ha, ih]
    · by_cases ha : e.1 = a
      · subst ha; simp [tabKeep, he, ih]
      · simp [tabKeep, tabGet, he, ha, ih]

theorem tabWfFrom_mono [DecidableEq α] (d : Nat → α) {lo lo' : Nat} {t : Tab α} (h : tabWfFrom d lo t = true) (hl : lo' ≤ lo) :
    tabWfFrom d lo' t = true := by
  cases t with
  | nil => rfl
  | cons e t => simp [tabWfFrom] at h ⊢; exact ⟨⟨by omega, h.1.2⟩, h.2⟩

theorem tabDel_wf [DecidableEq α] (d : Nat → α) (k : Nat) : ∀ {t : Tab α} {lo : Nat}, tabWfFrom d lo t = true → tabWfFrom d lo (tabDel k t) = true := by
  intro t
  induction t with
  | nil => intro lo _; rfl
  | cons e t ih =>
    intro lo h
    simp [tabWfFrom] at h
    by_cases he : e.1 = k
    · simp [tabDel, he]; exact tabWfFrom_mono d (ih h.2) (by omega)
    · simp [tabDel, he, tabWfFrom]; exact ⟨h.1, ih h.2⟩

theorem tabIns_wf [DecidableEq α] (d : Nat → α) (k : Nat) (v : α) (hv : v ≠ d k) :
    ∀ {t : Tab α} {lo : Nat}, (∀ e ∈ t, e.1 ≠ k) → lo ≤ k → tabWfFrom d lo t = true → tabWfFrom d lo (tabIns k v t) = true := by
  intro t
  induction t with
  | nil => intro lo _ hl _; simp [tabIns, tabWfFrom, hl, hv]
  | cons e t ih =>
    intro lo hk hl h
    simp [tabWfFrom] at h
    have hne := hk e (by simp)
    by_cases hlt : k < e.1
    · have hk1 : k + 1 ≤ e.1 := hlt
      simp only [tabIns, hlt, if_true, tabWfFrom, hl, hv, hk1, decide_true, decide_false, Bool.not_false, Bool.true_and, Bool.and_eq_true, Bool.not_eq_true', decide_eq_false_iff_not]
      exact ⟨h.1.2, h.2⟩
    · simp [tabIns, hlt, tabWfFrom]
      exact ⟨h.1, ih (fun x hx => hk x (by simp [hx])) (by omega) h.2⟩

/-- A write keeps the canonical form. -/
theorem tabPut_wf [DecidableEq α] (d : Nat → α) (k : Nat) (v : α) {t : Tab α} (h : tabWf d t = true) : tabWf d (tabPut d k v t) = true := by
  unfold tabPut tabWf at *
  split
  · exact tabDel_wf d k h
  · exact tabIns_wf d k v ‹_› (tabDel_ne k t) (by omega) (tabDel_wf d k h)

/-- Keeping some keys keeps the canonical form. -/
theorem tabKeep_wf [DecidableEq α] (d : Nat → α) (p : Nat → Bool) {t : Tab α} (h : tabWf d t = true) : tabWf d (tabKeep p t) = true := by
  unfold tabWf at *
  suffices ∀ (t : Tab α) (lo : Nat), tabWfFrom d lo t = true → tabWfFrom d lo (tabKeep p t) = true from this t 0 h
  intro t
  induction t with
  | nil => intro lo _; rfl
  | cons e t ih =>
    intro lo h
    simp [tabWfFrom] at h
    by_cases he : p e.1 = true
    · simp [tabKeep, he, tabWfFrom]; exact ⟨h.1, ih _ h.2⟩
    · simp [tabKeep, he]; exact tabWfFrom_mono d (ih _ h.2) (by omega)

end Sys2Proof.Machine
end

