-- ==== Sys2Proof/Laws/Regs.lean ====
section
/-! SUPPORT. Laws/Regs.lean: what a register, a field, a bit or a byte reads as after each operation that writes one. -/
namespace Sys2Proof.Machine

@[simp] theorem State.rd_wr (s : State) (a b : Nat) (v : W32) : (s.wr a v).rd b = if b = a then v else s.rd b := by
  simp [State.rd, State.wr]
@[simp] theorem State.rd_resetRegs (s : State) (p : Nat → Bool) (b : Nat) : (s.resetRegs p).rd b = if p b then regReset b else s.rd b := by
  simp [State.rd, State.resetRegs]; by_cases h : p b <;> simp [h]
theorem State.rd_setFld (s : State) (a b : Nat) (f : Fld) (x : Nat) : (s.setFld a f x).rd b = if b = a then fput (s.rd a) f x else s.rd b := by
  simp [State.setFld]
theorem State.rd_setFld_ne (s : State) {a b : Nat} (f : Fld) (x : Nat) (h : b ≠ a) : (s.setFld a f x).rd b = s.rd b := by
  simp [State.setFld, h]
theorem State.rd_putBit (s : State) (a b n : Nat) (x : Bool) : (s.putBit a n x).rd b = if b = a then fput (s.rd a) (bitF n) x.toNat else s.rd b := by
  simp [State.putBit, State.setFld]
theorem State.rd_putBit_ne (s : State) {a b : Nat} (n : Nat) (x : Bool) (h : b ≠ a) : (s.putBit a n x).rd b = s.rd b := by
  simp [State.putBit, State.setFld, h]

@[simp] theorem State.byte_putByte (s : State) (a b : Nat) (v : Byte) : (s.putByte a v).byte b = if b = a then v else s.byte b := by
  simp [State.byte, State.putByte]

/-- The other bytes stay. -/
theorem State.byte_putBytes_out (s : State) (a b : Nat) (l : List Byte) (h : b < a ∨ a + l.length ≤ b) : (s.putBytes a l).byte b = s.byte b := by
  induction l generalizing s a with
  | nil => rfl
  | cons x l ih =>
    simp only [State.putBytes, List.length_cons] at *
    rw [ih _ _ (by omega)]
    simp; intro e; omega

/-- The written bytes read as written. -/
theorem State.byte_putBytes_in (s : State) (a k : Nat) (l : List Byte) (h : k < l.length) : (s.putBytes a l).byte (a + k) = l[k] := by
  induction l generalizing s a k with
  | nil => simp at h
  | cons x l ih =>
    cases k with
    | zero => simp [State.putBytes, State.byte_putBytes_out]
    | succ k =>
      have := ih (s.putByte a x) (a + 1) k (by simpa using h)
      simp only [State.putBytes, List.getElem_cons_succ]
      rw [show a + (k + 1) = a + 1 + k by omega]
      exact this

@[simp] theorem State.core_setCore (s : State) (c x : CoreId) (v : Core) : (s.setCore c v).core x = if coreKey x = coreKey c then v else s.core x := by
  simp [State.core, State.setCore]
@[simp] theorem State.queue_setQueue (s : State) (k j : Nat) (v : Queue) : (s.setQueue k v).queue j = if j = k then v else s.queue j := by
  simp [State.queue, State.setQueue]
@[simp] theorem State.hold_setHold (s : State) (k j : Nat) (v : Hold) : (s.setHold k v).hold j = if j = k then v else s.hold j := by
  simp [State.hold, State.setHold]
@[simp] theorem State.line_putLine (s : State) (a b : Nat) (l : LineState) : (s.putLine a l).line b = if b = a then l else s.line b := by
  simp [State.line, State.putLine]

theorem coreKey_inj : ∀ a b : CoreId, coreKey a = coreKey b → a = b := by
  intro a b h
  cases a <;> cases b <;> simp_all [coreKey] <;> omega

/-! ### Fields and bits -/

/-- Bit m of a word with a field replaced. -/
theorem fput_lsb (v : W32) (f : Fld) (x m : Nat) (hm : m < 32) :
    (fput v f x).getLsbD m = if f.lo ≤ m ∧ m < f.lo + f.w then x.testBit (m - f.lo) else v.getLsbD m := by
  simp only [fput, Fld.mask, BitVec.getLsbD_or, BitVec.getLsbD_and, BitVec.getLsbD_not, BitVec.getLsbD_ofNat, hm, decide_true, Bool.true_and,
    Nat.testBit_shiftLeft, Nat.testBit_two_pow_sub_one, Nat.testBit_mod_two_pow]
  by_cases h1 : f.lo ≤ m
  · by_cases h2 : m < f.lo + f.w
    · have h3 : m - f.lo < f.w := by omega
      simp [h1, h2, h3]
    · have h3 : ¬ m - f.lo < f.w := by omega
      simp [h1, h2, h3]
  · simp [h1]

/-- Bit k of the value of a field. -/
theorem fget_testBit (v : W32) (f : Fld) (k : Nat) : (fget v f).testBit k = (decide (k < f.w) && v.getLsbD (f.lo + k)) := by
  simp only [fget, Nat.testBit_mod_two_pow, BitVec.toNat_ushiftRight, Nat.testBit_shiftRight, BitVec.testBit_toNat]

/-- A field reads what was put into it. -/
theorem fget_fput (v : W32) (f : Fld) (x : Nat) (h : f.lo + f.w ≤ 32) : fget (fput v f x) f = x % 2 ^ f.w := by
  apply Nat.eq_of_testBit_eq
  intro k
  rw [fget_testBit, Nat.testBit_mod_two_pow]
  by_cases hk : k < f.w
  · rw [fput_lsb _ _ _ _ (by omega)]
    simp [hk]
  · simp [hk]

/-- Another field of the word stays. -/
theorem fget_fput_other (v : W32) (f g : Fld) (x : Nat) (h : g.lo + g.w ≤ f.lo ∨ f.lo + f.w ≤ g.lo) (hg : g.lo + g.w ≤ 32) :
    fget (fput v f x) g = fget v g := by
  apply Nat.eq_of_testBit_eq
  intro k
  rw [fget_testBit, fget_testBit]
  by_cases hk : k < g.w
  · rw [fput_lsb _ _ _ _ (by omega), if_neg (by omega)]
  · simp [hk]

/-- A bit reads what was put into it, and the other bits stay. -/
theorem fput_bit (v : W32) (n m : Nat) (b : Bool) (hn : n < 32) : (fput v (bitF n) b.toNat).getLsbD m = if m = n then b else v.getLsbD m := by
  by_cases hm : m < 32
  · rw [fput_lsb _ _ _ _ hm]
    by_cases e : m = n
    · subst e; cases b <;> simp [bitF]
    · have h : ¬ (n ≤ m ∧ m < n + 1) := by omega
      rw [if_neg e]
      exact if_neg h
  · rw [BitVec.getLsbD_of_ge _ _ (by omega), BitVec.getLsbD_of_ge _ _ (by omega)]
    have : m ≠ n := by omega
    simp [this]

theorem State.fld_setFld (s : State) (a : Nat) (f : Fld) (x : Nat) (h : f.lo + f.w ≤ 32) : (s.setFld a f x).fld a f = x % 2 ^ f.w := by
  simp [State.fld, State.setFld, fget_fput _ _ _ h]
theorem State.fld_setFld_ne (s : State) {a b : Nat} (f g : Fld) (x : Nat) (h : b ≠ a) : (s.setFld a f x).fld b g = s.fld b g := by
  simp [State.fld, State.setFld, h]
theorem State.fld_setFld_other (s : State) (a : Nat) (f g : Fld) (x : Nat) (h : g.lo + g.w ≤ f.lo ∨ f.lo + f.w ≤ g.lo) (hg : g.lo + g.w ≤ 32) :
    (s.setFld a f x).fld a g = s.fld a g := by
  simp [State.fld, State.setFld, fget_fput_other _ _ _ _ h hg]
theorem State.bit_putBit (s : State) (a b n m : Nat) (x : Bool) (h : n < 32) :
    (s.putBit a n x).bit b m = if b = a ∧ m = n then x else s.bit b m := by
  simp only [State.bit, State.rd_putBit]
  by_cases e : b = a
  · subst e; simp [fput_bit _ _ _ _ h]
  · simp [e]

end Sys2Proof.Machine
end

