-- ==== Sys2Proof/Laws/Access.lean ====
section
/-! SUPPORT. Laws/Access.lean: what the entry of an accepted request leaves, and what a register write or read that reaches its register does. -/
namespace Sys2Proof.Machine

theorem State.labelAtEntry_only (s : State) (q : Req) : Only [.regs] s (s.labelAtEntry q).1 := by
  intro p hp
  unfold State.labelAtEntry
  cases p <;> simp at hp <;> dsimp only [Part.same] <;> split <;> (try rfl) <;> split <;> rfl
theorem State.labelAtEntry_rd (s : State) (q : Req) (a : Nat) (h : entryReg q.ini a = false) : (s.labelAtEntry q).1.rd a = s.rd a := by
  have ha : a ≠ R.NOC_STAT (nocBase (iniDie q.ini)) := by
    intro e; subst e; simp [entryReg] at h
  unfold State.labelAtEntry
  split
  · rfl
  · dsimp only
    split
    · rfl
    · rw [State.rd_setFld_ne _ _ _ ha]
      unfold State.advSat
      rw [State.rd_setFld_ne _ _ _ ha]
theorem State.bwcAdd_only (s : State) (i : Ini) (cls k n : Nat) : Only [.regs] s (s.bwcAdd i cls k n) := by
  intro p hp
  unfold State.bwcAdd
  cases p <;> simp at hp <;> dsimp only [Part.same] <;> split <;> rfl
theorem State.guardCheck_ne_zero (s : State) (q : Req) : s.guardCheck q ≠ some 0 := by
  unfold State.guardCheck
  intro h
  split at h
  · simp at h
  · split at h
    · split at h
      · simp at h
      · dsimp only at h
        split at h
        · simp at h
        · split at h <;> simp at h
    · split at h <;> simp at h
theorem State.entryCheck_ne_zero (s : State) (q : Req) : s.entryCheck q ≠ some 0 := by
  unfold State.entryCheck
  intro h
  dsimp only at h
  split at h
  · simp at h
  · split at h
    · simp at h
    · split at h
      · simp at h
      · split at h
        · simp at h
        · split at h
          · simp at h
          · split at h
            · simp at h
            · split at h
              · rename_i c hc
                rw [h] at hc
                exact State.guardCheck_ne_zero _ _ hc
              · split at h <;> simp at h
theorem entryReg_ne_bwc {i : Ini} {a o : Nat} (h : entryReg i a = false) (ho : o < 0x400) : a ≠ bwcBase (iniDie i) + o := by
  intro e
  simp only [entryReg, Bool.or_eq_false_iff, Bool.and_eq_false_iff, decide_eq_false_iff_not] at h
  rcases h.2 with h | h <;> omega
theorem State.bwcAdd_rd (s : State) (i : Ini) (cls k n a : Nat) (hc : cls < 16) (hk : k < 4) (h : entryReg i a = false) :
    (s.bwcAdd i cls k n).rd a = s.rd a := by
  have h1 : a ≠ R.BWC_COUNT (bwcBase (iniDie i)) cls k := by
    have := entryReg_ne_bwc (o := 0x200 + 0x10 * cls + 4 * k) h (by omega)
    unfold R.BWC_COUNT; omega
  have h2 : a ≠ R.BWC_OVER_LO (bwcBase (iniDie i)) := entryReg_ne_bwc h (by omega)
  have h3 : a ≠ R.BWC_OVER_HI (bwcBase (iniDie i)) := entryReg_ne_bwc h (by omega)
  unfold State.bwcAdd
  dsimp only
  split
  · rw [State.rd_putBit_ne, State.rd_setFld_ne _ _ _ h1]
    split <;> assumption
  · rw [State.rd_setFld_ne _ _ _ h1]
theorem State.bwcCount_rd (s : State) (i : Ini) (cls n a : Nat) (r : Region) (hc : cls < 16) (h : entryReg i a = false) :
    (s.bwcCount i cls r n).rd a = s.rd a := by
  unfold State.bwcCount
  split
  · rfl
  · split
    · rfl
    · rename_i k hk
      refine State.bwcAdd_rd _ _ _ _ _ _ hc ?_ h
      revert hk; unfold resourceOf
      split <;> (try split) <;> intro e <;> simp at e <;> omega
theorem State.bwcCount_only (s : State) (i : Ini) (cls n : Nat) (r : Region) : Only [.regs] s (s.bwcCount i cls r n) := by
  unfold State.bwcCount
  split
  · intro p _; cases p <;> rfl
  · split
    · intro p _; cases p <;> rfl
    · exact State.bwcAdd_only _ _ _ _ _

/-! ### Parts that stay -/

theorem Only.trans {ps : List Part} {s t u : State} (h : Only ps s t) (g : Only ps t u) : Only ps s u := by
  intro p hp
  have a := h p hp
  have b := g p hp
  cases p <;> exact b.trans a
theorem Only.refl (ps : List Part) (s : State) : Only ps s s := by intro p _; cases p <;> rfl
theorem Only.mono {ps qs : List Part} {s t : State} (h : Only ps s t) (g : ps ⊆ qs) : Only qs s t := fun p hp => h p (fun e => hp (g e))
theorem Only.wr (s : State) (a : Nat) (v : W32) : Only [.regs] s (s.wr a v) := by
  intro p hp; cases p <;> simp at hp <;> rfl
theorem Only.setFld (s : State) (a : Nat) (f : Fld) (x : Nat) : Only [.regs] s (s.setFld a f x) := Only.wr _ _ _

/-! ### The entry of an accepted request -/

theorem State.labelAtEntry_lt (s : State) (q : Req) (h : q.cls < 16) : (s.labelAtEntry q).2 < 16 := by
  unfold State.labelAtEntry
  split
  · exact h
  · dsimp only
    split
    · exact h
    · exact Nat.mod_lt _ (by decide)
theorem State.iniLabel_lt (s : State) (i : Ini) : s.iniLabel i < 16 := by
  unfold State.iniLabel
  dsimp only
  split <;> first | omega | exact Nat.mod_lt _ (by decide)

theorem State.sendOut_only (s : State) (q : Req) : Only [.noc] s (s.sendOut q) := by
  intro p hp; cases p <;> simp at hp <;> rfl

/-- A request that the entry lets pass: its label and its lines are counted in registers, and its packet goes out. -/
theorem State.passEntry_only (s : State) (q : Req) : Only [.regs, .noc] s (s.passEntry q).1 := by
  have l : Only [.regs, .noc] s (s.labelAtEntry q).1 := (State.labelAtEntry_only s q).mono (by simp)
  unfold State.passEntry
  dsimp only
  split
  · exact l
  · split
    · exact l.trans (((State.bwcCount_only _ _ _ _ _).mono (by simp)).trans ((State.sendOut_only _ _).mono (by simp)))
    · exact l
theorem State.passEntry_rd (s : State) (q : Req) (b : Nat) (hq : q.cls < 16) (hb : entryReg q.ini b = false) : (s.passEntry q).1.rd b = s.rd b := by
  have l := State.labelAtEntry_rd s q b hb
  unfold State.passEntry
  dsimp only
  split
  · exact l
  · split
    · exact (State.bwcCount_rd _ _ _ _ b _ (State.labelAtEntry_lt s q hq) hb).trans l
    · exact l

/-- What the entry answers for a request it lets pass: the state that passEntry leaves. -/
theorem State.enter_pass (s : State) (q : Req) (h : (s.enter q).2.1 = 0) : s.enter q = s.passEntry q := by
  unfold State.enter at h ⊢
  dsimp only at h ⊢
  split
  · rename_i hc
    rw [if_pos hc] at h
    exact absurd h hc
  · rfl

/-! ### The target of an accepted request with a clear way -/

theorem List.find?_none_of {α : Type} {l : List α} {p : α → Bool} (h : ∀ x ∈ l, p x = false) : l.find? p = none := by
  rw [List.find?_eq_none]; intro x hx; rw [h x hx]; simp

/-- Nothing contends with a request whose way is clear. -/
theorem State.contenders_clear {s : State} {q : Req} (h : s.queueClear q = true) : s.contenders (s.keyOf q) s.net.length = [] := by
  unfold State.contenders
  rw [List.filterMap_eq_nil_iff]
  intro j hj
  split
  · rename_i n hn
    have hm : n ∈ s.net := List.mem_of_getElem? hn
    have hc := List.all_eq_true.mp h n hm
    simp only [Bool.and_eq_true, Bool.not_eq_true', Bool.and_eq_false_iff] at hc
    have hl : (j == s.net.length) = false := by
      have := List.mem_range.mp hj
      simp; omega
    have hw : s.waitsAt (s.keyOf q) s.net.length j n = false := by
      unfold State.waitsAt
      rw [hl]
      rcases hc.1 with hc | hc
      · simp [hc]
      · simp [hc]
    simp [hw]
  · rfl

/-- Nothing comes before a request whose way is clear. -/
theorem State.firstAt_clear {s : State} {q : Req} (h : s.queueClear q = true) : s.firstAt q = none := by
  unfold State.firstAt
  dsimp only
  rw [List.find?_none_of]
  · rw [State.contenders_clear h]
    dsimp only [List.nil_append]
    unfold arbPick
    dsimp only
    split
    · rename_i p hp
      have := List.mem_of_find?_eq_some hp
      simp only [List.mem_singleton] at this
      subst this; simp
    · split
      · simp
      · rename_i v hv
        by_cases e : s.targetVc q = v <;> simp [e]
  · intro j _
    split
    · rename_i n hn
      have hc := List.all_eq_true.mp h n (List.mem_of_getElem? hn)
      simp only [Bool.and_eq_true, Bool.not_eq_true'] at hc
      simp [hc.2]
    · rfl

/-- A request whose way is clear is the next grant of its target, and nothing else happens there. -/
theorem State.arrive_clear {s : State} {q : Req} (h : s.queueClear q = true) : ∃ x, s.arrive q = s.withNoc x := by
  unfold State.arrive
  split
  · exact ⟨s.noc, rfl⟩
  · have d : s.drain q (s.net.length + 1) = s := by rw [State.drain, State.firstAt_clear h]
    rw [d]
    unfold State.passOver
    dsimp only
    rw [State.contenders_clear h]
    exact ⟨_, rfl⟩

/-- What a request with a clear way leaves as it reaches its target. -/
theorem State.reach_clear {s : State} {q : Req} (h : s.clearWay q = true) : (s.reach q).2 = 0 ∧ ∃ x, (s.reach q).1 = (s.passEntry q).1.withNoc x := by
  unfold State.clearWay at h
  simp only [Bool.and_eq_true, beq_iff_eq] at h
  obtain ⟨h0, h1⟩ := h
  rw [s.enter_pass _ h0] at h1 h0
  obtain ⟨x, hx⟩ := State.arrive_clear h1
  unfold State.reach
  rw [s.enter_pass q (by rw [show s.enter q = s.passEntry q from s.enter_pass q (by unfold State.enter; simp [h0])]; exact h0)]
  simp only [h0, ne_eq, not_true_eq_false, if_false]
  exact ⟨trivial, x, hx⟩

/-- An accepted request with a clear way changes registers and the network's packets only. -/
theorem State.entered_only (s : State) (i : Ini) (k : Kind) (a : Nat) (h : s.clearWay (s.regReq i k a) = true) : Only [.regs, .noc] s (s.entered i k a) := by
  obtain ⟨_, x, e⟩ := State.reach_clear h
  unfold State.entered
  rw [e]
  exact (s.passEntry_only _).trans (by intro p hp; cases p <;> simp at hp <;> rfl)

/-- It counts in the entry's registers alone. -/
theorem State.entered_rd (s : State) (i : Ini) (k : Kind) (a b : Nat) (h : s.clearWay (s.regReq i k a) = true) (hb : entryReg i b = false) :
    (s.entered i k a).rd b = s.rd b := by
  obtain ⟨_, x, e⟩ := State.reach_clear h
  unfold State.entered
  rw [e]
  exact s.passEntry_rd _ b (s.iniLabel_lt i) hb

/-! ### A register access that reaches its register -/

theorem leNat_leBytes (n x : Nat) : leNat (leBytes n x) = x % 256 ^ n := by
  induction n generalizing x with
  | zero => simp [leBytes, leNat, Nat.mod_one]
  | succ n ih =>
    simp only [leBytes, leNat, ih, BitVec.toNat_ofNat, Nat.pow_succ]
    have := Nat.mod_mul (a := 256) (b := 256 ^ n) (x := x)
    rw [Nat.mul_comm (256 ^ n) 256]
    omega
theorem leNat_leBytes_word (v : W32) : BitVec.ofNat 32 (leNat (leBytes 4 v.toNat)) = v := by
  apply BitVec.eq_of_toNat_eq
  rw [leNat_leBytes, BitVec.toNat_ofNat]
  have := v.isLt
  omega

/-- A write that reaches its register is its block's hook on the state after the entry. -/
theorem State.regWrite_takes (s : State) (i : Ini) (a : Nat) (v : W32) (h : s.takes i a v = true) (ha : a < 2 ^ 64) :
    s.regWrite i a v = (s.entered i .write a).regHook i a v := by
  have hn : (BitVec.ofNat 64 a).toNat = a := by rw [BitVec.toNat_ofNat]; exact Nat.mod_eq_of_lt ha
  unfold State.takes at h
  simp only [Bool.and_eq_true, beq_iff_eq, hn] at h
  obtain ⟨h0, h1⟩ := h
  have e : s.busWrite (s.regReq i .write a) (leBytes 4 v.toNat) = ((s.entered i .write a).regHook i a v, .ok []) := by
    have h2 := (State.reach_clear h0).1
    unfold State.busWrite State.entered
    simp only [h2, ne_eq, not_true_eq_false, if_false, show (s.regReq i .write a).addr.toNat = a from hn]
    split at h1
    · rename_i r lo hi e
      simp only [Bool.and_eq_true, Bool.not_eq_true', beq_iff_eq] at h1
      obtain ⟨⟨⟨⟨g1, g2⟩, g3⟩, g4⟩, g5⟩ := h1
      simp [e, State.serveWrite, State.regWriteAt, show (s.regReq i .write a).ini = i from rfl, g1, g2, g3, g4, g5, leNat_leBytes_word]
    · simp at h1
  have f : s.regWrite i a v = match (s.busWrite (s.regReq i .write a) (leBytes 4 v.toNat)).2 with
    | .bad c => (s.busWrite (s.regReq i .write a) (leBytes 4 v.toNat)).1.faultOf (s.regReq i .write a) c
    | _ => (s.busWrite (s.regReq i .write a) (leBytes 4 v.toNat)).1 := rfl
  rw [f, e]

/-- A read that reaches its register answers what the register reads as. -/
theorem State.regRead_gives (s : State) (i : Ini) (a : Nat) (h : s.gives i a = true) (ha : a < 2 ^ 64) :
    s.regReadCmd i a = ((s.entered i .read a).regRead i a).1.withRet (((s.entered i .read a).regRead i a).2.setWidth 64) := by
  have hn : (BitVec.ofNat 64 a).toNat = a := by rw [BitVec.toNat_ofNat]; exact Nat.mod_eq_of_lt ha
  unfold State.gives at h
  simp only [Bool.and_eq_true, beq_iff_eq, hn] at h
  obtain ⟨h0, h1⟩ := h
  have e : s.busRead (s.regReq i .read a) =
      (((s.entered i .read a).regRead i a).1, .ok (leBytes 4 ((s.entered i .read a).regRead i a).2.toNat)) := by
    have h2 := (State.reach_clear h0).1
    unfold State.busRead State.entered
    simp only [h2, ne_eq, not_true_eq_false, if_false, show (s.regReq i .read a).addr.toNat = a from hn]
    split at h1
    · rename_i r lo hi e
      simp only [Bool.and_eq_true, Bool.not_eq_true'] at h1
      obtain ⟨⟨g1, g2⟩, g3⟩ := h1
      simp [e, State.serveRead, State.regReadAt, show (s.regReq i .read a).ini = i from rfl, g1, g2, g3]
    · simp at h1
  have f : s.regReadCmd i a = match (s.busRead (s.regReq i .read a)).2 with
    | .ok b => (s.busRead (s.regReq i .read a)).1.withRet (BitVec.ofNat 64 (leNat b))
    | .bad c => ((s.busRead (s.regReq i .read a)).1.withRet 0).faultOf (s.regReq i .read a) c
    | .other => (s.busRead (s.regReq i .read a)).1 := rfl
  rw [f, e]
  dsimp only
  rw [leNat_leBytes]
  congr 1
  apply BitVec.eq_of_toNat_eq
  rw [BitVec.toNat_ofNat, BitVec.toNat_setWidth]
  have := ((s.entered i .read a).regRead i a).2.isLt
  omega

end Sys2Proof.Machine
end

