-- ==== Sys2Proof/Laws/Angle.lean ====
section
/-! SUPPORT. Laws/Angle.lean: the word of the angle unit's output levels, bit by bit. -/
namespace Sys2Proof.Machine

/-- A word summed of the powers of two of the positions below m where f holds has exactly those bits. -/
theorem bitSum_spec (f : Nat → Bool) (m : Nat) :
    (List.range m).foldl (fun w n => if f n then w + 2 ^ n else w) 0 < 2 ^ m ∧
      ∀ n, ((List.range m).foldl (fun w n => if f n then w + 2 ^ n else w) 0).testBit n = (decide (n < m) && f n) := by
  induction m with
  | zero => simp
  | succ m ih =>
    obtain ⟨hlt, hbit⟩ := ih
    rw [List.range_succ, List.foldl_append]
    simp only [List.foldl_cons, List.foldl_nil]
    generalize (List.range m).foldl (fun w n => if f n then w + 2 ^ n else w) 0 = w at hlt hbit
    cases hf : f m with
    | false =>
      refine ⟨by simp only [Bool.false_eq_true, if_false]; rw [Nat.pow_succ]; omega, fun n => ?_⟩
      simp only [Bool.false_eq_true, if_false, hbit]
      by_cases h : n = m
      · subst h; simp [hf]
      · have : decide (n < m + 1) = decide (n < m) := by simp only [decide_eq_decide]; omega
        rw [this]
    | true =>
      refine ⟨by simp only [if_true]; rw [Nat.pow_succ]; omega, fun n => ?_⟩
      simp only [if_true]
      by_cases h : n = m
      · subst h
        rw [Nat.add_comm, Nat.testBit_two_pow_add_eq, hbit]; simp [hf]
      · rcases Nat.lt_or_gt_of_ne h with h | h
        · rw [Nat.add_comm, Nat.testBit_two_pow_add_gt h, hbit]
          simp [Nat.lt_succ_of_lt h, h]
        · have h2 : w + 2 ^ m < 2 ^ n := by
            have := Nat.pow_le_pow_right (show 0 < 2 by omega) h
            rw [Nat.pow_succ] at this; omega
          rw [Nat.testBit_lt_two_pow h2]
          have : ¬(n < m + 1) := by omega
          simp [this]

/-- The level of AEVn (R569). -/
theorem State.aevLevels_testBit (s : State) (n : Nat) (h : n < 12) :
    s.aevLevels.testBit n = ((List.range 24).any (fun c => s.chSt c == 2 && s.fld (R.ANG_CHCFG c) F.ANG_CHCFG.ROUTE == n) == s.bit R.ANG_OUTPOL n) := by
  have := (bitSum_spec (fun n => (List.range 24).any (fun c => s.chSt c == 2 && s.fld (R.ANG_CHCFG c) F.ANG_CHCFG.ROUTE == n) == s.bit R.ANG_OUTPOL n) 12).2 n
  simpa [State.aevLevels, State.bit, h] using this

end Sys2Proof.Machine
end

