-- ==== Sys2Proof/Laws/Stays.lean ====
section
/-! SUPPORT. Laws/Stays.lean: the relation Stays and the operations of State that every other one is built of. -/
namespace Sys2Proof.Machine

/-- Stays, of the state of a pair, of an optional state, of an optional pair, and of the outcome of a meaning. -/
abbrev StaysP {β : Type} (s : State) (p : State × β) : Prop := Stays s p.1
def StaysO (s : State) (o : Option State) : Prop := ∀ t, o = some t → Stays s t
def StaysOP {β : Type} (s : State) (o : Option (State × β)) : Prop := ∀ p, o = some p → Stays s p.1
def StaysX (s : State) (o : Host.Outcome State Fault Refusal) : Prop := ∀ t, o = .next t → Stays s t

theorem Stays.refl (s : State) : Stays s s := ⟨id, rfl, rfl⟩
theorem StaysP.mk {β : Type} {s t : State} {x : β} (h : Stays s t) : StaysP s (t, x) := h
theorem StaysP.of_eq {β : Type} {s t : State} {x : β} {p : State × β} (e : p = (t, x)) (h : StaysP s p) : Stays s t := by subst e; exact h
theorem StaysO.some {s t : State} (h : Stays s t) : StaysO s (some t) := by intro u e; cases e; exact h
theorem StaysO.none {s : State} : StaysO s none := by intro u e; cases e
theorem StaysO.of_eq {s t : State} {o : Option State} (e : o = Option.some t) (h : StaysO s o) : Stays s t := h t e
theorem StaysO.getD {s t : State} {o : Option State} (h : StaysO s o) (g : Stays s t) : Stays s (o.getD t) := by
  cases o with
  | none => exact g
  | some u => exact h u rfl
theorem StaysO.or {s : State} {o p : Option State} (h : StaysO s o) (g : StaysO s p) : StaysO s (o.or p) := by
  cases o with
  | none => exact g
  | some u => exact h
theorem StaysOP.some {β : Type} {s : State} {p : State × β} (h : StaysP s p) : StaysOP s (some p) := by intro u e; cases e; exact h
theorem StaysOP.none {β : Type} {s : State} : StaysOP (β := β) s none := by intro u e; cases e
theorem StaysOP.of_eq {β : Type} {s : State} {p : State × β} {o : Option (State × β)} (e : o = Option.some p) (h : StaysOP s o) : StaysP s p := h p e
theorem StaysOP.or {β : Type} {s : State} {o p : Option (State × β)} (h : StaysOP s o) (g : StaysOP s p) : StaysOP s (o.or p) := by
  cases o with
  | none => exact g
  | some u => exact h
theorem StaysX.next {s t : State} (h : Stays s t) : StaysX s (.next t) := by intro u e; cases e; exact h

theorem Stays.ite {c : Prop} [Decidable c] {s t u : State} (h : Stays s t) (g : Stays s u) : Stays s (if c then t else u) := by split <;> assumption
theorem StaysP.ite {β : Type} {c : Prop} [Decidable c] {s : State} {t u : State × β} (h : StaysP s t) (g : StaysP s u) : StaysP s (if c then t else u) := by
  split <;> assumption
theorem StaysO.ite {c : Prop} [Decidable c] {s : State} {t u : Option State} (h : StaysO s t) (g : StaysO s u) : StaysO s (if c then t else u) := by
  split <;> assumption
theorem StaysOP.ite {β : Type} {c : Prop} [Decidable c] {s : State} {t u : Option (State × β)} (h : StaysOP s t) (g : StaysOP s u) :
    StaysOP s (if c then t else u) := by split <;> assumption
theorem StaysX.ite {c : Prop} [Decidable c] {s : State} {t u : Host.Outcome State Fault Refusal} (h : StaysX s t) (g : StaysX s u) :
    StaysX s (if c then t else u) := by split <;> assumption

theorem foldl_stays {β : Type} {s0 s : State} (h : Stays s0 s) {f : State → β → State} (hf : ∀ t x, Stays s0 t → Stays s0 (f t x)) (l : List β) :
    Stays s0 (l.foldl f s) := by
  induction l generalizing s with
  | nil => exact h
  | cons x l ih => exact ih (hf s x h)

theorem foldlP_stays {β γ : Type} {s0 : State} {p : State × γ} (h : Stays s0 p.1) {f : State × γ → β → State × γ}
    (hf : ∀ t x, Stays s0 t.1 → Stays s0 (f t x).1) (l : List β) : Stays s0 (l.foldl f p).1 := by
  induction l generalizing p with
  | nil => exact h
  | cons x l ih => exact ih (hf p x h)

/-! ### The eight operations that touch a table in canonical form, and the rest -/

theorem stays_of {s0 s t : State} (h : Stays s0 s) (hw : s.wf = true → t.wf = true) (hv : t.variant = s.variant) (hp : t.pending = s.pending) : Stays s0 t :=
  ⟨fun x => hw (h.1 x), hv.trans h.2.1, hp.trans h.2.2⟩

theorem State.wf_iff (s : State) : s.wf = true ↔ tabWf regReset s.regs = true ∧ Memory.wf s.mem = true ∧ tabWf lineDefault s.lines = true ∧
    tabWf coreReset s.cores = true ∧ tabWf queueDefault s.queues = true ∧ tabWf holdDefault s.holds = true := by
  simp [State.wf, and_assoc]

section
variable {s0 s : State}

theorem State.wr_stays (h : Stays s0 s) (a : Nat) (v : W32) : Stays s0 (s.wr a v) :=
  stays_of h (fun x => by rw [State.wf_iff] at *; exact ⟨tabPut_wf _ _ _ x.1, x.2⟩) rfl rfl
theorem State.resetRegs_stays (h : Stays s0 s) (p : Nat → Bool) : Stays s0 (s.resetRegs p) :=
  stays_of h (fun x => by rw [State.wf_iff] at *; exact ⟨tabKeep_wf _ _ x.1, x.2⟩) rfl rfl
/-- Storing a byte keeps the canonical form of memory. -/
theorem State.putByte_stays (h : Stays s0 s) (a : Nat) (v : Byte) : Stays s0 (s.putByte a v) :=
  stays_of h (fun x => by rw [State.wf_iff] at *; exact ⟨x.1, tabPut_wf memDefault a v x.2.1, x.2.2⟩) rfl rfl
/-- Clearing a range keeps the canonical form of memory. -/
theorem State.clearMem_stays (h : Stays s0 s) (lo hi : Nat) : Stays s0 (s.clearMem lo hi) :=
  stays_of h (fun x => by rw [State.wf_iff] at *; exact ⟨x.1, tabKeep_wf memDefault _ x.2.1, tabKeep_wf _ _ x.2.2.1, x.2.2.2⟩) rfl rfl
theorem State.putLine_stays (h : Stays s0 s) (a : Nat) (l : LineState) : Stays s0 (s.putLine a l) :=
  stays_of h (fun x => by rw [State.wf_iff] at *; exact ⟨x.1, x.2.1, tabPut_wf _ _ _ x.2.2.1, x.2.2.2⟩) rfl rfl
theorem State.setCore_stays (h : Stays s0 s) (c : CoreId) (x : Core) : Stays s0 (s.setCore c x) :=
  stays_of h (fun w => by rw [State.wf_iff] at *; exact ⟨w.1, w.2.1, w.2.2.1, tabPut_wf _ _ _ w.2.2.2.1, w.2.2.2.2⟩) rfl rfl
theorem State.keepCores_stays (h : Stays s0 s) (p : Nat → Bool) {t : Tab Core} (ht : t = s.cores) : Stays s0 (s.withCores (tabKeep p t)) :=
  stays_of h (fun w => by subst ht; rw [State.wf_iff] at *; exact ⟨w.1, w.2.1, w.2.2.1, tabKeep_wf _ _ w.2.2.2.1, w.2.2.2.2⟩) rfl rfl
theorem State.setQueue_stays (h : Stays s0 s) (k : Nat) (x : Queue) : Stays s0 (s.setQueue k x) :=
  stays_of h (fun w => by rw [State.wf_iff] at *; exact ⟨w.1, w.2.1, w.2.2.1, w.2.2.2.1, tabPut_wf _ _ _ w.2.2.2.2.1, w.2.2.2.2.2⟩) rfl rfl
theorem State.setHold_stays (h : Stays s0 s) (k : Nat) (x : Hold) : Stays s0 (s.setHold k x) :=
  stays_of h (fun w => by rw [State.wf_iff] at *; exact ⟨w.1, w.2.1, w.2.2.1, w.2.2.2.1, w.2.2.2.2.1, tabPut_wf _ _ _ w.2.2.2.2.2⟩) rfl rfl
theorem State.keepHolds_stays (h : Stays s0 s) (p : Nat → Bool) {t : Tab Hold} (ht : t = s.holds) : Stays s0 (s.withHolds (tabKeep p t)) :=
  stays_of h (fun w => by subst ht; rw [State.wf_iff] at *; exact ⟨w.1, w.2.1, w.2.2.1, w.2.2.2.1, w.2.2.2.2.1, tabKeep_wf _ _ w.2.2.2.2.2⟩) rfl rfl
theorem State.withTb_stays (h : Stays s0 s) (x : TimeBase) : Stays s0 (s.withTb x) := h
theorem State.withSup_stays (h : Stays s0 s) (x : Supply) : Stays s0 (s.withSup x) := h
theorem State.withBoot_stays (h : Stays s0 s) (x : Boot) : Stays s0 (s.withBoot x) := h
theorem State.withRot_stays (h : Stays s0 s) (x : Tab Nat) : Stays s0 (s.withRot x) := h
theorem State.withEng_stays (h : Stays s0 s) (x : Eng) : Stays s0 (s.withEng x) := h
theorem State.withIo_stays (h : Stays s0 s) (x : Io) : Stays s0 (s.withIo x) := h
theorem State.withFlt_stays (h : Stays s0 s) (x : Flt) : Stays s0 (s.withFlt x) := h
theorem State.withNet_stays (h : Stays s0 s) (x : List NetReq) : Stays s0 (s.withNet x) := h
theorem State.withResp_stays (h : Stays s0 s) (x : List NetResp) : Stays s0 (s.withResp x) := h
theorem State.withScrubPos_stays (h : Stays s0 s) (x : Tab Nat) : Stays s0 (s.withScrubPos x) := h
theorem State.withBwcLen_stays (h : Stays s0 s) (x : Tab W32) : Stays s0 (s.withBwcLen x) := h
theorem State.withAwlSpent_stays (h : Stays s0 s) (x : List Nat) : Stays s0 (s.withAwlSpent x) := h
theorem State.withTraceQ_stays (h : Stays s0 s) (x : List (List Byte)) : Stays s0 (s.withTraceQ x) := h
theorem State.withSigOut_stays (h : Stays s0 s) (x : List RemoteSig) : Stays s0 (s.withSigOut x) := h
theorem State.withRet_stays (h : Stays s0 s) (x : Word) : Stays s0 (s.withRet x) := h
theorem State.withNoc_stays (h : Stays s0 s) (x : Noc) : Stays s0 (s.withNoc x) := h
theorem State.withFree_stays (h : Stays s0 s) (x : Nat) : Stays s0 (s.withFree x) := h

/-! ### Operations that recur -/

theorem State.each_stays (h : Stays s0 s) (f : State → Nat → State) (l : List Nat) (hf : ∀ t n, Stays s0 t → Stays s0 (f t n)) : Stays s0 (s.each f l) := by
  induction l generalizing s with
  | nil => exact h
  | cons n l ih => exact ih (hf s n h)
theorem State.eachCore_stays (h : Stays s0 s) (f : Core → Core) (l : List CoreId) : Stays s0 (s.eachCore f l) := by
  induction l generalizing s with
  | nil => exact h
  | cons n l ih => exact ih (State.setCore_stays h _ _)
theorem State.putBytes_stays (h : Stays s0 s) (a : Nat) (l : List Byte) : Stays s0 (s.putBytes a l) := by
  induction l generalizing s a with
  | nil => exact h
  | cons b l ih => exact ih (State.putByte_stays h _ _) _
theorem State.acquireRead_stays (h : Stays s0 s) (key : Nat) (i : Ini) : Stays s0 (s.acquireRead key i).2 := by
  unfold State.acquireRead
  dsimp only
  split
  · exact State.setHold_stays h _ _
  · split <;> exact h
theorem State.drawn_stays (h : Stays s0 s) : Stays s0 s.drawn := h
theorem State.drawBytes_stays (h : Stays s0 s) (n : Nat) : StaysP s0 (s.drawBytes n) := by
  induction n generalizing s with
  | zero => exact h
  | succ n ih => exact ih (State.drawn_stays h)

end

end Sys2Proof.Machine
end

