-- ==== Sys2Proof/Laws/StaysA.lean ====
section
/-! SUPPORT. Laws/StaysA.lean: every operation and meaning of Ops, Access, Packets, Log, Sync, OutCtl, AngCtl, InCtl, MbcCtl, LinCtl, LaceCtl, Live keeps the canonical
form, the variant and the queue of waiting commands (Stays); each lemma says it of one definition, whose helpers have theirs before it. -/
namespace Sys2Proof.Machine

theorem State.setFld_stays {z s : State} (h : Stays z s) (a : Nat) (f : Fld) (x : Nat) :
  Stays z (State.setFld s a f x) := by
  unfold State.setFld
  repeat' with_reducible (first | assumption | apply State.wr_stays | apply Stays.ite)

theorem State.putBit_stays {z s : State} (h : Stays z s) (a : Nat) (n : Nat) (b : Bool) :
  Stays z (State.putBit s a n b) := by
  unfold State.putBit
  repeat' with_reducible (first | assumption | apply State.setFld_stays | apply Stays.ite)

theorem State.advSat_stays {z s : State} (h : Stays z s) (a : Nat) (f : Fld) (k : Nat) :
  Stays z (State.advSat s a f k) := by
  unfold State.advSat
  repeat' with_reducible (first | assumption | apply State.setFld_stays | apply Stays.ite)

theorem State.advWrap_stays {z s : State} (h : Stays z s) (a : Nat) (f : Fld) (k : Nat) :
  Stays z (State.advWrap s a f k) := by
  unfold State.advWrap
  repeat' with_reducible (first | assumption | apply State.setFld_stays | apply Stays.ite)

theorem State.wr2_stays {z s : State} (h : Stays z s) (lo : Nat) (hi : Nat) (v : Word) :
  Stays z (State.wr2 s lo hi v) := by
  unfold State.wr2
  repeat' with_reducible (first | assumption | apply State.wr_stays | apply Stays.ite)

theorem State.putWord_stays {z s : State} (h : Stays z s) (a : Nat) (v : W32) :
  Stays z (State.putWord s a v) := by
  unfold State.putWord
  repeat' with_reducible (first | assumption | apply State.putBytes_stays | apply State.putLine_stays | apply Stays.ite | split | dsimp only)

theorem State.putWords_stays {z s : State} (h : Stays z s) (a : Nat) (x3 : List W32) :
  Stays z (State.putWords s a x3) := by
  induction x3 generalizing s a with
  | nil =>
    unfold State.putWords
    repeat' with_reducible (first | assumption | apply ih | apply State.putWord_stays | apply Stays.ite | split | dsimp only)
  | cons x l ih =>
    unfold State.putWords
    repeat' with_reducible (first | assumption | apply ih | apply State.putWord_stays | apply Stays.ite | split | dsimp only)

theorem State.putDword_stays {z s : State} (h : Stays z s) (a : Nat) (v : Word) :
  Stays z (State.putDword s a v) := by
  unfold State.putDword
  repeat' with_reducible (first | assumption | apply State.putWords_stays | apply Stays.ite | split | dsimp only)

theorem State.setStream_stays {z s : State} (h : Stays z s) (u : Nat) (x : Stream) :
  Stays z (State.setStream s u x) := by
  unfold State.setStream
  repeat' with_reducible (first | assumption | apply State.withEng_stays | apply Stays.ite)

theorem State.onStream_stays {z s : State} (h : Stays z s) (u : Nat) (f : Stream → Stream) :
  Stays z (State.onStream s u f) := by
  unfold State.onStream
  repeat' with_reducible (first | assumption | apply State.setStream_stays | apply Stays.ite)

theorem State.setMat_stays {z s : State} (h : Stays z s) (k : Nat) (x : Option Mat) :
  Stays z (State.setMat s k x) := by
  unfold State.setMat
  repeat' with_reducible (first | assumption | apply State.withEng_stays | apply Stays.ite)

theorem State.setPipe_stays {z s : State} (h : Stays z s) (g : Nat) (x : Option Pipe) :
  Stays z (State.setPipe s g x) := by
  unfold State.setPipe
  repeat' with_reducible (first | assumption | apply State.withEng_stays | apply Stays.ite)

theorem State.setRgn_stays {z s : State} (h : Stays z s) (k : Nat) (x : Rgn) :
  Stays z (State.setRgn s k x) := by
  unfold State.setRgn
  repeat' with_reducible (first | assumption | apply State.withEng_stays | apply Stays.ite)

theorem done_stays {z s : State} (h : Stays z s)  :
  StaysX z (done s) := by
  unfold done
  repeat' with_reducible (first | assumption | apply Stays.ite | apply StaysX.next | apply StaysX.ite)

theorem State.setDieState_stays {z s : State} (h : Stays z s) (d : Nat) (c : Nat) :
  Stays z (State.setDieState s d c) := by
  unfold State.setDieState
  repeat' with_reducible (first | assumption | apply State.setFld_stays | apply Stays.ite)

theorem State.setLarderState_stays {z s : State} (h : Stays z s) (l : Nat) (c : Nat) :
  Stays z (State.setLarderState s l c) := by
  unfold State.setLarderState
  repeat' with_reducible (first | assumption | apply State.setFld_stays | apply Stays.ite)

theorem State.labelAtEntry_stays {z s : State} (h : Stays z s) (q : Req) :
  StaysP z (State.labelAtEntry s q) := by
  unfold State.labelAtEntry
  repeat' with_reducible (first | assumption | apply State.advSat_stays | apply State.setFld_stays | apply Stays.ite | apply StaysP.ite | dsimp only [StaysP])

theorem State.bwcAdd_stays {z s : State} (h : Stays z s) (i : Ini) (cls : Nat) (k : Nat) (n : Nat) :
  Stays z (State.bwcAdd s i cls k n) := by
  unfold State.bwcAdd
  repeat' with_reducible (first | assumption | apply State.setFld_stays | apply State.putBit_stays | apply Stays.ite)

theorem State.bwcCount_stays {z s : State} (h : Stays z s) (i : Ini) (cls : Nat) (r : Region) (n : Nat) :
  Stays z (State.bwcCount s i cls r n) := by
  unfold State.bwcCount
  repeat' with_reducible (first | assumption | apply State.bwcAdd_stays | apply Stays.ite | dsimp only | split)

theorem State.sendOut_stays {z s : State} (h : Stays z s) (q : Req) :
  Stays z (State.sendOut s q) := by
  unfold State.sendOut
  repeat' with_reducible (first | assumption | apply State.withNoc_stays | apply Stays.ite | split | dsimp only)

theorem State.sigOutward_stays {z s : State} (h : Stays z s) (i : Ini) (cls : Nat) (k : Option Nat) (addr : Nat) (ddie : Nat) (p : Place) :
  Stays z (State.sigOutward s i cls k addr ddie p) := by
  unfold State.sigOutward
  repeat' with_reducible (first | assumption | apply State.withNoc_stays | apply Stays.ite | split | dsimp only)

theorem State.sendBack_stays {z s : State} (h : Stays z s) (n : NetReq) (reason : Nat) (data : List Byte) :
  Stays z (State.sendBack s n reason data) := by
  unfold State.sendBack
  repeat' with_reducible (first | assumption | apply State.withNoc_stays | apply Stays.ite | split | dsimp only)

theorem State.respond_stays {z s : State} (h : Stays z s) (n : NetReq) (reason : Nat) (data : List Byte) :
  Stays z (State.respond s n reason data) := by
  unfold State.respond
  repeat' with_reducible (first | assumption | apply State.withResp_stays | apply Stays.ite | split | dsimp only)

theorem State.passOver_stays {z s : State} (h : Stays z s) (key : Nat) (k : Nat) (vc : Nat) :
  Stays z (State.passOver s key k vc) := by
  unfold State.passOver
  repeat' with_reducible (first | intro _ | assumption | apply State.withNoc_stays | apply State.withNet_stays | apply Stays.ite | apply StaysP.ite | split | dsimp only [StaysP])

theorem State.grant_stays {z s : State} (h : Stays z s) (k : Nat) (n : NetReq) :
  Stays z (State.grant s k n) := by
  unfold State.grant
  repeat' with_reducible (first | assumption | apply State.passOver_stays | apply State.withNet_stays | apply Stays.ite | split | dsimp only)

theorem State.passEntry_stays {z s : State} (h : Stays z s) (q : Req) :
  StaysP z (State.passEntry s q) := by
  unfold State.passEntry
  repeat' with_reducible (first | intro _ | assumption | apply State.sendOut_stays | apply State.bwcCount_stays | apply State.labelAtEntry_stays | apply Stays.ite | apply StaysP.ite | split | dsimp only [StaysP])

theorem State.setEvt_stays {z s : State} (h : Stays z s) (b : Nat) :
  Stays z (State.setEvt s b) := by
  unfold State.setEvt
  repeat' with_reducible (first | assumption | apply State.putBit_stays | apply Stays.ite)

theorem State.dropRec_stays {z s : State} (h : Stays z s)  :
  Stays z (State.dropRec s) := by
  unfold State.dropRec
  repeat' with_reducible (first | assumption | apply State.setEvt_stays | apply State.wr_stays | apply Stays.ite)

theorem State.holdRec_stays {z s : State} (h : Stays z s) (r : Rec) :
  Stays z (State.holdRec s r) := by
  unfold State.holdRec
  repeat' with_reducible (first | assumption | apply State.withFlt_stays | apply State.dropRec_stays | apply Stays.ite | dsimp only | split)

theorem State.stampRec_stays {z s : State} (h : Stays z s) (r : Rec) :
  StaysP z (State.stampRec s r) := by
  unfold State.stampRec
  repeat' with_reducible (first | assumption | apply State.wr_stays | apply Stays.ite | apply StaysP.ite | dsimp only [StaysP])

theorem State.captureOnly_stays {z s : State} (h : Stays z s) (q : Req) (reason : Nat) :
  StaysP z (State.captureOnly s q reason) := by
  unfold State.captureOnly
  repeat' with_reducible (first | assumption | apply State.wr_stays | apply Stays.ite | apply StaysP.ite | dsimp only [StaysP])

theorem State.queueNotice_stays {z s : State} (h : Stays z s) (c : CoreId) (n : Notice) :
  Stays z (State.queueNotice s c n) := by
  unfold State.queueNotice
  repeat' with_reducible (first | assumption | apply State.setCore_stays | apply Stays.ite)

theorem State.logRefused_stays {z s : State} (h : Stays z s)  :
  Stays z (State.logRefused s) := by
  unfold State.logRefused
  repeat' with_reducible (first | assumption | apply State.withFlt_stays | apply State.putBit_stays | apply Stays.ite)

theorem State.logPut_stays {z s : State} (h : Stays z s) (r : Rec) :
  StaysP z (State.logPut s r) := by
  unfold State.logPut
  repeat' with_reducible (first | intro _ | assumption | apply State.passEntry_stays | apply State.putBytes_stays | apply State.withNet_stays | apply State.putLine_stays | apply Stays.ite | apply StaysP.ite | split | dsimp only [StaysP])

theorem State.logWritten_stays {z s : State} (h : Stays z s)  :
  Stays z (State.logWritten s) := by
  unfold State.logWritten
  repeat' with_reducible (first | assumption | apply State.setEvt_stays | apply State.advWrap_stays | apply Stays.ite | split | dsimp only)

theorem State.logBad_stays {z s : State} (h : Stays z s) (q : Req) (c : Nat) :
  Stays z (State.logBad s q c) := by
  unfold State.logBad
  repeat' with_reducible (first | intro _ | assumption | apply State.logRefused_stays | apply State.queueNotice_stays | apply State.captureOnly_stays | apply State.stampRec_stays | apply State.holdRec_stays | apply Stays.ite | apply StaysP.ite | split | dsimp only [StaysP])

theorem State.logRec_stays {z s0 : State} (h : Stays z s0) (r0 : Rec) :
  Stays z (State.logRec s0 r0) := by
  unfold State.logRec
  repeat' with_reducible (first | intro _ | assumption | apply State.logBad_stays | apply State.logWritten_stays | apply State.logPut_stays | apply State.stampRec_stays | apply State.holdRec_stays | apply Stays.ite | apply StaysP.ite | split | dsimp only [StaysP])

theorem State.event_stays {z s : State} (h : Stays z s) (kind : Nat) (unit : BitVec 16) (ini : BitVec 16) (addr : Word) (detail : List W32) :
  Stays z (State.event s kind unit ini addr detail) := by
  unfold State.event
  repeat' with_reducible (first | assumption | apply State.logRec_stays | apply Stays.ite)

theorem State.captureRefusal_stays {z s : State} (h : Stays z s) (q : Req) (reason : Nat) :
  Stays z (State.captureRefusal s q reason) := by
  unfold State.captureRefusal
  repeat' with_reducible (first | assumption | apply State.captureOnly_stays | apply State.event_stays | apply Stays.ite)

theorem State.notice_stays {z s : State} (h : Stays z s) (i : Ini) (addr : Word) (reason : Nat) :
  Stays z (State.notice s i addr reason) := by
  unfold State.notice
  repeat' with_reducible (first | assumption | apply State.event_stays | apply State.queueNotice_stays | apply Stays.ite | dsimp only | split)

theorem State.drainRecs_stays {z s : State} (h : Stays z s) (x2 : Nat) :
  Stays z (State.drainRecs s x2) := by
  induction x2 generalizing s with
  | zero =>
    unfold State.drainRecs
    repeat' with_reducible (first | intro _ | assumption | apply ih | apply State.logBad_stays | apply State.logWritten_stays | apply State.logPut_stays | apply State.withFlt_stays | apply Stays.ite | apply StaysP.ite | split | dsimp only [StaysP])
  | succ n ih =>
    unfold State.drainRecs
    repeat' with_reducible (first | intro _ | assumption | apply ih | apply State.logBad_stays | apply State.logWritten_stays | apply State.logPut_stays | apply State.withFlt_stays | apply Stays.ite | apply StaysP.ite | split | dsimp only [StaysP])

theorem State.cenBreak_stays {z s : State} (h : Stays z s) (p : Nat → CenRun → Bool) :
  Stays z (State.cenBreak s p) := by
  unfold State.cenBreak
  repeat' with_reducible (first | intro _ | assumption | apply State.withEng_stays | apply Stays.ite | apply StaysP.ite | split | dsimp only [StaysP])

theorem State.setCounter_stays {z s0 : State} (h : Stays z s0) (reg : Nat) (v : W32) :
  Stays z (State.setCounter s0 reg v) := by
  unfold State.setCounter
  repeat' with_reducible (first | intro _ | assumption | apply State.cenBreak_stays | apply State.each_stays | apply State.setQueue_stays | apply State.setCore_stays | apply State.wr_stays | apply foldl_stays | apply Stays.ite | apply StaysP.ite | apply foldl_stays | apply foldlP_stays | split | dsimp only [StaysP])

theorem State.addCounter_stays {z s : State} (h : Stays z s) (reg : Nat) (n : W32) :
  Stays z (State.addCounter s reg n) := by
  unfold State.addCounter
  repeat' with_reducible (first | assumption | apply State.setCounter_stays | apply Stays.ite)

theorem State.countSig_stays {z s : State} (h : Stays z s) (i : Ini) (cls : Nat) (h : W32) :
  Stays z (State.countSig s i cls h) := by
  unfold State.countSig
  repeat' with_reducible (first | intro _ | assumption | apply State.sigOutward_stays | apply State.bwcAdd_stays | apply State.labelAtEntry_stays | apply Stays.ite | apply StaysP.ite | split | dsimp only [StaysP])

theorem State.signal_stays {z s : State} (h : Stays z s) (i : Ini) (cls : Nat) (h : W32) (n : W32) :
  StaysO z (State.signal s i cls h n) := by
  unfold State.signal
  repeat' with_reducible (first | assumption | apply State.addCounter_stays | apply State.withSigOut_stays | apply Stays.ite | apply StaysO.some | apply StaysO.none | apply StaysO.ite | dsimp only | split)

theorem State.alarmSignal_stays {z s : State} (h : Stays z s) (h : W32) :
  Stays z (State.alarmSignal s h) := by
  unfold State.alarmSignal
  repeat' with_reducible (first | assumption | apply State.addCounter_stays | apply State.event_stays | apply Stays.ite | split | dsimp only)

theorem State.signalOrEvent_stays {z s : State} (h : Stays z s) (i : Ini) (cls : Nat) (h : W32) (n : W32) :
  Stays z (State.signalOrEvent s i cls h n) := by
  unfold State.signalOrEvent
  repeat' with_reducible (first | intro _ | assumption | apply State.signal_stays | apply State.event_stays | apply Stays.ite | apply StaysP.ite | apply StaysO.ite | apply StaysOP.ite | apply StaysO.some | apply StaysO.none | apply StaysOP.some | apply StaysOP.none | apply StaysO.getD | apply StaysO.or | apply StaysOP.or | apply foldl_stays | split | dsimp only [StaysP] | (apply StaysO.of_eq ‹_›) | (apply StaysP.of_eq ‹_›) | (apply StaysOP.of_eq ‹_›))

theorem State.setQState_stays {z s : State} (h : Stays z s) (k : Nat) (c : Nat) :
  Stays z (State.setQState s k c) := by
  unfold State.setQState
  repeat' with_reducible (first | assumption | apply State.setFld_stays | apply Stays.ite)

theorem State.grantHold_stays {z s : State} (h : Stays z s) (key : Nat) (k : Nat) (rest : List Nat) (rev : Bool) :
  Stays z (State.grantHold s key k rest rev) := by
  unfold State.grantHold
  repeat' with_reducible (first | assumption | apply State.setHold_stays | apply State.setQState_stays | apply State.setQueue_stays | apply State.putBit_stays | apply Stays.ite)

theorem State.freeHold_stays {z s : State} (h : Stays z s) (key : Nat) (rev : Bool) :
  Stays z (State.freeHold s key rev) := by
  unfold State.freeHold
  repeat' with_reducible (first | assumption | apply State.grantHold_stays | apply State.setHold_stays | apply Stays.ite | dsimp only | split)

theorem State.revokeHolds_stays {z s : State} (h : Stays z s) (p : BitVec 16 → Bool) :
  Stays z (State.revokeHolds s p) := by
  unfold State.revokeHolds
  repeat' with_reducible (first | intro _ | assumption | apply State.each_stays | apply State.freeHold_stays | apply Stays.ite | dsimp only | split | apply foldl_stays)

theorem State.dropWaiter_stays {z s : State} (h : Stays z s) (k : Nat) :
  Stays z (State.dropWaiter s k) := by
  unfold State.dropWaiter
  repeat' with_reducible (first | intro _ | assumption | apply State.each_stays | apply State.setHold_stays | apply Stays.ite | dsimp only | split | apply foldl_stays)

theorem State.failWaiters_stays {z s : State} (h : Stays z s) (c : Nat) :
  Stays z (State.failWaiters s c) := by
  unfold State.failWaiters
  repeat' with_reducible (first | intro _ | assumption | apply State.each_stays | apply State.setHold_stays | apply State.setQState_stays | apply State.setQueue_stays | apply Stays.ite | dsimp only | split | apply foldl_stays)

theorem State.unwatch_stays {z s : State} (h : Stays z s) (c : Nat) :
  Stays z (State.unwatch s c) := by
  unfold State.unwatch
  repeat' with_reducible (first | intro _ | assumption | apply State.eachCore_stays | apply State.each_stays | apply State.setQueue_stays | apply Stays.ite | dsimp only | split | apply foldl_stays)

theorem State.withOuts_stays {z s : State} (h : Stays z s) (x : Outs) :
  Stays z (State.withOuts s x) := by
  unfold State.withOuts
  repeat' with_reducible (first | assumption | apply State.withIo_stays | apply Stays.ite)

theorem State.setStage_stays {z s : State} (h : Stays z s) (x : Nat) (y : Stage) :
  Stays z (State.setStage s x y) := by
  unfold State.setStage
  repeat' with_reducible (first | assumption | apply State.withOuts_stays | apply Stays.ite)

theorem State.onStage_stays {z s : State} (h : Stays z s) (x : Nat) (f : Stage → Stage) :
  Stays z (State.onStage s x f) := by
  unfold State.onStage
  repeat' with_reducible (first | assumption | apply State.setStage_stays | apply Stays.ite)

theorem State.stageEvt_stays {z s : State} (h : Stays z s) (x : Nat) :
  Stays z (State.stageEvt s x) := by
  unfold State.stageEvt
  repeat' with_reducible (first | assumption | apply State.putBit_stays | apply Stays.ite)

theorem State.setPat_stays {z s : State} (h : Stays z s) (k : Nat) (v : Option Word) :
  Stays z (State.setPat s k v) := by
  unfold State.setPat
  repeat' with_reducible (first | assumption | apply State.withOuts_stays | apply Stays.ite)

theorem State.setProt_stays {z s : State} (h : Stays z s) (x : Nat) (c : Nat) :
  Stays z (State.setProt s x c) := by
  unfold State.setProt
  repeat' with_reducible (first | assumption | apply State.stageEvt_stays | apply State.setFld_stays | apply Stays.ite)

theorem State.goTo_stays {z s : State} (h : Stays z s) (x : Nat) (m : Nat) :
  Stays z (State.goTo s x m) := by
  unfold State.goTo
  repeat' with_reducible (first | assumption | apply State.setProt_stays | apply State.setStage_stays | apply Stays.ite | split | dsimp only)

theorem State.openAll_stays {z s : State} (h : Stays z s) (x : Nat) :
  Stays z (State.openAll s x) := by
  unfold State.openAll
  repeat' with_reducible (first | assumption | apply State.goTo_stays | apply Stays.ite)

theorem State.patEnd_stays {z s : State} (h : Stays z s) (k : Nat) (code : Nat) :
  Stays z (State.patEnd s k code) := by
  unfold State.patEnd
  repeat' with_reducible (first | intro _ | assumption | apply State.openAll_stays | apply State.setPat_stays | apply State.onStage_stays | apply State.putBit_stays | apply State.setFld_stays | apply State.each_stays | apply Stays.ite | split | dsimp only)

theorem State.stageOff_stays {z s : State} (h : Stays z s) (x : Nat) :
  Stays z (State.stageOff s x) := by
  unfold State.stageOff
  repeat' with_reducible (first | intro _ | assumption | apply State.patEnd_stays | apply State.openAll_stays | apply State.setProt_stays | apply State.stageEvt_stays | apply State.onStage_stays | apply Stays.ite | split | dsimp only)

theorem State.stageAdmit_stays {z s : State} (h : Stays z s) (x : Nat) :
  Stays z (State.stageAdmit s x) := by
  unfold State.stageAdmit
  repeat' with_reducible (first | assumption | apply State.stageEvt_stays | apply State.setStage_stays | apply State.setFld_stays | apply Stays.ite | split | dsimp only)

theorem State.setKeep_stays {z s : State} (h : Stays z s) (k : Nat) (y : Keep) :
  Stays z (State.setKeep s k y) := by
  unfold State.setKeep
  repeat' with_reducible (first | assumption | apply State.withOuts_stays | apply Stays.ite)

theorem State.keepsOff_stays {z s : State} (h : Stays z s)  :
  Stays z (State.keepsOff s) := by
  unfold State.keepsOff
  repeat' with_reducible (first | assumption | apply State.withOuts_stays | apply Stays.ite | split | dsimp only)

theorem State.outsReset_stays {z s : State} (h : Stays z s)  :
  Stays z (State.outsReset s) := by
  unfold State.outsReset
  repeat' with_reducible (first | assumption | apply State.withOuts_stays | apply Stays.ite)

theorem State.withAng_stays {z s : State} (h : Stays z s) (x : Ang) :
  Stays z (State.withAng s x) := by
  unfold State.withAng
  repeat' with_reducible (first | assumption | apply State.withIo_stays | apply Stays.ite)

theorem State.setAngCh_stays {z s : State} (h : Stays z s) (c : Nat) (x : AngCh) :
  Stays z (State.setAngCh s c x) := by
  unfold State.setAngCh
  repeat' with_reducible (first | assumption | apply State.withAng_stays | apply Stays.ite)

theorem State.setAngSt_stays {z s : State} (h : Stays z s) (c : Nat) :
  Stays z (State.setAngSt s c) := by
  unfold State.setAngSt
  repeat' with_reducible (first | assumption | apply State.setFld_stays | apply Stays.ite)

theorem State.angEvt_stays {z s : State} (h : Stays z s) (b : Nat) :
  Stays z (State.angEvt s b) := by
  unfold State.angEvt
  repeat' with_reducible (first | assumption | apply State.putBit_stays | apply Stays.ite)

theorem State.setChSt_stays {z s : State} (h : Stays z s) (c : Nat) (x : Nat) :
  Stays z (State.setChSt s c x) := by
  unfold State.setChSt
  repeat' with_reducible (first | assumption | apply State.setFld_stays | apply Stays.ite)

theorem State.putCh_stays {z s : State} (h : Stays z s) (c : Nat) (x : AngCh) :
  Stays z (State.putCh s c x) := by
  unfold State.putCh
  repeat' with_reducible (first | assumption | apply State.wr_stays | apply State.setAngCh_stays | apply Stays.ite)

theorem State.chAdopt_stays {z s : State} (h : Stays z s) (c : Nat) :
  Stays z (State.chAdopt s c) := by
  unfold State.chAdopt
  repeat' with_reducible (first | assumption | apply State.setAngCh_stays | apply Stays.ite)

theorem State.chArm_stays {z s : State} (h : Stays z s) (c : Nat) (lo : Nat) :
  Stays z (State.chArm s c lo) := by
  unfold State.chArm
  repeat' with_reducible (first | assumption | apply State.setChSt_stays | apply State.putCh_stays | apply Stays.ite)

theorem State.chEnd_stays {z s : State} (h : Stays z s) (c : Nat) (code : Nat) :
  Stays z (State.chEnd s c code) := by
  unfold State.chEnd
  repeat' with_reducible (first | assumption | apply State.putBit_stays | apply State.setFld_stays | apply State.setChSt_stays | apply State.angEvt_stays | apply State.chArm_stays | apply Stays.ite)

theorem State.chBegin_stays {z s : State} (h : Stays z s) (c : Nat) (at_ : Nat) (volts : List (BitVec 12)) :
  Stays z (State.chBegin s c at_ volts) := by
  unfold State.chBegin
  repeat' with_reducible (first | assumption | apply State.setAngCh_stays | apply State.wr_stays | apply State.setChSt_stays | apply Stays.ite)

theorem State.chRun_stays {z s : State} (h : Stays z s) (c : Nat) (at_ : Nat) (ahead : Nat) (back : Nat) :
  Stays z (State.chRun s c at_ ahead back) := by
  unfold State.chRun
  repeat' with_reducible (first | assumption | apply State.putCh_stays | apply State.chEnd_stays | apply State.setAngCh_stays | apply Stays.ite | dsimp only | split)

theorem State.chShort_stays {z s : State} (h : Stays z s) (c : Nat) (volts : List (BitVec 12)) :
  Stays z (State.chShort s c volts) := by
  unfold State.chShort
  repeat' with_reducible (first | assumption | apply State.chEnd_stays | apply State.chBegin_stays | apply State.putCh_stays | apply Stays.ite)

theorem State.chEdge_stays {z s : State} (h : Stays z s) (adv : Nat) (volts : List (BitVec 12)) (c : Nat) :
  Stays z (State.chEdge s adv volts c) := by
  unfold State.chEdge
  repeat' with_reducible (first | assumption | apply State.chAdopt_stays | apply State.chShort_stays | apply State.chRun_stays | apply State.chBegin_stays | apply State.putCh_stays | apply State.chEnd_stays | apply Stays.ite)

theorem State.angBlock_stays {z s : State} (h : Stays z s) (cause : Nat) :
  Stays z (State.angBlock s cause) := by
  unfold State.angBlock
  repeat' with_reducible (first | intro _ | assumption | apply State.each_stays | apply State.setFld_stays | apply State.chEnd_stays | apply State.angEvt_stays | apply State.advSat_stays | apply Stays.ite | dsimp only | split | apply foldl_stays)

theorem State.angReverse_stays {z s : State} (h : Stays z s) (cause : Nat) :
  Stays z (State.angReverse s cause) := by
  unfold State.angReverse
  repeat' with_reducible (first | assumption | apply State.angBlock_stays | apply State.angEvt_stays | apply State.advSat_stays | apply State.setAngSt_stays | apply Stays.ite)

theorem State.angLost_stays {z s : State} (h : Stays z s) (cause : Nat) :
  Stays z (State.angLost s cause) := by
  unfold State.angLost
  repeat' with_reducible (first | assumption | apply State.angBlock_stays | apply State.setAngSt_stays | apply State.angReverse_stays | apply Stays.ite)

theorem State.angPredict_stays {z s : State} (h : Stays z s)  :
  Stays z (State.angPredict s) := by
  unfold State.angPredict
  repeat' with_reducible (first | assumption | apply State.withAng_stays | apply Stays.ite | split | dsimp only)

theorem State.setTooth_stays {z s : State} (h : Stays z s) (rev : Nat) (tooth : Nat) :
  Stays z (State.setTooth s rev tooth) := by
  unfold State.setTooth
  repeat' with_reducible (first | assumption | apply State.withAng_stays | apply State.setFld_stays | apply Stays.ite)

theorem State.angSync_stays {z s : State} (h : Stays z s) (rev : Nat) (tooth : Nat) :
  Stays z (State.angSync s rev tooth) := by
  unfold State.angSync
  repeat' with_reducible (first | intro _ | assumption | apply State.angPredict_stays | apply State.angEvt_stays | apply State.setAngSt_stays | apply State.setTooth_stays | apply State.withAng_stays | apply State.each_stays | apply State.chArm_stays | apply State.chAdopt_stays | apply Stays.ite | dsimp only | split | apply foldl_stays)

theorem State.fromGap_stays {z s : State} (h : Stays z s) (cam : Bool) :
  Stays z (State.fromGap s cam) := by
  unfold State.fromGap
  repeat' with_reducible (first | assumption | apply State.setFld_stays | apply State.withAng_stays | apply Stays.ite)

theorem State.oneMore_stays {z s : State} (h : Stays z s)  :
  Stays z (State.oneMore s) := by
  unfold State.oneMore
  repeat' with_reducible (first | assumption | apply State.setFld_stays | apply State.withAng_stays | apply Stays.ite)

theorem State.edgeHalf_stays {z s : State} (h : Stays z s) (cand : Bool) (wrong : Bool) (cam : Bool) :
  Stays z (State.edgeHalf s cand wrong cam) := by
  unfold State.edgeHalf
  repeat' with_reducible (first | assumption | apply State.angSync_stays | apply State.angEvt_stays | apply State.fromGap_stays | apply State.oneMore_stays | apply Stays.ite)

theorem State.edgeSync_stays {z s : State} (h : Stays z s) (cand : Bool) (wrong : Bool) (cam : Bool) (volts : List (BitVec 12)) :
  Stays z (State.edgeSync s cand wrong cam volts) := by
  unfold State.edgeSync
  repeat' with_reducible (first | intro _ | assumption | apply State.angLost_stays | apply State.angEvt_stays | apply State.setTooth_stays | apply State.angPredict_stays | apply State.withAng_stays | apply State.each_stays | apply State.chEdge_stays | apply Stays.ite | dsimp only | split | apply foldl_stays)

theorem State.angConfirm_stays {z s : State} (h : Stays z s) (gaps : Nat) :
  Stays z (State.angConfirm s gaps) := by
  unfold State.angConfirm
  repeat' with_reducible (first | assumption | apply State.withAng_stays | apply State.setFld_stays | apply State.setAngSt_stays | apply Stays.ite)

theorem State.edgeConfirm_stays {z s : State} (h : Stays z s) (cand : Bool) (wrong : Bool) (cam : Bool) :
  Stays z (State.edgeConfirm s cand wrong cam) := by
  unfold State.edgeConfirm
  repeat' with_reducible (first | assumption | apply State.setFld_stays | apply State.angReverse_stays | apply State.withAng_stays | apply State.fromGap_stays | apply State.oneMore_stays | apply State.angEvt_stays | apply State.angSync_stays | apply Stays.ite)

theorem State.crankEdge_stays {z s : State} (h : Stays z s) (cam : Bool) (volts : List (BitVec 12)) :
  Stays z (State.crankEdge s cam volts) := by
  unfold State.crankEdge
  repeat' with_reducible (first | assumption | apply State.wr_stays | apply State.withAng_stays | apply State.setAngSt_stays | apply State.fromGap_stays | apply State.angSync_stays | apply State.edgeHalf_stays | apply State.edgeSync_stays | apply State.angConfirm_stays | apply State.edgeConfirm_stays | apply Stays.ite | dsimp only | split)

theorem State.toothForward_stays {z s : State} (h : Stays z s)  :
  Stays z (State.toothForward s) := by
  unfold State.toothForward
  repeat' with_reducible (first | assumption | apply State.setFld_stays | apply State.withAng_stays | apply State.angConfirm_stays | apply Stays.ite | dsimp only | split)

theorem State.toothReverse_stays {z s : State} (h : Stays z s)  :
  Stays z (State.toothReverse s) := by
  unfold State.toothReverse
  repeat' with_reducible (first | assumption | apply State.setFld_stays | apply State.withAng_stays | apply State.angReverse_stays | apply Stays.ite)

theorem State.angStall_stays {z s : State} (h : Stays z s)  :
  Stays z (State.angStall s) := by
  unfold State.angStall
  repeat' with_reducible (first | assumption | apply State.angEvt_stays | apply State.withAng_stays | apply State.angBlock_stays | apply State.setAngSt_stays | apply Stays.ite)

theorem State.angCtlWrite_stays {z s : State} (h : Stays z s) (v : W32) (acc : State → Nat → W32 → State) (hacc : ∀ (t0 : State) (t1 : Nat) (t2 : W32), Stays z t0 → Stays z (acc t0 t1 t2)) :
  Stays z (State.angCtlWrite s v acc) := by
  unfold State.angCtlWrite
  repeat' with_reducible (first | assumption | apply hacc | apply State.angEvt_stays | apply State.angBlock_stays | apply State.setAngSt_stays | apply State.putBit_stays | apply State.withAng_stays | apply Stays.ite)

theorem State.chCfgWrite_stays {z s : State} (h : Stays z s) (c : Nat) (v : W32) (acc : State → Nat → W32 → State) (hacc : ∀ (t0 : State) (t1 : Nat) (t2 : W32), Stays z t0 → Stays z (acc t0 t1 t2)) :
  Stays z (State.chCfgWrite s c v acc) := by
  unfold State.chCfgWrite
  repeat' with_reducible (first | assumption | apply hacc | apply State.chArm_stays | apply State.chAdopt_stays | apply State.angEvt_stays | apply State.setFld_stays | apply State.setChSt_stays | apply State.putBit_stays | apply Stays.ite)

theorem State.angWrite_stays {z s : State} (h : Stays z s) (a : Nat) (v : W32) (acc : State → Nat → W32 → State) (hacc : ∀ (t0 : State) (t1 : Nat) (t2 : W32), Stays z t0 → Stays z (acc t0 t1 t2)) :
  Stays z (State.angWrite s a v acc) := by
  unfold State.angWrite
  repeat' with_reducible (first | assumption | apply hacc | apply State.angCtlWrite_stays | apply State.angEvt_stays | apply State.chCfgWrite_stays | apply Stays.ite)

theorem State.angReadLatch_stays {z s : State} (h : Stays z s) (a : Nat) :
  StaysOP z (State.angReadLatch s a) := by
  unfold State.angReadLatch
  repeat' with_reducible (first | assumption | apply State.wr_stays | apply Stays.ite | apply StaysOP.some | apply StaysOP.none | apply StaysOP.ite | dsimp only [StaysP])

theorem State.setQdec_stays {z s : State} (h : Stays z s) (n : Nat) (y : Qdec) :
  Stays z (State.setQdec s n y) := by
  unfold State.setQdec
  repeat' with_reducible (first | assumption | apply State.withIo_stays | apply Stays.ite)

theorem State.qdecOff_stays {z s : State} (h : Stays z s) (n : Nat) :
  Stays z (State.qdecOff s n) := by
  unfold State.qdecOff
  repeat' with_reducible (first | assumption | apply State.setQdec_stays | apply State.setFld_stays | apply Stays.ite)

theorem State.setMbc_stays {z s : State} (h : Stays z s) (n : Nat) (x : Mbc) :
  Stays z (State.setMbc s n x) := by
  unfold State.setMbc
  repeat' with_reducible (first | assumption | apply State.withIo_stays | apply Stays.ite)

theorem State.onMbc_stays {z s : State} (h : Stays z s) (n : Nat) (f : Mbc → Mbc) :
  Stays z (State.onMbc s n f) := by
  unfold State.onMbc
  repeat' with_reducible (first | assumption | apply State.setMbc_stays | apply Stays.ite)

theorem State.setAct_stays {z s : State} (h : Stays z s) (n : Nat) (c : Nat) :
  Stays z (State.setAct s n c) := by
  unfold State.setAct
  repeat' with_reducible (first | assumption | apply State.setFld_stays | apply Stays.ite)

theorem State.mbcEvt_stays {z s : State} (h : Stays z s) (n : Nat) (b : Nat) :
  Stays z (State.mbcEvt s n b) := by
  unfold State.mbcEvt
  repeat' with_reducible (first | assumption | apply State.putBit_stays | apply Stays.ite)

theorem State.setLast_stays {z s : State} (h : Stays z s) (n : Nat) (c : Nat) :
  Stays z (State.setLast s n c) := by
  unfold State.setLast
  repeat' with_reducible (first | assumption | apply State.setFld_stays | apply Stays.ite)

theorem State.lastEvt_stays {z s : State} (h : Stays z s) (n : Nat) (b : Nat) :
  Stays z (State.lastEvt s n b) := by
  unfold State.lastEvt
  repeat' with_reducible (first | assumption | apply State.mbcEvt_stays | apply State.putBit_stays | apply Stays.ite)

theorem State.failReport_stays {z s : State} (h : Stays z s) (n : Nat) (r : FailRep) :
  Stays z (State.failReport s n r) := by
  unfold State.failReport
  repeat' with_reducible (first | assumption | apply State.mbcEvt_stays | apply State.onMbc_stays | apply State.advSat_stays | apply Stays.ite)

theorem State.freeClear_stays {z s : State} (h : Stays z s) (n : Nat) (b : Nat) :
  Stays z (State.freeClear s n b) := by
  unfold State.freeClear
  repeat' with_reducible (first | intro _ | assumption | apply State.onMbc_stays | apply State.putBit_stays | apply State.setFld_stays | apply Stays.ite | apply StaysP.ite | split | dsimp only [StaysP])

theorem State.freeAsked_stays {z s : State} (h : Stays z s) (n : Nat) (b : Nat) :
  Stays z (State.freeAsked s n b) := by
  unfold State.freeAsked
  repeat' with_reducible (first | intro _ | assumption | apply State.onMbc_stays | apply Stays.ite | apply StaysP.ite | split | dsimp only [StaysP])

theorem State.freeFail_stays {z s : State} (h : Stays z s) (n : Nat) (b : Nat) (cause : Nat) :
  Stays z (State.freeFail s n b cause) := by
  unfold State.freeFail
  repeat' with_reducible (first | assumption | apply State.failReport_stays | apply State.freeClear_stays | apply State.setFld_stays | apply Stays.ite)

theorem State.cellFail_stays {z s : State} (h : Stays z s) (n : Nat) (c : CellTx) (cause : Nat) :
  Stays z (State.cellFail s n c cause) := by
  unfold State.cellFail
  repeat' with_reducible (first | assumption | apply State.failReport_stays | apply Stays.ite)

theorem State.reqFail_stays {z s : State} (h : Stays z s) (n : Nat) (b : Nat) (cause : Nat) :
  Stays z (State.reqFail s n b cause) := by
  unfold State.reqFail
  repeat' with_reducible (first | assumption | apply State.cellFail_stays | apply State.onMbc_stays | apply State.freeFail_stays | apply Stays.ite | dsimp only | split)

theorem State.txEnded_stays {z s : State} (h : Stays z s) (n : Nat) (b : Nat) (cause : Nat) :
  Stays z (State.txEnded s n b cause) := by
  unfold State.txEnded
  repeat' with_reducible (first | assumption | apply State.cellFail_stays | apply State.freeFail_stays | apply Stays.ite | dsimp only | split)

theorem State.txStart_stays {z s : State} (h : Stays z s) (n : Nat) (b : Nat) (l : List Byte) :
  Stays z (State.txStart s n b l) := by
  unfold State.txStart
  repeat' with_reducible (first | intro _ | assumption | apply State.setAct_stays | apply State.onMbc_stays | apply Stays.ite | split | dsimp only)

theorem State.offerOf_stays {z s : State} (h : Stays z s) (n : Nat) (p : Nat → Bool) :
  Stays z (State.offerOf s n p) := by
  unfold State.offerOf
  repeat' with_reducible (first | intro _ | assumption | apply State.txStart_stays | apply State.reqFail_stays | apply State.each_stays | apply Stays.ite | apply StaysP.ite | split | dsimp only [StaysP])

theorem State.offer_stays {z s : State} (h : Stays z s) (n : Nat) :
  Stays z (State.offer s n) := by
  unfold State.offer
  repeat' with_reducible (first | intro _ | assumption | apply State.offerOf_stays | apply Stays.ite | split | dsimp only)

theorem State.untx_stays {z s : State} (h : Stays z s) (n : Nat) :
  Stays z (State.untx s n) := by
  unfold State.untx
  repeat' with_reducible (first | intro _ | assumption | apply State.cellFail_stays | apply State.freeFail_stays | apply State.lastEvt_stays | apply State.setAct_stays | apply State.onMbc_stays | apply State.advSat_stays | apply Stays.ite | split | dsimp only)

theorem State.cellDrop_stays {z s : State} (h : Stays z s) (n : Nat) (cause : Nat) :
  Stays z (State.cellDrop s n cause) := by
  unfold State.cellDrop
  repeat' with_reducible (first | assumption | apply State.onMbc_stays | apply State.reqFail_stays | apply Stays.ite | dsimp only | split)

theorem State.lastStop_stays {z s : State} (h : Stays z s) (n : Nat) :
  Stays z (State.lastStop s n) := by
  unfold State.lastStop
  repeat' with_reducible (first | assumption | apply State.onMbc_stays | apply State.setLast_stays | apply State.putBit_stays | apply State.cellDrop_stays | apply Stays.ite)

theorem State.lastArm_stays {z s : State} (h : Stays z s) (n : Nat) (again : Bool) :
  Stays z (State.lastArm s n again) := by
  unfold State.lastArm
  repeat' with_reducible (first | assumption | apply State.onMbc_stays | apply State.setLast_stays | apply Stays.ite)

theorem State.lastGo_stays {z s : State} (h : Stays z s) (n : Nat) :
  Stays z (State.lastGo s n) := by
  unfold State.lastGo
  repeat' with_reducible (first | assumption | apply State.lastArm_stays | apply State.setFld_stays | apply State.putBit_stays | apply State.lastEvt_stays | apply State.setLast_stays | apply Stays.ite)

theorem State.windowEnd_stays {z s : State} (h : Stays z s) (n : Nat) (begun : Bool) :
  Stays z (State.windowEnd s n begun) := by
  unfold State.windowEnd
  repeat' with_reducible (first | intro _ | assumption | apply State.untx_stays | apply State.reqFail_stays | apply State.lastEvt_stays | apply State.onMbc_stays | apply State.advSat_stays | apply Stays.ite | split | dsimp only)

theorem State.cycleStart_stays {z s : State} (h : Stays z s) (n : Nat) (row : Nat) (at_ : Word) :
  Stays z (State.cycleStart s n row at_) := by
  unfold State.cycleStart
  repeat' with_reducible (first | intro _ | assumption | apply State.windowEnd_stays | apply State.setLast_stays | apply State.onMbc_stays | apply State.advWrap_stays | apply State.setFld_stays | apply Stays.ite | split | dsimp only)

theorem State.slotStart_stays {z s : State} (h : Stays z s) (n : Nat) (slot : Nat) :
  Stays z (State.slotStart s n slot) := by
  unfold State.slotStart
  repeat' with_reducible (first | intro _ | assumption | apply State.windowEnd_stays | apply State.offer_stays | apply State.onMbc_stays | apply State.advSat_stays | apply State.setFld_stays | apply Stays.ite | split | dsimp only | (apply StaysP.of_eq ‹_›))

theorem State.busOff_stays {z s : State} (h : Stays z s) (n : Nat) :
  Stays z (State.busOff s n) := by
  unfold State.busOff
  repeat' with_reducible (first | intro _ | assumption | apply State.onMbc_stays | apply State.mbcEvt_stays | apply State.setFld_stays | apply State.each_stays | apply State.reqFail_stays | apply State.setAct_stays | apply State.setLast_stays | apply Stays.ite | dsimp only | split | apply foldl_stays)

theorem State.setErr_stays {z s : State} (h : Stays z s) (n : Nat) (tec : Nat) (rec : Nat) :
  Stays z (State.setErr s n tec rec) := by
  unfold State.setErr
  repeat' with_reducible (first | assumption | apply State.setFld_stays | apply State.mbcEvt_stays | apply State.busOff_stays | apply Stays.ite)

theorem State.setLec_stays {z s : State} (h : Stays z s) (n : Nat) (e : BusErr) (data : Bool) :
  Stays z (State.setLec s n e data) := by
  unfold State.setLec
  repeat' with_reducible (first | assumption | apply State.setFld_stays | apply Stays.ite)

theorem State.notAlone_stays {z s : State} (h : Stays z s) (n : Nat) :
  Stays z (State.notAlone s n) := by
  unfold State.notAlone
  repeat' with_reducible (first | assumption | apply State.setFld_stays | apply Stays.ite)

theorem State.ackMiss_stays {z s : State} (h : Stays z s) (n : Nat) :
  Stays z (State.ackMiss s n) := by
  unfold State.ackMiss
  repeat' with_reducible (first | assumption | apply State.advSat_stays | apply State.mbcEvt_stays | apply State.setFld_stays | apply Stays.ite)

theorem State.mbcSetInit_stays {z s : State} (h : Stays z s) (n : Nat) :
  Stays z (State.mbcSetInit s n) := by
  unfold State.mbcSetInit
  repeat' with_reducible (first | intro _ | assumption | apply State.lastStop_stays | apply State.reqFail_stays | apply State.setAct_stays | apply State.onMbc_stays | apply State.putBit_stays | apply State.setFld_stays | apply State.each_stays | apply State.wr_stays | apply Stays.ite | apply StaysP.ite | split | dsimp only [StaysP])

theorem State.mbcClrInit_stays {z s : State} (h : Stays z s) (n : Nat) :
  Stays z (State.mbcClrInit s n) := by
  unfold State.mbcClrInit
  repeat' with_reducible (first | assumption | apply State.setFld_stays | apply State.putBit_stays | apply Stays.ite)

theorem State.rejoin_stays {z s : State} (h : Stays z s) (n : Nat) :
  Stays z (State.rejoin s n) := by
  unfold State.rejoin
  repeat' with_reducible (first | assumption | apply State.setAct_stays | apply State.onMbc_stays | apply State.untx_stays | apply Stays.ite)

theorem State.mbcOff_stays {z s : State} (h : Stays z s) (n : Nat) :
  Stays z (State.mbcOff s n) := by
  unfold State.mbcOff
  repeat' with_reducible (first | assumption | apply State.txEnded_stays | apply State.mbcSetInit_stays | apply State.onMbc_stays | apply Stays.ite | dsimp only | split)

theorem State.toFifo_stays {z s : State} (h : Stays z s) (n : Nat) (e : List Byte) :
  Stays z (State.toFifo s n e) := by
  unfold State.toFifo
  repeat' with_reducible (first | assumption | apply State.mbcEvt_stays | apply State.advSat_stays | apply State.setFld_stays | apply State.putBytes_stays | apply Stays.ite)

theorem State.dropElem_stays {z s : State} (h : Stays z s) (base : Nat) (len : Nat) (get : Nat) (fill : Nat) (i : Nat) :
  Stays z (State.dropElem s base len get fill i) := by
  unfold State.dropElem
  repeat' with_reducible (first | intro _ | assumption | apply State.putBytes_stays | apply foldl_stays | apply Stays.ite | apply foldl_stays | split | dsimp only)

theorem State.fifoPop_stays {z s : State} (h : Stays z s) (n : Nat) :
  Stays z (State.fifoPop s n) := by
  unfold State.fifoPop
  repeat' with_reducible (first | assumption | apply State.setFld_stays | apply Stays.ite)

theorem State.toPass_stays {z s : State} (h : Stays z s) (n : Nat) (e : List Byte) :
  Stays z (State.toPass s n e) := by
  unfold State.toPass
  repeat' with_reducible (first | assumption | apply State.advSat_stays | apply State.mbcEvt_stays | apply State.setFld_stays | apply State.putBytes_stays | apply Stays.ite)

theorem State.passPop_stays {z s : State} (h : Stays z s) (n : Nat) :
  Stays z (State.passPop s n) := by
  unfold State.passPop
  repeat' with_reducible (first | assumption | apply State.onMbc_stays | apply State.setFld_stays | apply Stays.ite)

theorem State.fifoLose_stays {z s : State} (h : Stays z s) (n : Nat) (e : Nat) :
  Stays z (State.fifoLose s n e) := by
  unfold State.fifoLose
  repeat' with_reducible (first | assumption | apply State.fifoPop_stays | apply State.dropElem_stays | apply State.mbcEvt_stays | apply State.advSat_stays | apply State.setFld_stays | apply Stays.ite | split | dsimp only)

theorem State.passLose_stays {z s : State} (h : Stays z s) (n : Nat) (e : Nat) :
  Stays z (State.passLose s n e) := by
  unfold State.passLose
  repeat' with_reducible (first | assumption | apply State.passPop_stays | apply State.dropElem_stays | apply State.advSat_stays | apply State.setFld_stays | apply Stays.ite | split | dsimp only)

theorem State.mbcAccept_stays {z s : State} (h : Stays z s) (n : Nat) (f : CanFrame) (stamp : Word) :
  Stays z (State.mbcAccept s n f stamp) := by
  unfold State.mbcAccept
  repeat' with_reducible (first | assumption | apply State.toFifo_stays | apply State.toPass_stays | apply Stays.ite | dsimp only | split)

theorem State.lastRefer_stays {z s : State} (h : Stays z s) (n : Nat) (f : CanFrame) (stamp : Word) :
  Stays z (State.lastRefer s n f stamp) := by
  unfold State.lastRefer
  repeat' with_reducible (first | assumption | apply State.onMbc_stays | apply Stays.ite)

theorem State.mbcReceive_stays {z s : State} (h : Stays z s) (n : Nat) (f : CanFrame) (stamp : Word) :
  Stays z (State.mbcReceive s n f stamp) := by
  unfold State.mbcReceive
  repeat' with_reducible (first | assumption | apply State.notAlone_stays | apply State.advSat_stays | apply State.setErr_stays | apply State.drawn_stays | apply State.lastRefer_stays | apply State.mbcAccept_stays | apply Stays.ite)

theorem State.txOk_stays {z s : State} (h : Stays z s) (n : Nat) (b : Nat) (sof : Word) :
  Stays z (State.txOk s n b sof) := by
  unfold State.txOk
  repeat' with_reducible (first | assumption | apply State.notAlone_stays | apply State.advSat_stays | apply State.setErr_stays | apply State.putBytes_stays | apply State.freeClear_stays | apply State.mbcEvt_stays | apply State.putBit_stays | apply State.setFld_stays | apply State.mbcReceive_stays | apply State.mbcAccept_stays | apply Stays.ite)

theorem State.txFail_stays {z s : State} (h : Stays z s) (n : Nat) (b : Nat) (e : TxEnd) :
  Stays z (State.txFail s n b e) := by
  unfold State.txFail
  repeat' with_reducible (first | assumption | apply State.txEnded_stays | apply Stays.ite | split | dsimp only)

theorem State.txErr_stays {z s : State} (h : Stays z s) (n : Nat) (e : TxEnd) :
  Stays z (State.txErr s n e) := by
  unfold State.txErr
  repeat' with_reducible (first | assumption | apply State.setLec_stays | apply State.ackMiss_stays | apply State.setErr_stays | apply Stays.ite | dsimp only | split)

theorem State.attemptEnd_stays {z s : State} (h : Stays z s) (n : Nat) (b : Nat) (sof : Word) (e : TxEnd) :
  Stays z (State.attemptEnd s n b sof e) := by
  unfold State.attemptEnd
  repeat' with_reducible (first | assumption | apply State.setAct_stays | apply State.onMbc_stays | apply State.offer_stays | apply State.txOk_stays | apply State.txErr_stays | apply State.txFail_stays | apply Stays.ite | dsimp only | split)

theorem State.mbcCtlWrite_stays {z s : State} (h : Stays z s) (n : Nat) (v : W32) :
  Stays z (State.mbcCtlWrite s n v) := by
  unfold State.mbcCtlWrite
  repeat' with_reducible (first | assumption | apply State.wr_stays | apply State.mbcEvt_stays | apply State.mbcClrInit_stays | apply State.mbcSetInit_stays | apply State.setFld_stays | apply Stays.ite)

theorem State.txReq_stays {z s : State} (h : Stays z s) (n : Nat) (v : W32) :
  Stays z (State.txReq s n v) := by
  unfold State.txReq
  repeat' with_reducible (first | intro _ | assumption | apply State.offer_stays | apply State.freeAsked_stays | apply State.putBit_stays | apply State.each_stays | apply Stays.ite | split | dsimp only)

theorem State.txCan_stays {z s : State} (h : Stays z s) (n : Nat) (v : W32) :
  Stays z (State.txCan s n v) := by
  unfold State.txCan
  repeat' with_reducible (first | intro _ | assumption | apply State.reqFail_stays | apply State.onMbc_stays | apply State.putBit_stays | apply State.each_stays | apply Stays.ite | apply StaysP.ite | split | dsimp only [StaysP])

theorem State.mbcWrite_stays {z s : State} (h : Stays z s) (a : Nat) (v : W32) (acc : State → Nat → W32 → State) (hacc : ∀ (t0 : State) (t1 : Nat) (t2 : W32), Stays z t0 → Stays z (acc t0 t1 t2)) :
  Stays z (State.mbcWrite s a v acc) := by
  unfold State.mbcWrite
  repeat' with_reducible (first | assumption | apply hacc | apply State.mbcCtlWrite_stays | apply State.mbcEvt_stays | apply State.txReq_stays | apply State.txCan_stays | apply State.onMbc_stays | apply State.fifoPop_stays | apply Stays.ite)

theorem State.lastWrite_stays {z s : State} (h : Stays z s) (a : Nat) (v : W32) (acc : State → Nat → W32 → State) (hacc : ∀ (t0 : State) (t1 : Nat) (t2 : W32), Stays z t0 → Stays z (acc t0 t1 t2)) :
  Stays z (State.lastWrite s a v acc) := by
  unfold State.lastWrite
  repeat' with_reducible (first | assumption | apply hacc | apply State.setFld_stays | apply State.lastGo_stays | apply State.offer_stays | apply State.lastStop_stays | apply State.lastEvt_stays | apply Stays.ite)

theorem State.msgWrite_stays {z s : State} (h : Stays z s) (a : Nat) (x2 : List Byte) :
  Stays z (State.msgWrite s a x2) := by
  induction x2 generalizing s a with
  | nil =>
    unfold State.msgWrite
    repeat' with_reducible (first | intro _ | assumption | apply State.putByte_stays | apply Stays.ite | apply StaysP.ite | apply StaysO.ite | apply StaysOP.ite | apply StaysO.some | apply StaysO.none | apply StaysOP.some | apply StaysOP.none | apply StaysO.getD | apply StaysO.or | apply StaysOP.or | apply foldl_stays | split | dsimp only [StaysP] | (apply StaysO.of_eq ‹_›) | (apply StaysP.of_eq ‹_›) | (apply StaysOP.of_eq ‹_›))
  | cons b l ih =>
    unfold State.msgWrite
    repeat' with_reducible (first | intro _ | assumption | apply ih | apply State.putByte_stays | apply Stays.ite | apply StaysP.ite | apply StaysO.ite | apply StaysOP.ite | apply StaysO.some | apply StaysO.none | apply StaysOP.some | apply StaysOP.none | apply StaysO.getD | apply StaysO.or | apply StaysOP.or | apply foldl_stays | split | dsimp only [StaysP] | (apply StaysO.of_eq ‹_›) | (apply StaysP.of_eq ‹_›) | (apply StaysOP.of_eq ‹_›))

theorem State.mbcBusTx_stays {z s : State} (h : Stays z s) (n : Nat) (len : Nat) (w : W32) (data : List Byte) :
  StaysP z (State.mbcBusTx s n len w data) := by
  unfold State.mbcBusTx
  repeat' with_reducible (first | intro _ | assumption | apply State.offer_stays | apply State.reqFail_stays | apply State.freeAsked_stays | apply State.onMbc_stays | apply State.setFld_stays | apply State.putBytes_stays | apply Stays.ite | apply StaysP.ite | split | dsimp only [StaysP])

theorem State.mbcBusRx_stays {z s : State} (h : Stays z s) (n : Nat) :
  StaysP z (State.mbcBusRx s n) := by
  unfold State.mbcBusRx
  repeat' with_reducible (first | assumption | apply State.passPop_stays | apply Stays.ite | apply StaysP.ite | dsimp only [StaysP])

theorem State.setLin_stays {z s : State} (h : Stays z s) (n : Nat) (x : Lin) :
  Stays z (State.setLin s n x) := by
  unfold State.setLin
  repeat' with_reducible (first | assumption | apply State.withIo_stays | apply Stays.ite)

theorem State.onLin_stays {z s : State} (h : Stays z s) (n : Nat) (f : Lin → Lin) :
  Stays z (State.onLin s n f) := by
  unfold State.onLin
  repeat' with_reducible (first | assumption | apply State.setLin_stays | apply Stays.ite)

theorem State.linEvt_stays {z s : State} (h : Stays z s) (n : Nat) (b : Nat) :
  Stays z (State.linEvt s n b) := by
  unfold State.linEvt
  repeat' with_reducible (first | assumption | apply State.putBit_stays | apply Stays.ite)

theorem State.setXcv_stays {z s : State} (h : Stays z s) (x : Nat) (y : Xcv) :
  Stays z (State.setXcv s x y) := by
  unfold State.setXcv
  repeat' with_reducible (first | assumption | apply State.withIo_stays | apply Stays.ite)

theorem State.linElem_stays {z s : State} (h : Stays z s) (n : Nat) (e : LinElem) :
  Stays z (State.linElem s n e) := by
  unfold State.linElem
  repeat' with_reducible (first | assumption | apply State.advSat_stays | apply State.linEvt_stays | apply State.onLin_stays | apply Stays.ite)

theorem State.linPass_stays {z s : State} (h : Stays z s) (n : Nat) (id : Nat) (data : List Byte) :
  Stays z (State.linPass s n id data) := by
  unfold State.linPass
  repeat' with_reducible (first | assumption | apply State.onLin_stays | apply State.advSat_stays | apply Stays.ite)

theorem State.linEnd_stays {z s : State} (h : Stays z s) (n : Nat) (status : Nat) :
  Stays z (State.linEnd s n status) := by
  unfold State.linEnd
  repeat' with_reducible (first | assumption | apply State.linElem_stays | apply State.onLin_stays | apply State.linEvt_stays | apply State.setFld_stays | apply State.linPass_stays | apply Stays.ite | dsimp only | split)

theorem State.linHdr_stays {z s : State} (h : Stays z s) (n : Nat) (id : Nat) :
  Stays z (State.linHdr s n id) := by
  unfold State.linHdr
  repeat' with_reducible (first | assumption | apply State.linEvt_stays | apply State.onLin_stays | apply Stays.ite)

theorem State.linBreak_stays {z s : State} (h : Stays z s) (n : Nat) (start : Word) (stamp : Word) :
  Stays z (State.linBreak s n start stamp) := by
  unfold State.linBreak
  repeat' with_reducible (first | intro _ | assumption | apply State.linEnd_stays | apply State.onLin_stays | apply Stays.ite | split | dsimp only)

theorem State.linChar_stays {z s : State} (h : Stays z s) (n : Nat) (b : Byte) (fe : Bool) (cyc : Nat) :
  Stays z (State.linChar s n b fe cyc) := by
  unfold State.linChar
  repeat' with_reducible (first | intro _ | assumption | apply State.linEnd_stays | apply State.onLin_stays | apply State.setFld_stays | apply Stays.ite | split | dsimp only)

theorem State.linAct_stays {z s : State} (h : Stays z s) (n : Nat) :
  Stays z (State.linAct s n) := by
  unfold State.linAct
  repeat' with_reducible (first | assumption | apply State.linEnd_stays | apply State.onLin_stays | apply Stays.ite | dsimp only | split)

theorem State.linRespEnd_stays {z s : State} (h : Stays z s) (n : Nat) (bit : Bool) :
  Stays z (State.linRespEnd s n bit) := by
  unfold State.linRespEnd
  repeat' with_reducible (first | assumption | apply State.linEnd_stays | apply Stays.ite | split | dsimp only)

theorem State.linTimeout_stays {z s : State} (h : Stays z s) (n : Nat) :
  Stays z (State.linTimeout s n) := by
  unfold State.linTimeout
  repeat' with_reducible (first | assumption | apply State.linEnd_stays | apply Stays.ite | dsimp only | split)

theorem State.linWake_stays {z s : State} (h : Stays z s) (n : Nat) :
  Stays z (State.linWake s n) := by
  unfold State.linWake
  repeat' with_reducible (first | intro _ | assumption | apply State.linEvt_stays | apply State.onLin_stays | apply State.putBit_stays | apply Stays.ite | split | dsimp only)

theorem State.linWakeEnd_stays {z s : State} (h : Stays z s) (n : Nat) :
  Stays z (State.linWakeEnd s n) := by
  unfold State.linWakeEnd
  repeat' with_reducible (first | intro _ | assumption | apply State.onLin_stays | apply State.putBit_stays | apply Stays.ite | split | dsimp only)

theorem State.uartPush_stays {z s : State} (h : Stays z s) (n : Nat) (b : Byte) :
  Stays z (State.uartPush s n b) := by
  unfold State.uartPush
  repeat' with_reducible (first | assumption | apply State.onLin_stays | apply Stays.ite)

theorem State.uartSent_stays {z s : State} (h : Stays z s) (n : Nat) :
  Stays z (State.uartSent s n) := by
  unfold State.uartSent
  repeat' with_reducible (first | assumption | apply State.onLin_stays | apply State.linEvt_stays | apply Stays.ite | dsimp only | split)

theorem State.uartGot_stays {z s : State} (h : Stays z s) (n : Nat) (c : Byte × Bool × Bool) :
  Stays z (State.uartGot s n c) := by
  unfold State.uartGot
  repeat' with_reducible (first | assumption | apply State.linEvt_stays | apply State.onLin_stays | apply State.putBit_stays | apply Stays.ite)

theorem State.uartPop_stays {z s : State} (h : Stays z s) (n : Nat) :
  StaysP z (State.uartPop s n) := by
  unfold State.uartPop
  repeat' with_reducible (first | assumption | apply State.onLin_stays | apply Stays.ite | apply StaysP.ite | dsimp only [StaysP] | dsimp only | split)

theorem State.mbEnter_stays {z s : State} (h : Stays z s) (i : Nat) (c : Nat) :
  Stays z (State.mbEnter s i c) := by
  unfold State.mbEnter
  repeat' with_reducible (first | assumption | apply State.wr_stays | apply State.setXcv_stays | apply State.setFld_stays | apply Stays.ite)

theorem State.xcvMode_stays {z s : State} (h : Stays z s) (x : Nat) (m : Nat) :
  Stays z (State.xcvMode s x m) := by
  unfold State.xcvMode
  repeat' with_reducible (first | assumption | apply State.mbEnter_stays | apply State.setXcv_stays | apply Stays.ite)

theorem State.xcvStandby_stays {z s : State} (h : Stays z s)  :
  Stays z (State.xcvStandby s) := by
  unfold State.xcvStandby
  repeat' with_reducible (first | intro _ | assumption | apply State.each_stays | apply State.setFld_stays | apply State.mbEnter_stays | apply State.setXcv_stays | apply Stays.ite | dsimp only | split | apply foldl_stays)

theorem State.xcvArm_stays {z s : State} (h : Stays z s)  :
  Stays z (State.xcvArm s) := by
  unfold State.xcvArm
  repeat' with_reducible (first | intro _ | assumption | apply State.each_stays | apply State.wr_stays | apply State.mbEnter_stays | apply State.setXcv_stays | apply Stays.ite | dsimp only | split | apply foldl_stays)

theorem State.linOff_stays {z s : State} (h : Stays z s) (n : Nat) :
  Stays z (State.linOff s n) := by
  unfold State.linOff
  repeat' with_reducible (first | assumption | apply State.wr_stays | apply State.linWakeEnd_stays | apply State.onLin_stays | apply State.setXcv_stays | apply Stays.ite)

theorem State.busUnitOff_stays {z s : State} (h : Stays z s) (ix : Nat) :
  Stays z (State.busUnitOff s ix) := by
  unfold State.busUnitOff
  repeat' with_reducible (first | assumption | apply State.wr_stays | apply State.mbcOff_stays | apply State.setFld_stays | apply State.mbEnter_stays | apply State.linOff_stays | apply Stays.ite)

theorem State.linCtlWrite_stays {z s : State} (h : Stays z s) (n : Nat) (v : W32) (acc : State → Nat → W32 → State) (hacc : ∀ t0 a1 a2, Stays z t0 → Stays z (acc t0 a1 a2)) :
  Stays z (State.linCtlWrite s n v acc) := by
  unfold State.linCtlWrite
  repeat' with_reducible (first | intro _ | assumption | apply hacc | apply State.linWakeEnd_stays | apply State.linEvt_stays | apply State.onLin_stays | apply State.putBit_stays | apply Stays.ite | split | dsimp only)

theorem State.linWrite_stays {z s : State} (h : Stays z s) (a : Nat) (v : W32) (acc : State → Nat → W32 → State) (hacc : ∀ (t0 : State) (t1 : Nat) (t2 : W32), Stays z t0 → Stays z (acc t0 t1 t2)) :
  Stays z (State.linWrite s a v acc) := by
  unfold State.linWrite
  repeat' with_reducible (first | assumption | apply hacc | apply State.linCtlWrite_stays | apply State.linEvt_stays | apply State.linHdr_stays | apply State.setFld_stays | apply State.linWake_stays | apply State.onLin_stays | apply State.uartPush_stays | apply State.xcvMode_stays | apply Stays.ite | dsimp only | split)

theorem State.xcvWrite_stays {z s : State} (h : Stays z s) (a : Nat) (v : W32) (acc : State → Nat → W32 → State) (hacc : ∀ (t0 : State) (t1 : Nat) (t2 : W32), Stays z t0 → Stays z (acc t0 t1 t2)) :
  Stays z (State.xcvWrite s a v acc) := by
  unfold State.xcvWrite
  repeat' with_reducible (first | assumption | apply hacc | apply State.xcvMode_stays | apply Stays.ite)

theorem State.linReadPop_stays {z s : State} (h : Stays z s) (a : Nat) :
  StaysOP z (State.linReadPop s a) := by
  unfold State.linReadPop
  repeat' with_reducible (first | assumption | apply State.uartPop_stays | apply Stays.ite | apply StaysOP.some | apply StaysOP.none | apply StaysOP.ite | dsimp only [StaysP])

theorem State.linEntry_stays {z s : State} (h : Stays z s) (n : Nat) (id : Nat) (data : List Byte) :
  Stays z (State.linEntry s n id data) := by
  unfold State.linEntry
  repeat' with_reducible (first | assumption | apply State.wr_stays | apply State.setFld_stays | apply Stays.ite)

theorem State.linBusTx_stays {z s : State} (h : Stays z s) (n : Nat) (len : Nat) (w : W32) (data : List Byte) :
  StaysP z (State.linBusTx s n len w data) := by
  unfold State.linBusTx
  repeat' with_reducible (first | assumption | apply State.putBit_stays | apply State.setFld_stays | apply State.linEntry_stays | apply State.linHdr_stays | apply Stays.ite | apply StaysP.ite | dsimp only [StaysP])

theorem State.linBusRx_stays {z s : State} (h : Stays z s) (n : Nat) :
  StaysP z (State.linBusRx s n) := by
  unfold State.linBusRx
  repeat' with_reducible (first | assumption | apply State.onLin_stays | apply Stays.ite | apply StaysP.ite | dsimp only [StaysP] | dsimp only | split)

theorem State.busTx_stays {z s : State} (h : Stays z s) (ops : List W32) :
  StaysP z (State.busTx s ops) := by
  unfold State.busTx
  repeat' with_reducible (first | assumption | apply State.mbcBusTx_stays | apply State.linBusTx_stays | apply Stays.ite | apply StaysP.ite | dsimp only [StaysP] | dsimp only | split)

theorem State.busRx_stays {z s : State} (h : Stays z s) (ops : List W32) :
  StaysP z (State.busRx s ops) := by
  unfold State.busRx
  repeat' with_reducible (first | assumption | apply State.mbcBusRx_stays | apply State.linBusRx_stays | apply Stays.ite | apply StaysP.ite | dsimp only [StaysP] | dsimp only | split)

theorem State.withLace_stays {z s : State} (h : Stays z s) (x : Lace) :
  Stays z (State.withLace s x) := by
  unfold State.withLace
  repeat' with_reducible (first | assumption | apply State.withIo_stays | apply Stays.ite)

theorem State.setLink_stays {z s : State} (h : Stays z s) (n : Nat) (x : Link) :
  Stays z (State.setLink s n x) := by
  unfold State.setLink
  repeat' with_reducible (first | assumption | apply State.withLace_stays | apply Stays.ite)

theorem State.onLink_stays {z s : State} (h : Stays z s) (n : Nat) (f : Link → Link) :
  Stays z (State.onLink s n f) := by
  unfold State.onLink
  repeat' with_reducible (first | assumption | apply State.setLink_stays | apply Stays.ite)

theorem State.setLinkSt_stays {z s : State} (h : Stays z s) (n : Nat) (c : Nat) :
  Stays z (State.setLinkSt s n c) := by
  unfold State.setLinkSt
  repeat' with_reducible (first | assumption | apply State.setFld_stays | apply Stays.ite)

theorem State.setLaneSt_stays {z s : State} (h : Stays z s) (n : Nat) (i : Nat) (c : Nat) :
  Stays z (State.setLaneSt s n i c) := by
  unfold State.setLaneSt
  repeat' with_reducible (first | assumption | apply State.setFld_stays | apply Stays.ite)

theorem State.lanesOff_stays {z s : State} (h : Stays z s) (n : Nat) :
  Stays z (State.lanesOff s n) := by
  unfold State.lanesOff
  repeat' with_reducible (first | intro _ | assumption | apply State.setLaneSt_stays | apply State.onLink_stays | apply State.setFld_stays | apply State.each_stays | apply State.wr_stays | apply Stays.ite | split | dsimp only)

theorem State.unreach_stays {z s : State} (h : Stays z s)  :
  Stays z (State.unreach s) := by
  unfold State.unreach
  repeat' with_reducible (first | assumption | apply State.advSat_stays | apply Stays.ite)

theorem State.undeliverReq_stays {z s : State} (h : Stays z s) (k : Nat) :
  Stays z (State.undeliverReq s k) := by
  unfold State.undeliverReq
  repeat' with_reducible (first | intro _ | assumption | apply State.unreach_stays | apply State.notice_stays | apply State.respond_stays | apply State.withNet_stays | apply Stays.ite | split | dsimp only)

theorem State.undeliverSig_stays {z s : State} (h : Stays z s) (k : Nat) (reason : Nat) :
  Stays z (State.undeliverSig s k reason) := by
  unfold State.undeliverSig
  repeat' with_reducible (first | assumption | apply State.notice_stays | apply State.drawn_stays | apply State.withSigOut_stays | apply Stays.ite | dsimp only | split)

theorem State.undeliverWhere_stays {z s : State} (h : Stays z s) (p : LaceTag → Bool) (x2 : Nat) :
  Stays z (State.undeliverWhere s p x2) := by
  induction x2 generalizing s p with
  | zero =>
    unfold State.undeliverWhere
    repeat' with_reducible (first | intro _ | assumption | apply State.undeliverReq_stays | apply State.unreach_stays | apply State.undeliverSig_stays | apply Stays.ite | apply StaysP.ite | apply StaysO.ite | apply StaysOP.ite | apply StaysO.some | apply StaysO.none | apply StaysOP.some | apply StaysOP.none | apply StaysO.getD | apply StaysO.or | apply StaysOP.or | apply foldl_stays | split | dsimp only [StaysP] | (apply StaysO.of_eq ‹_›) | (apply StaysP.of_eq ‹_›) | (apply StaysOP.of_eq ‹_›))
  | succ n ih =>
    unfold State.undeliverWhere
    repeat' with_reducible (first | intro _ | assumption | apply ih | apply State.undeliverReq_stays | apply State.unreach_stays | apply State.undeliverSig_stays | apply Stays.ite | apply StaysP.ite | apply StaysO.ite | apply StaysOP.ite | apply StaysO.some | apply StaysO.none | apply StaysOP.some | apply StaysOP.none | apply StaysO.getD | apply StaysO.or | apply StaysOP.or | apply foldl_stays | split | dsimp only [StaysP] | (apply StaysO.of_eq ‹_›) | (apply StaysP.of_eq ‹_›) | (apply StaysOP.of_eq ‹_›))

theorem State.answerPkg_stays {z s : State} (h : Stays z s) (p : BitVec 8) (orig : W32) (cls : Nat) (reason : Nat) (data : List Byte) :
  Stays z (State.answerPkg s p orig cls reason data) := by
  unfold State.answerPkg
  repeat' with_reducible (first | assumption | apply State.withLace_stays | apply Stays.ite | split | dsimp only)

theorem State.oweUnits_stays {z s : State} (h : Stays z s) (n : Nat) (vc : Nat) (units : Nat) :
  Stays z (State.oweUnits s n vc units) := by
  unfold State.oweUnits
  repeat' with_reducible (first | intro _ | assumption | apply State.onLink_stays | apply Stays.ite | split | dsimp only)

theorem State.freeBuf_stays {z s : State} (h : Stays z s) (src : Option (Nat × Nat)) (units : Nat) :
  Stays z (State.freeBuf s src units) := by
  unfold State.freeBuf
  repeat' with_reducible (first | intro _ | assumption | apply State.oweUnits_stays | apply State.onLink_stays | apply Stays.ite | split | dsimp only)

theorem State.bounce_stays {z s : State} (h : Stays z s) (p : LData) :
  Stays z (State.bounce s p) := by
  unfold State.bounce
  repeat' with_reducible (first | intro _ | assumption | apply State.answerPkg_stays | apply State.unreach_stays | apply Stays.ite | split | dsimp only)

theorem State.dropOut_stays {z s : State} (h : Stays z s) (p : LOut → Bool) :
  Stays z (State.dropOut s p) := by
  unfold State.dropOut
  repeat' with_reducible (first | intro _ | assumption | apply State.bounce_stays | apply State.freeBuf_stays | apply State.withLace_stays | apply foldl_stays | apply Stays.ite | apply foldl_stays | split | dsimp only)

theorem State.bufGone_stays {z s : State} (h : Stays z s) (n : Nat) :
  Stays z (State.bufGone s n) := by
  unfold State.bufGone
  repeat' with_reducible (first | intro _ | assumption | apply State.withLace_stays | apply Stays.ite | split | dsimp only)

theorem State.revoke_stays {z s : State} (h : Stays z s) (p : LPkt) :
  Stays z (State.revoke s p) := by
  unfold State.revoke
  repeat' with_reducible (first | assumption | apply State.bounce_stays | apply Stays.ite | split | dsimp only)

theorem State.linkDown_stays {z s : State} (h : Stays z s) (n : Nat) (st : Nat) (cause : Nat) :
  Stays z (State.linkDown s n st cause) := by
  unfold State.linkDown
  repeat' with_reducible (first | intro _ | assumption | apply State.revoke_stays | apply State.bufGone_stays | apply State.dropOut_stays | apply State.undeliverWhere_stays | apply State.lanesOff_stays | apply State.setLinkSt_stays | apply State.setLink_stays | apply State.putBit_stays | apply State.setFld_stays | apply foldl_stays | apply Stays.ite | apply foldl_stays | split | dsimp only)

theorem State.queuesOn_stays {z s : State} (h : Stays z s)  :
  Stays z (State.queuesOn s) := by
  unfold State.queuesOn
  repeat' with_reducible (first | intro _ | assumption | apply State.each_stays | apply State.setQState_stays | apply State.setFld_stays | apply Stays.ite | dsimp only | split | apply foldl_stays)

theorem State.endEntry_stays {z s : State} (h : Stays z s) (k : Nat) (st : Nat) :
  Stays z (State.endEntry s k st) := by
  unfold State.endEntry
  repeat' with_reducible (first | assumption | apply State.setQState_stays | apply State.setMat_stays | apply State.setQueue_stays | apply Stays.ite)

theorem State.setRgnState_stays {z s : State} (h : Stays z s) (x : Nat) (c : Nat) :
  Stays z (State.setRgnState s x c) := by
  unfold State.setRgnState
  repeat' with_reducible (first | assumption | apply State.setFld_stays | apply Stays.ite)

theorem State.freePins_stays {z s : State} (h : Stays z s) (x : Nat) :
  Stays z (State.freePins s x) := by
  unfold State.freePins
  repeat' with_reducible (first | intro _ | assumption | apply State.each_stays | apply State.setFld_stays | apply Stays.ite | dsimp only | split | apply foldl_stays)

theorem State.callOver_stays {z s : State} (h : Stays z s) (x : Nat) :
  Stays z (State.callOver s x) := by
  unfold State.callOver
  repeat' with_reducible (first | assumption | apply State.setRgn_stays | apply State.putBit_stays | apply Stays.ite | split | dsimp only)

theorem State.chanDrop_stays {z s : State} (h : Stays z s) (x : Nat) :
  Stays z (State.chanDrop s x) := by
  unfold State.chanDrop
  repeat' with_reducible (first | intro _ | assumption | apply State.setRgn_stays | apply State.each_stays | apply Stays.ite | apply StaysP.ite | split | dsimp only [StaysP])

theorem State.rgnClear_stays {z s : State} (h : Stays z s) (x : Nat) :
  Stays z (State.rgnClear s x) := by
  unfold State.rgnClear
  repeat' with_reducible (first | assumption | apply State.chanDrop_stays | apply State.freePins_stays | apply State.setRgnState_stays | apply State.setRgn_stays | apply State.putBit_stays | apply Stays.ite | split | dsimp only)

theorem State.rgnRestart_stays {z s : State} (h : Stays z s) (x : Nat) (st : Nat) :
  Stays z (State.rgnRestart s x st) := by
  unfold State.rgnRestart
  repeat' with_reducible (first | intro _ | assumption | apply State.callOver_stays | apply State.setRgnState_stays | apply State.setRgn_stays | apply Stays.ite | split | dsimp only)

theorem State.fabAbort_stays {z s : State} (h : Stays z s) (k : Nat) (st : Nat) :
  Stays z (State.fabAbort s k st) := by
  unfold State.fabAbort
  repeat' with_reducible (first | intro _ | assumption | apply State.each_stays | apply State.rgnRestart_stays | apply State.endEntry_stays | apply State.rgnClear_stays | apply State.setRgn_stays | apply Stays.ite | dsimp only | split | apply foldl_stays)

theorem State.larderGone_stays {z s : State} (h : Stays z s) (l : Nat) :
  Stays z (State.larderGone s l) := by
  unfold State.larderGone
  repeat' with_reducible (first | intro _ | assumption | apply State.fabAbort_stays | apply State.endEntry_stays | apply State.setPipe_stays | apply State.putBit_stays | apply State.each_stays | apply Stays.ite | apply StaysP.ite | split | dsimp only [StaysP])

theorem State.liveWords_stays {z s0 : State} (h : Stays z s0)  :
  Stays z (State.liveWords s0) := by
  unfold State.liveWords
  repeat' with_reducible (first | intro _ | assumption | apply State.larderGone_stays | apply State.queuesOn_stays | apply State.setLarderState_stays | apply State.each_stays | apply State.wr_stays | apply Stays.ite | split | dsimp only)

theorem State.seqAdvance_stays {z s : State} (h : Stays z s)  :
  Stays z (State.seqAdvance s) := by
  unfold State.seqAdvance
  repeat' with_reducible (first | assumption | apply State.wr_stays | apply Stays.ite)

theorem State.syncLive_stays {z s : State} (h : Stays z s) (s0 : State) :
  Stays z (State.syncLive s s0) := by
  unfold State.syncLive
  repeat' with_reducible (first | assumption | apply State.liveWords_stays | apply State.seqAdvance_stays | apply Stays.ite)

theorem State.queuesOff_stays {z s : State} (h : Stays z s) (g : Nat) :
  Stays z (State.queuesOff s g) := by
  unfold State.queuesOff
  repeat' with_reducible (first | intro _ | assumption | apply State.each_stays | apply State.setFld_stays | apply State.setQState_stays | apply State.setQueue_stays | apply State.dropWaiter_stays | apply Stays.ite | dsimp only | split | apply foldl_stays)

theorem State.scramble_stays {z s : State} (h : Stays z s) (a : Nat) (n : Nat) :
  Stays z (State.scramble s a n) := by
  unfold State.scramble
  repeat' with_reducible (first | intro _ | assumption | apply State.drawBytes_stays | apply State.putBytes_stays | apply Stays.ite | apply StaysP.ite | split | dsimp only [StaysP])

theorem State.dropHere_stays {z s : State} (h : Stays z s) (p : Req → Bool) :
  Stays z (State.dropHere s p) := by
  unfold State.dropHere
  repeat' with_reducible (first | intro _ | assumption | apply State.withResp_stays | apply Stays.ite | split | dsimp only)

theorem State.pipeDrop_stays {z s : State} (h : Stays z s) (g : Nat) :
  Stays z (State.pipeDrop s g) := by
  unfold State.pipeDrop
  repeat' with_reducible (first | intro _ | assumption | apply State.dropHere_stays | apply State.scramble_stays | apply State.setPipe_stays | apply State.setFld_stays | apply foldl_stays | apply Stays.ite | apply foldl_stays | split | dsimp only)

theorem State.disownEngine_stays {z s : State} (h : Stays z s) (g : Nat) :
  Stays z (State.disownEngine s g) := by
  unfold State.disownEngine
  repeat' with_reducible (first | intro _ | assumption | apply State.withResp_stays | apply State.withNet_stays | apply Stays.ite | split | dsimp only)

theorem State.stopEngine_stays {z s0 : State} (h : Stays z s0) (g : Nat) :
  Stays z (State.stopEngine s0 g) := by
  unfold State.stopEngine
  repeat' with_reducible (first | intro _ | assumption | apply State.disownEngine_stays | apply State.pipeDrop_stays | apply State.queuesOff_stays | apply State.callOver_stays | apply State.setRgn_stays | apply State.setMat_stays | apply State.onStream_stays | apply State.setFld_stays | apply State.each_stays | apply Stays.ite | split | dsimp only)

theorem State.stopQuarter_stays {z s : State} (h : Stays z s) (x : Nat) :
  Stays z (State.stopQuarter s x) := by
  unfold State.stopQuarter
  repeat' with_reducible (first | intro _ | assumption | apply State.each_stays | apply State.endEntry_stays | apply Stays.ite | dsimp only | split | apply foldl_stays)

theorem State.stopRegion_stays {z s : State} (h : Stays z s) (x : Nat) :
  Stays z (State.stopRegion s x) := by
  unfold State.stopRegion
  repeat' with_reducible (first | intro _ | assumption | apply State.setFld_stays | apply State.endEntry_stays | apply State.setRgn_stays | apply Stays.ite | dsimp only | split | apply foldl_stays)

theorem State.bootEvent_stays {z s : State} (h : Stays z s) (code : Nat) :
  Stays z (State.bootEvent s code) := by
  unfold State.bootEvent
  repeat' with_reducible (first | assumption | apply State.event_stays | apply Stays.ite)

theorem State.judgeHi_stays {z s : State} (h : Stays z s)  :
  Stays z (State.judgeHi s) := by
  unfold State.judgeHi
  repeat' with_reducible (first | assumption | apply State.setFld_stays | apply State.bootEvent_stays | apply State.putBit_stays | apply Stays.ite | dsimp only | split)

theorem State.swapDrop_stays {z s : State} (h : Stays z s) (d : Nat) :
  Stays z (State.swapDrop s d) := by
  unfold State.swapDrop
  repeat' with_reducible (first | assumption | apply State.putBit_stays | apply State.withBoot_stays | apply Stays.ite | split | dsimp only)

theorem State.linksOff_stays {z s : State} (h : Stays z s) (d : Nat) :
  Stays z (State.linksOff s d) := by
  unfold State.linksOff
  repeat' with_reducible (first | intro _ | assumption | apply State.each_stays | apply State.setFld_stays | apply State.linkDown_stays | apply Stays.ite | dsimp only | split | apply foldl_stays)

theorem State.stopDie_stays {z s : State} (h : Stays z s) (d : Nat) :
  Stays z (State.stopDie s d) := by
  unfold State.stopDie
  repeat' with_reducible (first | intro _ | assumption | apply State.linksOff_stays | apply State.swapDrop_stays | apply State.stopEngine_stays | apply State.unwatch_stays | apply State.failWaiters_stays | apply State.each_stays | apply Stays.ite | split | dsimp only)

theorem State.permEvent_stays {z s : State} (h : Stays z s) (u : BitVec 16) :
  Stays z (State.permEvent s u) := by
  unfold State.permEvent
  repeat' with_reducible (first | intro _ | assumption | apply State.setEvt_stays | apply State.putBit_stays | apply State.each_stays | apply Stays.ite | dsimp only | split | apply foldl_stays)

theorem State.sumPend_stays {z s : State} (h : Stays z s)  :
  Stays z (State.sumPend s) := by
  unfold State.sumPend
  repeat' with_reducible (first | assumption | apply State.putBit_stays | apply Stays.ite)

theorem State.queueSummary_stays {z s : State} (h : Stays z s) (x : SumUpd) :
  Stays z (State.queueSummary s x) := by
  unfold State.queueSummary
  repeat' with_reducible (first | assumption | apply State.withFlt_stays | apply State.sumPend_stays | apply Stays.ite)

theorem State.leaveStart_stays {z s : State} (h : Stays z s) (x : Nat) :
  Stays z (State.leaveStart s x) := by
  unfold State.leaveStart
  repeat' with_reducible (first | assumption | apply State.setFld_stays | apply State.withBoot_stays | apply State.withSup_stays | apply Stays.ite | split | dsimp only)

theorem State.unproduce_stays {z s : State} (h : Stays z s) (c : CoreId) :
  Stays z (State.unproduce s c) := by
  unfold State.unproduce
  repeat' with_reducible (first | assumption | apply State.setCore_stays | apply Stays.ite | split | dsimp only)

theorem State.stopUnit_stays {z s : State} (h : Stays z s) (u : BitVec 16) :
  Stays z (State.stopUnit s u) := by
  unfold State.stopUnit
  repeat' with_reducible (first | intro _ | assumption | apply State.unproduce_stays | apply State.leaveStart_stays | apply State.stopDie_stays | apply State.stopRegion_stays | apply State.stopQuarter_stays | apply State.stopEngine_stays | apply State.linkDown_stays | apply State.busUnitOff_stays | apply State.qdecOff_stays | apply State.stageOff_stays | apply State.setLarderState_stays | apply State.setDieState_stays | apply State.putBit_stays | apply State.withResp_stays | apply State.setCore_stays | apply Stays.ite | split | dsimp only)

theorem State.retireSet_stays {z s0 : State} (h : Stays z s0) (us : List (BitVec 16 × Nat)) :
  Stays z (State.retireSet s0 us) := by
  unfold State.retireSet
  repeat' with_reducible (first | intro _ | assumption | apply State.stopUnit_stays | apply State.withFlt_stays | apply State.seqAdvance_stays | apply State.liveWords_stays | apply State.revokeHolds_stays | apply Stays.ite | dsimp only | split | apply foldl_stays)

theorem State.retire_stays {z s : State} (h : Stays z s) (u : BitVec 16) (cause : Nat) (r : Rec) :
  Stays z (State.retire s u cause r) := by
  unfold State.retire
  repeat' with_reducible (first | assumption | apply State.retireSet_stays | apply State.queueSummary_stays | apply State.permEvent_stays | apply State.logRec_stays | apply Stays.ite)

end Sys2Proof.Machine
end

