-- ==== Sys2Proof/Laws/StaysB.lean ====
section
/-! SUPPORT. Laws/StaysB.lean: every operation and meaning of Line, Exc, CoreCtl, DieOff, FaultOps, TimeBaseOps, NetOps, Reports, Summary, PowerOps, DbgCtl, Coding, LaceOps, FaultCtl, OutOps keeps the canonical
form, the variant and the queue of waiting commands (Stays); each lemma says it of one definition, whose helpers have theirs before it. -/
namespace Sys2Proof.Machine

theorem State.recurRoll_stays {z s : State} (h : Stays z s)  :
  Stays z (State.recurRoll s) := by
  unfold State.recurRoll
  repeat' with_reducible (first | assumption | apply State.withFlt_stays | apply Stays.ite | split | dsimp only)

theorem State.recurHit_stays {z s : State} (h : Stays z s) (kind : Nat) :
  Stays z (State.recurHit s kind) := by
  unfold State.recurHit
  repeat' with_reducible (first | assumption | apply State.setEvt_stays | apply State.putBit_stays | apply Stays.ite | split | dsimp only)

theorem State.logTransient_stays {z s0 : State} (h : Stays z s0) (r : Rec) :
  Stays z (State.logTransient s0 r) := by
  unfold State.logTransient
  repeat' with_reducible (first | assumption | apply State.recurHit_stays | apply State.recurRoll_stays | apply State.logRec_stays | apply State.withFlt_stays | apply Stays.ite | split | dsimp only)

theorem State.recurLowered_stays {z s : State} (h : Stays z s) (was : Nat) :
  Stays z (State.recurLowered s was) := by
  unfold State.recurLowered
  repeat' with_reducible (first | intro _ | assumption | apply State.recurHit_stays | apply State.each_stays | apply Stays.ite | split | dsimp only)

theorem State.endTest_stays {z s : State} (h : Stays z s) (u : BitVec 16) :
  Stays z (State.endTest s u) := by
  unfold State.endTest
  repeat' with_reducible (first | intro _ | assumption | apply State.each_stays | apply State.wr_stays | apply State.setFld_stays | apply Stays.ite | dsimp only | split | apply foldl_stays)

theorem State.testFail_stays {z s : State} (h : Stays z s) (u : BitVec 16) (cause : Nat) (r : Rec) :
  Stays z (State.testFail s u cause r) := by
  unfold State.testFail
  repeat' with_reducible (first | assumption | apply State.endTest_stays | apply State.stopUnit_stays | apply State.queueSummary_stays | apply State.permEvent_stays | apply State.logRec_stays | apply Stays.ite | split | dsimp only)

theorem State.bankUe_stays {z s : State} (h : Stays z s) (u : BitVec 16) :
  Stays z (State.bankUe s u) := by
  unfold State.bankUe
  repeat' with_reducible (first | assumption | apply State.testFail_stays | apply State.retire_stays | apply State.withFlt_stays | apply Stays.ite | split | dsimp only)

theorem State.correctLine_stays {z s : State} (h : Stays z s) (r : Region) (a : Nat) :
  Stays z (State.correctLine s r a) := by
  unfold State.correctLine
  repeat' with_reducible (first | assumption | apply State.advSat_stays | apply State.putLine_stays | apply Stays.ite)

theorem State.poisonLine_stays {z s : State} (h : Stays z s) (r : Region) (a : Nat) :
  Stays z (State.poisonLine s r a) := by
  unfold State.poisonLine
  repeat' with_reducible (first | assumption | apply State.advSat_stays | apply State.putLine_stays | apply State.putBit_stays | apply State.setFld_stays | apply State.wr_stays | apply State.bankUe_stays | apply State.logRec_stays | apply Stays.ite)

theorem State.readLine_stays {z s : State} (h : Stays z s) (r : Region) (a : Nat) :
  StaysP z (State.readLine s r a) := by
  unfold State.readLine
  repeat' with_reducible (first | intro _ | assumption | apply State.poisonLine_stays | apply State.correctLine_stays | apply State.logTransient_stays | apply State.putLine_stays | apply Stays.ite | apply StaysP.ite | split | dsimp only [StaysP])

theorem State.readLines_stays {z s : State} (h : Stays z s) (r : Region) (x2 : List Nat) :
  StaysP z (State.readLines s r x2) := by
  induction x2 generalizing s r with
  | nil =>
    unfold State.readLines
    repeat' with_reducible (first | intro _ | assumption | apply State.readLine_stays | apply Stays.ite | apply StaysP.ite | apply StaysO.ite | apply StaysOP.ite | apply StaysO.some | apply StaysO.none | apply StaysOP.some | apply StaysOP.none | apply StaysO.getD | apply StaysO.or | apply StaysOP.or | apply foldl_stays | split | dsimp only [StaysP] | (apply StaysO.of_eq ‹_›) | (apply StaysP.of_eq ‹_›) | (apply StaysOP.of_eq ‹_›))
  | cons b l ih =>
    unfold State.readLines
    repeat' with_reducible (first | intro _ | assumption | apply ih | apply State.readLine_stays | apply Stays.ite | apply StaysP.ite | apply StaysO.ite | apply StaysOP.ite | apply StaysO.some | apply StaysO.none | apply StaysOP.some | apply StaysOP.none | apply StaysO.getD | apply StaysO.or | apply StaysOP.or | apply foldl_stays | split | dsimp only [StaysP] | (apply StaysO.of_eq ‹_›) | (apply StaysP.of_eq ‹_›) | (apply StaysOP.of_eq ‹_›))

theorem State.mergeLine_stays {z s : State} (h : Stays z s) (i : Ini) (r : Region) (a : Nat) :
  Stays z (State.mergeLine s i r a) := by
  unfold State.mergeLine
  repeat' with_reducible (first | assumption | apply State.poisonLine_stays | apply State.correctLine_stays | apply State.logTransient_stays | apply State.notice_stays | apply State.putLine_stays | apply Stays.ite | split | dsimp only)

theorem State.writeTagged_stays {z s : State} (h : Stays z s) (i : Ini) (r : Region) (a : Nat) (bs : List Byte) :
  Stays z (State.writeTagged s i r a bs) := by
  unfold State.writeTagged
  repeat' with_reducible (first | intro _ | assumption | apply State.each_stays | apply State.putLine_stays | apply State.mergeLine_stays | apply State.putBytes_stays | apply Stays.ite | dsimp only | split | apply foldl_stays)

theorem State.readInsole_stays {z s : State} (h : Stays z s) (a : Nat) :
  StaysP z (State.readInsole s a) := by
  unfold State.readInsole
  repeat' with_reducible (first | intro _ | assumption | apply State.event_stays | apply State.advSat_stays | apply State.setFld_stays | apply State.putLine_stays | apply Stays.ite | apply StaysP.ite | split | dsimp only [StaysP])

theorem State.haltCore_stays {z s : State} (h : Stays z s) (c : CoreId) (first : Nat) (second : Nat) :
  Stays z (State.haltCore s c first second) := by
  unfold State.haltCore
  repeat' with_reducible (first | assumption | apply State.setCore_stays | apply State.event_stays | apply Stays.ite)

theorem State.except_stays {z s : State} (h : Stays z s) (c : CoreId) (code : Nat) (sub : Nat) (tval : Word) :
  Stays z (State.except s c code sub tval) := by
  unfold State.except
  repeat' with_reducible (first | assumption | apply State.drawn_stays | apply State.haltCore_stays | apply State.setCore_stays | apply Stays.ite)

theorem State.onCore_stays {z s : State} (h : Stays z s) (c : CoreId) (f : Core → Core) :
  Stays z (State.onCore s c f) := by
  unfold State.onCore
  repeat' with_reducible (first | assumption | apply State.setCore_stays | apply Stays.ite)

theorem State.startCore_stays {z s : State} (h : Stays z s) (n : Nat) :
  Stays z (State.startCore s n) := by
  unfold State.startCore
  repeat' with_reducible (first | assumption | apply State.setCore_stays | apply Stays.ite)

theorem State.coreCtlWrite_stays {z s : State} (h : Stays z s) (a : Nat) (v : W32) :
  StaysO z (State.coreCtlWrite s a v) := by
  unfold State.coreCtlWrite
  repeat' with_reducible (first | intro _ | assumption | apply State.each_stays | apply State.startCore_stays | apply State.onCore_stays | apply Stays.ite | apply StaysO.some | apply StaysO.none | apply StaysO.ite | dsimp only | split | apply foldl_stays)

theorem State.setEn_stays {z s : State} (h : Stays z s) (x : Nat) (b : Bool) :
  Stays z (State.setEn s x b) := by
  unfold State.setEn
  repeat' with_reducible (first | assumption | apply State.putBit_stays | apply Stays.ite)

theorem State.linkReset_stays {z s : State} (h : Stays z s) (d : Nat) :
  Stays z (State.linkReset s d) := by
  unfold State.linkReset
  repeat' with_reducible (first | intro _ | assumption | apply State.keepCores_stays (ht := rfl) | apply State.keepHolds_stays (ht := rfl) | apply State.withLace_stays | apply Stays.ite | split | dsimp only)

theorem State.engReset_stays {z s0 : State} (h : Stays z s0) (d : Nat) :
  Stays z (State.engReset s0 d) := by
  unfold State.engReset
  repeat' with_reducible (first | assumption | apply State.linkReset_stays | apply State.withEng_stays | apply Stays.ite)

theorem State.dieRegsReset_stays {z s : State} (h : Stays z s) (d : Nat) :
  Stays z (State.dieRegsReset s d) := by
  unfold State.dieRegsReset
  repeat' with_reducible (first | intro _ | assumption | apply State.keepCores_stays (ht := rfl) | apply State.keepHolds_stays (ht := rfl) | apply State.engReset_stays | apply State.stopDie_stays | apply State.withBoot_stays | apply State.withTb_stays | apply State.resetRegs_stays | apply Stays.ite | split | dsimp only)

theorem State.dropNet_stays {z s : State} (h : Stays z s) (die : Nat) :
  Stays z (State.dropNet s die) := by
  unfold State.dropNet
  repeat' with_reducible (first | intro _ | assumption | apply State.keepCores_stays (ht := rfl) | apply State.keepHolds_stays (ht := rfl) | apply State.withNoc_stays | apply State.withSigOut_stays | apply State.withTraceQ_stays | apply State.withAwlSpent_stays | apply State.withBwcLen_stays | apply State.withResp_stays | apply State.withNet_stays | apply Stays.ite | split | dsimp only)

theorem State.dieOff_stays {z s : State} (h : Stays z s) (d : Nat) :
  Stays z (State.dieOff s d) := by
  unfold State.dieOff
  repeat' with_reducible (first | assumption | apply State.clearMem_stays | apply State.dieRegsReset_stays | apply State.dropNet_stays | apply Stays.ite)

theorem State.larderOff_stays {z s : State} (h : Stays z s) (l : Nat) :
  Stays z (State.larderOff s l) := by
  unfold State.larderOff
  repeat' with_reducible (first | assumption | apply State.clearMem_stays | apply Stays.ite | split | dsimp only)

theorem State.powerOff_stays {z s : State} (h : Stays z s) (x : Nat) :
  Stays z (State.powerOff s x) := by
  unfold State.powerOff
  repeat' with_reducible (first | assumption | apply State.larderOff_stays | apply State.dieOff_stays | apply Stays.ite | split | dsimp only)

theorem State.retiredOff_stays {z s : State} (h : Stays z s) (u : BitVec 16) :
  Stays z (State.retiredOff s u) := by
  unfold State.retiredOff
  repeat' with_reducible (first | intro _ | assumption | apply State.powerOff_stays | apply State.setEn_stays | apply State.putBit_stays | apply State.each_stays | apply Stays.ite | split | dsimp only)

theorem State.bridgeLost_stays {z s : State} (h : Stays z s) (b : Nat) :
  Stays z (State.bridgeLost s b) := by
  unfold State.bridgeLost
  repeat' with_reducible (first | intro _ | assumption | apply State.notice_stays | apply State.respond_stays | apply State.withNet_stays | apply foldl_stays | apply Stays.ite | apply foldl_stays | split | dsimp only)

theorem State.retireWith_stays {z s : State} (h : Stays z s) (u : BitVec 16) (cause : Nat) (r : Rec) :
  Stays z (State.retireWith s u cause r) := by
  unfold State.retireWith
  repeat' with_reducible (first | intro _ | assumption | apply State.bridgeLost_stays | apply State.retiredOff_stays | apply State.retireSet_stays | apply State.queueSummary_stays | apply State.permEvent_stays | apply State.logRec_stays | apply foldl_stays | apply Stays.ite | apply foldl_stays | split | dsimp only)

theorem State.permanent_stays {z s : State} (h : Stays z s) (kind : Nat) (u : BitVec 16) (sub : Nat) (retries : Nat) (addr : Word) :
  Stays z (State.permanent s kind u sub retries addr) := by
  unfold State.permanent
  repeat' with_reducible (first | assumption | apply State.retireWith_stays | apply State.testFail_stays | apply Stays.ite | split | dsimp only)

theorem State.faultOrRetry_stays {z s : State} (h : Stays z s) (kind : Nat) (u : BitVec 16) (sub : Nat) (k : Nat) (addr : Word) :
  Stays z (State.faultOrRetry s kind u sub k addr) := by
  unfold State.faultOrRetry
  repeat' with_reducible (first | assumption | apply State.logTransient_stays | apply State.permanent_stays | apply Stays.ite)

theorem State.setCopy_stays {z s : State} (h : Stays z s) (k : Nat) (v : Word) :
  Stays z (State.setCopy s k v) := by
  unfold State.setCopy
  repeat' with_reducible (first | assumption | apply State.withTb_stays | apply Stays.ite)

theorem State.captureDtb_stays {z s : State} (h : Stays z s)  :
  Stays z (State.captureDtb s) := by
  unfold State.captureDtb
  repeat' with_reducible (first | assumption | apply State.putDword_stays | apply Stays.ite)

theorem State.loadMaster_stays {z s : State} (h : Stays z s) (v : Word) :
  Stays z (State.loadMaster s v) := by
  unfold State.loadMaster
  repeat' with_reducible (first | assumption | apply State.putBit_stays | apply State.setCopy_stays | apply State.withTb_stays | apply Stays.ite)

theorem State.addLprc_stays {z s : State} (h : Stays z s) (n : Nat) :
  Stays z (State.addLprc s n) := by
  unfold State.addLprc
  repeat' with_reducible (first | assumption | apply State.withTb_stays | apply Stays.ite)

theorem State.xtalStop_stays {z s : State} (h : Stays z s)  :
  Stays z (State.xtalStop s) := by
  unfold State.xtalStop
  repeat' with_reducible (first | assumption | apply State.withTb_stays | apply Stays.ite | split | dsimp only)

theorem State.xtalLost_stays {z s : State} (h : Stays z s) (n : Nat) :
  Stays z (State.xtalLost s n) := by
  unfold State.xtalLost
  repeat' with_reducible (first | assumption | apply State.addLprc_stays | apply State.putBit_stays | apply State.withTb_stays | apply Stays.ite | split | dsimp only)

theorem State.rtcTick_stays {z s : State} (h : Stays z s)  :
  Stays z (State.rtcTick s) := by
  unfold State.rtcTick
  repeat' with_reducible (first | assumption | apply State.addLprc_stays | apply State.withTb_stays | apply Stays.ite | split | dsimp only)

theorem State.tick_stays {z s : State} (h : Stays z s)  :
  Stays z (State.tick s) := by
  unfold State.tick
  repeat' with_reducible (first | intro _ | assumption | apply State.rtcTick_stays | apply State.setCopy_stays | apply State.each_stays | apply State.withTb_stays | apply Stays.ite | split | dsimp only)

theorem State.syncCopy_stays {z s : State} (h : Stays z s) (k : Nat) :
  Stays z (State.syncCopy s k) := by
  unfold State.syncCopy
  repeat' with_reducible (first | assumption | apply State.withTb_stays | apply State.setCopy_stays | apply State.advSat_stays | apply State.event_stays | apply State.putBit_stays | apply Stays.ite)

theorem State.fireAlarm_stays {z s : State} (h : Stays z s) (n : Nat) :
  Stays z (State.fireAlarm s n) := by
  unfold State.fireAlarm
  repeat' with_reducible (first | assumption | apply State.alarmSignal_stays | apply State.putBit_stays | apply State.withTb_stays | apply State.wr_stays | apply Stays.ite | split | dsimp only)

theorem State.commitAlarm_stays {z s : State} (h : Stays z s) (n : Nat) (v : W32) :
  Stays z (State.commitAlarm s n v) := by
  unfold State.commitAlarm
  repeat' with_reducible (first | assumption | apply State.fireAlarm_stays | apply State.withTb_stays | apply State.wr_stays | apply Stays.ite | split | dsimp only)

theorem State.clearTbStatus_stays {z s : State} (h : Stays z s) (v : W32) :
  Stays z (State.clearTbStatus s v) := by
  unfold State.clearTbStatus
  repeat' with_reducible (first | assumption | apply State.putBit_stays | apply State.withTb_stays | apply Stays.ite | split | dsimp only)

theorem State.routeRefuse_stays {z s : State} (h : Stays z s) (d : Nat) (j : Nat) (n : Nat) (code : Nat) :
  Stays z (State.routeRefuse s d j n code) := by
  unfold State.routeRefuse
  repeat' with_reducible (first | assumption | apply State.wr_stays | apply Stays.ite)

theorem State.routeWrite_stays {z s : State} (h : Stays z s) (a : Nat) (v : W32) :
  StaysO z (State.routeWrite s a v) := by
  unfold State.routeWrite
  repeat' with_reducible (first | assumption | apply State.putBit_stays | apply State.routeRefuse_stays | apply State.wr_stays | apply Stays.ite | apply StaysO.some | apply StaysO.none | apply StaysO.ite)

theorem State.bwcBoundary_stays {z s : State} (h : Stays z s) (c : Nat) :
  Stays z (State.bwcBoundary s c) := by
  unfold State.bwcBoundary
  repeat' with_reducible (first | intro _ | assumption | apply State.each_stays | apply State.wr_stays | apply State.withBwcLen_stays | apply Stays.ite | dsimp only | split | apply foldl_stays)

theorem State.awlCountUp_stays {z s : State} (h : Stays z s) (x : Nat) (p : Nat) (len : Nat) :
  Stays z (State.awlCountUp s x p len) := by
  unfold State.awlCountUp
  repeat' with_reducible (first | assumption | apply State.wr_stays | apply Stays.ite)

theorem State.awlFire_stays {z s : State} (h : Stays z s) (x : Nat) (p : Nat) :
  Stays z (State.awlFire s x p) := by
  unfold State.awlFire
  repeat' with_reducible (first | intro _ | assumption | apply State.putBit_stays | apply State.each_stays | apply State.withNoc_stays | apply State.withAwlSpent_stays | apply Stays.ite | split | dsimp only)

theorem State.awlTriggers_stays {z s : State} (h : Stays z s) (x : Nat) :
  Stays z (State.awlTriggers s x) := by
  unfold State.awlTriggers
  repeat' with_reducible (first | intro _ | assumption | apply State.each_stays | apply State.awlFire_stays | apply Stays.ite | dsimp only | split | apply foldl_stays)

theorem State.awlPass_stays {z s : State} (h : Stays z s) (x : Nat) (point : BitVec 6) (port : BitVec 3) (dir : Bool) (k : Pkt) :
  Stays z (State.awlPass s x point port dir k) := by
  unfold State.awlPass
  repeat' with_reducible (first | intro _ | assumption | apply State.each_stays | apply State.awlCountUp_stays | apply State.withTraceQ_stays | apply State.awlTriggers_stays | apply Stays.ite | dsimp only | split | apply foldl_stays)

theorem State.passPorts_stays {z s : State} (h : Stays z s) (t : Transit) :
  Stays z (State.passPorts s t) := by
  unfold State.passPorts
  repeat' with_reducible (first | intro _ | assumption | apply State.awlPass_stays | apply foldl_stays | apply Stays.ite | apply foldl_stays | split | dsimp only)

theorem State.nocTick_stays {z s : State} (h : Stays z s)  :
  Stays z (State.nocTick s) := by
  unfold State.nocTick
  repeat' with_reducible (first | intro _ | assumption | apply State.passPorts_stays | apply State.withNoc_stays | apply State.withNet_stays | apply foldl_stays | apply Stays.ite | apply foldl_stays | split | dsimp only)

theorem State.awlWrite_stays {z s : State} (h : Stays z s) (a : Nat) (v : W32) (acc : State → Nat → W32 → State) (hacc : ∀ t0 a1 a2, Stays z t0 → Stays z (acc t0 a1 a2)) :
  StaysO z (State.awlWrite s a v acc) := by
  unfold State.awlWrite
  repeat' with_reducible (first | intro _ | assumption | apply hacc | apply State.awlTriggers_stays | apply State.putBit_stays | apply State.withAwlSpent_stays | apply Stays.ite | apply StaysP.ite | apply StaysO.ite | apply StaysOP.ite | apply StaysO.some | apply StaysO.none | apply StaysOP.some | apply StaysOP.none | apply StaysO.getD | apply StaysO.or | apply StaysOP.or | split | dsimp only [StaysP])

theorem State.weltRetry_stays {z s : State} (h : Stays z s) (b : Nat) (n : Nat) :
  Stays z (State.weltRetry s b n) := by
  unfold State.weltRetry
  repeat' with_reducible (first | assumption | apply State.advSat_stays | apply Stays.ite)

theorem State.takeReport_stays {z s : State} (h : Stays z s) (x : HeelReport) :
  Stays z (State.takeReport s x) := by
  unfold State.takeReport
  repeat' with_reducible (first | intro _ | assumption | apply State.faultOrRetry_stays | apply State.permanent_stays | apply State.logTransient_stays | apply State.event_stays | apply State.logRec_stays | apply Stays.ite | apply StaysP.ite | split | dsimp only [StaysP])

theorem State.heelReport_stays {z s : State} (h : Stays z s) (how : ReportAs) (r : Rec) :
  Stays z (State.heelReport s how r) := by
  unfold State.heelReport
  repeat' with_reducible (first | assumption | apply State.takeReport_stays | apply State.withSup_stays | apply Stays.ite | split | dsimp only)

theorem State.bodyReport_stays {z s : State} (h : Stays z s) (u : BitVec 16) (k : Nat) :
  Stays z (State.bodyReport s u k) := by
  unfold State.bodyReport
  repeat' with_reducible (first | assumption | apply State.heelReport_stays | apply Stays.ite | split | dsimp only)

theorem State.monitorEvent_stays {z s : State} (h : Stays z s) (kind : Nat) (code : Nat) :
  Stays z (State.monitorEvent s kind code) := by
  unfold State.monitorEvent
  repeat' with_reducible (first | assumption | apply State.heelReport_stays | apply State.event_stays | apply Stays.ite | split | dsimp only)

theorem State.flushReports_stays {z s : State} (h : Stays z s)  :
  Stays z (State.flushReports s) := by
  unfold State.flushReports
  repeat' with_reducible (first | intro _ | assumption | apply State.takeReport_stays | apply State.withSup_stays | apply foldl_stays | apply Stays.ite | apply foldl_stays | split | dsimp only)

theorem State.stampLate_stays {z s : State} (h : Stays z s)  :
  Stays z (State.stampLate s) := by
  unfold State.stampLate
  repeat' with_reducible (first | intro _ | assumption | apply State.flushReports_stays | apply State.withSup_stays | apply Stays.ite | apply StaysP.ite | split | dsimp only [StaysP])

theorem State.refclkLoss_stays {z s : State} (h : Stays z s)  :
  Stays z (State.refclkLoss s) := by
  unfold State.refclkLoss
  repeat' with_reducible (first | assumption | apply State.monitorEvent_stays | apply State.putBit_stays | apply State.withTb_stays | apply Stays.ite | split | dsimp only)

theorem State.sumPut_stays {z s : State} (h : Stays z s) (b : Nat) (v : Bool) :
  Stays z (State.sumPut s b v) := by
  unfold State.sumPut
  repeat' with_reducible (first | assumption | apply State.putLine_stays | apply State.putByte_stays | apply Stays.ite)

theorem State.sumInit_stays {z s : State} (h : Stays z s)  :
  Stays z (State.sumInit s) := by
  unfold State.sumInit
  repeat' with_reducible (first | assumption | apply State.putWord_stays | apply State.clearMem_stays | apply Stays.ite)

theorem State.sumReady_stays {z s : State} (h : Stays z s)  :
  Stays z (State.sumReady s) := by
  unfold State.sumReady
  repeat' with_reducible (first | assumption | apply State.sumInit_stays | apply Stays.ite | split | dsimp only)

theorem State.sumCause_stays {z s : State} (h : Stays z s) (u : BitVec 16) (c : Nat) :
  Stays z (State.sumCause s u c) := by
  unfold State.sumCause
  repeat' with_reducible (first | assumption | apply State.putLine_stays | apply State.putByte_stays | apply Stays.ite | split | dsimp only)

theorem State.sumWrite_stays {z s : State} (h : Stays z s) (x : SumUpd) :
  Stays z (State.sumWrite s x) := by
  unfold State.sumWrite
  repeat' with_reducible (first | assumption | apply State.sumCause_stays | apply State.sumPut_stays | apply State.putWords_stays | apply State.putWord_stays | apply State.putLine_stays | apply State.putByte_stays | apply Stays.ite | split | dsimp only)

theorem State.sumAhead_stays {z s : State} (h : Stays z s)  :
  Stays z (State.sumAhead s) := by
  unfold State.sumAhead
  repeat' with_reducible (first | intro _ | assumption | apply State.sumWrite_stays | apply foldl_stays | apply Stays.ite | apply foldl_stays | split | dsimp only)

theorem State.loadRetired_stays {z s : State} (h : Stays z s) (us : List (BitVec 16)) :
  Stays z (State.loadRetired s us) := by
  unfold State.loadRetired
  repeat' with_reducible (first | intro _ | assumption | apply State.sumAhead_stays | apply State.withFlt_stays | apply foldl_stays | apply Stays.ite | apply foldl_stays | split | dsimp only)

theorem State.heelUnitAdmit_stays {z s : State} (h : Stays z s) (u : BitVec 16) :
  Stays z (State.heelUnitAdmit s u) := by
  unfold State.heelUnitAdmit
  repeat' with_reducible (first | assumption | apply State.mbcSetInit_stays | apply State.stageAdmit_stays | apply Stays.ite | split | dsimp only)

theorem State.heelBack_stays {z s : State} (h : Stays z s) (was : List (BitVec 16)) :
  Stays z (State.heelBack s was) := by
  unfold State.heelBack
  repeat' with_reducible (first | intro _ | assumption | apply State.heelUnitAdmit_stays | apply foldl_stays | apply Stays.ite | apply foldl_stays | split | dsimp only)

theorem State.loadSpares_stays {z s : State} (h : Stays z s) (d : Nat) :
  Stays z (State.loadSpares s d) := by
  unfold State.loadSpares
  repeat' with_reducible (first | intro _ | assumption | apply State.sumAhead_stays | apply State.each_stays | apply State.withEng_stays | apply Stays.ite | split | dsimp only)

theorem State.loadLanes_stays {z s : State} (h : Stays z s) (d : Nat) :
  Stays z (State.loadLanes s d) := by
  unfold State.loadLanes
  repeat' with_reducible (first | intro _ | assumption | apply State.sumAhead_stays | apply State.withFlt_stays | apply Stays.ite | split | dsimp only)

theorem State.sumFlush_stays {z s : State} (h : Stays z s)  :
  Stays z (State.sumFlush s) := by
  unfold State.sumFlush
  repeat' with_reducible (first | intro _ | assumption | apply State.sumWrite_stays | apply State.withFlt_stays | apply State.putBit_stays | apply Stays.ite | dsimp only | split | apply foldl_stays)

theorem State.setRail_stays {z s : State} (h : Stays z s) (r : Rail) (b : Bool) :
  Stays z (State.setRail s r b) := by
  unfold State.setRail
  repeat' with_reducible (first | assumption | apply State.withSup_stays | apply Stays.ite)

theorem State.supplyEvent_stays {z s : State} (h : Stays z s) (g : Nat) :
  Stays z (State.supplyEvent s g) := by
  unfold State.supplyEvent
  repeat' with_reducible (first | assumption | apply State.monitorEvent_stays | apply State.putBit_stays | apply Stays.ite | split | dsimp only)

theorem State.setAnyState_stays {z s : State} (h : Stays z s) (x : Nat) (c : Nat) :
  Stays z (State.setAnyState s x c) := by
  unfold State.setAnyState
  repeat' with_reducible (first | assumption | apply State.setDieState_stays | apply State.setLarderState_stays | apply Stays.ite)

theorem State.setInh_stays {z s : State} (h : Stays z s) (b : Bool) :
  Stays z (State.setInh s b) := by
  unfold State.setInh
  repeat' with_reducible (first | assumption | apply State.putBit_stays | apply Stays.ite)

theorem State.setPower_stays {z s : State} (h : Stays z s) (c : Nat) :
  Stays z (State.setPower s c) := by
  unfold State.setPower
  repeat' with_reducible (first | assumption | apply State.setFld_stays | apply Stays.ite)

theorem State.setAgree_stays {z s : State} (h : Stays z s) (d : Nat) (c : Nat) :
  Stays z (State.setAgree s d c) := by
  unfold State.setAgree
  repeat' with_reducible (first | assumption | apply State.setFld_stays | apply Stays.ite)

theorem State.diesOff_stays {z s0 : State} (h : Stays z s0)  :
  Stays z (State.diesOff s0) := by
  unfold State.diesOff
  repeat' with_reducible (first | intro _ | assumption | apply State.setAgree_stays | apply State.setAnyState_stays | apply State.larderOff_stays | apply State.dieOff_stays | apply State.setEn_stays | apply State.stopDie_stays | apply State.syncLive_stays | apply State.revokeHolds_stays | apply State.each_stays | apply State.withBoot_stays | apply State.withSup_stays | apply State.wr_stays | apply Stays.ite | split | dsimp only)

theorem State.autumnEntry_stays {z s : State} (h : Stays z s)  :
  Stays z (State.autumnEntry s) := by
  unfold State.autumnEntry
  repeat' with_reducible (first | assumption | apply State.diesOff_stays | apply State.setPower_stays | apply Stays.ite | split | dsimp only)

theorem State.autumnDone_stays {z s : State} (h : Stays z s)  :
  Stays z (State.autumnDone s) := by
  unfold State.autumnDone
  repeat' with_reducible (first | assumption | apply State.setPower_stays | apply Stays.ite | split | dsimp only)

theorem State.noteForced_stays {z s : State} (h : Stays z s) (bit : Nat) :
  Stays z (State.noteForced s bit) := by
  unfold State.noteForced
  repeat' with_reducible (first | assumption | apply State.withSup_stays | apply Stays.ite | split | dsimp only)

theorem State.forceAutumn_stays {z s : State} (h : Stays z s) (bit : Nat) (u : BitVec 16) :
  Stays z (State.forceAutumn s bit u) := by
  unfold State.forceAutumn
  repeat' with_reducible (first | assumption | apply State.noteForced_stays | apply State.autumnEntry_stays | apply State.event_stays | apply State.advSat_stays | apply State.putBit_stays | apply Stays.ite | split | dsimp only)

theorem State.checkBegin_stays {z s : State} (h : Stays z s)  :
  Stays z (State.checkBegin s) := by
  unfold State.checkBegin
  repeat' with_reducible (first | assumption | apply State.setFld_stays | apply State.withSup_stays | apply Stays.ite | split | dsimp only)

theorem State.thawBegin_stays {z s : State} (h : Stays z s)  :
  Stays z (State.thawBegin s) := by
  unfold State.thawBegin
  repeat' with_reducible (first | intro _ | assumption | apply State.checkBegin_stays | apply State.setInh_stays | apply State.setKeep_stays | apply State.each_stays | apply State.withSup_stays | apply Stays.ite | split | dsimp only)

theorem State.wake_stays {z s : State} (h : Stays z s) (b : Nat) (detail : W32) (mbf : Option Nat) :
  Stays z (State.wake s b detail mbf) := by
  unfold State.wake
  repeat' with_reducible (first | assumption | apply State.putBit_stays | apply State.wr_stays | apply State.withSup_stays | apply State.thawBegin_stays | apply Stays.ite | dsimp only | split)

theorem State.appendWake_stays {z s : State} (h : Stays z s)  :
  Stays z (State.appendWake s) := by
  unfold State.appendWake
  repeat' with_reducible (first | assumption | apply State.putWords_stays | apply State.advWrap_stays | apply Stays.ite | split | dsimp only)

theorem State.dbgRecord_stays {z s : State} (h : Stays z s) (kind : Nat) (rtc : BitVec 48) :
  Stays z (State.dbgRecord s kind rtc) := by
  unfold State.dbgRecord
  repeat' with_reducible (first | assumption | apply State.putWords_stays | apply State.putWord_stays | apply Stays.ite | split | dsimp only)

theorem State.attachCount_stays {z s : State} (h : Stays z s)  :
  Stays z (State.attachCount s) := by
  unfold State.attachCount
  repeat' with_reducible (first | assumption | apply State.putWord_stays | apply Stays.ite)

theorem State.wakeDbgRecord_stays {z s : State} (h : Stays z s)  :
  Stays z (State.wakeDbgRecord s) := by
  unfold State.wakeDbgRecord
  repeat' with_reducible (first | assumption | apply State.dbgRecord_stays | apply Stays.ite)

theorem State.saveBlock_stays {z s : State} (h : Stays z s)  :
  Stays z (State.saveBlock s) := by
  unfold State.saveBlock
  repeat' with_reducible (first | intro _ | assumption | apply State.putWord_stays | apply State.clearMem_stays | apply Stays.ite | dsimp only | split | apply foldl_stays)

theorem State.loadAon_stays {z s : State} (h : Stays z s)  :
  Stays z (State.loadAon s) := by
  unfold State.loadAon
  repeat' with_reducible (first | assumption | apply State.withSup_stays | apply Stays.ite)

theorem State.restore_stays {z s : State} (h : Stays z s)  :
  Stays z (State.restore s) := by
  unfold State.restore
  repeat' with_reducible (first | intro _ | assumption | apply State.wr_stays | apply Stays.ite | dsimp only | split | apply foldl_stays)

theorem State.unkeep_stays {z s : State} (h : Stays z s)  :
  Stays z (State.unkeep s) := by
  unfold State.unkeep
  repeat' with_reducible (first | intro _ | assumption | apply State.wr_stays | apply State.withSup_stays | apply Stays.ite | dsimp only | split | apply foldl_stays)

theorem State.insoleCorrect_stays {z s : State} (h : Stays z s)  :
  Stays z (State.insoleCorrect s) := by
  unfold State.insoleCorrect
  repeat' with_reducible (first | intro _ | assumption | apply State.readInsole_stays | apply State.each_stays | apply Stays.ite | apply StaysP.ite | split | dsimp only [StaysP])

theorem State.insoleReinit_stays {z s : State} (h : Stays z s)  :
  Stays z (State.insoleReinit s) := by
  unfold State.insoleReinit
  repeat' with_reducible (first | assumption | apply State.putBit_stays | apply State.clearMem_stays | apply Stays.ite)

theorem State.heelUnitsReset_stays {z s : State} (h : Stays z s)  :
  Stays z (State.heelUnitsReset s) := by
  unfold State.heelUnitsReset
  repeat' with_reducible (first | assumption | apply State.dropNet_stays | apply State.xcvStandby_stays | apply State.outsReset_stays | apply State.withIo_stays | apply State.clearMem_stays | apply Stays.ite | split | dsimp only)

theorem State.pinsFrom_stays {z s : State} (h : Stays z s) (s0 : State) :
  Stays z (State.pinsFrom s s0) := by
  unfold State.pinsFrom
  repeat' with_reducible (first | assumption | apply State.wr_stays | apply Stays.ite | split | dsimp only)

theorem State.soleUnitsReset_stays {z s : State} (h : Stays z s)  :
  Stays z (State.soleUnitsReset s) := by
  unfold State.soleUnitsReset
  repeat' with_reducible (first | intro _ | assumption | apply State.dropNet_stays | apply State.freeBuf_stays | apply State.withLace_stays | apply State.withEng_stays | apply foldl_stays | apply Stays.ite | apply foldl_stays | split | dsimp only)

theorem State.heelReset_stays {z s0 : State} (h : Stays z s0) (alone : Bool) :
  Stays z (State.heelReset s0 alone) := by
  unfold State.heelReset
  repeat' with_reducible (first | intro _ | assumption | apply State.keepCores_stays (ht := rfl) | apply State.keepHolds_stays (ht := rfl) | apply State.pinsFrom_stays | apply State.heelUnitsReset_stays | apply State.unkeep_stays | apply State.syncLive_stays | apply State.revokeHolds_stays | apply State.withBoot_stays | apply State.withSup_stays | apply State.withTb_stays | apply State.resetRegs_stays | apply State.wr_stays | apply Stays.ite | split | dsimp only)

theorem State.soleReset_stays {z sa : State} (h : Stays z sa) (keepHost : Bool) :
  Stays z (State.soleReset sa keepHost) := by
  unfold State.soleReset
  repeat' with_reducible (first | intro _ | assumption | apply State.keepCores_stays (ht := rfl) | apply State.keepHolds_stays (ht := rfl) | apply State.soleUnitsReset_stays | apply State.sumFlush_stays | apply State.revokeHolds_stays | apply State.putBit_stays | apply State.withFlt_stays | apply State.withBoot_stays | apply State.withSup_stays | apply State.withTb_stays | apply State.resetRegs_stays | apply State.wr_stays | apply foldl_stays | apply Stays.ite | apply StaysP.ite | apply foldl_stays | apply foldlP_stays | split | dsimp only [StaysP])

theorem State.systemReset_stays {z s : State} (h : Stays z s) (cause : Nat) :
  Stays z (State.systemReset s cause) := by
  unfold State.systemReset
  repeat' with_reducible (first | assumption | apply State.soleReset_stays | apply State.heelReset_stays | apply State.checkBegin_stays | apply State.diesOff_stays | apply State.setInh_stays | apply State.keepsOff_stays | apply State.putBit_stays | apply State.withSup_stays | apply State.wr_stays | apply Stays.ite | split | dsimp only)

theorem State.soleOnlyReset_stays {z s : State} (h : Stays z s) (cause : Nat) (keepHost : Bool) :
  Stays z (State.soleOnlyReset s cause keepHost) := by
  unfold State.soleOnlyReset
  repeat' with_reducible (first | assumption | apply State.soleReset_stays | apply State.diesOff_stays | apply State.setPower_stays | apply State.putBit_stays | apply State.withSup_stays | apply Stays.ite | split | dsimp only)

theorem State.dropProducers_stays {z s : State} (h : Stays z s) (c : Nat) :
  Stays z (State.dropProducers s c) := by
  unfold State.dropProducers
  repeat' with_reducible (first | assumption | apply State.eachCore_stays | apply Stays.ite)

theorem State.dieReset_stays {z s0 : State} (h : Stays z s0) (d : Nat) :
  Stays z (State.dieReset s0 d) := by
  unfold State.dieReset
  repeat' with_reducible (first | assumption | apply State.dropProducers_stays | apply State.setAgree_stays | apply State.dieRegsReset_stays | apply State.setEn_stays | apply State.stopDie_stays | apply State.syncLive_stays | apply State.revokeHolds_stays | apply State.setDieState_stays | apply State.putBit_stays | apply State.withBoot_stays | apply State.withSup_stays | apply Stays.ite | split | dsimp only)

theorem State.withSwi_stays {z s : State} (h : Stays z s) (x : Swi) :
  Stays z (State.withSwi s x) := by
  unfold State.withSwi
  repeat' with_reducible (first | assumption | apply State.withIo_stays | apply Stays.ite)

theorem State.swArm_stays {z s : State} (h : Stays z s)  :
  Stays z (State.swArm s) := by
  unfold State.swArm
  repeat' with_reducible (first | intro _ | assumption | apply State.withSwi_stays | apply State.putBit_stays | apply State.each_stays | apply State.wr_stays | apply Stays.ite | split | dsimp only)

theorem State.armDetectors_stays {z s : State} (h : Stays z s)  :
  Stays z (State.armDetectors s) := by
  unfold State.armDetectors
  repeat' with_reducible (first | assumption | apply State.xcvArm_stays | apply State.swArm_stays | apply Stays.ite)

theorem State.winterCommit_stays {z s : State} (h : Stays z s)  :
  Stays z (State.winterCommit s) := by
  unfold State.winterCommit
  repeat' with_reducible (first | assumption | apply State.autumnEntry_stays | apply State.setPower_stays | apply State.soleReset_stays | apply State.withSup_stays | apply State.armDetectors_stays | apply State.wr_stays | apply Stays.ite)

theorem State.winterEnd_stays {z s : State} (h : Stays z s)  :
  Stays z (State.winterEnd s) := by
  unfold State.winterEnd
  repeat' with_reducible (first | assumption | apply State.withSup_stays | apply State.setFld_stays | apply State.putBit_stays | apply State.winterCommit_stays | apply Stays.ite)

theorem State.winterRequest_stays {z s : State} (h : Stays z s)  :
  StaysP z (State.winterRequest s) := by
  unfold State.winterRequest
  repeat' with_reducible (first | intro _ | assumption | apply State.winterEnd_stays | apply State.putBit_stays | apply State.setFld_stays | apply State.withSup_stays | apply Stays.ite | apply StaysP.ite | split | dsimp only [StaysP])

theorem State.winterWrite_stays {z s : State} (h : Stays z s) (v : W32) :
  Stays z (State.winterWrite s v) := by
  unfold State.winterWrite
  repeat' with_reducible (first | assumption | apply State.withSup_stays | apply State.putBit_stays | apply State.winterRequest_stays | apply Stays.ite | dsimp only | split)

theorem State.rstWrite_stays {z s : State} (h : Stays z s) (v : W32) :
  Stays z (State.rstWrite s v) := by
  unfold State.rstWrite
  repeat' with_reducible (first | assumption | apply State.withSup_stays | apply State.systemReset_stays | apply State.soleOnlyReset_stays | apply State.dieReset_stays | apply Stays.ite | dsimp only | split)

theorem State.wdogExpire_stays {z s : State} (h : Stays z s) (n : Nat) :
  Stays z (State.wdogExpire s n) := by
  unfold State.wdogExpire
  repeat' with_reducible (first | assumption | apply State.heelReset_stays | apply State.putBit_stays | apply State.soleOnlyReset_stays | apply Stays.ite)

theorem State.wdogRestart_stays {z s : State} (h : Stays z s) (n : Nat) :
  Stays z (State.wdogRestart s n) := by
  unfold State.wdogRestart
  repeat' with_reducible (first | assumption | apply State.withSup_stays | apply Stays.ite)

theorem State.wdogHold_stays {z s : State} (h : Stays z s) (was : State) :
  Stays z (State.wdogHold s was) := by
  unfold State.wdogHold
  repeat' with_reducible (first | assumption | apply State.withSup_stays | apply Stays.ite)

theorem State.keepOn_stays {z s : State} (h : Stays z s)  :
  Stays z (State.keepOn s) := by
  unfold State.keepOn
  repeat' with_reducible (first | intro _ | assumption | apply State.setKeep_stays | apply State.each_stays | apply Stays.ite | split | dsimp only)

theorem State.heelUnitsRelease_stays {z s : State} (h : Stays z s)  :
  Stays z (State.heelUnitsRelease s) := by
  unfold State.heelUnitsRelease
  repeat' with_reducible (first | assumption | apply State.xcvStandby_stays | apply State.withOuts_stays | apply State.withIo_stays | apply Stays.ite | split | dsimp only)

theorem State.heelRelease_stays {z s0 : State} (h : Stays z s0)  :
  Stays z (State.heelRelease s0) := by
  unfold State.heelRelease
  repeat' with_reducible (first | assumption | apply State.heelUnitsRelease_stays | apply State.restore_stays | apply State.sumFlush_stays | apply State.loadRetired_stays | apply State.sumReady_stays | apply State.refclkLoss_stays | apply State.syncLive_stays | apply State.withBoot_stays | apply State.withSup_stays | apply State.wr_stays | apply Stays.ite | split | dsimp only)

theorem State.soleUnitsRelease_stays {z s : State} (h : Stays z s)  :
  Stays z (State.soleUnitsRelease s) := by
  unfold State.soleUnitsRelease
  repeat' with_reducible (first | assumption | apply State.clearMem_stays | apply State.withScrubPos_stays | apply State.setFld_stays | apply State.putBit_stays | apply Stays.ite)

theorem State.soleRelease_stays {z s0 : State} (h : Stays z s0)  :
  Stays z (State.soleRelease s0) := by
  unfold State.soleRelease
  repeat' with_reducible (first | intro _ | assumption | apply State.soleUnitsRelease_stays | apply State.wakeDbgRecord_stays | apply State.appendWake_stays | apply State.setPower_stays | apply State.setAnyState_stays | apply State.heelBack_stays | apply State.loadRetired_stays | apply State.sumReady_stays | apply State.flushReports_stays | apply State.syncLive_stays | apply State.putBit_stays | apply State.each_stays | apply State.withFlt_stays | apply State.withBoot_stays | apply State.withSup_stays | apply State.withTb_stays | apply State.setCore_stays | apply State.clearMem_stays | apply State.wr_stays | apply Stays.ite | split | dsimp only)

theorem State.dieUnitsRelease_stays {z s : State} (h : Stays z s) (d : Nat) :
  Stays z (State.dieUnitsRelease s d) := by
  unfold State.dieUnitsRelease
  repeat' with_reducible (first | assumption | apply State.loadLanes_stays | apply State.loadSpares_stays | apply Stays.ite)

theorem State.dieRelease_stays {z s0 : State} (h : Stays z s0) (x : Nat) :
  Stays z (State.dieRelease s0 x) := by
  unfold State.dieRelease
  repeat' with_reducible (first | assumption | apply State.keepCores_stays (ht := rfl) | apply State.keepHolds_stays (ht := rfl) | apply State.dieUnitsRelease_stays | apply State.setAnyState_stays | apply State.loadRetired_stays | apply State.sumReady_stays | apply State.syncLive_stays | apply State.withScrubPos_stays | apply State.withSup_stays | apply Stays.ite | split | dsimp only)

theorem State.summerCheck_stays {z s : State} (h : Stays z s)  :
  Stays z (State.summerCheck s) := by
  unfold State.summerCheck
  repeat' with_reducible (first | assumption | apply State.setPower_stays | apply Stays.ite)

theorem State.gateCheck_stays {z s : State} (h : Stays z s) (g : Nat) :
  Stays z (State.gateCheck s g) := by
  unfold State.gateCheck
  repeat' with_reducible (first | assumption | apply State.putBit_stays | apply Stays.ite)

theorem State.withDbg_stays {z s : State} (h : Stays z s) (x : Dbg) :
  Stays z (State.withDbg s x) := by
  unfold State.withDbg
  repeat' with_reducible (first | assumption | apply State.withIo_stays | apply Stays.ite)

theorem State.cctlWrite_stays {z s : State} (h : Stays z s) (v : W32) :
  Stays z (State.cctlWrite s v) := by
  unfold State.cctlWrite
  repeat' with_reducible (first | assumption | apply State.onCore_stays | apply Stays.ite | dsimp only | split)

theorem State.cregAccess_stays {z s0 : State} (h : Stays z s0) (v : W32) :
  Stays z (State.cregAccess s0 v) := by
  unfold State.cregAccess
  repeat' with_reducible (first | assumption | apply State.wr_stays | apply State.wr2_stays | apply State.putBit_stays | apply State.onCore_stays | apply Stays.ite | dsimp only | split)

theorem State.dbgWrite_stays {z s : State} (h : Stays z s) (a : Nat) (v : W32) (acc : State → Nat → W32 → State) (hacc : ∀ (t0 : State) (t1 : Nat) (t2 : W32), Stays z t0 → Stays z (acc t0 t1 t2)) :
  Stays z (State.dbgWrite s a v acc) := by
  unfold State.dbgWrite
  repeat' with_reducible (first | assumption | apply hacc | apply State.cctlWrite_stays | apply State.cregAccess_stays | apply Stays.ite)

theorem State.traceWrite_stays {z s : State} (h : Stays z s) (a : Nat) (v : W32) (acc : State → Nat → W32 → State) (hacc : ∀ (t0 : State) (t1 : Nat) (t2 : W32), Stays z t0 → Stays z (acc t0 t1 t2)) :
  Stays z (State.traceWrite s a v acc) := by
  unfold State.traceWrite
  repeat' with_reducible (first | assumption | apply hacc | apply State.putBit_stays | apply Stays.ite)

theorem State.traceStore_stays {z s : State} (h : Stays z s) (r : List Byte) :
  Stays z (State.traceStore s r) := by
  unfold State.traceStore
  repeat' with_reducible (first | assumption | apply State.advSat_stays | apply State.setFld_stays | apply State.putBytes_stays | apply State.putBit_stays | apply Stays.ite)

theorem State.lanesSend_stays {z s : State} (h : Stays z s) (n : Nat) (ss : List Sym) :
  Stays z (State.lanesSend s n ss) := by
  unfold State.lanesSend
  repeat' with_reducible (first | intro _ | assumption | apply State.onLink_stays | apply Stays.ite | split | dsimp only)

theorem State.rxGroup_stays {z s : State} (h : Stays z s) (n : Nat) (l : Nat) (g : BitVec 10) :
  Stays z (State.rxGroup s n l g) := by
  unfold State.rxGroup
  repeat' with_reducible (first | intro _ | assumption | apply State.onLink_stays | apply State.advSat_stays | apply Stays.ite | split | dsimp only)

theorem State.rxGroups_stays {z s : State} (h : Stays z s) (n : Nat) (l : Nat) (gs : List (BitVec 10)) :
  Stays z (State.rxGroups s n l gs) := by
  unfold State.rxGroups
  repeat' with_reducible (first | intro _ | assumption | apply State.rxGroup_stays | apply foldl_stays | apply Stays.ite | apply foldl_stays | split | dsimp only)

theorem State.rxLanes_stays {z s : State} (h : Stays z s) (n : Nat) (rx : List (List (BitVec 10))) :
  Stays z (State.rxLanes s n rx) := by
  unfold State.rxLanes
  repeat' with_reducible (first | intro _ | assumption | apply State.rxGroups_stays | apply foldl_stays | apply Stays.ite | apply StaysP.ite | apply foldl_stays | apply foldlP_stays | split | dsimp only [StaysP])

theorem State.laceTransient_stays {z s : State} (h : Stays z s) (n : Nat) (sub : Nat) (retries : Nat) :
  Stays z (State.laceTransient s n sub retries) := by
  unfold State.laceTransient
  repeat' with_reducible (first | assumption | apply State.logTransient_stays | apply Stays.ite)

theorem State.laneDark_stays {z s : State} (h : Stays z s) (n : Nat) (i : Nat) :
  Stays z (State.laneDark s n i) := by
  unfold State.laneDark
  repeat' with_reducible (first | assumption | apply State.putBit_stays | apply State.setFld_stays | apply Stays.ite | split | dsimp only)

theorem State.retireLane_stays {z s : State} (h : Stays z s) (n : Nat) (i : Nat) (retries : Nat) :
  Stays z (State.retireLane s n i retries) := by
  unfold State.retireLane
  repeat' with_reducible (first | assumption | apply State.laneDark_stays | apply State.queueSummary_stays | apply State.permEvent_stays | apply State.logRec_stays | apply State.setFld_stays | apply State.withFlt_stays | apply Stays.ite | split | dsimp only)

theorem State.retireLink_stays {z s : State} (h : Stays z s) (n : Nat) (cause : Nat) :
  Stays z (State.retireLink s n cause) := by
  unfold State.retireLink
  repeat' with_reducible (first | assumption | apply State.setFld_stays | apply State.retireWith_stays | apply Stays.ite)

theorem State.setRate_stays {z s : State} (h : Stays z s) (n : Nat) (c : Nat) :
  Stays z (State.setRate s n c) := by
  unfold State.setRate
  repeat' with_reducible (first | assumption | apply State.setFld_stays | apply Stays.ite)

theorem State.sendTs_stays {z s : State} (h : Stays z s) (n : Nat) (ts2 : Bool) (i : Nat) :
  Stays z (State.sendTs s n ts2 i) := by
  unfold State.sendTs
  repeat' with_reducible (first | intro _ | assumption | apply State.onLink_stays | apply Stays.ite | split | dsimp only)

theorem State.trainStart_stays {z s : State} (h : Stays z s) (n : Nat) (mask : Nat) :
  Stays z (State.trainStart s n mask) := by
  unfold State.trainStart
  repeat' with_reducible (first | intro _ | assumption | apply State.sendTs_stays | apply State.setRate_stays | apply State.lanesOff_stays | apply State.setLaneSt_stays | apply State.onLink_stays | apply State.wr_stays | apply foldl_stays | apply Stays.ite | apply foldl_stays | split | dsimp only)

theorem State.attempt_stays {z s : State} (h : Stays z s) (n : Nat) (b : Nat) :
  Stays z (State.attempt s n b) := by
  unfold State.attempt
  repeat' with_reducible (first | intro _ | assumption | apply State.sendTs_stays | apply State.setRate_stays | apply State.setLaneSt_stays | apply State.onLink_stays | apply foldl_stays | apply Stays.ite | apply foldl_stays | split | dsimp only)

theorem State.trainLost_stays {z s : State} (h : Stays z s) (n : Nat) (cause : Nat) :
  Stays z (State.trainLost s n cause) := by
  unfold State.trainLost
  repeat' with_reducible (first | assumption | apply State.onLink_stays | apply State.linkDown_stays | apply State.retireLink_stays | apply State.syncLive_stays | apply Stays.ite)

theorem State.lanesFail_stays {z s : State} (h : Stays z s) (n : Nat) (ls : List Nat) :
  Stays z (State.lanesFail s n ls) := by
  unfold State.lanesFail
  repeat' with_reducible (first | intro _ | assumption | apply State.putBit_stays | apply State.setLaneSt_stays | apply State.onLink_stays | apply State.retireLane_stays | apply State.laceTransient_stays | apply Stays.ite | dsimp only | split | apply foldl_stays)

theorem State.setCtle_stays {z s : State} (h : Stays z s) (n : Nat) (i : Nat) (c : Nat) :
  Stays z (State.setCtle s n i c) := by
  unfold State.setCtle
  repeat' with_reducible (first | assumption | apply State.withLace_stays | apply Stays.ite | split | dsimp only)

theorem State.adapt_stays {z s : State} (h : Stays z s) (n : Nat) (i : Nat) :
  Stays z (State.adapt s n i) := by
  unfold State.adapt
  repeat' with_reducible (first | assumption | apply State.setCtle_stays | apply State.drawn_stays | apply State.wr_stays | apply Stays.ite | split | dsimp only)

theorem State.dfeRun_stays {z s : State} (h : Stays z s) (n : Nat) (i : Nat) :
  Stays z (State.dfeRun s n i) := by
  unfold State.dfeRun
  repeat' with_reducible (first | intro _ | assumption | apply State.onLink_stays | apply State.drawn_stays | apply State.wr_stays | apply foldl_stays | apply Stays.ite | apply foldl_stays | split | dsimp only)

theorem State.lanesActive_stays {z s : State} (h : Stays z s) (n : Nat) (ls : List Nat) :
  Stays z (State.lanesActive s n ls) := by
  unfold State.lanesActive
  repeat' with_reducible (first | intro _ | assumption | apply State.trainLost_stays | apply State.setLaneSt_stays | apply State.onLink_stays | apply State.putBit_stays | apply State.setFld_stays | apply foldl_stays | apply Stays.ite | apply foldl_stays | split | dsimp only)

theorem State.negotiated_stays {z s : State} (h : Stays z s) (n : Nat) (ls : List Nat) :
  Stays z (State.negotiated s n ls) := by
  unfold State.negotiated
  repeat' with_reducible (first | intro _ | assumption | apply State.lanesFail_stays | apply State.trainLost_stays | apply State.putBit_stays | apply State.setLaneSt_stays | apply State.onLink_stays | apply State.setFld_stays | apply State.attempt_stays | apply Stays.ite | dsimp only | split | apply foldl_stays)

theorem State.attemptOver_stays {z s : State} (h : Stays z s) (n : Nat) (ls : List Nat) :
  Stays z (State.attemptOver s n ls) := by
  unfold State.attemptOver
  repeat' with_reducible (first | assumption | apply State.lanesActive_stays | apply State.attempt_stays | apply State.lanesFail_stays | apply State.trainLost_stays | apply Stays.ite | dsimp only | split)

theorem State.linkHolds_stays {z s : State} (h : Stays z s) (l : Nat) :
  Stays z (State.linkHolds s l) := by
  unfold State.linkHolds
  repeat' with_reducible (first | intro _ | assumption | apply State.onLink_stays | apply Stays.ite | split | dsimp only)

theorem State.sendMgmt_stays {z s : State} (h : Stays z s) (n : Nat) (what : LWhat) :
  Stays z (State.sendMgmt s n what) := by
  unfold State.sendMgmt
  repeat' with_reducible (first | intro _ | assumption | apply State.linkHolds_stays | apply State.onLink_stays | apply Stays.ite | split | dsimp only)

theorem State.pumpMgmt_stays {z s : State} (h : Stays z s) (n : Nat) (x3 : Nat) :
  Stays z (State.pumpMgmt s n x3) := by
  induction x3 generalizing s n with
  | zero =>
    unfold State.pumpMgmt
    repeat' with_reducible (first | intro _ | assumption | apply ih | apply State.linkHolds_stays | apply State.onLink_stays | apply Stays.ite | split | dsimp only)
  | succ n ih =>
    unfold State.pumpMgmt
    repeat' with_reducible (first | intro _ | assumption | apply ih | apply State.linkHolds_stays | apply State.onLink_stays | apply Stays.ite | split | dsimp only)

theorem State.linkRetrain_stays {z s : State} (h : Stays z s) (n : Nat) :
  Stays z (State.linkRetrain s n) := by
  unfold State.linkRetrain
  repeat' with_reducible (first | assumption | apply State.retireLink_stays | apply State.onLink_stays | apply State.advSat_stays | apply State.setLinkSt_stays | apply State.trainStart_stays | apply Stays.ite)

theorem State.wantRetrain_stays {z s : State} (h : Stays z s) (n : Nat) :
  Stays z (State.wantRetrain s n) := by
  unfold State.wantRetrain
  repeat' with_reducible (first | intro _ | assumption | apply State.linkRetrain_stays | apply State.sendMgmt_stays | apply State.onLink_stays | apply Stays.ite | apply StaysP.ite | split | dsimp only [StaysP])

theorem State.replayAll_stays {z s : State} (h : Stays z s) (n : Nat) :
  Stays z (State.replayAll s n) := by
  unfold State.replayAll
  repeat' with_reducible (first | intro _ | assumption | apply State.wantRetrain_stays | apply State.laceTransient_stays | apply State.setLink_stays | apply State.advSat_stays | apply foldl_stays | apply Stays.ite | apply foldl_stays | split | dsimp only)

theorem State.resume_stays {z s : State} (h : Stays z s) (n : Nat) :
  Stays z (State.resume s n) := by
  unfold State.resume
  repeat' with_reducible (first | intro _ | assumption | apply State.setLink_stays | apply foldl_stays | apply Stays.ite | apply foldl_stays | split | dsimp only)

theorem State.ackTo_stays {z s : State} (h : Stays z s) (n : Nat) (seq : Nat) :
  Stays z (State.ackTo s n seq) := by
  unfold State.ackTo
  repeat' with_reducible (first | intro _ | assumption | apply State.setLink_stays | apply State.withSigOut_stays | apply State.withNet_stays | apply Stays.ite | split | dsimp only)

theorem State.hdrIn_stays {z s : State} (h : Stays z s) (n : Nat) (ackv : Bool) (nak : Bool) (ackseq : Nat) (cvc : Nat) (credits : Nat) :
  Stays z (State.hdrIn s n ackv nak ackseq cvc credits) := by
  unfold State.hdrIn
  repeat' with_reducible (first | assumption | apply State.ackTo_stays | apply State.onLink_stays | apply State.replayAll_stays | apply Stays.ite)

theorem State.seqIn_stays {z s : State} (h : Stays z s) (n : Nat) (seq : Nat) (good : Bool) :
  StaysP z (State.seqIn s n seq good) := by
  unfold State.seqIn
  repeat' with_reducible (first | intro _ | assumption | apply State.setLink_stays | apply Stays.ite | apply StaysP.ite | split | dsimp only [StaysP])

theorem State.newTag_stays {z s : State} (h : Stays z s) (p : Nat) (x : Nat) :
  StaysP z (State.newTag s p x) := by
  unfold State.newTag
  repeat' with_reducible (first | assumption | apply State.withLace_stays | apply Stays.ite | apply StaysP.ite | dsimp only [StaysP])

theorem State.pumpReq_stays {z s : State} (h : Stays z s) (k : Nat) :
  Stays z (State.pumpReq s k) := by
  unfold State.pumpReq
  repeat' with_reducible (first | intro _ | assumption | apply State.newTag_stays | apply State.linkHolds_stays | apply State.setLink_stays | apply State.withNet_stays | apply Stays.ite | apply StaysP.ite | split | dsimp only [StaysP])

theorem State.pumpSig_stays {z s : State} (h : Stays z s) (k : Nat) :
  Stays z (State.pumpSig s k) := by
  unfold State.pumpSig
  repeat' with_reducible (first | intro _ | assumption | apply State.newTag_stays | apply State.linkHolds_stays | apply State.setLink_stays | apply State.sigOutward_stays | apply State.withSigOut_stays | apply Stays.ite | apply StaysP.ite | split | dsimp only [StaysP])

theorem State.pumpOut_stays {z s : State} (h : Stays z s) (x2 : List LOut) :
  Stays z (State.pumpOut s x2) := by
  induction x2 generalizing s with
  | nil =>
    unfold State.pumpOut
    repeat' with_reducible (first | intro _ | assumption | apply ih | apply State.linkHolds_stays | apply State.bounce_stays | apply State.freeBuf_stays | apply State.onLink_stays | apply State.withLace_stays | apply Stays.ite | split | dsimp only)
  | cons x l ih =>
    unfold State.pumpOut
    repeat' with_reducible (first | intro _ | assumption | apply ih | apply State.linkHolds_stays | apply State.bounce_stays | apply State.freeBuf_stays | apply State.onLink_stays | apply State.withLace_stays | apply Stays.ite | split | dsimp only)

theorem State.ackOut_stays {z s : State} (h : Stays z s) (n : Nat) :
  Stays z (State.ackOut s n) := by
  unfold State.ackOut
  repeat' with_reducible (first | assumption | apply State.linkHolds_stays | apply State.setLink_stays | apply Stays.ite | split | dsimp only)

theorem State.ownSigs_stays {z s : State} (h : Stays z s) (x2 : Nat) :
  Stays z (State.ownSigs s x2) := by
  induction x2 generalizing s with
  | zero =>
    unfold State.ownSigs
    repeat' with_reducible (first | intro _ | assumption | apply ih | apply State.undeliverSig_stays | apply State.addCounter_stays | apply State.withSigOut_stays | apply Stays.ite | split | dsimp only)
  | succ n ih =>
    unfold State.ownSigs
    repeat' with_reducible (first | intro _ | assumption | apply ih | apply State.undeliverSig_stays | apply State.addCounter_stays | apply State.withSigOut_stays | apply Stays.ite | split | dsimp only)

theorem State.lacePump_stays {z s00 : State} (h : Stays z s00)  :
  Stays z (State.lacePump s00) := by
  unfold State.lacePump
  repeat' with_reducible (first | intro _ | assumption | apply State.ownSigs_stays | apply State.ackOut_stays | apply State.pumpOut_stays | apply State.pumpSig_stays | apply State.pumpReq_stays | apply State.pumpMgmt_stays | apply State.undeliverWhere_stays | apply State.withLace_stays | apply State.each_stays | apply Stays.ite | apply StaysP.ite | split | dsimp only [StaysP])

theorem State.tapWrite_stays {z s : State} (h : Stays z s) (n : Nat) (i : Nat) (a : Nat) (v : W32) (acc : State → Nat → W32 → State) (hacc : ∀ (t0 : State) (t1 : Nat) (t2 : W32), Stays z t0 → Stays z (acc t0 t1 t2)) :
  Stays z (State.tapWrite s n i a v acc) := by
  unfold State.tapWrite
  repeat' with_reducible (first | assumption | apply hacc | apply State.setFld_stays | apply State.putBit_stays | apply Stays.ite)

theorem State.testClear_stays {z s : State} (h : Stays z s) (n : Nat) :
  Stays z (State.testClear s n) := by
  unfold State.testClear
  repeat' with_reducible (first | intro _ | assumption | apply State.keepCores_stays (ht := rfl) | apply State.keepHolds_stays (ht := rfl) | apply State.withLace_stays | apply State.setFld_stays | apply State.each_stays | apply State.wr_stays | apply Stays.ite | split | dsimp only)

theorem State.testLanes_stays {z s : State} (h : Stays z s) (n : Nat) (ls : List Nat) :
  Stays z (State.testLanes s n ls) := by
  unfold State.testLanes
  repeat' with_reducible (first | intro _ | assumption | apply State.laneDark_stays | apply State.setLaneSt_stays | apply State.onLink_stays | apply State.putBit_stays | apply State.each_stays | apply Stays.ite | split | dsimp only)

theorem State.testWrite_stays {z s : State} (h : Stays z s) (n : Nat) (a : Nat) (v : W32) (acc : State → Nat → W32 → State) (hacc : ∀ t0 a1 a2, Stays z t0 → Stays z (acc t0 a1 a2)) :
  Stays z (State.testWrite s n a v acc) := by
  unfold State.testWrite
  repeat' with_reducible (first | intro _ | assumption | apply hacc | apply State.testLanes_stays | apply State.testClear_stays | apply State.trainStart_stays | apply State.setRate_stays | apply State.lanesOff_stays | apply State.setLaneSt_stays | apply State.onLink_stays | apply State.putBit_stays | apply foldl_stays | apply Stays.ite | apply foldl_stays | split | dsimp only)

theorem State.lcfgWrite_stays {z s : State} (h : Stays z s) (n : Nat) (a : Nat) (v : W32) (acc : State → Nat → W32 → State) (hacc : ∀ (t0 : State) (t1 : Nat) (t2 : W32), Stays z t0 → Stays z (acc t0 t1 t2)) :
  Stays z (State.lcfgWrite s n a v acc) := by
  unfold State.lcfgWrite
  repeat' with_reducible (first | assumption | apply hacc | apply State.setFld_stays | apply State.setLinkSt_stays | apply State.setLink_stays | apply State.trainStart_stays | apply State.syncLive_stays | apply State.linkDown_stays | apply Stays.ite)

theorem State.linkRetireCmd_stays {z s : State} (h : Stays z s) (n : Nat) :
  Stays z (State.linkRetireCmd s n) := by
  unfold State.linkRetireCmd
  repeat' with_reducible (first | assumption | apply State.setFld_stays | apply State.retireWith_stays | apply Stays.ite)

theorem State.lanesReadmit_stays {z s : State} (h : Stays z s) (n : Nat) :
  Stays z (State.lanesReadmit s n) := by
  unfold State.lanesReadmit
  repeat' with_reducible (first | intro _ | assumption | apply State.onLink_stays | apply State.withFlt_stays | apply State.permEvent_stays | apply State.logRec_stays | apply State.queueSummary_stays | apply Stays.ite | dsimp only | split | apply foldl_stays)

theorem State.admitUnit_stays {z s : State} (h : Stays z s) (u : BitVec 16) (named : BitVec 16) :
  Stays z (State.admitUnit s u named) := by
  unfold State.admitUnit
  repeat' with_reducible (first | assumption | apply State.bankUe_stays | apply State.queueSummary_stays | apply State.permEvent_stays | apply State.seqAdvance_stays | apply State.liveWords_stays | apply State.logRec_stays | apply State.withFlt_stays | apply Stays.ite | split | dsimp only)

theorem State.linkReadmit_stays {z s : State} (h : Stays z s) (n : Nat) :
  Stays z (State.linkReadmit s n) := by
  unfold State.linkReadmit
  repeat' with_reducible (first | assumption | apply State.admitUnit_stays | apply State.lanesReadmit_stays | apply State.lanesOff_stays | apply State.setLinkSt_stays | apply State.setFld_stays | apply Stays.ite | split | dsimp only)

theorem State.linkSwap_stays {z s : State} (h : Stays z s) (n : Nat) :
  Stays z (State.linkSwap s n) := by
  unfold State.linkSwap
  repeat' with_reducible (first | intro _ | assumption | apply State.sendMgmt_stays | apply State.onLink_stays | apply State.putBit_stays | apply State.setFld_stays | apply Stays.ite | split | dsimp only)

theorem State.lctlWrite_stays {z s : State} (h : Stays z s) (n : Nat) (v : W32) :
  Stays z (State.lctlWrite s n v) := by
  unfold State.lctlWrite
  repeat' with_reducible (first | assumption | apply State.wantRetrain_stays | apply State.linkSwap_stays | apply State.linkRetireCmd_stays | apply State.linkReadmit_stays | apply Stays.ite)

theorem State.laceWrite_stays {z s : State} (h : Stays z s) (a : Nat) (v : W32) (acc : State → Nat → W32 → State) (hacc : ∀ t0 a1 a2, Stays z t0 → Stays z (acc t0 a1 a2)) :
  Stays z (State.laceWrite s a v acc) := by
  unfold State.laceWrite
  repeat' with_reducible (first | assumption | apply hacc | apply State.lctlWrite_stays | apply State.lcfgWrite_stays | apply State.testWrite_stays | apply State.tapWrite_stays | apply State.setCtle_stays | apply Stays.ite | split | dsimp only)

theorem State.clusterWrite_stays {z s : State} (h : Stays z s) (a : Nat) (v : W32) (acc : State → Nat → W32 → State) (hacc : ∀ (t0 : State) (t1 : Nat) (t2 : W32), Stays z t0 → Stays z (acc t0 t1 t2)) :
  Stays z (State.clusterWrite s a v acc) := by
  unfold State.clusterWrite
  repeat' with_reducible (first | assumption | apply hacc | apply State.putBit_stays | apply State.setFld_stays | apply Stays.ite)

theorem State.laceRead_stays {z s : State} (h : Stays z s) (a : Nat) :
  StaysOP z (State.laceRead s a) := by
  unfold State.laceRead
  repeat' with_reducible (first | intro _ | assumption | apply State.dfeRun_stays | apply State.wr_stays | apply Stays.ite | apply StaysP.ite | apply StaysO.ite | apply StaysOP.ite | apply StaysO.some | apply StaysO.none | apply StaysOP.some | apply StaysOP.none | apply StaysO.getD | apply StaysO.or | apply StaysOP.or | split | dsimp only [StaysP])

theorem State.actRetire_stays {z s : State} (h : Stays z s) (u : BitVec 16) :
  StaysP z (State.actRetire s u) := by
  unfold State.actRetire
  repeat' with_reducible (first | assumption | apply State.linkRetireCmd_stays | apply State.retireWith_stays | apply Stays.ite | apply StaysP.ite | dsimp only [StaysP])

theorem State.zeroBank_stays {z s : State} (h : Stays z s) (u : BitVec 16) :
  Stays z (State.zeroBank s u) := by
  unfold State.zeroBank
  repeat' with_reducible (first | assumption | apply State.clearMem_stays | apply Stays.ite | dsimp only | split)

theorem State.actTest_stays {z s : State} (h : Stays z s) (u : BitVec 16) :
  StaysP z (State.actTest s u) := by
  unfold State.actTest
  repeat' with_reducible (first | assumption | apply State.wr_stays | apply State.zeroBank_stays | apply State.queuesOn_stays | apply State.setFld_stays | apply State.logRec_stays | apply Stays.ite | apply StaysP.ite | dsimp only [StaysP] | dsimp only | split)

theorem State.admitAs_stays {z s : State} (h : Stays z s) (u : BitVec 16) :
  Stays z (State.admitAs s u) := by
  unfold State.admitAs
  repeat' with_reducible (first | assumption | apply State.zeroBank_stays | apply State.heelUnitAdmit_stays | apply State.stopEngine_stays | apply State.setRgnState_stays | apply State.setLarderState_stays | apply State.setDieState_stays | apply State.putBit_stays | apply State.setCore_stays | apply Stays.ite | split | dsimp only)

theorem State.actAdmit_stays {z s : State} (h : Stays z s) (u : BitVec 16) :
  StaysP z (State.actAdmit s u) := by
  unfold State.actAdmit
  repeat' with_reducible (first | intro _ | assumption | apply State.admitAs_stays | apply State.linkReadmit_stays | apply State.admitUnit_stays | apply State.flushReports_stays | apply State.endTest_stays | apply State.judgeHi_stays | apply Stays.ite | apply StaysP.ite | split | dsimp only [StaysP])

theorem State.actAbandon_stays {z s : State} (h : Stays z s) (u : BitVec 16) :
  StaysP z (State.actAbandon s u) := by
  unfold State.actAbandon
  repeat' with_reducible (first | intro _ | assumption | apply State.testFail_stays | apply Stays.ite | apply StaysP.ite | split | dsimp only [StaysP])

theorem State.actRevoke_stays {z s : State} (h : Stays z s) (u : BitVec 16) :
  StaysP z (State.actRevoke s u) := by
  unfold State.actRevoke
  repeat' with_reducible (first | assumption | apply State.revokeHolds_stays | apply State.logRec_stays | apply Stays.ite | apply StaysP.ite | dsimp only [StaysP])

theorem State.fltAct_stays {z s : State} (h : Stays z s) (v : W32) :
  Stays z (State.fltAct s v) := by
  unfold State.fltAct
  repeat' with_reducible (first | assumption | apply State.actRevoke_stays | apply State.actRetire_stays | apply State.actTest_stays | apply State.actAdmit_stays | apply State.actAbandon_stays | apply State.setEvt_stays | apply State.setFld_stays | apply Stays.ite | dsimp only | split)

theorem State.faultWrite_stays {z s : State} (h : Stays z s) (a : Nat) (v : W32) (acc : State → Nat → W32 → State) (hacc : ∀ t0 a1 a2, Stays z t0 → Stays z (acc t0 a1 a2)) :
  Stays z (State.faultWrite s a v acc) := by
  unfold State.faultWrite
  repeat' with_reducible (first | assumption | apply hacc | apply State.fltAct_stays | apply State.recurLowered_stays | apply State.recurRoll_stays | apply State.drainRecs_stays | apply State.withFlt_stays | apply Stays.ite | split | dsimp only)

theorem State.edged_stays {z s : State} (h : Stays z s) (x : Nat) :
  Stays z (State.edged s x) := by
  unfold State.edged
  repeat' with_reducible (first | assumption | apply State.withOuts_stays | apply Stays.ite | split | dsimp only)

theorem State.edgeOn_stays {z s : State} (h : Stays z s) (x : Nat) (m : Nat) :
  Stays z (State.edgeOn s x m) := by
  unfold State.edgeOn
  repeat' with_reducible (first | intro _ | assumption | apply State.edged_stays | apply State.goTo_stays | apply State.onStage_stays | apply Stays.ite | split | dsimp only)

theorem State.takeDrive_stays {z s : State} (h : Stays z s) (x : Nat) (from_ : Word) :
  Stays z (State.takeDrive s x from_) := by
  unfold State.takeDrive
  repeat' with_reducible (first | intro _ | assumption | apply State.edgeOn_stays | apply State.openAll_stays | apply State.onStage_stays | apply Stays.ite | split | dsimp only)

theorem State.reapply_stays {z s : State} (h : Stays z s) (x : Nat) :
  Stays z (State.reapply s x) := by
  unfold State.reapply
  repeat' with_reducible (first | intro _ | assumption | apply State.takeDrive_stays | apply State.edgeOn_stays | apply State.onStage_stays | apply Stays.ite | split | dsimp only)

theorem State.stageCmd_stays {z s : State} (h : Stays z s) (x : Nat) (set : State → State) (hset : ∀ (t0 : State), Stays z t0 → Stays z (set t0)) :
  Stays z (State.stageCmd s x set) := by
  unfold State.stageCmd
  repeat' with_reducible (first | assumption | apply hset | apply State.stageEvt_stays | apply State.takeDrive_stays | apply Stays.ite)

theorem State.renumber_stays {z s : State} (h : Stays z s) (x : Nat) :
  Stays z (State.renumber s x) := by
  unfold State.renumber
  repeat' with_reducible (first | assumption | apply State.onStage_stays | apply Stays.ite)

theorem State.keepOver_stays {z s : State} (h : Stays z s) (x : Nat) :
  Stays z (State.keepOver s x) := by
  unfold State.keepOver
  repeat' with_reducible (first | assumption | apply State.setKeep_stays | apply Stays.ite | split | dsimp only)

theorem State.hsoCtl_stays {z s : State} (h : Stays z s) (x : Nat) (set : State → State) (hset : ∀ (t0 : State), Stays z t0 → Stays z (set t0)) :
  Stays z (State.hsoCtl s x set) := by
  unfold State.hsoCtl
  repeat' with_reducible (first | assumption | apply hset | apply State.renumber_stays | apply State.stageCmd_stays | apply State.keepOver_stays | apply Stays.ite)

theorem State.stageFail_stays {z s : State} (h : Stays z s) (x : Nat) :
  Stays z (State.stageFail s x) := by
  unfold State.stageFail
  repeat' with_reducible (first | intro _ | assumption | apply State.heelReport_stays | apply State.permanent_stays | apply State.onStage_stays | apply Stays.ite | split | dsimp only)

theorem State.shutdown_stays {z s : State} (h : Stays z s) (x : Nat) (cause : Nat) :
  Stays z (State.shutdown s x cause) := by
  unfold State.shutdown
  repeat' with_reducible (first | intro _ | assumption | apply State.stageFail_stays | apply State.patEnd_stays | apply State.openAll_stays | apply State.stageEvt_stays | apply State.onStage_stays | apply State.setFld_stays | apply Stays.ite | split | dsimp only)

theorem State.restart_stays {z s : State} (h : Stays z s) (x : Nat) :
  Stays z (State.restart s x) := by
  unfold State.restart
  repeat' with_reducible (first | assumption | apply State.onStage_stays | apply State.setProt_stays | apply State.setFld_stays | apply State.reapply_stays | apply Stays.ite)

theorem State.setDiag_stays {z s : State} (h : Stays z s) (x : Nat) (c : Nat) :
  Stays z (State.setDiag s x c) := by
  unfold State.setDiag
  repeat' with_reducible (first | assumption | apply State.stageEvt_stays | apply State.setFld_stays | apply Stays.ite)

theorem State.untested_stays {z s : State} (h : Stays z s) (x : Nat) :
  Stays z (State.untested s x) := by
  unfold State.untested
  repeat' with_reducible (first | assumption | apply State.onStage_stays | apply State.setDiag_stays | apply Stays.ite)

theorem State.measured_stays {z s0 : State} (h : Stays z s0) (x : Nat) (src : Nat) (v : Nat) :
  Stays z (State.measured s0 x src v) := by
  unfold State.measured
  repeat' with_reducible (first | assumption | apply State.untested_stays | apply State.onStage_stays | apply State.setFld_stays | apply State.setDiag_stays | apply Stays.ite)

theorem State.sampleCur_stays {z s : State} (h : Stays z s) (x : Nat) (ma : BitVec 16) :
  Stays z (State.sampleCur s x ma) := by
  unfold State.sampleCur
  repeat' with_reducible (first | assumption | apply State.onStage_stays | apply State.setFld_stays | apply Stays.ite)

theorem State.diagGate_stays {z s : State} (h : Stays z s)  :
  Stays z (State.diagGate s) := by
  unfold State.diagGate
  repeat' with_reducible (first | assumption | apply State.withOuts_stays | apply Stays.ite | dsimp only | split)

theorem State.patDrive_stays {z s : State} (h : Stays z s) (k : Nat) :
  Stays z (State.patDrive s k) := by
  unfold State.patDrive
  repeat' with_reducible (first | intro _ | assumption | apply State.each_stays | apply State.reapply_stays | apply Stays.ite | dsimp only | split | apply foldl_stays)

theorem State.patNext_stays {z s : State} (h : Stays z s) (k : Nat) (x2 : Nat) :
  Stays z (State.patNext s k x2) := by
  induction x2 generalizing s k with
  | zero =>
    unfold State.patNext
    repeat' with_reducible (first | intro _ | assumption | apply State.patEnd_stays | apply State.setFld_stays | apply State.setPat_stays | apply State.patDrive_stays | apply Stays.ite | apply StaysP.ite | apply StaysO.ite | apply StaysOP.ite | apply StaysO.some | apply StaysO.none | apply StaysOP.some | apply StaysOP.none | apply StaysO.getD | apply StaysO.or | apply StaysOP.or | apply foldl_stays | split | dsimp only [StaysP] | (apply StaysO.of_eq ‹_›) | (apply StaysP.of_eq ‹_›) | (apply StaysOP.of_eq ‹_›))
  | succ n ih =>
    unfold State.patNext
    repeat' with_reducible (first | intro _ | assumption | apply ih | apply State.patEnd_stays | apply State.setFld_stays | apply State.setPat_stays | apply State.patDrive_stays | apply Stays.ite | apply StaysP.ite | apply StaysO.ite | apply StaysOP.ite | apply StaysO.some | apply StaysO.none | apply StaysOP.some | apply StaysOP.none | apply StaysO.getD | apply StaysO.or | apply StaysOP.or | apply foldl_stays | split | dsimp only [StaysP] | (apply StaysO.of_eq ‹_›) | (apply StaysP.of_eq ‹_›) | (apply StaysOP.of_eq ‹_›))

theorem State.patStart_stays {z s : State} (h : Stays z s) (k : Nat) :
  Stays z (State.patStart s k) := by
  unfold State.patStart
  repeat' with_reducible (first | intro _ | assumption | apply State.patNext_stays | apply State.patDrive_stays | apply State.setPat_stays | apply State.onStage_stays | apply State.setFld_stays | apply State.each_stays | apply Stays.ite | split | dsimp only)

theorem State.patSwitches_stays {z s : State} (h : Stays z s)  :
  Stays z (State.patSwitches s) := by
  unfold State.patSwitches
  repeat' with_reducible (first | intro _ | assumption | apply State.each_stays | apply State.patNext_stays | apply Stays.ite | dsimp only | split | apply foldl_stays)

theorem State.hsoWrite_stays {z s : State} (h : Stays z s) (a : Nat) (v : W32) (acc : State → Nat → W32 → State) (hacc : ∀ (t0 : State) (t1 : Nat) (t2 : W32), Stays z t0 → Stays z (acc t0 t1 t2)) :
  Stays z (State.hsoWrite s a v acc) := by
  unfold State.hsoWrite
  repeat' with_reducible (first | intro _ | assumption | apply hacc | apply State.hsoCtl_stays | apply State.stageEvt_stays | apply State.takeDrive_stays | apply State.renumber_stays | apply Stays.ite | dsimp only | split | apply foldl_stays)

theorem State.hbrWrite_stays {z s : State} (h : Stays z s) (a : Nat) (v : W32) (acc : State → Nat → W32 → State) (hacc : ∀ (t0 : State) (t1 : Nat) (t2 : W32), Stays z t0 → Stays z (acc t0 t1 t2)) :
  Stays z (State.hbrWrite s a v acc) := by
  unfold State.hbrWrite
  repeat' with_reducible (first | intro _ | assumption | apply hacc | apply State.stageEvt_stays | apply State.takeDrive_stays | apply State.stageCmd_stays | apply State.patStart_stays | apply State.patEnd_stays | apply Stays.ite | dsimp only | split | apply foldl_stays)

theorem State.hcmdOut_stays {z s : State} (h : Stays z s) (ops : List W32) (n : Nat) (m : Nat) (h : Nat) (ok : W32 → Bool) (set : State → Nat → W32 → State) (hset : ∀ (t0 : State) (t1 : Nat) (t2 : W32), Stays z t0 → Stays z (set t0 t1 t2)) :
  StaysP z (State.hcmdOut s ops n m h ok set) := by
  unfold State.hcmdOut
  repeat' with_reducible (first | intro _ | assumption | apply hset | apply State.setFld_stays | apply State.hsoCtl_stays | apply State.stageCmd_stays | apply Stays.ite | apply StaysP.ite | dsimp only [StaysP] | dsimp only | split | apply foldl_stays)

theorem State.pwmSet_stays {z s : State} (h : Stays z s) (x : Nat) (v : W32) :
  Stays z (State.pwmSet s x v) := by
  unfold State.pwmSet
  repeat' with_reducible (first | assumption | apply State.setFld_stays | apply Stays.ite)

theorem State.ovEnter_stays {z s : State} (h : Stays z s)  :
  Stays z (State.ovEnter s) := by
  unfold State.ovEnter
  repeat' with_reducible (first | intro _ | assumption | apply State.patEnd_stays | apply State.openAll_stays | apply State.each_stays | apply State.withSup_stays | apply Stays.ite | split | dsimp only)

theorem State.ovRestore_stays {z s : State} (h : Stays z s)  :
  Stays z (State.ovRestore s) := by
  unfold State.ovRestore
  repeat' with_reducible (first | intro _ | assumption | apply State.reapply_stays | apply State.each_stays | apply State.withSup_stays | apply Stays.ite | split | dsimp only)

end Sys2Proof.Machine
end

