-- ==== Sys2Proof/Laws/StaysC.lean ====
section
/-! SUPPORT. Laws/StaysC.lean: every operation and meaning of InOps, FabCtl, UnitCtl, EngRegs, QueueCtl, Mem, BootOps, SoleHeelRegs, Bus, Angle, StreamOps, TrackOps, QueueOps, CubeOps, Cubes, Debug keeps the canonical
form, the variant and the queue of waiting commands (Stays); each lemma says it of one definition, whose helpers have theirs before it. -/
namespace Sys2Proof.Machine

theorem State.swChange_stays {z s : State} (h : Stays z s) (i : Nat) (v : Bool) :
  Stays z (State.swChange s i v) := by
  unfold State.swChange
  repeat' with_reducible (first | assumption | apply State.putBit_stays | apply Stays.ite)

theorem State.swTaken_stays {z s : State} (h : Stays z s) (w : BitVec 64) :
  Stays z (State.swTaken s w) := by
  unfold State.swTaken
  repeat' with_reducible (first | assumption | apply State.withSwi_stays | apply State.drawn_stays | apply Stays.ite | split | dsimp only)

theorem State.swSample_stays {z s : State} (h : Stays z s) (i : Nat) (v : Bool) :
  Stays z (State.swSample s i v) := by
  unfold State.swSample
  repeat' with_reducible (first | assumption | apply State.withSwi_stays | apply State.swChange_stays | apply Stays.ite)

theorem State.swConvert_stays {z s : State} (h : Stays z s) (i : Nat) (mv : Int) :
  Stays z (State.swConvert s i mv) := by
  unfold State.swConvert
  repeat' with_reducible (first | assumption | apply State.drawn_stays | apply State.wr_stays | apply Stays.ite | split | dsimp only)

theorem State.swCyclic_stays {z s : State} (h : Stays z s) (i : Nat) (v : Bool) :
  Stays z (State.swCyclic s i v) := by
  unfold State.swCyclic
  repeat' with_reducible (first | assumption | apply State.withSwi_stays | apply State.putBit_stays | apply Stays.ite)

theorem State.qdecCount_stays {z s : State} (h : Stays z s) (n : Nat) (rev : Bool) :
  Stays z (State.qdecCount s n rev) := by
  unfold State.qdecCount
  repeat' with_reducible (first | assumption | apply State.setFld_stays | apply State.wr_stays | apply State.setQdec_stays | apply Stays.ite)

theorem State.qdecError_stays {z s : State} (h : Stays z s) (n : Nat) :
  Stays z (State.qdecError s n) := by
  unfold State.qdecError
  repeat' with_reducible (first | assumption | apply State.putBit_stays | apply State.setFld_stays | apply State.advSat_stays | apply Stays.ite)

theorem State.qdecLearn_stays {z s : State} (h : Stays z s) (n : Nat) :
  Stays z (State.qdecLearn s n) := by
  unfold State.qdecLearn
  repeat' with_reducible (first | assumption | apply State.setFld_stays | apply State.wr_stays | apply State.setQdec_stays | apply State.putBit_stays | apply Stays.ite)

theorem State.qdecSample_stays {z s : State} (h : Stays z s) (n : Nat) (pa : Bool) (pb : Bool) :
  Stays z (State.qdecSample s n pa pb) := by
  unfold State.qdecSample
  repeat' with_reducible (first | intro _ | assumption | apply State.qdecLearn_stays | apply State.qdecError_stays | apply State.qdecCount_stays | apply State.setQdec_stays | apply Stays.ite | apply StaysP.ite | split | dsimp only [StaysP])

theorem State.qdecWrite_stays {z s : State} (h : Stays z s) (a : Nat) (v : W32) (acc : State → Nat → W32 → State) (hacc : ∀ (t0 : State) (t1 : Nat) (t2 : W32), Stays z t0 → Stays z (acc t0 t1 t2)) :
  Stays z (State.qdecWrite s a v acc) := by
  unfold State.qdecWrite
  repeat' with_reducible (first | assumption | apply hacc | apply State.setQdec_stays | apply State.wr_stays | apply State.putBit_stays | apply State.setFld_stays | apply Stays.ite)

theorem State.swiWrite_stays {z s : State} (h : Stays z s) (a : Nat) (v : W32) (acc : State → Nat → W32 → State) (hacc : ∀ (t0 : State) (t1 : Nat) (t2 : W32), Stays z t0 → Stays z (acc t0 t1 t2)) :
  Stays z (State.swiWrite s a v acc) := by
  unfold State.swiWrite
  repeat' with_reducible (first | assumption | apply hacc | apply State.putBit_stays | apply Stays.ite)

theorem State.fabCause_stays {z s : State} (h : Stays z s) (x : Nat) (c : Nat) :
  Stays z (State.fabCause s x c) := by
  unfold State.fabCause
  repeat' with_reducible (first | assumption | apply State.setFld_stays | apply Stays.ite)

theorem State.rgnEmpty_stays {z s : State} (h : Stays z s) (x : Nat) (cause : Nat) :
  Stays z (State.rgnEmpty s x cause) := by
  unfold State.rgnEmpty
  repeat' with_reducible (first | assumption | apply State.rgnClear_stays | apply State.fabCause_stays | apply State.endEntry_stays | apply Stays.ite | dsimp only | split)

theorem State.rgnRestarted_stays {z s : State} (h : Stays z s) (x : Nat) :
  Stays z (State.rgnRestarted s x) := by
  unfold State.rgnRestarted
  repeat' with_reducible (first | assumption | apply State.setRgnState_stays | apply State.setRgn_stays | apply State.endEntry_stays | apply Stays.ite | dsimp only | split)

theorem State.rctlWrite_stays {z s : State} (h : Stays z s) (x : Nat) (v : W32) :
  Stays z (State.rctlWrite s x v) := by
  unfold State.rctlWrite
  repeat' with_reducible (first | assumption | apply State.fabCause_stays | apply State.rgnRestart_stays | apply State.drawn_stays | apply State.rgnEmpty_stays | apply Stays.ite | dsimp only | split)

theorem State.boundFail_stays {z s : State} (h : Stays z s) (ks : List (Nat × Nat)) :
  Stays z (State.boundFail s ks) := by
  unfold State.boundFail
  repeat' with_reducible (first | intro _ | assumption | apply State.endEntry_stays | apply State.fabAbort_stays | apply Stays.ite | dsimp only | split | apply foldl_stays)

theorem State.runFail_stays {z s : State} (h : Stays z s) (u : Nat) :
  Stays z (State.runFail s u) := by
  unfold State.runFail
  repeat' with_reducible (first | intro _ | assumption | apply State.each_stays | apply State.endEntry_stays | apply Stays.ite | dsimp only | split | apply foldl_stays)

theorem State.strError_stays {z s : State} (h : Stays z s) (u : Nat) (status : Nat) (reason : Nat) (addr : Word) (raised : Option Word) :
  Stays z (State.strError s u status reason addr raised) := by
  unfold State.strError
  repeat' with_reducible (first | intro _ | assumption | apply State.runFail_stays | apply State.boundFail_stays | apply State.dropHere_stays | apply State.setStream_stays | apply Stays.ite | split | dsimp only)

theorem State.cancelStream_stays {z s : State} (h : Stays z s) (u : Nat) :
  Stays z (State.cancelStream s u) := by
  unfold State.cancelStream
  repeat' with_reducible (first | intro _ | assumption | apply State.dropHere_stays | apply State.setStream_stays | apply Stays.ite | split | dsimp only)

theorem State.strCancel_stays {z s : State} (h : Stays z s) (g : Nat) (us : List Nat) :
  Stays z (State.strCancel s g us) := by
  unfold State.strCancel
  repeat' with_reducible (first | intro _ | assumption | apply State.each_stays | apply State.cancelStream_stays | apply Stays.ite | dsimp only | split | apply foldl_stays)

theorem State.unbind_stays {z s : State} (h : Stays z s) (k : Nat) :
  Stays z (State.unbind s k) := by
  unfold State.unbind
  repeat' with_reducible (first | intro _ | assumption | apply State.onStream_stays | apply State.each_stays | apply Stays.ite | split | dsimp only)

theorem State.trkFail_stays {z s : State} (h : Stays z s) (n : Nat) (cause : Nat) :
  Stays z (State.trkFail s n cause) := by
  unfold State.trkFail
  repeat' with_reducible (first | assumption | apply State.setFld_stays | apply State.withEng_stays | apply State.putBit_stays | apply Stays.ite)

theorem State.trkOpenCmd_stays {z s : State} (h : Stays z s) (n : Nat) :
  Stays z (State.trkOpenCmd s n) := by
  unfold State.trkOpenCmd
  repeat' with_reducible (first | assumption | apply State.putBit_stays | apply State.setFld_stays | apply State.wr2_stays | apply Stays.ite)

theorem State.trkAbortCmd_stays {z s : State} (h : Stays z s) (n : Nat) :
  Stays z (State.trkAbortCmd s n) := by
  unfold State.trkAbortCmd
  repeat' with_reducible (first | assumption | apply State.setFld_stays | apply Stays.ite)

theorem State.trkWrite_stays {z s : State} (h : Stays z s) (a : Nat) (v : W32) (acc : State → Nat → W32 → State) (hacc : ∀ (t0 : State) (t1 : Nat) (t2 : W32), Stays z t0 → Stays z (acc t0 t1 t2)) :
  Stays z (State.trkWrite s a v acc) := by
  unfold State.trkWrite
  repeat' with_reducible (first | intro _ | assumption | apply hacc | apply State.each_stays | apply State.trkOpenCmd_stays | apply State.trkAbortCmd_stays | apply Stays.ite | dsimp only | split | apply foldl_stays)

theorem State.ckptFail_stays {z s : State} (h : Stays z s) (id : W32) (status : Nat) :
  Stays z (State.ckptFail s id status) := by
  unfold State.ckptFail
  repeat' with_reducible (first | assumption | apply State.trkFail_stays | apply Stays.ite | dsimp only | split)

theorem State.pipeShow_stays {z s : State} (h : Stays z s) (g : Nat) :
  Stays z (State.pipeShow s g) := by
  unfold State.pipeShow
  repeat' with_reducible (first | assumption | apply State.setFld_stays | apply State.wr_stays | apply Stays.ite | dsimp only | split)

theorem State.pipeListEnd_stays {z s : State} (h : Stays z s) (p : Pipe) :
  Stays z (State.pipeListEnd s p) := by
  unfold State.pipeListEnd
  repeat' with_reducible (first | assumption | apply State.pipeShow_stays | apply State.setPipe_stays | apply Stays.ite)

theorem State.abortEntry_stays {z s : State} (h : Stays z s) (k : Nat) :
  Stays z (State.abortEntry s k) := by
  unfold State.abortEntry
  repeat' with_reducible (first | assumption | apply State.ckptFail_stays | apply State.unbind_stays | apply State.pipeDrop_stays | apply State.fabAbort_stays | apply State.setMat_stays | apply Stays.ite | split | dsimp only)

theorem State.setStamps_stays {z s : State} (h : Stays z s) (g : Nat) (l : List Word) :
  Stays z (State.setStamps s g l) := by
  unfold State.setStamps
  repeat' with_reducible (first | assumption | apply State.withEng_stays | apply Stays.ite)

theorem State.dqDoorbell_stays {z s : State} (h : Stays z s) (g : Nat) (tail : Nat) :
  Stays z (State.dqDoorbell s g tail) := by
  unfold State.dqDoorbell
  repeat' with_reducible (first | assumption | apply State.putBit_stays | apply State.setStamps_stays | apply State.setFld_stays | apply Stays.ite)

theorem State.unitWriteReg_stays {z s : State} (h : Stays z s) (g : Nat) (o : Nat) (a : Nat) (v : W32) (acc : State → Nat → W32 → State) (hacc : ∀ (t0 : State) (t1 : Nat) (t2 : W32), Stays z t0 → Stays z (acc t0 t1 t2)) :
  StaysO z (State.unitWriteReg s g o a v acc) := by
  unfold State.unitWriteReg
  repeat' with_reducible (first | assumption | apply hacc | apply State.dqDoorbell_stays | apply State.putBit_stays | apply State.cancelStream_stays | apply Stays.ite | apply StaysO.some | apply StaysO.none | apply StaysO.ite)

theorem State.fabWrite_stays {z s : State} (h : Stays z s) (a : Nat) (v : W32) :
  StaysO z (State.fabWrite s a v) := by
  unfold State.fabWrite
  repeat' with_reducible (first | assumption | apply State.rctlWrite_stays | apply Stays.ite | apply StaysO.some | apply StaysO.none | apply StaysO.ite)

theorem State.strRead_stays {z s : State} (h : Stays z s) (u : Nat) (o : Nat) (a : Nat) :
  StaysOP z (State.strRead s u o a) := by
  unfold State.strRead
  repeat' with_reducible (first | assumption | apply State.wr_stays | apply Stays.ite | apply StaysOP.some | apply StaysOP.none | apply StaysOP.ite | dsimp only [StaysP] | dsimp only | split)

theorem State.unitReadReg_stays {z s : State} (h : Stays z s) (a : Nat) :
  StaysOP z (State.unitReadReg s a) := by
  unfold State.unitReadReg
  repeat' with_reducible (first | intro _ | assumption | apply State.strRead_stays | apply State.laceRead_stays | apply State.drawn_stays | apply State.wr_stays | apply Stays.ite | apply StaysP.ite | apply StaysO.ite | apply StaysOP.ite | apply StaysO.some | apply StaysO.none | apply StaysOP.some | apply StaysOP.none | apply StaysO.getD | apply StaysO.or | apply StaysOP.or | split | dsimp only [StaysP])

theorem State.doorbell_stays {z s : State} (h : Stays z s) (k : Nat) (tail : Nat) :
  Stays z (State.doorbell s k tail) := by
  unfold State.doorbell
  repeat' with_reducible (first | assumption | apply State.putBit_stays | apply State.setFld_stays | apply State.setQState_stays | apply Stays.ite)

theorem State.onQueue_stays {z s : State} (h : Stays z s) (k : Nat) (f : Queue → Queue) :
  Stays z (State.onQueue s k f) := by
  unfold State.onQueue
  repeat' with_reducible (first | assumption | apply State.setQueue_stays | apply Stays.ite)

theorem State.qCur_stays {z s : State} (h : Stays z s) (k : Nat) (a : Word) :
  Stays z (State.qCur s k a) := by
  unfold State.qCur
  repeat' with_reducible (first | assumption | apply State.wr_stays | apply Stays.ite)

theorem State.qErr_stays {z s : State} (h : Stays z s) (k : Nat) (status : Nat) (reason : Nat) (addr : Word) (op : Nat) (tag : Nat) :
  Stays z (State.qErr s k status reason addr op tag) := by
  unfold State.qErr
  repeat' with_reducible (first | assumption | apply State.wr_stays | apply Stays.ite | split | dsimp only)

theorem State.qErrOf_stays {z s : State} (h : Stays z s) (k : Nat) (w : List W32) (a : Word) (e : EntryEnd) :
  Stays z (State.qErrOf s k w a e) := by
  unfold State.qErrOf
  repeat' with_reducible (first | assumption | apply State.qErr_stays | apply Stays.ite | split | dsimp only)

theorem State.qStop_stays {z s : State} (h : Stays z s) (k : Nat) (status : Nat) (reason : Nat) (addr : Word) (op : Nat) (tag : Nat) (cur : Word) (fail : Nat × Word) :
  Stays z (State.qStop s k status reason addr op tag cur fail) := by
  unfold State.qStop
  repeat' with_reducible (first | intro _ | assumption | apply State.qErr_stays | apply State.qCur_stays | apply State.onQueue_stays | apply State.setQState_stays | apply State.putBit_stays | apply Stays.ite | split | dsimp only)

theorem State.listEnd_stays {z s : State} (h : Stays z s) (k : Nat) (h : ListHdr) (next : Option Word) :
  Stays z (State.listEnd s k h next) := by
  unfold State.listEnd
  repeat' with_reducible (first | assumption | apply State.signalOrEvent_stays | apply State.countSig_stays | apply State.onQueue_stays | apply State.setQState_stays | apply State.pipeListEnd_stays | apply State.setFld_stays | apply Stays.ite | dsimp only | split)

theorem State.listStep_stays {z s : State} (h : Stays z s) (k : Nat) :
  Stays z (State.listStep s k) := by
  unfold State.listStep
  repeat' with_reducible (first | assumption | apply State.listEnd_stays | apply State.setQState_stays | apply Stays.ite | dsimp only | split)

theorem State.pipeAbandon_stays {z s : State} (h : Stays z s) (k : Nat) :
  Stays z (State.pipeAbandon s k) := by
  unfold State.pipeAbandon
  repeat' with_reducible (first | assumption | apply State.pipeShow_stays | apply State.setPipe_stays | apply State.listStep_stays | apply State.onQueue_stays | apply Stays.ite | dsimp only | split)

theorem State.qResume_stays {z s : State} (h : Stays z s) (k : Nat) :
  Stays z (State.qResume s k) := by
  unfold State.qResume
  repeat' with_reducible (first | assumption | apply State.putBit_stays | apply State.pipeAbandon_stays | apply State.listStep_stays | apply State.onQueue_stays | apply State.listEnd_stays | apply Stays.ite | dsimp only | split)

theorem State.qRetry_stays {z s : State} (h : Stays z s) (k : Nat) :
  Stays z (State.qRetry s k) := by
  unfold State.qRetry
  repeat' with_reducible (first | assumption | apply State.putBit_stays | apply State.setQState_stays | apply State.onQueue_stays | apply State.pipeShow_stays | apply State.setPipe_stays | apply Stays.ite | dsimp only | split)

theorem State.dyingBad_stays {z s : State} (h : Stays z s) (k : Nat) (e : EntryEnd) :
  Stays z (State.dyingBad s k e) := by
  unfold State.dyingBad
  repeat' with_reducible (first | intro _ | assumption | apply State.qErrOf_stays | apply State.onQueue_stays | apply Stays.ite | split | dsimp only)

theorem State.qCancel_stays {z s : State} (h : Stays z s) (k : Nat) :
  Stays z (State.qCancel s k) := by
  unfold State.qCancel
  repeat' with_reducible (first | intro _ | assumption | apply State.dyingBad_stays | apply State.abortEntry_stays | apply State.strCancel_stays | apply State.dropHere_stays | apply State.dropWaiter_stays | apply State.revokeHolds_stays | apply State.setQState_stays | apply State.cenBreak_stays | apply State.putBit_stays | apply State.setFld_stays | apply State.setQueue_stays | apply Stays.ite | split | dsimp only)

theorem State.qctlWrite_stays {z s : State} (h : Stays z s) (k : Nat) (v : W32) :
  Stays z (State.qctlWrite s k v) := by
  unfold State.qctlWrite
  repeat' with_reducible (first | assumption | apply State.putBit_stays | apply State.qResume_stays | apply State.qRetry_stays | apply State.qCancel_stays | apply Stays.ite)

theorem State.engWrite_stays {z s : State} (h : Stays z s) (a : Nat) (v : W32) (acc : State → Nat → W32 → State) (hacc : ∀ (t0 : State) (t1 : Nat) (t2 : W32), Stays z t0 → Stays z (acc t0 t1 t2)) :
  StaysO z (State.engWrite s a v acc) := by
  unfold State.engWrite
  repeat' with_reducible (first | assumption | apply hacc | apply State.unitWriteReg_stays | apply State.doorbell_stays | apply State.qctlWrite_stays | apply State.putBit_stays | apply Stays.ite | apply StaysO.some | apply StaysO.none | apply StaysO.ite | dsimp only | split)

theorem State.syncWrite_stays {z s : State} (h : Stays z s) (a : Nat) (v : W32) :
  StaysO z (State.syncWrite s a v) := by
  unfold State.syncWrite
  repeat' with_reducible (first | intro _ | assumption | apply State.freeHold_stays | apply State.setCounter_stays | apply State.cenBreak_stays | apply State.wr_stays | apply Stays.ite | apply StaysP.ite | apply StaysO.ite | apply StaysOP.ite | apply StaysO.some | apply StaysO.none | apply StaysOP.some | apply StaysOP.none | apply StaysO.getD | apply StaysO.or | apply StaysOP.or | split | dsimp only [StaysP] | (apply StaysO.of_eq ‹_›) | (apply StaysOP.of_eq ‹_›))

theorem State.syncRead_stays {z s : State} (h : Stays z s) (i : Ini) (a : Nat) :
  StaysOP z (State.syncRead s i a) := by
  unfold State.syncRead
  repeat' with_reducible (first | assumption | apply State.acquireRead_stays | apply Stays.ite | apply StaysOP.some | apply StaysOP.none | apply StaysOP.ite | dsimp only [StaysP] | dsimp only | split)

theorem State.enter_stays {z s : State} (h : Stays z s) (q : Req) :
  StaysP z (State.enter s q) := by
  unfold State.enter
  repeat' with_reducible (first | intro _ | assumption | apply State.captureRefusal_stays | apply State.passEntry_stays | apply Stays.ite | apply StaysP.ite | split | dsimp only [StaysP])

theorem State.answerBack_stays {z s : State} (h : Stays z s) (n : NetReq) (w : Served) :
  Stays z (State.answerBack s n w) := by
  unfold State.answerBack
  repeat' with_reducible (first | assumption | apply State.notice_stays | apply State.captureRefusal_stays | apply State.respond_stays | apply State.sendBack_stays | apply Stays.ite | split | dsimp only)

theorem State.readInsoleWords_stays {z s : State} (h : Stays z s) (x1 : List Nat) :
  StaysP z (State.readInsoleWords s x1) := by
  induction x1 generalizing s with
  | nil =>
    unfold State.readInsoleWords
    repeat' with_reducible (first | intro _ | assumption | apply State.readInsole_stays | apply Stays.ite | apply StaysP.ite | apply StaysO.ite | apply StaysOP.ite | apply StaysO.some | apply StaysO.none | apply StaysOP.some | apply StaysOP.none | apply StaysO.getD | apply StaysO.or | apply StaysOP.or | apply foldl_stays | split | dsimp only [StaysP] | (apply StaysO.of_eq ‹_›) | (apply StaysP.of_eq ‹_›) | (apply StaysOP.of_eq ‹_›))
  | cons b l ih =>
    unfold State.readInsoleWords
    repeat' with_reducible (first | intro _ | assumption | apply ih | apply State.readInsole_stays | apply Stays.ite | apply StaysP.ite | apply StaysO.ite | apply StaysOP.ite | apply StaysO.some | apply StaysO.none | apply StaysOP.some | apply StaysOP.none | apply StaysO.getD | apply StaysO.or | apply StaysOP.or | apply foldl_stays | split | dsimp only [StaysP] | (apply StaysO.of_eq ‹_›) | (apply StaysP.of_eq ‹_›) | (apply StaysOP.of_eq ‹_›))

theorem State.memRead_stays {z s : State} (h : Stays z s) (i : Ini) (r : Region) (a : Nat) (n : Nat) :
  StaysP z (State.memRead s i r a n) := by
  unfold State.memRead
  repeat' with_reducible (first | intro _ | assumption | apply State.readInsoleWords_stays | apply State.readLines_stays | apply State.drawBytes_stays | apply Stays.ite | apply StaysP.ite | split | dsimp only [StaysP])

theorem State.writeInsole_stays {z s : State} (h : Stays z s) (i : Ini) (a : Nat) (bs : List Byte) :
  Stays z (State.writeInsole s i a bs) := by
  unfold State.writeInsole
  repeat' with_reducible (first | intro _ | assumption | apply State.readInsole_stays | apply State.notice_stays | apply State.putBytes_stays | apply State.each_stays | apply State.putLine_stays | apply Stays.ite | apply StaysP.ite | split | dsimp only [StaysP])

theorem State.memWrite_stays {z s : State} (h : Stays z s) (i : Ini) (r : Region) (a : Nat) (bs : List Byte) :
  StaysP z (State.memWrite s i r a bs) := by
  unfold State.memWrite
  repeat' with_reducible (first | intro _ | assumption | apply State.writeInsole_stays | apply State.writeTagged_stays | apply State.msgWrite_stays | apply State.putBit_stays | apply State.putBytes_stays | apply State.withBoot_stays | apply State.putLine_stays | apply Stays.ite | apply StaysP.ite | split | dsimp only [StaysP])

theorem State.memAtomic_stays {z s : State} (h : Stays z s) (_i : Ini) (r : Region) (a : Nat) (n : Nat) (op : AtomOp) (v : Word) :
  StaysP z (State.memAtomic s _i r a n op v) := by
  unfold State.memAtomic
  repeat' with_reducible (first | assumption | apply State.readLine_stays | apply State.putBytes_stays | apply Stays.ite | apply StaysP.ite | dsimp only [StaysP] | dsimp only | split)

theorem State.ask_stays {z s : State} (h : Stays z s) (q : Req) :
  Stays z (State.ask s q) := by
  unfold State.ask
  repeat' with_reducible (first | intro _ | assumption | apply State.enter_stays | apply State.withResp_stays | apply State.withNet_stays | apply Stays.ite | apply StaysP.ite | split | dsimp only [StaysP])

theorem State.takeAnswer_stays {z s : State} (h : Stays z s) (q : Req) :
  StaysP z (State.takeAnswer s q) := by
  unfold State.takeAnswer
  repeat' with_reducible (first | intro _ | assumption | apply State.withResp_stays | apply Stays.ite | apply StaysP.ite | split | dsimp only [StaysP])

theorem State.askAll_stays {z s : State} (h : Stays z s) (qs : List Req) :
  StaysP z (State.askAll s qs) := by
  unfold State.askAll
  repeat' with_reducible (first | intro _ | assumption | apply State.ask_stays | apply foldl_stays | apply Stays.ite | apply StaysP.ite | apply foldl_stays | apply foldlP_stays | split | dsimp only [StaysP])

theorem State.unitRead_stays {z s : State} (h : Stays z s) (i : Ini) (a : Nat) (n : Nat) (cls : Nat) :
  StaysP z (State.unitRead s i a n cls) := by
  unfold State.unitRead
  repeat' with_reducible (first | intro _ | assumption | apply State.takeAnswer_stays | apply State.memRead_stays | apply State.enter_stays | apply State.captureRefusal_stays | apply Stays.ite | apply StaysP.ite | split | dsimp only [StaysP])

theorem State.unitWrite_stays {z s : State} (h : Stays z s) (i : Ini) (a : Nat) (bs : List Byte) (cls : Nat) :
  StaysP z (State.unitWrite s i a bs cls) := by
  unfold State.unitWrite
  repeat' with_reducible (first | intro _ | assumption | apply State.memWrite_stays | apply State.enter_stays | apply State.notice_stays | apply State.captureRefusal_stays | apply State.withNet_stays | apply Stays.ite | apply StaysP.ite | split | dsimp only [StaysP])

theorem State.unitLoad_stays {z s : State} (h : Stays z s) (a : Nat) (n : Nat) :
  StaysP z (State.unitLoad s a n) := by
  unfold State.unitLoad
  repeat' with_reducible (first | intro _ | assumption | apply State.unitRead_stays | apply foldl_stays | apply Stays.ite | apply StaysP.ite | apply foldl_stays | apply foldlP_stays | split | dsimp only [StaysP])

theorem State.unitStore_stays {z s : State} (h : Stays z s) (a : Nat) (bs : List Byte) :
  StaysP z (State.unitStore s a bs) := by
  unfold State.unitStore
  repeat' with_reducible (first | intro _ | assumption | apply State.unitWrite_stays | apply foldl_stays | apply Stays.ite | apply StaysP.ite | apply foldl_stays | apply foldlP_stays | split | dsimp only [StaysP])

theorem State.objBytes_stays {z s : State} (h : Stays z s) (unit : Bool) (a : Nat) (n : Nat) :
  StaysP z (State.objBytes s unit a n) := by
  unfold State.objBytes
  repeat' with_reducible (first | intro _ | assumption | apply State.unitLoad_stays | apply Stays.ite | apply StaysP.ite | split | dsimp only [StaysP])

theorem State.verifyWith_stays {z s : State} (h : Stays z s) (unit : Bool) (a : Nat) (ok : Nat → Bool) (refuse : List Byte → Nat) :
  StaysP z (State.verifyWith s unit a ok refuse) := by
  unfold State.verifyWith
  repeat' with_reducible (first | intro _ | assumption | apply State.objBytes_stays | apply Stays.ite | apply StaysP.ite | split | dsimp only [StaysP])

theorem State.verify_stays {z s : State} (h : Stays z s) (unit : Bool) (a : Nat) (ok : Nat → Bool) :
  StaysP z (State.verify s unit a ok) := by
  unfold State.verify
  repeat' with_reducible (first | intro _ | assumption | apply State.verifyWith_stays | apply Stays.ite | apply StaysP.ite | split | dsimp only [StaysP])

theorem State.keeperEnter_stays {z s : State} (h : Stays z s) (d : Nat) (im : Img) (warm : Bool) :
  Stays z (State.keeperEnter s d im warm) := by
  unfold State.keeperEnter
  repeat' with_reducible (first | assumption | apply State.setCore_stays | apply Stays.ite | split | dsimp only)

theorem State.judgeDi_stays {z s : State} (h : Stays z s) (d : Nat) (im : Img) (warm : Bool) (enter : Bool) :
  Stays z (State.judgeDi s d im warm enter) := by
  unfold State.judgeDi
  repeat' with_reducible (first | assumption | apply State.keeperEnter_stays | apply State.setAgree_stays | apply State.stopDie_stays | apply State.bootEvent_stays | apply State.setDieState_stays | apply State.putBit_stays | apply State.setCore_stays | apply Stays.ite | split | dsimp only)

theorem State.offerDie_stays {z s : State} (h : Stays z s) (d : Nat) (im : Img) (held : Option Img) :
  Stays z (State.offerDie s d im held) := by
  unfold State.offerDie
  repeat' with_reducible (first | intro _ | assumption | apply State.withBoot_stays | apply State.wr_stays | apply Stays.ite | split | dsimp only)

theorem State.emptyRegions_stays {z s : State} (h : Stays z s) (d : Nat) (fi : BitVec 16) :
  Stays z (State.emptyRegions s d fi) := by
  unfold State.emptyRegions
  repeat' with_reducible (first | intro _ | assumption | apply State.rgnEmpty_stays | apply State.bootEvent_stays | apply State.putBit_stays | apply State.each_stays | apply Stays.ite | split | dsimp only)

theorem State.dieNoimg_stays {z s : State} (h : Stays z s) (d : Nat) :
  Stays z (State.dieNoimg s d) := by
  unfold State.dieNoimg
  repeat' with_reducible (first | intro _ | assumption | apply State.setAgree_stays | apply State.stopDie_stays | apply State.bootEvent_stays | apply State.setDieState_stays | apply State.withBoot_stays | apply Stays.ite | split | dsimp only)

theorem State.dieFetch_stays {z s0 : State} (h : Stays z s0) (d : Nat) (im : Img) (warm : Bool) (force : Bool) :
  Stays z (State.dieFetch s0 d im warm force) := by
  unfold State.dieFetch
  repeat' with_reducible (first | intro _ | assumption | apply State.dieNoimg_stays | apply State.emptyRegions_stays | apply State.offerDie_stays | apply State.judgeDi_stays | apply State.readLines_stays | apply State.putBytes_stays | apply Stays.ite | apply StaysP.ite | split | dsimp only [StaysP])

theorem State.dieImageCheck_stays {z s0 : State} (h : Stays z s0) (d : Nat) :
  Stays z (State.dieImageCheck s0 d) := by
  unfold State.dieImageCheck
  repeat' with_reducible (first | assumption | apply State.dieFetch_stays | apply State.dieNoimg_stays | apply State.summerCheck_stays | apply State.syncLive_stays | apply State.withBoot_stays | apply Stays.ite | split | dsimp only)

theorem State.deliver_stays {z s : State} (h : Stays z s) (a : Nat) (bs : List Byte) :
  StaysP z (State.deliver s a bs) := by
  unfold State.deliver
  repeat' with_reducible (first | intro _ | assumption | apply State.unitStore_stays | apply Stays.ite | apply StaysP.ite | split | dsimp only [StaysP])

theorem State.wipe_stays {z s : State} (h : Stays z s) (a : Nat) (v : Verdict) :
  Stays z (State.wipe s a v) := by
  unfold State.wipe
  repeat' with_reducible (first | intro _ | assumption | apply State.unitStore_stays | apply Stays.ite | apply StaysP.ite | split | dsimp only [StaysP])

theorem State.stageDie_stays {z s : State} (h : Stays z s) (a : Nat) :
  StaysP z (State.stageDie s a) := by
  unfold State.stageDie
  repeat' with_reducible (first | intro _ | assumption | apply State.wipe_stays | apply State.deliver_stays | apply State.verify_stays | apply State.bootEvent_stays | apply State.withBoot_stays | apply Stays.ite | apply StaysP.ite | split | dsimp only [StaysP])

theorem State.stageForSummer_stays {z s : State} (h : Stays z s)  :
  Stays z (State.stageForSummer s) := by
  unfold State.stageForSummer
  repeat' with_reducible (first | assumption | apply State.stageDie_stays | apply Stays.ite)

theorem State.heelEnter_stays {z s : State} (h : Stays z s) (im : Img) (fb : Bool) (warm : Bool) :
  Stays z (State.heelEnter s im fb warm) := by
  unfold State.heelEnter
  repeat' with_reducible (first | assumption | apply State.putBit_stays | apply State.withBoot_stays | apply State.setCore_stays | apply State.wr_stays | apply Stays.ite | split | dsimp only)

theorem State.heelEvent_stays {z s : State} (h : Stays z s) (code : Nat) :
  Stays z (State.heelEvent s code) := by
  unfold State.heelEvent
  repeat' with_reducible (first | assumption | apply State.monitorEvent_stays | apply Stays.ite | split | dsimp only)

theorem State.heelBoot_stays {z s : State} (h : Stays z s)  :
  Stays z (State.heelBoot s) := by
  unfold State.heelBoot
  repeat' with_reducible (first | intro _ | assumption | apply State.heelEvent_stays | apply State.heelEnter_stays | apply State.verify_stays | apply State.judgeHi_stays | apply State.withBoot_stays | apply State.wr_stays | apply Stays.ite | apply StaysP.ite | split | dsimp only [StaysP])

theorem State.soleEnter_stays {z s : State} (h : Stays z s) (v : Verdict) (fb : Bool) :
  Stays z (State.soleEnter s v fb) := by
  unfold State.soleEnter
  repeat' with_reducible (first | assumption | apply State.judgeHi_stays | apply State.putBit_stays | apply State.putBytes_stays | apply State.withBoot_stays | apply State.setCore_stays | apply State.wr_stays | apply Stays.ite | split | dsimp only)

theorem State.romWipe_stays {z s : State} (h : Stays z s) (v : Verdict) :
  Stays z (State.romWipe s v) := by
  unfold State.romWipe
  repeat' with_reducible (first | assumption | apply State.putBytes_stays | apply Stays.ite | split | dsimp only)

theorem State.soleBoot_stays {z s : State} (h : Stays z s)  :
  Stays z (State.soleBoot s) := by
  unfold State.soleBoot
  repeat' with_reducible (first | intro _ | assumption | apply State.romWipe_stays | apply State.soleEnter_stays | apply State.verify_stays | apply State.bootEvent_stays | apply State.putBit_stays | apply State.withBoot_stays | apply State.setCore_stays | apply Stays.ite | apply StaysP.ite | split | dsimp only [StaysP])

theorem State.verStart_stays {z s : State} (h : Stays z s) (v : W32) :
  Stays z (State.verStart s v) := by
  unfold State.verStart
  repeat' with_reducible (first | assumption | apply State.setFld_stays | apply State.withBoot_stays | apply State.putBit_stays | apply Stays.ite)

theorem State.applyKey_stays {z s : State} (h : Stays z s) (v : Verdict) :
  StaysP z (State.applyKey s v) := by
  unfold State.applyKey
  repeat' with_reducible (first | assumption | apply State.withBoot_stays | apply Stays.ite | apply StaysP.ite | dsimp only [StaysP])

theorem State.inPlace_stays {z s : State} (h : Stays z s) (a : Nat) (v : Verdict) :
  StaysP z (State.inPlace s a v) := by
  unfold State.inPlace
  repeat' with_reducible (first | intro _ | assumption | apply State.wipe_stays | apply State.deliver_stays | apply Stays.ite | apply StaysP.ite | split | dsimp only [StaysP])

theorem State.verRun_stays {z s : State} (h : Stays z s) (purpose : Nat) (a : Nat) :
  StaysP z (State.verRun s purpose a) := by
  unfold State.verRun
  repeat' with_reducible (first | intro _ | assumption | apply State.inPlace_stays | apply State.applyKey_stays | apply State.stageDie_stays | apply State.wipe_stays | apply State.deliver_stays | apply State.verify_stays | apply State.verifyWith_stays | apply State.setFld_stays | apply State.withBoot_stays | apply Stays.ite | apply StaysP.ite | split | dsimp only [StaysP])

theorem State.verReady_stays {z s : State} (h : Stays z s) (a : Nat) :
  StaysP z (State.verReady s a) := by
  unfold State.verReady
  repeat' with_reducible (first | intro _ | assumption | apply State.askAll_stays | apply Stays.ite | apply StaysP.ite | split | dsimp only [StaysP])

theorem State.verDone_stays {z s : State} (h : Stays z s)  :
  Stays z (State.verDone s) := by
  unfold State.verDone
  repeat' with_reducible (first | intro _ | assumption | apply State.verReady_stays | apply State.verRun_stays | apply State.bootEvent_stays | apply State.dropHere_stays | apply State.putBit_stays | apply State.setFld_stays | apply State.withBoot_stays | apply Stays.ite | apply StaysP.ite | split | dsimp only [StaysP])

theorem State.rollCommit_stays {z s : State} (h : Stays z s) (v : W32) :
  Stays z (State.rollCommit s v) := by
  unfold State.rollCommit
  repeat' with_reducible (first | intro _ | assumption | apply State.each_stays | apply State.setFld_stays | apply Stays.ite | dsimp only | split | apply foldl_stays)

theorem State.swapEnd_stays {z s : State} (h : Stays z s) (code : Nat) :
  Stays z (State.swapEnd s code) := by
  unfold State.swapEnd
  repeat' with_reducible (first | assumption | apply State.withBoot_stays | apply State.setFld_stays | apply State.putBit_stays | apply Stays.ite)

theorem State.swapCommit_stays {z s : State} (h : Stays z s) (w : Swap) :
  Stays z (State.swapCommit s w) := by
  unfold State.swapCommit
  repeat' with_reducible (first | intro _ | assumption | apply State.swapEnd_stays | apply State.heelEnter_stays | apply State.dieFetch_stays | apply State.judgeDi_stays | apply State.judgeHi_stays | apply State.syncLive_stays | apply State.putBit_stays | apply State.eachCore_stays | apply State.each_stays | apply State.withBoot_stays | apply State.wr_stays | apply Stays.ite | split | dsimp only)

theorem State.swapFail_stays {z s : State} (h : Stays z s) (code : Nat) :
  Stays z (State.swapFail s code) := by
  unfold State.swapFail
  repeat' with_reducible (first | assumption | apply State.swapEnd_stays | apply State.bootEvent_stays | apply Stays.ite | split | dsimp only)

theorem State.swapGo_stays {z s : State} (h : Stays z s) (w : Swap) :
  Stays z (State.swapGo s w) := by
  unfold State.swapGo
  repeat' with_reducible (first | assumption | apply State.swapFail_stays | apply State.swapCommit_stays | apply Stays.ite | split | dsimp only)

theorem State.swapRequest_stays {z s : State} (h : Stays z s) (v : W32) :
  Stays z (State.swapRequest s v) := by
  unfold State.swapRequest
  repeat' with_reducible (first | intro _ | assumption | apply State.swapFail_stays | apply State.swapCommit_stays | apply State.swapEnd_stays | apply State.heelEvent_stays | apply State.verify_stays | apply State.putBit_stays | apply State.setFld_stays | apply State.withBoot_stays | apply Stays.ite | apply StaysP.ite | split | dsimp only [StaysP])

theorem State.swapEnter_stays {z s : State} (h : Stays z s) (n : Fin 10) :
  Stays z (State.swapEnter s n) := by
  unfold State.swapEnter
  repeat' with_reducible (first | assumption | apply State.setCore_stays | apply Stays.ite | split | dsimp only)

theorem State.hcmdAnswer_stays {z s : State} (h : Stays z s) (status : Nat) (ws : List W32) :
  Stays z (State.hcmdAnswer s status ws) := by
  unfold State.hcmdAnswer
  repeat' with_reducible (first | assumption | apply State.putBit_stays | apply State.withBoot_stays | apply Stays.ite | split | dsimp only)

theorem State.hcmdRun_stays {z s : State} (h : Stays z s) (p : Nat → Bool) (f : State → List W32 → State × Nat × List W32)
    (hf : ∀ t ws, Stays z t → StaysP z (f t ws)) : Stays z (State.hcmdRun s p f) := by
  unfold State.hcmdRun
  repeat' with_reducible (first | intro _ | assumption | apply hf | apply State.hcmdAnswer_stays | apply State.withBoot_stays | apply Stays.ite | apply StaysP.ite | split | dsimp only)


theorem State.hcmdWinter_stays {z s : State} (h : Stays z s) (ops : List W32) :
  StaysP z (State.hcmdWinter s ops) := by
  unfold State.hcmdWinter
  repeat' with_reducible (first | assumption | apply State.winterRequest_stays | apply State.withSup_stays | apply Stays.ite | apply StaysP.ite | dsimp only [StaysP])

theorem State.accWrite_stays {z s : State} (h : Stays z s) (a : Nat) (v : W32) :
  Stays z (State.accWrite s a v) := by
  unfold State.accWrite
  repeat' with_reducible (first | assumption | apply State.wr_stays | apply Stays.ite | dsimp only | split)

theorem State.tbaseWrite_stays {z s : State} (h : Stays z s) (a : Nat) (v : W32) :
  StaysO z (State.tbaseWrite s a v) := by
  unfold State.tbaseWrite
  repeat' with_reducible (first | intro _ | assumption | apply State.accWrite_stays | apply State.clearTbStatus_stays | apply State.commitAlarm_stays | apply State.fireAlarm_stays | apply State.withTb_stays | apply Stays.ite | apply StaysP.ite | apply StaysO.ite | apply StaysOP.ite | apply StaysO.some | apply StaysO.none | apply StaysOP.some | apply StaysOP.none | apply StaysO.getD | apply StaysO.or | apply StaysOP.or | split | dsimp only [StaysP] | (apply StaysO.of_eq ‹_›) | (apply StaysOP.of_eq ‹_›))

theorem State.tbaseRead_stays {z s : State} (h : Stays z s) (i : Ini) (a : Nat) :
  StaysP z (State.tbaseRead s i a) := by
  unfold State.tbaseRead
  repeat' with_reducible (first | assumption | apply State.withTb_stays | apply Stays.ite | apply StaysP.ite | dsimp only [StaysP])

theorem State.pmbStart_stays {z s : State} (h : Stays z s) (v : W32) :
  Stays z (State.pmbStart s v) := by
  unfold State.pmbStart
  repeat' with_reducible (first | assumption | apply State.putBit_stays | apply State.withSup_stays | apply State.wr_stays | apply Stays.ite | split | dsimp only)

theorem State.pwrReq_stays {z s : State} (h : Stays z s) (v : W32) :
  Stays z (State.pwrReq s v) := by
  unfold State.pwrReq
  repeat' with_reducible (first | intro _ | assumption | apply State.stageForSummer_stays | apply State.summerCheck_stays | apply State.autumnEntry_stays | apply State.setPower_stays | apply State.setEn_stays | apply State.putBit_stays | apply State.withSup_stays | apply foldl_stays | apply Stays.ite | apply foldl_stays | split | dsimp only)

theorem State.pwrWrite_stays {z s : State} (h : Stays z s) (i : Ini) (a : Nat) (v : W32) :
  StaysO z (State.pwrWrite s i a v) := by
  unfold State.pwrWrite
  repeat' with_reducible (first | intro _ | assumption | apply State.pwrReq_stays | apply State.accWrite_stays | apply State.wdogRestart_stays | apply State.wdogExpire_stays | apply State.rstWrite_stays | apply State.winterWrite_stays | apply State.winterEnd_stays | apply State.wr_stays | apply Stays.ite | apply StaysP.ite | apply StaysO.ite | apply StaysOP.ite | apply StaysO.some | apply StaysO.none | apply StaysOP.some | apply StaysOP.none | apply StaysO.getD | apply StaysO.or | apply StaysOP.or | split | dsimp only [StaysP] | (apply StaysO.of_eq ‹_›) | (apply StaysOP.of_eq ‹_›))

theorem State.wakeWrite_stays {z s : State} (h : Stays z s) (a : Nat) (v : W32) :
  StaysO z (State.wakeWrite s a v) := by
  unfold State.wakeWrite
  repeat' with_reducible (first | assumption | apply State.accWrite_stays | apply State.withSup_stays | apply Stays.ite | apply StaysO.some | apply StaysO.none | apply StaysO.ite)

theorem State.bootWrite_stays {z s : State} (h : Stays z s) (i : Ini) (a : Nat) (v : W32) :
  StaysO z (State.bootWrite s i a v) := by
  unfold State.bootWrite
  repeat' with_reducible (first | intro _ | assumption | apply State.swapRequest_stays | apply State.swapGo_stays | apply State.swapEnd_stays | apply State.rollCommit_stays | apply State.verStart_stays | apply State.putBit_stays | apply State.withBoot_stays | apply State.clearMem_stays | apply State.wr_stays | apply Stays.ite | apply StaysP.ite | apply StaysO.ite | apply StaysOP.ite | apply StaysO.some | apply StaysO.none | apply StaysOP.some | apply StaysOP.none | apply StaysO.getD | apply StaysO.or | apply StaysOP.or | split | dsimp only [StaysP] | (apply StaysO.of_eq ‹_›) | (apply StaysOP.of_eq ‹_›))

theorem State.bootRead_stays {z s : State} (h : Stays z s) (a : Nat) :
  StaysP z (State.bootRead s a) := by
  unfold State.bootRead
  repeat' with_reducible (first | assumption | apply State.withBoot_stays | apply Stays.ite | apply StaysP.ite | dsimp only [StaysP] | dsimp only | split)

theorem State.grdCfgStat_stays {z s : State} (h : Stays z s) (c : Nat) (bit : Nat) (n : Nat) (j : Nat) :
  Stays z (State.grdCfgStat s c bit n j) := by
  unfold State.grdCfgStat
  repeat' with_reducible (first | assumption | apply State.setFld_stays | apply State.putBit_stays | apply Stays.ite)

theorem State.grdTableWrite_stays {z s : State} (h : Stays z s) (a : Nat) (v : W32) :
  StaysO z (State.grdTableWrite s a v) := by
  unfold State.grdTableWrite
  repeat' with_reducible (first | assumption | apply State.grdCfgStat_stays | apply State.wr_stays | apply Stays.ite | apply StaysO.some | apply StaysO.none | apply StaysO.ite | dsimp only | split)

theorem State.grdCtlWrite_stays {z s : State} (h : Stays z s) (i : Ini) (a : Nat) (v : W32) :
  StaysO z (State.grdCtlWrite s i a v) := by
  unfold State.grdCtlWrite
  repeat' with_reducible (first | assumption | apply State.wr_stays | apply State.putBit_stays | apply State.setCore_stays | apply Stays.ite | apply StaysO.some | apply StaysO.none | apply StaysO.ite | dsimp only | split)

theorem State.regHook_stays {z s : State} (h : Stays z s) (i : Ini) (a : Nat) (v : W32) :
  Stays z (State.regHook s i a v) := by
  unfold State.regHook
  repeat' with_reducible (first | intro _ | assumption | apply State.grdCtlWrite_stays | apply State.grdTableWrite_stays | apply State.bootWrite_stays | apply State.wakeWrite_stays | apply State.pwrWrite_stays | apply State.pmbStart_stays | apply State.tbaseWrite_stays | apply State.accWrite_stays | apply State.syncWrite_stays | apply State.engWrite_stays | apply State.fabWrite_stays | apply State.trkWrite_stays | apply State.swiWrite_stays | apply State.qdecWrite_stays | apply State.hbrWrite_stays | apply State.hsoWrite_stays | apply State.faultWrite_stays | apply State.clusterWrite_stays | apply State.laceWrite_stays | apply State.traceWrite_stays | apply State.dbgWrite_stays | apply State.awlWrite_stays | apply State.routeWrite_stays | apply State.coreCtlWrite_stays | apply State.xcvWrite_stays | apply State.linWrite_stays | apply State.lastWrite_stays | apply State.mbcWrite_stays | apply State.angWrite_stays | apply Stays.ite | apply StaysP.ite | apply StaysO.ite | apply StaysOP.ite | apply StaysO.some | apply StaysO.none | apply StaysOP.some | apply StaysOP.none | apply StaysO.getD | apply StaysO.or | apply StaysOP.or | split | dsimp only [StaysP])

theorem State.regRead_stays {z s : State} (h : Stays z s) (i : Ini) (a : Nat) :
  StaysP z (State.regRead s i a) := by
  unfold State.regRead
  repeat' with_reducible (first | intro _ | assumption | apply State.bootRead_stays | apply State.tbaseRead_stays | apply State.syncRead_stays | apply State.unitReadReg_stays | apply State.linReadPop_stays | apply State.angReadLatch_stays | apply State.drawn_stays | apply State.withSup_stays | apply Stays.ite | apply StaysP.ite | apply StaysO.ite | apply StaysOP.ite | apply StaysO.some | apply StaysO.none | apply StaysOP.some | apply StaysOP.none | apply StaysO.getD | apply StaysO.or | apply StaysOP.or | split | dsimp only [StaysP] | (apply StaysO.of_eq ‹_›) | (apply StaysOP.of_eq ‹_›))

theorem State.regWriteAt_stays {z s : State} (h : Stays z s) (i : Ini) (r : Region) (a : Nat) (v : W32) :
  StaysP z (State.regWriteAt s i r a v) := by
  unfold State.regWriteAt
  repeat' with_reducible (first | assumption | apply State.regHook_stays | apply Stays.ite | apply StaysP.ite | dsimp only [StaysP] | dsimp only | split)

theorem State.regReadAt_stays {z s : State} (h : Stays z s) (i : Ini) (r : Region) (a : Nat) :
  StaysP z (State.regReadAt s i r a) := by
  unfold State.regReadAt
  repeat' with_reducible (first | assumption | apply State.regRead_stays | apply Stays.ite | apply StaysP.ite | dsimp only [StaysP])

theorem State.serveWrite_stays {z s : State} (h : Stays z s) (i : Ini) (r : Region) (a : Nat) (bs : List Byte) :
  StaysP z (State.serveWrite s i r a bs) := by
  unfold State.serveWrite
  repeat' with_reducible (first | assumption | apply State.regWriteAt_stays | apply State.memWrite_stays | apply Stays.ite | apply StaysP.ite | dsimp only [StaysP])

theorem State.serveRead_stays {z s : State} (h : Stays z s) (i : Ini) (r : Region) (a : Nat) (n : Nat) :
  StaysP z (State.serveRead s i r a n) := by
  unfold State.serveRead
  repeat' with_reducible (first | assumption | apply State.regReadAt_stays | apply State.memRead_stays | apply Stays.ite | apply StaysP.ite | dsimp only [StaysP])

theorem State.serveAt_stays {z s : State} (h : Stays z s) (n : NetReq) (answer : List Byte) (reason : Nat) :
  StaysP z (State.serveAt s n answer reason) := by
  unfold State.serveAt
  repeat' with_reducible (first | assumption | apply State.memAtomic_stays | apply State.serveWrite_stays | apply State.serveRead_stays | apply Stays.ite | apply StaysP.ite | dsimp only [StaysP] | dsimp only | split)

theorem State.serveNet_stays {z s : State} (h : Stays z s) (n : NetReq) (answer : List Byte) (reason : Nat) :
  Stays z (State.serveNet s n answer reason) := by
  unfold State.serveNet
  repeat' with_reducible (first | intro _ | assumption | apply State.serveAt_stays | apply State.answerBack_stays | apply Stays.ite | apply StaysP.ite | split | dsimp only [StaysP])

theorem State.drain_stays {z s : State} (h : Stays z s) (q : Req) (x3 : Nat) :
  Stays z (State.drain s q x3) := by
  induction x3 generalizing s q with
  | zero =>
    unfold State.drain
    repeat' with_reducible (first | assumption | apply ih | apply State.serveNet_stays | apply State.grant_stays | apply Stays.ite | split | dsimp only)
  | succ n ih =>
    unfold State.drain
    repeat' with_reducible (first | assumption | apply ih | apply State.serveNet_stays | apply State.grant_stays | apply Stays.ite | split | dsimp only)

theorem State.arrive_stays {z s : State} (h : Stays z s) (q : Req) :
  Stays z (State.arrive s q) := by
  unfold State.arrive
  repeat' with_reducible (first | assumption | apply State.drain_stays | apply State.passOver_stays | apply Stays.ite | split | dsimp only)

theorem State.reach_stays {z s : State} (h : Stays z s) (q : Req) :
  StaysP z (State.reach s q) := by
  unfold State.reach
  repeat' with_reducible (first | intro _ | assumption | apply State.arrive_stays | apply State.enter_stays | apply Stays.ite | apply StaysP.ite | split | dsimp only [StaysP])

theorem State.busWrite_stays {z s : State} (h : Stays z s) (q : Req) (bs : List Byte) :
  StaysP z (State.busWrite s q bs) := by
  unfold State.busWrite
  repeat' with_reducible (first | intro _ | assumption | apply State.reach_stays | apply State.serveWrite_stays | apply State.notice_stays | apply State.captureRefusal_stays | apply Stays.ite | apply StaysP.ite | split | dsimp only [StaysP])

theorem State.busRead_stays {z s : State} (h : Stays z s) (q : Req) :
  StaysP z (State.busRead s q) := by
  unfold State.busRead
  repeat' with_reducible (first | intro _ | assumption | apply State.reach_stays | apply State.serveRead_stays | apply State.captureRefusal_stays | apply Stays.ite | apply StaysP.ite | split | dsimp only [StaysP])

theorem State.engRead_stays {z s : State} (h : Stays z s) (q : Req) :
  StaysP z (State.engRead s q) := by
  unfold State.engRead
  repeat' with_reducible (first | intro _ | assumption | apply State.busRead_stays | apply State.takeAnswer_stays | apply State.ask_stays | apply Stays.ite | apply StaysP.ite | split | dsimp only [StaysP])

theorem State.faultOf_stays {z s : State} (h : Stays z s) (q : Req) (reason : Nat) :
  Stays z (State.faultOf s q reason) := by
  unfold State.faultOf
  repeat' with_reducible (first | assumption | apply State.except_stays | apply Stays.ite | dsimp only | split)

theorem State.regWrite_stays {z s : State} (h : Stays z s) (i : Ini) (a : Nat) (v : W32) :
  Stays z (State.regWrite s i a v) := by
  unfold State.regWrite
  repeat' with_reducible (first | assumption | apply State.busWrite_stays | apply State.faultOf_stays | apply Stays.ite | dsimp only | split)

theorem State.regReadCmd_stays {z s : State} (h : Stays z s) (i : Ini) (a : Nat) :
  Stays z (State.regReadCmd s i a) := by
  unfold State.regReadCmd
  repeat' with_reducible (first | assumption | apply State.busRead_stays | apply State.withRet_stays | apply State.faultOf_stays | apply Stays.ite | dsimp only | split)

theorem execAngCrankEdge_stays {z s : State} (h : Stays z s) (rising : Bool) (cam : Bool) (volts : List (BitVec 12)) :
  StaysX z (execAngCrankEdge rising cam volts s) := by
  unfold execAngCrankEdge
  repeat' with_reducible (first | assumption | apply State.crankEdge_stays | apply done_stays | apply Stays.ite | apply StaysX.next | apply StaysX.ite | split | dsimp only)

theorem execAngTrailingEdge_stays {z s : State} (h : Stays z s)  :
  StaysX z (execAngTrailingEdge s) := by
  unfold execAngTrailingEdge
  repeat' with_reducible (first | assumption | apply done_stays | apply State.toothForward_stays | apply Stays.ite | apply StaysX.next | apply StaysX.ite)

theorem execAngDirthExpire_stays {z s : State} (h : Stays z s)  :
  StaysX z (execAngDirthExpire s) := by
  unfold execAngDirthExpire
  repeat' with_reducible (first | assumption | apply State.toothReverse_stays | apply done_stays | apply Stays.ite | apply StaysX.next | apply StaysX.ite | split | dsimp only)

theorem execAngStall_stays {z s : State} (h : Stays z s)  :
  StaysX z (execAngStall s) := by
  unfold execAngStall
  repeat' with_reducible (first | assumption | apply done_stays | apply State.angStall_stays | apply Stays.ite | apply StaysX.next | apply StaysX.ite | dsimp only | split)

theorem execAngOccurrenceBegin_stays {z s : State} (h : Stays z s) (c : Fin 24) (volts : List (BitVec 12)) :
  StaysX z (execAngOccurrenceBegin c volts s) := by
  unfold execAngOccurrenceBegin
  repeat' with_reducible (first | intro _ | assumption | apply State.chRun_stays | apply State.chBegin_stays | apply done_stays | apply Stays.ite | apply StaysX.next | apply StaysX.ite | split | dsimp only)

theorem execAngOccurrenceEnd_stays {z s : State} (h : Stays z s) (c : Fin 24) :
  StaysX z (execAngOccurrenceEnd c s) := by
  unfold execAngOccurrenceEnd
  repeat' with_reducible (first | intro _ | assumption | apply State.chEnd_stays | apply done_stays | apply Stays.ite | apply StaysX.next | apply StaysX.ite | split | dsimp only)

theorem execAngChangWrite_stays {z s : State} (h : Stays z s) (i : Ini) (c : Fin 24) (dur : Bool) (v : W32) :
  StaysX z (execAngChangWrite i c dur v s) := by
  unfold execAngChangWrite
  repeat' with_reducible (first | assumption | apply done_stays | apply State.regWrite_stays | apply Stays.ite | apply StaysX.next | apply StaysX.ite)

theorem execAngChcfgWrite_stays {z s : State} (h : Stays z s) (i : Ini) (c : Fin 24) (v : W32) :
  StaysX z (execAngChcfgWrite i c v s) := by
  unfold execAngChcfgWrite
  repeat' with_reducible (first | assumption | apply done_stays | apply State.regWrite_stays | apply Stays.ite | apply StaysX.next | apply StaysX.ite)

theorem execAngCtlWrite_stays {z s : State} (h : Stays z s) (i : Ini) (v : W32) :
  StaysX z (execAngCtlWrite i v s) := by
  unfold execAngCtlWrite
  repeat' with_reducible (first | assumption | apply done_stays | apply State.regWrite_stays | apply Stays.ite | apply StaysX.next | apply StaysX.ite)

theorem execAngTstampRead_stays {z s : State} (h : Stays z s) (i : Ini) :
  StaysX z (execAngTstampRead i s) := by
  unfold execAngTstampRead
  repeat' with_reducible (first | assumption | apply done_stays | apply State.regReadCmd_stays | apply Stays.ite | apply StaysX.next | apply StaysX.ite)

theorem State.strLineCount_stays {z s : State} (h : Stays z s) (u : Nat) (a : Nat) :
  Stays z (State.strLineCount s u a) := by
  unfold State.strLineCount
  repeat' with_reducible (first | intro _ | assumption | apply State.onStream_stays | apply Stays.ite | split | dsimp only)

theorem State.strLine_stays {z s : State} (h : Stays z s) (u : Nat) (line : Nat) (early : Bool) :
  StaysP z (State.strLine s u line early) := by
  unfold State.strLine
  repeat' with_reducible (first | intro _ | assumption | apply State.strLineCount_stays | apply State.engRead_stays | apply Stays.ite | apply StaysP.ite | split | dsimp only [StaysP])

theorem State.strGen_stays {z s : State} (h : Stays z s) (u : Nat) (a : Nat) (n : Nat) :
  StaysP z (State.strGen s u a n) := by
  unfold State.strGen
  repeat' with_reducible (first | intro _ | assumption | apply State.strLine_stays | apply State.strError_stays | apply State.onStream_stays | apply State.setStream_stays | apply Stays.ite | apply StaysP.ite | split | dsimp only [StaysP])

theorem State.strGenMove_stays {z s : State} (h : Stays z s) (u : Nat) (a : Nat) (x4 : Nat) :
  Stays z (State.strGenMove s u a x4) := by
  induction x4 generalizing s u a with
  | zero =>
    unfold State.strGenMove
    repeat' with_reducible (first | intro _ | assumption | apply ih | apply State.strGen_stays | apply State.onStream_stays | apply Stays.ite | apply StaysP.ite | split | dsimp only [StaysP])
  | succ n ih =>
    unfold State.strGenMove
    repeat' with_reducible (first | intro _ | assumption | apply ih | apply State.strGen_stays | apply State.onStream_stays | apply Stays.ite | apply StaysP.ite | split | dsimp only [StaysP])

theorem State.strSettle_stays {z s : State} (h : Stays z s) (u : Nat) :
  Stays z (State.strSettle s u) := by
  unfold State.strSettle
  repeat' with_reducible (first | assumption | apply State.setStream_stays | apply Stays.ite | split | dsimp only)

theorem State.strTake_stays {z s : State} (h : Stays z s) (u : Nat) (n : Nat) :
  StaysP z (State.strTake s u n) := by
  unfold State.strTake
  repeat' with_reducible (first | intro _ | assumption | apply State.strSettle_stays | apply State.setStream_stays | apply Stays.ite | apply StaysP.ite | split | dsimp only [StaysP])

theorem State.strFlush_stays {z s : State} (h : Stays z s) (u : Nat) :
  Stays z (State.strFlush s u) := by
  unfold State.strFlush
  repeat' with_reducible (first | intro _ | assumption | apply State.strLineCount_stays | apply State.busWrite_stays | apply State.strError_stays | apply State.onStream_stays | apply State.withNet_stays | apply Stays.ite | apply StaysP.ite | split | dsimp only [StaysP])

theorem State.strPlace_stays {z s : State} (h : Stays z s) (u : Nat) (a : Nat) (b : Option Byte) :
  Stays z (State.strPlace s u a b) := by
  unfold State.strPlace
  repeat' with_reducible (first | assumption | apply State.strFlush_stays | apply State.setStream_stays | apply Stays.ite | dsimp only | split)

theorem State.strPlaceAll_stays {z s : State} (h : Stays z s) (u : Nat) (a : Nat) (x3 : List (Option Byte)) :
  Stays z (State.strPlaceAll s u a x3) := by
  induction x3 generalizing s u a with
  | nil =>
    unfold State.strPlaceAll
    repeat' with_reducible (first | intro _ | assumption | apply State.strPlace_stays | apply Stays.ite | apply StaysP.ite | apply StaysO.ite | apply StaysOP.ite | apply StaysO.some | apply StaysO.none | apply StaysOP.some | apply StaysOP.none | apply StaysO.getD | apply StaysO.or | apply StaysOP.or | apply foldl_stays | split | dsimp only [StaysP] | (apply StaysO.of_eq ‹_›) | (apply StaysP.of_eq ‹_›) | (apply StaysOP.of_eq ‹_›))
  | cons b l ih =>
    unfold State.strPlaceAll
    repeat' with_reducible (first | intro _ | assumption | apply ih | apply State.strPlace_stays | apply Stays.ite | apply StaysP.ite | apply StaysO.ite | apply StaysOP.ite | apply StaysO.some | apply StaysO.none | apply StaysOP.some | apply StaysOP.none | apply StaysO.getD | apply StaysO.or | apply StaysOP.or | apply foldl_stays | split | dsimp only [StaysP] | (apply StaysO.of_eq ‹_›) | (apply StaysP.of_eq ‹_›) | (apply StaysOP.of_eq ‹_›))

theorem State.soPump_stays {z s : State} (h : Stays z s) (k : Nat) :
  Stays z (State.soPump s k) := by
  unfold State.soPump
  repeat' with_reducible (first | assumption | apply State.endEntry_stays | apply State.setMat_stays | apply State.setStream_stays | apply Stays.ite | split | dsimp only)

theorem State.strAccept_stays {z s : State} (h : Stays z s) (u : Nat) (ext : List Byte) :
  Stays z (State.strAccept s u ext) := by
  unfold State.strAccept
  repeat' with_reducible (first | intro _ | assumption | apply State.soPump_stays | apply State.onStream_stays | apply Stays.ite | split | dsimp only)

theorem State.strFeed_stays {z s : State} (h : Stays z s) (u : Nat) :
  Stays z (State.strFeed s u) := by
  unfold State.strFeed
  repeat' with_reducible (first | intro _ | assumption | apply State.strTake_stays | apply State.setRgn_stays | apply Stays.ite | apply StaysP.ite | split | dsimp only [StaysP])

theorem State.strFail_stays {z s0 : State} (h : Stays z s0) (u : Nat) (status : Nat) (reason : Nat) :
  Stays z (State.strFail s0 u status reason) := by
  unfold State.strFail
  repeat' with_reducible (first | assumption | apply State.strFlush_stays | apply State.strError_stays | apply Stays.ite | split | dsimp only)

theorem State.bindCheck_stays {z s : State} (h : Stays z s) (u : Nat) :
  Stays z (State.bindCheck s u) := by
  unfold State.bindCheck
  repeat' with_reducible (first | assumption | apply State.strFail_stays | apply Stays.ite | split | dsimp only)

theorem State.strIllegal_stays {z s : State} (h : Stays z s) (u : Nat) :
  Stays z (State.strIllegal s u) := by
  unfold State.strIllegal
  repeat' with_reducible (first | assumption | apply State.strFail_stays | apply Stays.ite | split | dsimp only)

theorem State.strFetch_stays {z s : State} (h : Stays z s) (u : Nat) (p : StrProg) :
  StaysP z (State.strFetch s u p) := by
  unfold State.strFetch
  repeat' with_reducible (first | intro _ | assumption | apply State.engRead_stays | apply State.onStream_stays | apply Stays.ite | apply StaysP.ite | split | dsimp only [StaysP])

theorem State.strExec_stays {z s : State} (h : Stays z s) (u : Nat) (op : Nat) (run : State → W32 → W32 → State) (hrun : ∀ t0 a1 a2, Stays z t0 → Stays z (run t0 a1 a2)) :
  Stays z (State.strExec s u op run) := by
  unfold State.strExec
  repeat' with_reducible (first | intro _ | assumption | apply hrun | apply State.strFetch_stays | apply State.strIllegal_stays | apply State.strFail_stays | apply Stays.ite | apply StaysP.ite | split | dsimp only [StaysP])

theorem State.localSeal_stays {z s : State} (h : Stays z s) (n : Nat) : Stays z (s.localSeal n) := by
  unfold State.localSeal
  have hp : StaysP z (s.busWrite (s.lineReq (s.sealAddr n)) (s.sealNow n).bytes) := State.busWrite_stays h _ _
  with_reducible apply Stays.ite
  · generalize s.busWrite (s.lineReq (s.sealAddr n)) (s.sealNow n).bytes = p at hp ⊢
    cases p with
    | mk t r => cases r with
      | ok b => with_reducible exact State.withEng_stays hp _
      | bad c => with_reducible exact State.trkFail_stays hp _ _
      | other => with_reducible exact State.trkFail_stays hp _ _
  · with_reducible exact State.trkFail_stays h _ _

theorem State.makeSeal_stays {z s : State} (h : Stays z s) (n : Nat) :
  Stays z (State.makeSeal s n) := by
  unfold State.makeSeal
  repeat' with_reducible (first | assumption | apply State.setFld_stays | apply State.withEng_stays | apply Stays.ite | split | dsimp only)

theorem State.sendSeal_stays {z s : State} (h : Stays z s) (n : Nat) (q : Req) : Stays z (s.sendSeal n q) := by
  unfold State.sendSeal
  have hp : StaysP z (s.busWrite q (s.sealNow n).bytes) := State.busWrite_stays h _ _
  generalize s.busWrite q (s.sealNow n).bytes = p at hp ⊢
  cases p with
  | mk t r => cases r with
    | ok b => with_reducible exact State.trkFail_stays hp _ _
    | bad c => with_reducible exact State.trkFail_stays hp _ _
    | other => with_reducible exact State.withNet_stays hp _

theorem State.beginSeal_stays {z s0 : State} (h : Stays z s0) (n : Nat) :
  Stays z (State.beginSeal s0 n) := by
  unfold State.beginSeal
  repeat' with_reducible (first | assumption | apply State.sendSeal_stays | apply State.makeSeal_stays | apply State.localSeal_stays | apply State.trkFail_stays | apply Stays.ite | split | dsimp only)

theorem State.ckptOk_stays {z s : State} (h : Stays z s) (id : W32) (len : Nat) :
  Stays z (State.ckptOk s id len) := by
  unfold State.ckptOk
  repeat' with_reducible (first | assumption | apply State.trkFail_stays | apply State.setFld_stays | apply State.wr2_stays | apply State.beginSeal_stays | apply Stays.ite | dsimp only | split)

theorem State.mirrorSealed_stays {z s : State} (h : Stays z s) (n : Nat) (reason : Nat) :
  Stays z (State.mirrorSealed s n reason) := by
  unfold State.mirrorSealed
  repeat' with_reducible (first | assumption | apply State.localSeal_stays | apply State.trkFail_stays | apply Stays.ite)

theorem State.localSealed_stays {z s : State} (h : Stays z s) (n : Nat) :
  Stays z (State.localSealed s n) := by
  unfold State.localSealed
  repeat' with_reducible (first | assumption | apply State.withEng_stays | apply State.putBit_stays | apply State.setFld_stays | apply State.wr_stays | apply Stays.ite)

theorem State.qAnswer_stays {z s : State} (h : Stays z s) (q : Req) :
  StaysP z (State.qAnswer s q) := by
  unfold State.qAnswer
  repeat' with_reducible (first | intro _ | assumption | apply State.engRead_stays | apply Stays.ite | apply StaysP.ite | split | dsimp only [StaysP])

theorem State.qFetch_stays {z s : State} (h : Stays z s) (k : Nat) (a : Word) (n : Nat) (cls : Nat) :
  StaysP z (State.qFetch s k a n cls) := by
  unfold State.qFetch
  repeat' with_reducible (first | intro _ | assumption | apply State.qAnswer_stays | apply Stays.ite | apply StaysP.ite | split | dsimp only [StaysP])

theorem State.openList_stays {z s : State} (h : Stays z s) (k : Nat) (a : Word) :
  Stays z (State.openList s k a) := by
  unfold State.openList
  repeat' with_reducible (first | intro _ | assumption | apply State.qFetch_stays | apply State.qStop_stays | apply State.onQueue_stays | apply Stays.ite | apply StaysP.ite | split | dsimp only [StaysP])

theorem State.listStart_stays {z s : State} (h : Stays z s) (k : Nat) :
  Stays z (State.listStart s k) := by
  unfold State.listStart
  repeat' with_reducible (first | intro _ | assumption | apply State.openList_stays | apply State.qFetch_stays | apply State.qStop_stays | apply Stays.ite | apply StaysP.ite | split | dsimp only [StaysP])

theorem State.qFin_stays {z s : State} (h : Stays z s) (k : Nat) (status : Nat) (reason : Nat) (a : Word) :
  Stays z (State.qFin s k status reason a) := by
  unfold State.qFin
  repeat' with_reducible (first | assumption | apply State.setQState_stays | apply State.onQueue_stays | apply Stays.ite)

theorem State.qOk_stays {z s : State} (h : Stays z s) (k : Nat) :
  Stays z (State.qOk s k) := by
  unfold State.qOk
  repeat' with_reducible (first | assumption | apply State.qFin_stays | apply Stays.ite)

theorem State.qWait_stays {z s : State} (h : Stays z s) (k : Nat) (w : QWait) :
  Stays z (State.qWait s k w) := by
  unfold State.qWait
  repeat' with_reducible (first | assumption | apply State.setQState_stays | apply State.onQueue_stays | apply Stays.ite)

theorem State.qWants_stays {z s : State} (h : Stays z s) (k : Nat) (r : List Nat) :
  Stays z (State.qWants s k r) := by
  unfold State.qWants
  repeat' with_reducible (first | intro _ | assumption | apply State.onQueue_stays | apply State.setQState_stays | apply Stays.ite | split | dsimp only)

theorem State.qTake_stays {z s : State} (h : Stays z s) (k : Nat) (r : List Nat) (free : Bool) (f : State → State) (hf : ∀ (t0 : State), Stays z t0 → Stays z (f t0)) :
  Stays z (State.qTake s k r free f) := by
  unfold State.qTake
  repeat' with_reducible (first | assumption | apply hf | apply State.withRot_stays | apply State.onQueue_stays | apply State.qWants_stays | apply Stays.ite)

theorem State.entWords_stays {z s : State} (h : Stays z s) (k : Nat) (a : Word) (cls : Nat) :
  StaysP z (State.entWords s k a cls) := by
  unfold State.entWords
  repeat' with_reducible (first | intro _ | assumption | apply State.qFetch_stays | apply Stays.ite | apply StaysP.ite | split | dsimp only [StaysP])

theorem State.entBegin_stays {z s : State} (h : Stays z s) (k : Nat) (w : List W32) (a : Word) :
  Stays z (State.entBegin s k w a) := by
  unfold State.entBegin
  repeat' with_reducible (first | intro _ | assumption | apply State.qCur_stays | apply State.onQueue_stays | apply State.setQState_stays | apply Stays.ite | split | dsimp only)

theorem State.entStart_stays {z s : State} (h : Stays z s) (k : Nat) (sel : List W32 → Bool) (used : List Nat) (ok : List W32 → Bool) (body : State → List W32 → State) (hbody : ∀ t0 a1, Stays z t0 → Stays z (body t0 a1)) :
  Stays z (State.entStart s k sel used ok body) := by
  unfold State.entStart
  repeat' with_reducible (first | intro _ | assumption | apply hbody | apply State.entBegin_stays | apply State.entWords_stays | apply State.qFin_stays | apply State.qStop_stays | apply Stays.ite | apply StaysP.ite | split | dsimp only [StaysP])

theorem State.ckptEnd_stays {z s : State} (h : Stays z s) (w : List W32) (status : Nat) :
  Stays z (State.ckptEnd s w status) := by
  unfold State.ckptEnd
  repeat' with_reducible (first | assumption | apply State.ckptOk_stays | apply State.ckptFail_stays | apply Stays.ite)

theorem State.release_stays {z s : State} (h : Stays z s) (k : Nat) :
  Stays z (State.release s k) := by
  unfold State.release
  repeat' with_reducible (first | intro _ | assumption | apply State.bindCheck_stays | apply State.strFeed_stays | apply State.unbind_stays | apply State.each_stays | apply Stays.ite | split | dsimp only)

theorem State.entryComplete_stays {z s0 : State} (h : Stays z s0) (k : Nat) :
  Stays z (State.entryComplete s0 k) := by
  unfold State.entryComplete
  repeat' with_reducible (first | intro _ | assumption | apply State.strFlush_stays | apply State.release_stays | apply State.setMat_stays | apply State.ckptEnd_stays | apply State.advSat_stays | apply State.signalOrEvent_stays | apply State.countSig_stays | apply State.onQueue_stays | apply State.listEnd_stays | apply State.listStep_stays | apply State.qStop_stays | apply Stays.ite | dsimp only | split | apply foldl_stays)

theorem State.qRead_stays {z s : State} (h : Stays z s) (k : Nat) (via : Nat) (a : Word) (n : Nat) (cls : Nat) :
  StaysP z (State.qRead s k via a n cls) := by
  unfold State.qRead
  repeat' with_reducible (first | intro _ | assumption | apply State.qAnswer_stays | apply Stays.ite | apply StaysP.ite | split | dsimp only [StaysP])

theorem State.qWrite_stays {z s : State} (h : Stays z s) (k : Nat) (via : Nat) (a : Word) (bs : List Byte) (cls : Nat) (always : Bool) :
  StaysP z (State.qWrite s k via a bs cls always) := by
  unfold State.qWrite
  repeat' with_reducible (first | intro _ | assumption | apply State.busWrite_stays | apply State.withNet_stays | apply Stays.ite | apply StaysP.ite | split | dsimp only [StaysP])

theorem State.copyRun_stays {z s : State} (h : Stays z s) (k : Nat) (via : Nat) (cls : Nat) (src : Nat) (dst : Nat) (left : Nat) (always : Bool) (x9 : Nat) :
  StaysP z (State.copyRun s k via cls src dst left always x9) := by
  induction x9 generalizing s k via cls src dst left always with
  | zero =>
    unfold State.copyRun
    repeat' with_reducible (first | intro _ | assumption | apply ih | apply State.qWrite_stays | apply State.qRead_stays | apply Stays.ite | apply StaysP.ite | split | dsimp only [StaysP])
  | succ n ih =>
    unfold State.copyRun
    repeat' with_reducible (first | intro _ | assumption | apply ih | apply State.qWrite_stays | apply State.qRead_stays | apply Stays.ite | apply StaysP.ite | split | dsimp only [StaysP])

theorem State.copyEnd_stays {z s : State} (h : Stays z s) (k : Nat) (n : Nat) (left : Nat) (e : Option EntryEnd) :
  Stays z (State.copyEnd s k n left e) := by
  unfold State.copyEnd
  repeat' with_reducible (first | intro _ | assumption | apply State.qFin_stays | apply State.onQueue_stays | apply Stays.ite | split | dsimp only)

theorem State.holdEntry_stays {z s : State} (h : Stays z s) (k : Nat) (kind : Kind) (a : Word) :
  StaysP z (State.holdEntry s k kind a) := by
  unfold State.holdEntry
  repeat' with_reducible (first | assumption | apply State.enter_stays | apply Stays.ite | apply StaysP.ite | dsimp only [StaysP])

theorem State.acq_stays {z s : State} (h : Stays z s) (k : Nat) (w : List W32) :
  Stays z (State.acq s k w) := by
  unfold State.acq
  repeat' with_reducible (first | assumption | apply State.qFin_stays | apply State.holdEntry_stays | apply State.grantHold_stays | apply State.qOk_stays | apply State.qWait_stays | apply State.setHold_stays | apply Stays.ite | dsimp only | split)

theorem State.rel_stays {z s : State} (h : Stays z s) (k : Nat) (w : List W32) :
  Stays z (State.rel s k w) := by
  unfold State.rel
  repeat' with_reducible (first | assumption | apply State.qFin_stays | apply State.holdEntry_stays | apply State.qOk_stays | apply State.freeHold_stays | apply Stays.ite | dsimp only | split)

theorem State.matBegin_stays {z s : State} (h : Stays z s) (k : Nat) (w : List W32) (m0 : Mat) :
  Stays z (State.matBegin s k w m0) := by
  unfold State.matBegin
  repeat' with_reducible (first | intro _ | assumption | apply State.bindCheck_stays | apply State.setMat_stays | apply State.onStream_stays | apply foldl_stays | apply Stays.ite | apply foldl_stays | split | dsimp only)

theorem State.matStart_stays {z s : State} (h : Stays z s) (k : Nat) (w : List W32) (fits : Bool) (m : Mat) (decode : Bool) :
  Stays z (State.matStart s k w fits m decode) := by
  unfold State.matStart
  repeat' with_reducible (first | intro _ | assumption | apply State.qFin_stays | apply State.qTake_stays | apply State.matBegin_stays | apply Stays.ite | dsimp only | split | apply foldl_stays)

theorem State.latch_stays {z s : State} (h : Stays z s) (k : Nat) (p : Nat) (w : List W32) (have_ : List Byte) (need : Nat) :
  StaysP z (State.latch s k p w have_ need) := by
  unfold State.latch
  repeat' with_reducible (first | assumption | apply State.strTake_stays | apply Stays.ite | apply StaysP.ite | dsimp only [StaysP])

theorem State.matPull_stays {z s : State} (h : Stays z s) (k : Nat) (w : List W32) (x : Shape) (m : Mat) :
  StaysP z (State.matPull s k w x m) := by
  unfold State.matPull
  repeat' with_reducible (first | assumption | apply State.latch_stays | apply Stays.ite | apply StaysP.ite | dsimp only [StaysP])

theorem State.matLoad_stays {z s : State} (h : Stays z s) (k : Nat) (w : List W32) (x : Shape) (m : Mat) (next : Nat) (inUse : Bool) :
  StaysP z (State.matLoad s k w x m next inUse) := by
  unfold State.matLoad
  repeat' with_reducible (first | intro _ | assumption | apply State.latch_stays | apply Stays.ite | apply StaysP.ite | split | dsimp only [StaysP])

theorem State.cubeFlags_stays {z s : State} (h : Stays z s) (g : Nat) (v : Nat) :
  Stays z (State.cubeFlags s g v) := by
  unfold State.cubeFlags
  repeat' with_reducible (first | assumption | apply State.wr_stays | apply Stays.ite)

theorem State.matStep_stays {z s : State} (h : Stays z s) (k : Nat) (w : List W32) (x : Shape) (m : Mat) :
  StaysP z (State.matStep s k w x m) := by
  unfold State.matStep
  repeat' with_reducible (first | assumption | apply State.withEng_stays | apply State.cubeFlags_stays | apply Stays.ite | apply StaysP.ite | dsimp only [StaysP])

theorem State.cubeStep_stays {z s : State} (h : Stays z s) (k : Nat) :
  Stays z (State.cubeStep s k) := by
  unfold State.cubeStep
  repeat' with_reducible (first | intro _ | assumption | apply State.matStep_stays | apply State.matLoad_stays | apply State.matPull_stays | apply State.soPump_stays | apply State.setMat_stays | apply Stays.ite | apply StaysP.ite | split | dsimp only [StaysP])

theorem State.readReqs_stays {z s : State} (h : Stays z s) (k : Nat) (x3 : List Nat) :
  StaysP z (State.readReqs s k x3) := by
  induction x3 generalizing s k with
  | nil =>
    unfold State.readReqs
    repeat' with_reducible (first | intro _ | assumption | apply ih | apply State.qFetch_stays | apply Stays.ite | apply StaysP.ite | split | dsimp only [StaysP])
  | cons x l ih =>
    unfold State.readReqs
    repeat' with_reducible (first | intro _ | assumption | apply ih | apply State.qFetch_stays | apply Stays.ite | apply StaysP.ite | split | dsimp only [StaysP])

theorem State.batchClose_stays {z s : State} (h : Stays z s) (k : Nat) :
  Stays z (State.batchClose s k) := by
  unfold State.batchClose
  repeat' with_reducible (first | intro _ | assumption | apply State.readReqs_stays | apply State.qFin_stays | apply State.askAll_stays | apply State.setMat_stays | apply Stays.ite | apply StaysP.ite | split | dsimp only [StaysP])

theorem State.dqSignal_stays {z s : State} (h : Stays z s) (k : Nat) (r : DqReq) :
  Stays z (State.dqSignal s k r) := by
  unfold State.dqSignal
  repeat' with_reducible (first | assumption | apply State.addCounter_stays | apply State.countSig_stays | apply State.event_stays | apply State.advSat_stays | apply Stays.ite | dsimp only | split)

theorem State.batchDone_stays {z s0 : State} (h : Stays z s0) (k : Nat) :
  Stays z (State.batchDone s0 k) := by
  unfold State.batchDone
  repeat' with_reducible (first | intro _ | assumption | apply State.strFlush_stays | apply State.dqSignal_stays | apply State.advWrap_stays | apply State.setFld_stays | apply State.setStamps_stays | apply State.endEntry_stays | apply Stays.ite | dsimp only | split | apply foldl_stays)

theorem State.spareIn_stays {z s : State} (h : Stays z s) (x : Nat) (pos : Nat) (retries : Nat) :
  Stays z (State.spareIn s x pos retries) := by
  unfold State.spareIn
  repeat' with_reducible (first | assumption | apply State.withEng_stays | apply State.permEvent_stays | apply State.logRec_stays | apply State.queueSummary_stays | apply Stays.ite)

theorem State.cubeFault_stays {z s : State} (h : Stays z s) (x : Nat) (pos : Nat) (n : Nat) :
  StaysP z (State.cubeFault s x pos n) := by
  unfold State.cubeFault
  repeat' with_reducible (first | assumption | apply State.advSat_stays | apply State.faultOrRetry_stays | apply State.spareIn_stays | apply State.permanent_stays | apply Stays.ite | apply StaysP.ite | dsimp only [StaysP])

theorem execEntMatmul_stays {z s : State} (h : Stays z s) (g : Fin 32) (q : Fin 4) :
  StaysX z (execEntMatmul g q s) := by
  unfold execEntMatmul
  repeat' with_reducible (first | intro _ | assumption | apply done_stays | apply State.entStart_stays | apply State.matStart_stays | apply Stays.ite | apply StaysX.next | apply StaysX.ite | dsimp only | split | apply foldl_stays)

theorem execEntConv_stays {z s : State} (h : Stays z s) (g : Fin 32) (q : Fin 4) :
  StaysX z (execEntConv g q s) := by
  unfold execEntConv
  repeat' with_reducible (first | intro _ | assumption | apply done_stays | apply State.entStart_stays | apply State.matStart_stays | apply Stays.ite | apply StaysX.next | apply StaysX.ite | dsimp only | split | apply foldl_stays)

theorem execEntDecode_stays {z s : State} (h : Stays z s) (g : Fin 32) (q : Fin 4) :
  StaysX z (execEntDecode g q s) := by
  unfold execEntDecode
  repeat' with_reducible (first | intro _ | assumption | apply done_stays | apply State.entStart_stays | apply State.matStart_stays | apply Stays.ite | apply StaysX.next | apply StaysX.ite | dsimp only | split | apply foldl_stays)

theorem execCubeStep_stays {z s : State} (h : Stays z s) (g : Fin 32) (q : Fin 4) :
  StaysX z (execCubeStep g q s) := by
  unfold execCubeStep
  repeat' with_reducible (first | assumption | apply done_stays | apply State.cubeStep_stays | apply Stays.ite | apply StaysX.next | apply StaysX.ite)

theorem execCubeStepError_stays {z s : State} (h : Stays z s) (g : Fin 32) (x : Fin 4) (pos : Fin 17) (e : StepErr) (n : Nat) :
  StaysX z (execCubeStepError g x pos e n s) := by
  unfold execCubeStepError
  repeat' with_reducible (first | intro _ | assumption | apply State.cubeFault_stays | apply State.cubeStep_stays | apply done_stays | apply Stays.ite | apply StaysX.next | apply StaysX.ite | apply StaysP.ite | split | dsimp only [StaysP])

theorem execDqDoorbell_stays {z s : State} (h : Stays z s) (i : Ini) (g : Fin 32) (tail : BitVec 16) :
  StaysX z (execDqDoorbell i g tail s) := by
  unfold execDqDoorbell
  repeat' with_reducible (first | assumption | apply done_stays | apply State.regWrite_stays | apply Stays.ite | apply StaysX.next | apply StaysX.ite)

theorem execDecodeBatchClose_stays {z s : State} (h : Stays z s) (g : Fin 32) (q : Fin 4) :
  StaysX z (execDecodeBatchClose g q s) := by
  unfold execDecodeBatchClose
  repeat' with_reducible (first | assumption | apply done_stays | apply State.batchClose_stays | apply Stays.ite | apply StaysX.next | apply StaysX.ite)

theorem execDecodeBatchDone_stays {z s : State} (h : Stays z s) (g : Fin 32) (q : Fin 4) :
  StaysX z (execDecodeBatchDone g q s) := by
  unfold execDecodeBatchDone
  repeat' with_reducible (first | assumption | apply done_stays | apply State.batchDone_stays | apply Stays.ite | apply StaysX.next | apply StaysX.ite)

theorem execCubeStepsRead_stays {z s : State} (h : Stays z s) (i : Ini) (g : Fin 32) :
  StaysX z (execCubeStepsRead i g s) := by
  unfold execCubeStepsRead
  repeat' with_reducible (first | assumption | apply done_stays | apply State.regReadCmd_stays | apply Stays.ite | apply StaysX.next | apply StaysX.ite)

theorem State.tapInstr_stays {z s : State} (h : Stays z s) (ir : Byte) :
  Stays z (State.tapInstr s ir) := by
  unfold State.tapInstr
  repeat' with_reducible (first | assumption | apply State.withDbg_stays | apply Stays.ite)

theorem State.tapLeave_stays {z s : State} (h : Stays z s)  :
  Stays z (State.tapLeave s) := by
  unfold State.tapLeave
  repeat' with_reducible (first | assumption | apply State.withDbg_stays | apply State.putBit_stays | apply State.dbgRecord_stays | apply State.attachCount_stays | apply Stays.ite)

theorem execDbgAttach_stays {z s : State} (h : Stays z s)  :
  StaysX z (execDbgAttach s) := by
  unfold execDbgAttach
  repeat' with_reducible (first | assumption | apply done_stays | apply State.tapLeave_stays | apply Stays.ite | apply StaysX.next | apply StaysX.ite)

theorem execDbgDetach_stays {z s : State} (h : Stays z s)  :
  StaysX z (execDbgDetach s) := by
  unfold execDbgDetach
  repeat' with_reducible (first | assumption | apply done_stays | apply State.withDbg_stays | apply State.putBit_stays | apply State.dbgRecord_stays | apply Stays.ite | apply StaysX.next | apply StaysX.ite)

theorem execDbgAttachedClear_stays {z s : State} (h : Stays z s) (i : Ini) :
  StaysX z (execDbgAttachedClear i s) := by
  unfold execDbgAttachedClear
  repeat' with_reducible (first | assumption | apply done_stays | apply State.regWrite_stays | apply Stays.ite | apply StaysX.next | apply StaysX.ite)

theorem execTapReset_stays {z s : State} (h : Stays z s)  :
  StaysX z (execTapReset s) := by
  unfold execTapReset
  repeat' with_reducible (first | assumption | apply done_stays | apply State.withDbg_stays | apply State.putBit_stays | apply Stays.ite | apply StaysX.next | apply StaysX.ite)

theorem State.dapScan_stays {z s : State} (h : Stays z s) (act : State → State) (hact : ∀ (t0 : State), Stays z t0 → Stays z (act t0)) :
  Stays z (State.dapScan s act) := by
  unfold State.dapScan
  repeat' with_reducible (first | assumption | apply hact | apply State.withDbg_stays | apply State.withRet_stays | apply Stays.ite)

theorem State.dapBegin_stays {z s : State} (h : Stays z s) (q : Req) (data : List Byte) :
  Stays z (State.dapBegin s q data) := by
  unfold State.dapBegin
  repeat' with_reducible (first | intro _ | assumption | apply State.busRead_stays | apply State.busWrite_stays | apply State.withDbg_stays | apply State.withNet_stays | apply Stays.ite | apply StaysP.ite | split | dsimp only [StaysP])

theorem execDapRead_stays {z s : State} (h : Stays z s) (addr : BitVec 48) :
  StaysX z (execDapRead addr s) := by
  unfold execDapRead
  repeat' with_reducible (first | intro _ | assumption | apply State.dapBegin_stays | apply State.dapScan_stays | apply done_stays | apply Stays.ite | apply StaysX.next | apply StaysX.ite | split | dsimp only)

theorem execDapWrite_stays {z s : State} (h : Stays z s) (addr : BitVec 48) (data : W32) :
  StaysX z (execDapWrite addr data s) := by
  unfold execDapWrite
  repeat' with_reducible (first | intro _ | assumption | apply State.dapBegin_stays | apply State.dapScan_stays | apply done_stays | apply Stays.ite | apply StaysX.next | apply StaysX.ite | split | dsimp only)

theorem execDapNop_stays {z s : State} (h : Stays z s)  :
  StaysX z (execDapNop s) := by
  unfold execDapNop
  repeat' with_reducible (first | assumption | apply done_stays | apply State.withDbg_stays | apply State.withRet_stays | apply Stays.ite | apply StaysX.next | apply StaysX.ite)

theorem execDapAccessDone_stays {z s : State} (h : Stays z s)  :
  StaysX z (execDapAccessDone s) := by
  unfold execDapAccessDone
  repeat' with_reducible (first | assumption | apply State.withDbg_stays | apply done_stays | apply Stays.ite | apply StaysX.next | apply StaysX.ite | split | dsimp only)

theorem execJtagExtest_stays {z s : State} (h : Stays z s)  :
  StaysX z (execJtagExtest s) := by
  unfold execJtagExtest
  repeat' with_reducible (first | assumption | apply done_stays | apply State.tapInstr_stays | apply Stays.ite | apply StaysX.next | apply StaysX.ite)

theorem execJtagIdcode_stays {z s : State} (h : Stays z s)  :
  StaysX z (execJtagIdcode s) := by
  unfold execJtagIdcode
  repeat' with_reducible (first | assumption | apply done_stays | apply State.withRet_stays | apply State.tapInstr_stays | apply Stays.ite | apply StaysX.next | apply StaysX.ite)

theorem execJtagSamplePreload_stays {z s : State} (h : Stays z s) (cells : List Bool) :
  StaysX z (execJtagSamplePreload cells s) := by
  unfold execJtagSamplePreload
  repeat' with_reducible (first | assumption | apply done_stays | apply State.withDbg_stays | apply State.tapInstr_stays | apply Stays.ite | apply StaysX.next | apply StaysX.ite)

theorem execJtagClamp_stays {z s : State} (h : Stays z s)  :
  StaysX z (execJtagClamp s) := by
  unfold execJtagClamp
  repeat' with_reducible (first | assumption | apply done_stays | apply State.tapInstr_stays | apply Stays.ite | apply StaysX.next | apply StaysX.ite)

theorem execJtagHighz_stays {z s : State} (h : Stays z s)  :
  StaysX z (execJtagHighz s) := by
  unfold execJtagHighz
  repeat' with_reducible (first | assumption | apply done_stays | apply State.tapInstr_stays | apply Stays.ite | apply StaysX.next | apply StaysX.ite)

theorem execJtagBypass_stays {z s : State} (h : Stays z s) (code : Byte) :
  StaysX z (execJtagBypass code s) := by
  unfold execJtagBypass
  repeat' with_reducible (first | assumption | apply done_stays | apply State.tapInstr_stays | apply Stays.ite | apply StaysX.next | apply StaysX.ite)

theorem execJtagDap_stays {z s : State} (h : Stays z s)  :
  StaysX z (execJtagDap s) := by
  unfold execJtagDap
  repeat' with_reducible (first | assumption | apply done_stays | apply State.tapInstr_stays | apply Stays.ite | apply StaysX.next | apply StaysX.ite)

theorem execDbgSysreset_stays {z s : State} (h : Stays z s)  :
  StaysX z (execDbgSysreset s) := by
  unfold execDbgSysreset
  repeat' with_reducible (first | assumption | apply done_stays | apply State.systemReset_stays | apply State.dbgRecord_stays | apply State.tapInstr_stays | apply Stays.ite | apply StaysX.next | apply StaysX.ite)

theorem execDbgHalt_stays {z s : State} (h : Stays z s) (i : Ini) :
  StaysX z (execDbgHalt i s) := by
  unfold execDbgHalt
  repeat' with_reducible (first | assumption | apply done_stays | apply State.regWrite_stays | apply Stays.ite | apply StaysX.next | apply StaysX.ite)

theorem execDbgResume_stays {z s : State} (h : Stays z s) (i : Ini) :
  StaysX z (execDbgResume i s) := by
  unfold execDbgResume
  repeat' with_reducible (first | assumption | apply done_stays | apply State.regWrite_stays | apply Stays.ite | apply StaysX.next | apply StaysX.ite)

theorem execDbgStep_stays {z s : State} (h : Stays z s) (i : Ini) :
  StaysX z (execDbgStep i s) := by
  unfold execDbgStep
  repeat' with_reducible (first | assumption | apply done_stays | apply State.regWrite_stays | apply Stays.ite | apply StaysX.next | apply StaysX.ite)

theorem execDbgCregAccess_stays {z s : State} (h : Stays z s) (i : Ini) (v : W32) :
  StaysX z (execDbgCregAccess i v s) := by
  unfold execDbgCregAccess
  repeat' with_reducible (first | assumption | apply done_stays | apply State.regWrite_stays | apply Stays.ite | apply StaysX.next | apply StaysX.ite)

theorem execDebugWake_stays {z s : State} (h : Stays z s)  :
  StaysX z (execDebugWake s) := by
  unfold execDebugWake
  repeat' with_reducible (first | assumption | apply done_stays | apply State.wake_stays | apply Stays.ite | apply StaysX.next | apply StaysX.ite)

theorem execTraceRecord_stays {z s : State} (h : Stays z s)  :
  StaysX z (execTraceRecord s) := by
  unfold execTraceRecord
  repeat' with_reducible (first | assumption | apply done_stays | apply State.traceStore_stays | apply State.withTraceQ_stays | apply Stays.ite | apply StaysX.next | apply StaysX.ite | dsimp only | split)

end Sys2Proof.Machine
end

