-- ==== Sys2Proof/Laws/StaysD.lean ====
section
/-! SUPPORT. Laws/StaysD.lean: every operation and meaning of Fabric, QuecenOps, Requests, Faults, Images, Inputs, Lane, Lanes, Links, MessageBus, Network, NetworkWake, Outputs keeps the canonical
form, the variant and the queue of waiting commands (Stays); each lemma says it of one definition, whose helpers have theirs before it. -/
namespace Sys2Proof.Machine

theorem State.fabFin_stays {z s : State} (h : Stays z s) (k : Nat) (x : Nat) (cause : Nat) :
  Stays z (State.fabFin s k x cause) := by
  unfold State.fabFin
  repeat' with_reducible (first | assumption | apply State.qFin_stays | apply State.fabCause_stays | apply Stays.ite)

theorem State.qReadAll_stays {z s : State} (h : Stays z s) (k : Nat) (cls : Nat) (a : Nat) (n : Nat) (x6 : Nat) :
  StaysP z (State.qReadAll s k cls a n x6) := by
  induction x6 generalizing s k cls a n with
  | zero =>
    unfold State.qReadAll
    repeat' with_reducible (first | intro _ | assumption | apply ih | apply State.qRead_stays | apply Stays.ite | apply StaysP.ite | split | dsimp only [StaysP])
  | succ n ih =>
    unfold State.qReadAll
    repeat' with_reducible (first | intro _ | assumption | apply ih | apply State.qRead_stays | apply Stays.ite | apply StaysP.ite | split | dsimp only [StaysP])

theorem State.rgnWait_stays {z s : State} (h : Stays z s) (k : Nat) (x : Nat) :
  Stays z (State.rgnWait s k x) := by
  unfold State.rgnWait
  repeat' with_reducible (first | assumption | apply State.setQState_stays | apply State.setRgn_stays | apply Stays.ite)

theorem State.fabChecks_stays {z s : State} (h : Stays z s) (k : Nat) (w : List W32) :
  Stays z (State.fabChecks s k w) := by
  unfold State.fabChecks
  repeat' with_reducible (first | intro _ | assumption | apply State.rgnWait_stays | apply State.qReadAll_stays | apply State.fabFin_stays | apply State.qFin_stays | apply State.askAll_stays | apply State.onQueue_stays | apply State.bootEvent_stays | apply State.setQState_stays | apply State.advSat_stays | apply State.putBit_stays | apply Stays.ite | apply StaysP.ite | split | dsimp only [StaysP])

theorem State.fabLoadStart_stays {z s : State} (h : Stays z s) (k : Nat) (w : List W32) :
  Stays z (State.fabLoadStart s k w) := by
  unfold State.fabLoadStart
  repeat' with_reducible (first | assumption | apply State.qFin_stays | apply State.fabChecks_stays | apply Stays.ite)

theorem execEntFabLoad_stays {z s : State} (h : Stays z s) (g : Fin 32) (q : Fin 4) :
  StaysX z (execEntFabLoad g q s) := by
  unfold execEntFabLoad
  repeat' with_reducible (first | intro _ | assumption | apply State.fabLoadStart_stays | apply State.entStart_stays | apply State.qTake_stays | apply done_stays | apply Stays.ite | apply StaysX.next | apply StaysX.ite | split | dsimp only)

theorem execFabLoadBegin_stays {z s : State} (h : Stays z s) (g : Fin 32) (q : Fin 4) :
  StaysX z (execFabLoadBegin g q s) := by
  unfold execFabLoadBegin
  repeat' with_reducible (first | intro _ | assumption | apply State.fabFin_stays | apply State.qFin_stays | apply State.rgnClear_stays | apply State.setRgnState_stays | apply State.setQState_stays | apply done_stays | apply State.setRgn_stays | apply State.setFld_stays | apply State.each_stays | apply Stays.ite | apply StaysX.next | apply StaysX.ite | split | dsimp only)

theorem State.fabLoadFail_stays {z s : State} (h : Stays z s) (x : Nat) :
  Stays z (State.fabLoadFail s x) := by
  unfold State.fabLoadFail
  repeat' with_reducible (first | assumption | apply State.putBit_stays | apply State.rgnClear_stays | apply Stays.ite)

theorem execFabLoadDone_stays {z s0 : State} (h : Stays z s0) (d : Fin 4) (r : Fin 8) (single : Nat) (bad : Option Nat) :
  StaysX z (execFabLoadDone d r single bad s0) := by
  unfold execFabLoadDone
  repeat' with_reducible (first | intro _ | assumption | apply State.fabLoadFail_stays | apply State.qReadAll_stays | apply State.fabFin_stays | apply State.qOk_stays | apply State.qFin_stays | apply State.askAll_stays | apply State.faultOrRetry_stays | apply State.setRgnState_stays | apply done_stays | apply State.setRgn_stays | apply State.advSat_stays | apply State.putBit_stays | apply State.wr_stays | apply Stays.ite | apply StaysX.next | apply StaysX.ite | apply StaysP.ite | split | dsimp only [StaysP])

theorem State.callFail_stays {z s : State} (h : Stays z s) (k : Nat) (x : Nat) (e : Nat × Nat) :
  Stays z (State.callFail s k x e) := by
  unfold State.callFail
  repeat' with_reducible (first | assumption | apply State.fabFin_stays | apply State.qFin_stays | apply Stays.ite)

theorem State.callBind_stays {z s : State} (h : Stays z s) (k : Nat) (w : List W32) :
  Stays z (State.callBind s k w) := by
  unfold State.callBind
  repeat' with_reducible (first | intro _ | assumption | apply State.bindCheck_stays | apply State.onStream_stays | apply foldl_stays | apply Stays.ite | apply StaysP.ite | apply foldl_stays | apply foldlP_stays | split | dsimp only [StaysP])

theorem execEntFabCall_stays {z s : State} (h : Stays z s) (g : Fin 32) (q : Fin 4) :
  StaysX z (execEntFabCall g q s) := by
  unfold execEntFabCall
  repeat' with_reducible (first | intro _ | assumption | apply State.callBind_stays | apply State.callFail_stays | apply State.rgnWait_stays | apply State.entStart_stays | apply State.qTake_stays | apply done_stays | apply Stays.ite | apply StaysX.next | apply StaysX.ite | split | dsimp only)

theorem execFabFuncStart_stays {z s : State} (h : Stays z s) (g : Fin 32) (q : Fin 4) :
  StaysX z (execFabFuncStart g q s) := by
  unfold execFabFuncStart
  repeat' with_reducible (first | intro _ | assumption | apply State.callFail_stays | apply State.strFeed_stays | apply State.setQState_stays | apply done_stays | apply State.setRgn_stays | apply State.putBit_stays | apply State.setFld_stays | apply foldl_stays | apply Stays.ite | apply StaysX.next | apply StaysX.ite | apply StaysP.ite | apply foldl_stays | apply foldlP_stays | split | dsimp only [StaysP])

theorem execFabFuncReturn_stays {z s : State} (h : Stays z s) (d : Fin 4) (r : Fin 8) (code : W32) :
  StaysX z (execFabFuncReturn d r code s) := by
  unfold execFabFuncReturn
  repeat' with_reducible (first | assumption | apply done_stays | apply State.callOver_stays | apply State.endEntry_stays | apply State.fabCause_stays | apply State.wr_stays | apply Stays.ite | apply StaysX.next | apply StaysX.ite | dsimp only | split)

theorem execFabMaxtime_stays {z s : State} (h : Stays z s) (d : Fin 4) (r : Fin 8) :
  StaysX z (execFabMaxtime d r s) := by
  unfold execFabMaxtime
  repeat' with_reducible (first | assumption | apply done_stays | apply State.rgnRestart_stays | apply State.fabCause_stays | apply Stays.ite | apply StaysX.next | apply StaysX.ite | dsimp only | split)

theorem execFabRestart_stays {z s : State} (h : Stays z s) (i : Ini) (d : Fin 4) (r : Fin 8) :
  StaysX z (execFabRestart i d r s) := by
  unfold execFabRestart
  repeat' with_reducible (first | assumption | apply done_stays | apply State.regWrite_stays | apply Stays.ite | apply StaysX.next | apply StaysX.ite)

theorem execFabRestartDone_stays {z s : State} (h : Stays z s) (d : Fin 4) (r : Fin 8) :
  StaysX z (execFabRestartDone d r s) := by
  unfold execFabRestartDone
  repeat' with_reducible (first | assumption | apply done_stays | apply State.rgnRestarted_stays | apply State.withResp_stays | apply Stays.ite | apply StaysX.next | apply StaysX.ite)

theorem execFabEmpty_stays {z s : State} (h : Stays z s) (i : Ini) (d : Fin 4) (r : Fin 8) :
  StaysX z (execFabEmpty i d r s) := by
  unfold execFabEmpty
  repeat' with_reducible (first | assumption | apply done_stays | apply State.regWrite_stays | apply Stays.ite | apply StaysX.next | apply StaysX.ite)

theorem execFabPatrol_stays {z s : State} (h : Stays z s) (d : Fin 4) (r : Fin 8) (single : Nat) (bad : Bool) :
  StaysX z (execFabPatrol d r single bad s) := by
  unfold execFabPatrol
  repeat' with_reducible (first | assumption | apply done_stays | apply State.advSat_stays | apply State.logTransient_stays | apply State.putBit_stays | apply State.rgnEmpty_stays | apply Stays.ite | apply StaysX.next | apply StaysX.ite)

theorem State.settle_stays {z s : State} (h : Stays z s) (c : CoreId) :
  Stays z (State.settle s c) := by
  unfold State.settle
  repeat' with_reducible (first | assumption | apply State.onCore_stays | apply Stays.ite | dsimp only | split)

theorem State.boundary_stays {z s : State} (h : Stays z s) (c : CoreId) :
  Stays z (State.boundary s c) := by
  unfold State.boundary
  repeat' with_reducible (first | assumption | apply State.setCore_stays | apply Stays.ite)

theorem State.fetch_stays {z s : State} (h : Stays z s) (c : CoreId) (a : Word) :
  StaysP z (State.fetch s c a) := by
  unfold State.fetch
  repeat' with_reducible (first | intro _ | assumption | apply State.reach_stays | apply State.memRead_stays | apply State.captureRefusal_stays | apply Stays.ite | apply StaysP.ite | split | dsimp only [StaysP])

theorem State.takeIrq_stays {z s : State} (h : Stays z s) (c : CoreId) (n : Nat) :
  Stays z (State.takeIrq s c n) := by
  unfold State.takeIrq
  repeat' with_reducible (first | assumption | apply State.drawn_stays | apply State.setCore_stays | apply State.withBoot_stays | apply State.haltCore_stays | apply Stays.ite | dsimp only | split)

theorem State.unlessIrq_stays {z s : State} (h : Stays z s) (c : CoreId) (f : State → State) (hf : ∀ t0, Stays z t0 → Stays z (f t0 )) :
  Stays z (State.unlessIrq s c f) := by
  unfold State.unlessIrq
  repeat' with_reducible (first | assumption | apply hf | apply State.takeIrq_stays | apply Stays.ite | split | dsimp only)

theorem State.issue_stays {z s : State} (h : Stays z s) (c : CoreId) (f : State → State) (hf : ∀ t0, Stays z t0 → Stays z (f t0 )) :
  Stays z (State.issue s c f) := by
  unfold State.issue
  repeat' with_reducible (first | intro _ | assumption | apply hf | apply State.unlessIrq_stays | apply State.fetch_stays | apply State.boundary_stays | apply State.settle_stays | apply State.except_stays | apply Stays.ite | apply StaysP.ite | split | dsimp only [StaysP])

theorem State.simple_stays {z s : State} (h : Stays z s) (c : CoreId) (f : Core → Core) :
  Stays z (State.simple s c f) := by
  unfold State.simple
  repeat' with_reducible (first | intro _ | assumption | apply State.issue_stays | apply State.onCore_stays | apply Stays.ite | dsimp only | split | apply foldl_stays)

theorem State.illegal_stays {z s : State} (h : Stays z s) (c : CoreId) :
  Stays z (State.illegal s c) := by
  unfold State.illegal
  repeat' with_reducible (first | assumption | apply State.except_stays | apply Stays.ite)

theorem State.privFault_stays {z s : State} (h : Stays z s) (c : CoreId) :
  Stays z (State.privFault s c) := by
  unfold State.privFault
  repeat' with_reducible (first | assumption | apply State.except_stays | apply Stays.ite)

theorem State.ifPriv_stays {z s : State} (h : Stays z s) (c : CoreId) (f : State → State) (hf : ∀ (t0 : State), Stays z t0 → Stays z (f t0)) :
  Stays z (State.ifPriv s c f) := by
  unfold State.ifPriv
  repeat' with_reducible (first | assumption | apply hf | apply State.privFault_stays | apply Stays.ite)

theorem State.aluRR_stays {z s : State} (h : Stays z s) (c : CoreId) (d : BitVec 5) (a : BitVec 5) (b : BitVec 5) (f : Word → Word → Word) :
  Stays z (State.aluRR s c d a b f) := by
  unfold State.aluRR
  repeat' with_reducible (first | assumption | apply State.simple_stays | apply Stays.ite)

theorem State.aluRI_stays {z s : State} (h : Stays z s) (c : CoreId) (d : BitVec 5) (a : BitVec 5) (imm : BitVec 16) (f : Word → Word → Word) :
  Stays z (State.aluRI s c d a imm f) := by
  unfold State.aluRI
  repeat' with_reducible (first | assumption | apply State.simple_stays | apply Stays.ite)

theorem State.aluRZ_stays {z s : State} (h : Stays z s) (c : CoreId) (d : BitVec 5) (a : BitVec 5) (imm : BitVec 16) (f : Word → Word → Word) :
  Stays z (State.aluRZ s c d a imm f) := by
  unfold State.aluRZ
  repeat' with_reducible (first | assumption | apply State.simple_stays | apply Stays.ite)

theorem State.branch_stays {z s : State} (h : Stays z s) (c : CoreId) (a : BitVec 5) (b : BitVec 5) (off : BitVec 16) (f : Word → Word → Bool) :
  Stays z (State.branch s c a b off f) := by
  unfold State.branch
  repeat' with_reducible (first | intro _ | assumption | apply State.issue_stays | apply State.onCore_stays | apply Stays.ite | dsimp only | split | apply foldl_stays)

theorem State.coreAccess_stays {z s : State} (h : Stays z s) (c : CoreId) (q : Req) (op : MemOp) (data : List Byte) :
  Stays z (State.coreAccess s c q op data) := by
  unfold State.coreAccess
  repeat' with_reducible (first | intro _ | assumption | apply State.faultOf_stays | apply State.busRead_stays | apply State.busWrite_stays | apply State.onCore_stays | apply State.withNet_stays | apply Stays.ite | apply StaysP.ite | split | dsimp only [StaysP])

theorem State.coreLoad_stays {z s : State} (h : Stays z s) (c : CoreId) (a : Word) (n : Nat) (op : MemOp) :
  Stays z (State.coreLoad s c a n op) := by
  unfold State.coreLoad
  repeat' with_reducible (first | assumption | apply State.except_stays | apply State.coreAccess_stays | apply Stays.ite)

theorem State.coreStore_stays {z s : State} (h : Stays z s) (c : CoreId) (a : Word) (n : Nat) (v : Word) :
  Stays z (State.coreStore s c a n v) := by
  unfold State.coreStore
  repeat' with_reducible (first | assumption | apply State.except_stays | apply State.coreAccess_stays | apply Stays.ite)

theorem State.load_stays {z s : State} (h : Stays z s) (c : CoreId) (d : BitVec 5) (a : BitVec 5) (imm : BitVec 16) (n : Nat) (sx : Bool) :
  Stays z (State.load s c d a imm n sx) := by
  unfold State.load
  repeat' with_reducible (first | intro _ | assumption | apply State.issue_stays | apply State.coreLoad_stays | apply Stays.ite | dsimp only | split | apply foldl_stays)

theorem State.store_stays {z s : State} (h : Stays z s) (c : CoreId) (d : BitVec 5) (a : BitVec 5) (imm : BitVec 16) (n : Nat) :
  Stays z (State.store s c d a imm n) := by
  unfold State.store
  repeat' with_reducible (first | intro _ | assumption | apply State.issue_stays | apply State.coreStore_stays | apply Stays.ite | dsimp only | split | apply foldl_stays)

theorem State.atomicNow_stays {z s : State} (h : Stays z s) (c : CoreId) (d : BitVec 5) (a : Word) (n : Nat) (op : AtomOp) (v : Word) :
  Stays z (State.atomicNow s c d a n op v) := by
  unfold State.atomicNow
  repeat' with_reducible (first | intro _ | assumption | apply State.faultOf_stays | apply State.reach_stays | apply State.memAtomic_stays | apply State.onCore_stays | apply Stays.ite | apply StaysP.ite | split | dsimp only [StaysP])

theorem State.atomic_stays {z s : State} (h : Stays z s) (c : CoreId) (d : BitVec 5) (a : BitVec 5) (n : Nat) (op : Core → AtomOp) (v : Core → Word) :
  Stays z (State.atomic s c d a n op v) := by
  unfold State.atomic
  repeat' with_reducible (first | intro _ | assumption | apply State.issue_stays | apply State.except_stays | apply State.onCore_stays | apply State.atomicNow_stays | apply Stays.ite | dsimp only | split | apply foldl_stays)

theorem State.sigNow_stays {z s : State} (h : Stays z s) (c : CoreId) (h : W32) (n : W32) :
  Stays z (State.sigNow s c h n) := by
  unfold State.sigNow
  repeat' with_reducible (first | intro _ | assumption | apply State.countSig_stays | apply State.onCore_stays | apply State.signal_stays | apply Stays.ite | apply StaysP.ite | apply StaysO.ite | apply StaysOP.ite | apply StaysO.some | apply StaysO.none | apply StaysOP.some | apply StaysOP.none | apply StaysO.getD | apply StaysO.or | apply StaysOP.or | apply foldl_stays | split | dsimp only [StaysP] | (apply StaysO.of_eq ‹_›) | (apply StaysP.of_eq ‹_›) | (apply StaysOP.of_eq ‹_›))

theorem State.withHandle_stays {z s : State} (h : Stays z s) (c : CoreId) (h : W32) (remote : Bool) (f : State → State) (hf : ∀ (t0 : State), Stays z t0 → Stays z (f t0)) :
  Stays z (State.withHandle s c h remote f) := by
  unfold State.withHandle
  repeat' with_reducible (first | assumption | apply hf | apply State.except_stays | apply Stays.ite | dsimp only | split)

theorem State.waitge_stays {z s : State} (h : Stays z s) (c : CoreId) (d : BitVec 5) (h : W32) (target : W32) :
  Stays z (State.waitge s c d h target) := by
  unfold State.waitge
  repeat' with_reducible (first | assumption | apply State.onCore_stays | apply Stays.ite)

theorem State.strike_stays {z s : State} (h : Stays z s) (r : Region) (a : Nat) (found : LineState) :
  Stays z (State.strike s r a found) := by
  unfold State.strike
  repeat' with_reducible (first | assumption | apply State.store_stays | apply State.putLine_stays | apply Stays.ite | split | dsimp only)

theorem State.rgnUse_stays {z s : State} (h : Stays z s) (q : Req) :
  Stays z (State.rgnUse s q) := by
  unfold State.rgnUse
  repeat' with_reducible (first | assumption | apply State.setRgn_stays | apply Stays.ite | split | dsimp only)

theorem State.requestIn_stays {z s : State} (h : Stays z s) (q0 : Req) (data : List Byte) (at_ : Option (AtomOp × Word)) :
  Stays z (State.requestIn s q0 data at_) := by
  unfold State.requestIn
  repeat' with_reducible (first | intro _ | assumption | apply State.rgnUse_stays | apply State.enter_stays | apply State.notice_stays | apply State.withResp_stays | apply State.withNet_stays | apply Stays.ite | apply StaysP.ite | split | dsimp only [StaysP])

theorem execRequestEntry_stays {z s : State} (h : Stays z s) (i : Ini) (k : Kind) (a : Word) (n : Nat) (early : Bool) (cls : BitVec 4) (data : List Byte) (op : AtomOp) (v : Word) :
  StaysX z (execRequestEntry i k a n early cls data op v s) := by
  unfold execRequestEntry
  repeat' with_reducible (first | intro _ | assumption | apply State.requestIn_stays | apply State.atomic_stays | apply State.fetch_stays | apply done_stays | apply foldl_stays | apply Stays.ite | apply StaysX.next | apply StaysX.ite | apply StaysP.ite | apply foldl_stays | apply foldlP_stays | split | dsimp only [StaysP])

theorem execRequestAtTarget_stays {z s : State} (h : Stays z s) (k : Nat) (found : LineState) (answer : List Byte) (reason : BitVec 4) :
  StaysX z (execRequestAtTarget k found answer reason s) := by
  unfold execRequestAtTarget
  repeat' with_reducible (first | assumption | apply State.strike_stays | apply State.serveNet_stays | apply State.grant_stays | apply done_stays | apply Stays.ite | apply StaysX.next | apply StaysX.ite | split | dsimp only)

theorem State.drained_stays {z s : State} (h : Stays z s) (c : CoreId) :
  Stays z (State.drained s c) := by
  unfold State.drained
  repeat' with_reducible (first | assumption | apply State.onCore_stays | apply State.boundary_stays | apply State.sigNow_stays | apply State.atomicNow_stays | apply Stays.ite | dsimp only | split)

theorem State.queueWriteBad_stays {z s : State} (h : Stays z s) (k : Nat) (reason : Nat) (a : Word) (x : Bool) :
  Stays z (State.queueWriteBad s k reason a x) := by
  unfold State.queueWriteBad
  repeat' with_reducible (first | assumption | apply State.qFin_stays | apply State.dyingBad_stays | apply State.setPipe_stays | apply Stays.ite | split | dsimp only)

theorem State.engineAnswer_stays {z s : State} (h : Stays z s) (r : NetResp) (d : Fin 4) (e : Fin 8) (sub : BitVec 6) :
  Stays z (State.engineAnswer s r d e sub) := by
  unfold State.engineAnswer
  repeat' with_reducible (first | assumption | apply State.queueWriteBad_stays | apply State.strSettle_stays | apply State.strError_stays | apply Stays.ite | split | dsimp only)

theorem State.dapAnswer_stays {z s : State} (h : Stays z s) (r : NetResp) :
  Stays z (State.dapAnswer s r) := by
  unfold State.dapAnswer
  repeat' with_reducible (first | assumption | apply State.withDbg_stays | apply Stays.ite | split | dsimp only)

theorem execResponseAtInitiator_stays {z s : State} (h : Stays z s) (k : Nat) :
  StaysX z (execResponseAtInitiator k s) := by
  unfold execResponseAtInitiator
  repeat' with_reducible (first | intro _ | assumption | apply State.dapAnswer_stays | apply State.engineAnswer_stays | apply State.drained_stays | apply State.boundary_stays | apply State.mirrorSealed_stays | apply State.faultOf_stays | apply State.onCore_stays | apply State.answerPkg_stays | apply done_stays | apply State.withRet_stays | apply State.withResp_stays | apply Stays.ite | apply StaysX.next | apply StaysX.ite | split | dsimp only)

theorem execHmemTrainDone_stays {z s : State} (h : Stays z s) (density : Fin 5) (ranks2 : Bool) (grade : Fin 4) :
  StaysX z (execHmemTrainDone density ranks2 grade s) := by
  unfold execHmemTrainDone
  repeat' with_reducible (first | assumption | apply done_stays | apply State.setFld_stays | apply State.wr_stays | apply Stays.ite | apply StaysX.next | apply StaysX.ite)

theorem execHmemFillDone_stays {z s : State} (h : Stays z s) (mib : Nat) :
  StaysX z (execHmemFillDone mib s) := by
  unfold execHmemFillDone
  repeat' with_reducible (first | assumption | apply done_stays | apply State.wr_stays | apply State.clearMem_stays | apply State.setFld_stays | apply Stays.ite | apply StaysX.next | apply StaysX.ite)

theorem execScrubLine_stays {z s : State} (h : Stays z s) (m : Fin 8) (found : LineState) :
  StaysX z (execScrubLine m found s) := by
  unfold execScrubLine
  repeat' with_reducible (first | assumption | apply done_stays | apply State.readLine_stays | apply State.strike_stays | apply State.withScrubPos_stays | apply Stays.ite | apply StaysX.next | apply StaysX.ite)

theorem execScrubCfgWrite_stays {z s : State} (h : Stays z s) (i : Ini) (x : Fin 5) (v : W32) :
  StaysX z (execScrubCfgWrite i x v s) := by
  unfold execScrubCfgWrite
  repeat' with_reducible (first | assumption | apply done_stays | apply State.regWrite_stays | apply Stays.ite | apply StaysX.next | apply StaysX.ite)

theorem execGrdPermWrite_stays {z s : State} (h : Stays z s) (i : Ini) (x : Fin 6) (j : BitVec 5) (n : BitVec 5) (v : W32) :
  StaysX z (execGrdPermWrite i x j n v s) := by
  unfold execGrdPermWrite
  repeat' with_reducible (first | assumption | apply done_stays | apply State.regWrite_stays | apply Stays.ite | apply StaysX.next | apply StaysX.ite)

theorem execGrdBoundsWrite_stays {z s : State} (h : Stays z s) (i : Ini) (x : Fin 6) (j : BitVec 5) (n : BitVec 5) (w : Fin 4) (v : W32) :
  StaysX z (execGrdBoundsWrite i x j n w v s) := by
  unfold execGrdBoundsWrite
  repeat' with_reducible (first | assumption | apply done_stays | apply State.regWrite_stays | apply Stays.ite | apply StaysX.next | apply StaysX.ite)

theorem execViolClear_stays {z s : State} (h : Stays z s) (i : Ini) (x : Fin 6) :
  StaysX z (execViolClear i x s) := by
  unfold execViolClear
  repeat' with_reducible (first | assumption | apply done_stays | apply State.regWrite_stays | apply Stays.ite | apply StaysX.next | apply StaysX.ite)

theorem execNoticePop_stays {z s : State} (h : Stays z s) (i : Ini) (x : Fin 6) :
  StaysX z (execNoticePop i x s) := by
  unfold execNoticePop
  repeat' with_reducible (first | assumption | apply done_stays | apply State.regWrite_stays | apply Stays.ite | apply StaysX.next | apply StaysX.ite)

theorem execNoteOvfClear_stays {z s : State} (h : Stays z s) (i : Ini) (x : Fin 6) :
  StaysX z (execNoteOvfClear i x s) := by
  unfold execNoteOvfClear
  repeat' with_reducible (first | assumption | apply done_stays | apply State.regWrite_stays | apply Stays.ite | apply StaysX.next | apply StaysX.ite)

theorem State.lineReport_stays {z s : State} (h : Stays z s) (a : Nat) (k : Nat) :
  Stays z (State.lineReport s a k) := by
  unfold State.lineReport
  repeat' with_reducible (first | assumption | apply State.readLine_stays | apply State.strike_stays | apply Stays.ite | dsimp only | split)

theorem execFaultReport_stays {z s : State} (h : Stays z s) (kind : BitVec 8) (u : BitVec 16) (sub : BitVec 16) (k : Nat) (ini : BitVec 16) (addr : Word) (detail : List W32) :
  StaysX z (execFaultReport kind u sub k ini addr detail s) := by
  unfold execFaultReport
  repeat' with_reducible (first | intro _ | assumption | apply State.lineReport_stays | apply State.cubeFault_stays | apply State.laceTransient_stays | apply State.heelReport_stays | apply State.faultOrRetry_stays | apply State.event_stays | apply State.setEvt_stays | apply done_stays | apply Stays.ite | apply StaysX.next | apply StaysX.ite | apply StaysP.ite | split | dsimp only [StaysP])

theorem execRecurWindow_stays {z s : State} (h : Stays z s)  :
  StaysX z (execRecurWindow s) := by
  unfold execRecurWindow
  repeat' with_reducible (first | assumption | apply State.recurRoll_stays | apply done_stays | apply Stays.ite | apply StaysX.next | apply StaysX.ite | split | dsimp only)

theorem execFltRetire_stays {z s : State} (h : Stays z s) (i : Ini) (u : BitVec 16) :
  StaysX z (execFltRetire i u s) := by
  unfold execFltRetire
  repeat' with_reducible (first | assumption | apply done_stays | apply State.regWrite_stays | apply Stays.ite | apply StaysX.next | apply StaysX.ite)

theorem execFltTest_stays {z s : State} (h : Stays z s) (i : Ini) (u : BitVec 16) :
  StaysX z (execFltTest i u s) := by
  unfold execFltTest
  repeat' with_reducible (first | assumption | apply done_stays | apply State.regWrite_stays | apply Stays.ite | apply StaysX.next | apply StaysX.ite)

theorem execFltAdmit_stays {z s : State} (h : Stays z s) (i : Ini) (u : BitVec 16) :
  StaysX z (execFltAdmit i u s) := by
  unfold execFltAdmit
  repeat' with_reducible (first | assumption | apply done_stays | apply State.regWrite_stays | apply Stays.ite | apply StaysX.next | apply StaysX.ite)

theorem execFltAbandon_stays {z s : State} (h : Stays z s) (i : Ini) (u : BitVec 16) :
  StaysX z (execFltAbandon i u s) := by
  unfold execFltAbandon
  repeat' with_reducible (first | assumption | apply done_stays | apply State.regWrite_stays | apply Stays.ite | apply StaysX.next | apply StaysX.ite)

theorem execFltRevoke_stays {z s : State} (h : Stays z s) (i : Ini) (p : BitVec 8) :
  StaysX z (execFltRevoke i p s) := by
  unfold execFltRevoke
  repeat' with_reducible (first | assumption | apply done_stays | apply State.regWrite_stays | apply Stays.ite | apply StaysX.next | apply StaysX.ite)

theorem execFltLogCfgWrite_stays {z s : State} (h : Stays z s) (i : Ini) (v : W32) :
  StaysX z (execFltLogCfgWrite i v s) := by
  unfold execFltLogCfgWrite
  repeat' with_reducible (first | assumption | apply done_stays | apply State.regWrite_stays | apply Stays.ite | apply StaysX.next | apply StaysX.ite)

theorem execFltLogTailWrite_stays {z s : State} (h : Stays z s) (i : Ini) (v : W32) :
  StaysX z (execFltLogTailWrite i v s) := by
  unfold execFltLogTailWrite
  repeat' with_reducible (first | assumption | apply done_stays | apply State.regWrite_stays | apply Stays.ite | apply StaysX.next | apply StaysX.ite)

theorem execSummaryUpdate_stays {z s : State} (h : Stays z s)  :
  StaysX z (execSummaryUpdate s) := by
  unfold execSummaryUpdate
  repeat' with_reducible (first | assumption | apply done_stays | apply State.sumWrite_stays | apply State.withFlt_stays | apply State.putBit_stays | apply State.sumPend_stays | apply Stays.ite | apply StaysX.next | apply StaysX.ite | dsimp only | split)

theorem execHeelBootVerify_stays {z s : State} (h : Stays z s)  :
  StaysX z (execHeelBootVerify s) := by
  unfold execHeelBootVerify
  repeat' with_reducible (first | assumption | apply done_stays | apply State.heelBoot_stays | apply Stays.ite | apply StaysX.next | apply StaysX.ite)

theorem execSoleBootVerify_stays {z s : State} (h : Stays z s)  :
  StaysX z (execSoleBootVerify s) := by
  unfold execSoleBootVerify
  repeat' with_reducible (first | assumption | apply done_stays | apply State.soleBoot_stays | apply Stays.ite | apply StaysX.next | apply StaysX.ite)

theorem execVerCheck_stays {z s : State} (h : Stays z s) (i : Ini) :
  StaysX z (execVerCheck i s) := by
  unfold execVerCheck
  repeat' with_reducible (first | assumption | apply done_stays | apply State.regWrite_stays | apply Stays.ite | apply StaysX.next | apply StaysX.ite)

theorem execVerStageDie_stays {z s : State} (h : Stays z s) (i : Ini) :
  StaysX z (execVerStageDie i s) := by
  unfold execVerStageDie
  repeat' with_reducible (first | assumption | apply done_stays | apply State.regWrite_stays | apply Stays.ite | apply StaysX.next | apply StaysX.ite)

theorem execVerStageSole_stays {z s : State} (h : Stays z s) (i : Ini) :
  StaysX z (execVerStageSole i s) := by
  unfold execVerStageSole
  repeat' with_reducible (first | assumption | apply done_stays | apply State.regWrite_stays | apply Stays.ite | apply StaysX.next | apply StaysX.ite)

theorem execVerRegisterFab_stays {z s : State} (h : Stays z s) (i : Ini) :
  StaysX z (execVerRegisterFab i s) := by
  unfold execVerRegisterFab
  repeat' with_reducible (first | assumption | apply done_stays | apply State.regWrite_stays | apply Stays.ite | apply StaysX.next | apply StaysX.ite)

theorem execVerApplyKey_stays {z s : State} (h : Stays z s) (i : Ini) :
  StaysX z (execVerApplyKey i s) := by
  unfold execVerApplyKey
  repeat' with_reducible (first | assumption | apply done_stays | apply State.regWrite_stays | apply Stays.ite | apply StaysX.next | apply StaysX.ite)

theorem execVerJobDone_stays {z s : State} (h : Stays z s)  :
  StaysX z (execVerJobDone s) := by
  unfold execVerJobDone
  repeat' with_reducible (first | assumption | apply done_stays | apply State.verDone_stays | apply Stays.ite | apply StaysX.next | apply StaysX.ite)

theorem execRollCommit_stays {z s : State} (h : Stays z s) (i : Ini) (v : W32) :
  StaysX z (execRollCommit i v s) := by
  unfold execRollCommit
  repeat' with_reducible (first | assumption | apply done_stays | apply State.regWrite_stays | apply Stays.ite | apply StaysX.next | apply StaysX.ite)

theorem execSwapRequest_stays {z s : State} (h : Stays z s) (i : Ini) (v : W32) :
  StaysX z (execSwapRequest i v s) := by
  unfold execSwapRequest
  repeat' with_reducible (first | assumption | apply done_stays | apply State.regWrite_stays | apply Stays.ite | apply StaysX.next | apply StaysX.ite)

theorem execHeelHandover_stays {z s : State} (h : Stays z s) (i : Ini) (v : W32) :
  StaysX z (execHeelHandover i v s) := by
  unfold execHeelHandover
  repeat' with_reducible (first | assumption | apply done_stays | apply State.regWrite_stays | apply Stays.ite | apply StaysX.next | apply StaysX.ite)

theorem execHandoverTimeout_stays {z s : State} (h : Stays z s)  :
  StaysX z (execHandoverTimeout s) := by
  unfold execHandoverTimeout
  repeat' with_reducible (first | assumption | apply State.swapEnd_stays | apply done_stays | apply Stays.ite | apply StaysX.next | apply StaysX.ite | split | dsimp only)

theorem execSwapCoreEnter_stays {z s : State} (h : Stays z s) (n : Fin 10) :
  StaysX z (execSwapCoreEnter n s) := by
  unfold execSwapCoreEnter
  repeat' with_reducible (first | assumption | apply done_stays | apply State.swapEnter_stays | apply Stays.ite | apply StaysX.next | apply StaysX.ite)

theorem execStoreLineWrite_stays {z s : State} (h : Stays z s) (i : Ini) (a : Word) (data : List Byte) :
  StaysX z (execStoreLineWrite i a data s) := by
  unfold execStoreLineWrite
  repeat' with_reducible (first | assumption | apply State.busWrite_stays | apply done_stays | apply State.faultOf_stays | apply Stays.ite | apply StaysX.next | apply StaysX.ite | dsimp only | split)

theorem execStoreErase_stays {z s : State} (h : Stays z s) (i : Ini) (sector : BitVec 9) :
  StaysX z (execStoreErase i sector s) := by
  unfold execStoreErase
  repeat' with_reducible (first | assumption | apply done_stays | apply State.regWrite_stays | apply Stays.ite | apply StaysX.next | apply StaysX.ite)

theorem execStoreOpDone_stays {z s : State} (h : Stays z s)  :
  StaysX z (execStoreOpDone s) := by
  unfold execStoreOpDone
  repeat' with_reducible (first | assumption | apply State.withBoot_stays | apply done_stays | apply State.putBit_stays | apply Stays.ite | apply StaysX.next | apply StaysX.ite)

theorem execHcmdPush_stays {z s : State} (h : Stays z s) (i : Ini) (w : W32) :
  StaysX z (execHcmdPush i w s) := by
  unfold execHcmdPush
  repeat' with_reducible (first | assumption | apply done_stays | apply State.regWrite_stays | apply Stays.ite | apply StaysX.next | apply StaysX.ite)

theorem execHcmdWinter_stays {z s : State} (h : Stays z s)  :
  StaysX z (execHcmdWinter s) := by
  unfold execHcmdWinter
  repeat' with_reducible (first | intro _ | assumption | apply done_stays | apply State.hcmdRun_stays | apply State.hcmdWinter_stays | apply Stays.ite | apply StaysX.next | apply StaysX.ite | dsimp only | split | apply foldl_stays)

theorem execHcmdImageOpcode_stays {z s : State} (h : Stays z s) (status : Byte) (ws : List W32) :
  StaysX z (execHcmdImageOpcode status ws s) := by
  unfold execHcmdImageOpcode
  repeat' with_reducible (first | intro _ | assumption | apply done_stays | apply State.hcmdRun_stays | apply Stays.ite | apply StaysX.next | apply StaysX.ite | dsimp only | split | apply foldl_stays)

theorem execHcmdUnknownOpcode_stays {z s : State} (h : Stays z s)  :
  StaysX z (execHcmdUnknownOpcode s) := by
  unfold execHcmdUnknownOpcode
  repeat' with_reducible (first | intro _ | assumption | apply done_stays | apply State.hcmdRun_stays | apply Stays.ite | apply StaysX.next | apply StaysX.ite | dsimp only | split | apply foldl_stays)

theorem execHcmdPop_stays {z s : State} (h : Stays z s) (i : Ini) :
  StaysX z (execHcmdPop i s) := by
  unfold execHcmdPop
  repeat' with_reducible (first | assumption | apply done_stays | apply State.regReadCmd_stays | apply Stays.ite | apply StaysX.next | apply StaysX.ite)

theorem execHcmdInRead_stays {z s : State} (h : Stays z s)  :
  StaysX z (execHcmdInRead s) := by
  unfold execHcmdInRead
  repeat' with_reducible (first | intro _ | assumption | apply done_stays | apply State.hcmdRun_stays | apply Stays.ite | apply StaysX.next | apply StaysX.ite | dsimp only | split | apply foldl_stays)

theorem execSwiSample_stays {z s : State} (h : Stays z s) (pins : List Int) :
  StaysX z (execSwiSample pins s) := by
  unfold execSwiSample
  repeat' with_reducible (first | intro _ | assumption | apply State.swConvert_stays | apply State.swSample_stays | apply State.swTaken_stays | apply State.patSwitches_stays | apply State.withSwi_stays | apply done_stays | apply State.each_stays | apply Stays.ite | apply StaysX.next | apply StaysX.ite | apply StaysP.ite | split | dsimp only [StaysP])

theorem execSwiCyclicSample_stays {z s : State} (h : Stays z s) (pins : List Int) :
  StaysX z (execSwiCyclicSample pins s) := by
  unfold execSwiCyclicSample
  repeat' with_reducible (first | intro _ | assumption | apply State.swCyclic_stays | apply State.swTaken_stays | apply State.withSwi_stays | apply State.wake_stays | apply done_stays | apply State.each_stays | apply Stays.ite | apply StaysX.next | apply StaysX.ite | split | dsimp only)

theorem execQdecSample_stays {z s : State} (h : Stays z s) (n : Fin 4) (a : Bool) (b : Bool) :
  StaysX z (execQdecSample n a b s) := by
  unfold execQdecSample
  repeat' with_reducible (first | assumption | apply State.qdecSample_stays | apply done_stays | apply Stays.ite | apply StaysX.next | apply StaysX.ite | split | dsimp only)

theorem execQdecLearn_stays {z s : State} (h : Stays z s) (i : Ini) (n : Fin 4) :
  StaysX z (execQdecLearn i n s) := by
  unfold execQdecLearn
  repeat' with_reducible (first | assumption | apply done_stays | apply State.regWrite_stays | apply Stays.ite | apply StaysX.next | apply StaysX.ite)

theorem execQdecClrerr_stays {z s : State} (h : Stays z s) (i : Ini) (n : Fin 4) :
  StaysX z (execQdecClrerr i n s) := by
  unfold execQdecClrerr
  repeat' with_reducible (first | assumption | apply done_stays | apply State.regWrite_stays | apply Stays.ite | apply StaysX.next | apply StaysX.ite)

theorem execQdecPosWrite_stays {z s : State} (h : Stays z s) (i : Ini) (n : Fin 4) (v : W32) :
  StaysX z (execQdecPosWrite i n v s) := by
  unfold execQdecPosWrite
  repeat' with_reducible (first | assumption | apply done_stays | apply State.regWrite_stays | apply Stays.ite | apply StaysX.next | apply StaysX.ite)

theorem execQdecSelfCheck_stays {z s : State} (h : Stays z s) (n : Fin 4) (bad : Nat) :
  StaysX z (execQdecSelfCheck n bad s) := by
  unfold execQdecSelfCheck
  repeat' with_reducible (first | assumption | apply State.bodyReport_stays | apply done_stays | apply Stays.ite | apply StaysX.next | apply StaysX.ite | split | dsimp only)

theorem State.laneIssue_stays {z s : State} (h : Stays z s) (c : CoreId) (ok : Bool) (f : State → State) (hf : ∀ (t0 : State), Stays z t0 → Stays z (f t0)) :
  Stays z (State.laneIssue s c ok f) := by
  unfold State.laneIssue
  repeat' with_reducible (first | intro _ | assumption | apply hf | apply State.issue_stays | apply State.illegal_stays | apply Stays.ite | dsimp only | split | apply foldl_stays)

theorem State.laneReg_stays {z s : State} (h : Stays z s) (c : CoreId) (f : LaneReg) (d : BitVec 5) (a : BitVec 5) (b : BitVec 5) (st : BitVec 3) :
  Stays z (State.laneReg s c f d a b st) := by
  unfold State.laneReg
  repeat' with_reducible (first | intro _ | assumption | apply State.laneIssue_stays | apply State.onCore_stays | apply Stays.ite | dsimp only | split | apply foldl_stays)

theorem State.laneMove_stays {z s : State} (h : Stays z s) (c : CoreId) (ok : Bool) (f : Core → Core) :
  Stays z (State.laneMove s c ok f) := by
  unfold State.laneMove
  repeat' with_reducible (first | intro _ | assumption | apply State.laneIssue_stays | apply State.onCore_stays | apply Stays.ite | dsimp only | split | apply foldl_stays)

theorem State.laneMem_stays {z s : State} (h : Stays z s) (c : CoreId) (f : LaneMem) (d : BitVec 5) (a : BitVec 5) (b : BitVec 5) (st : BitVec 3) :
  Stays z (State.laneMem s c f d a b st) := by
  unfold State.laneMem
  repeat' with_reducible (first | intro _ | assumption | apply State.laneIssue_stays | apply State.coreLoad_stays | apply Stays.ite | dsimp only | split | apply foldl_stays)

theorem State.rptFault_stays {z s : State} (h : Stays z s) (c : CoreId) (k : Nat) (code : Nat) (sub : Nat) (tval : Word) :
  Stays z (State.rptFault s c k code sub tval) := by
  unfold State.rptFault
  repeat' with_reducible (first | assumption | apply State.except_stays | apply State.onCore_stays | apply Stays.ite)

theorem State.rptRep_stays {z s : State} (h : Stays z s) (c : CoreId) (f : LaneMem) (d : BitVec 5) (a : BitVec 5) (b : BitVec 5) (st : BitVec 3) (k : Nat) :
  StaysP z (State.rptRep s c f d a b st k) := by
  unfold State.rptRep
  repeat' with_reducible (first | intro _ | assumption | apply State.laneMem_stays | apply State.busRead_stays | apply State.onCore_stays | apply Stays.ite | apply StaysP.ite | split | dsimp only [StaysP])

theorem State.rptMem_stays {z s : State} (h : Stays z s) (c : CoreId) (f : LaneMem) (d : BitVec 5) (a : BitVec 5) (b : BitVec 5) (st : BitVec 3) (k : Nat) :
  StaysP z (State.rptMem s c f d a b st k) := by
  unfold State.rptMem
  repeat' with_reducible (first | intro _ | assumption | apply State.rptRep_stays | apply State.rptFault_stays | apply Stays.ite | apply StaysP.ite | split | dsimp only [StaysP])

theorem State.rptRun_stays {z s : State} (h : Stays z s) (c : CoreId) (fw : Follower) (k : Nat) (x4 : Nat) :
  Stays z (State.rptRun s c fw k x4) := by
  induction x4 generalizing s c fw k with
  | zero =>
    unfold State.rptRun
    repeat' with_reducible (first | intro _ | assumption | apply State.onCore_stays | apply State.laneReg_stays | apply State.rptMem_stays | apply Stays.ite | apply StaysP.ite | apply StaysO.ite | apply StaysOP.ite | apply StaysO.some | apply StaysO.none | apply StaysOP.some | apply StaysOP.none | apply StaysO.getD | apply StaysO.or | apply StaysOP.or | apply foldl_stays | split | dsimp only [StaysP] | (apply StaysO.of_eq ‹_›) | (apply StaysP.of_eq ‹_›) | (apply StaysOP.of_eq ‹_›))
  | succ n ih =>
    unfold State.rptRun
    repeat' with_reducible (first | intro _ | assumption | apply ih | apply State.onCore_stays | apply State.laneReg_stays | apply State.rptMem_stays | apply Stays.ite | apply StaysP.ite | apply StaysO.ite | apply StaysOP.ite | apply StaysO.some | apply StaysO.none | apply StaysOP.some | apply StaysOP.none | apply StaysO.getD | apply StaysO.or | apply StaysOP.or | apply foldl_stays | split | dsimp only [StaysP] | (apply StaysO.of_eq ‹_›) | (apply StaysP.of_eq ‹_›) | (apply StaysOP.of_eq ‹_›))

theorem execRpt_stays {z s : State} (h : Stays z s) (c : CoreId) (n : BitVec 12) (fw : Follower) :
  StaysX z (execRpt c n fw s) := by
  unfold execRpt
  repeat' with_reducible (first | intro _ | assumption | apply done_stays | apply State.issue_stays | apply State.fetch_stays | apply State.except_stays | apply State.rptRun_stays | apply State.illegal_stays | apply Stays.ite | apply StaysX.next | apply StaysX.ite | dsimp only | split | apply foldl_stays)

theorem State.rptReads_stays {z s : State} (h : Stays z s) (c : CoreId) (f : LaneMem) (d : BitVec 5) (a : BitVec 5) (b : BitVec 5) (st : BitVec 3) (k : Nat) (x9 : Nat) :
  Stays z (State.rptReads s c f d a b st k x9) := by
  induction x9 generalizing s c f d a b st k with
  | zero =>
    unfold State.rptReads
    repeat' with_reducible (first | intro _ | assumption | apply ih | apply State.rptRep_stays | apply Stays.ite | apply StaysP.ite | split | dsimp only [StaysP])
  | succ n ih =>
    unfold State.rptReads
    repeat' with_reducible (first | intro _ | assumption | apply ih | apply State.rptRep_stays | apply Stays.ite | apply StaysP.ite | split | dsimp only [StaysP])

theorem State.rptTry_stays {z s : State} (h : Stays z s) (c : CoreId) (u : BitVec 12 × Follower) :
  Stays z (State.rptTry s c u) := by
  unfold State.rptTry
  repeat' with_reducible (first | intro _ | assumption | apply State.rptReads_stays | apply State.setCore_stays | apply Stays.ite | apply StaysP.ite | split | dsimp only [StaysP])

theorem execPairMismatch_stays {z s : State} (h : Stays z s) (p : Fin 2) (k : Nat) (rpt : Option (BitVec 12 × Follower)) :
  StaysX z (execPairMismatch p k rpt s) := by
  unfold execPairMismatch
  repeat' with_reducible (first | intro _ | assumption | apply State.rptTry_stays | apply State.permanent_stays | apply State.logTransient_stays | apply State.queueSummary_stays | apply done_stays | apply State.advSat_stays | apply State.each_stays | apply Stays.ite | apply StaysX.next | apply StaysX.ite | split | dsimp only)

theorem execCmul_stays {z s : State} (h : Stays z s) (c : CoreId) (d : BitVec 5) (a : BitVec 5) (b : BitVec 5) (st : BitVec 3) :
  StaysX z (execCmul c d a b st s) := by
  unfold execCmul
  repeat' with_reducible (first | assumption | apply done_stays | apply State.laneReg_stays | apply Stays.ite | apply StaysX.next | apply StaysX.ite)

theorem execCmac_stays {z s : State} (h : Stays z s) (c : CoreId) (d : BitVec 5) (a : BitVec 5) (b : BitVec 5) (st : BitVec 3) :
  StaysX z (execCmac c d a b st s) := by
  unfold execCmac
  repeat' with_reducible (first | assumption | apply done_stays | apply State.laneReg_stays | apply Stays.ite | apply StaysX.next | apply StaysX.ite)

theorem execCmsb_stays {z s : State} (h : Stays z s) (c : CoreId) (d : BitVec 5) (a : BitVec 5) (b : BitVec 5) (st : BitVec 3) :
  StaysX z (execCmsb c d a b st s) := by
  unfold execCmsb
  repeat' with_reducible (first | assumption | apply done_stays | apply State.laneReg_stays | apply Stays.ite | apply StaysX.next | apply StaysX.ite)

theorem execCmacj_stays {z s : State} (h : Stays z s) (c : CoreId) (d : BitVec 5) (a : BitVec 5) (b : BitVec 5) (st : BitVec 3) :
  StaysX z (execCmacj c d a b st s) := by
  unfold execCmacj
  repeat' with_reducible (first | assumption | apply done_stays | apply State.laneReg_stays | apply Stays.ite | apply StaysX.next | apply StaysX.ite)

theorem execCadd_stays {z s : State} (h : Stays z s) (c : CoreId) (d : BitVec 5) (a : BitVec 5) (b : BitVec 5) (st : BitVec 3) :
  StaysX z (execCadd c d a b st s) := by
  unfold execCadd
  repeat' with_reducible (first | assumption | apply done_stays | apply State.laneReg_stays | apply Stays.ite | apply StaysX.next | apply StaysX.ite)

theorem execCsub_stays {z s : State} (h : Stays z s) (c : CoreId) (d : BitVec 5) (a : BitVec 5) (b : BitVec 5) (st : BitVec 3) :
  StaysX z (execCsub c d a b st s) := by
  unfold execCsub
  repeat' with_reducible (first | assumption | apply done_stays | apply State.laneReg_stays | apply Stays.ite | apply StaysX.next | apply StaysX.ite)

theorem execCrot_stays {z s : State} (h : Stays z s) (c : CoreId) (d : BitVec 5) (a : BitVec 5) (b : BitVec 5) (st : BitVec 3) :
  StaysX z (execCrot c d a b st s) := by
  unfold execCrot
  repeat' with_reducible (first | assumption | apply done_stays | apply State.laneReg_stays | apply Stays.ite | apply StaysX.next | apply StaysX.ite)

theorem execDot8_stays {z s : State} (h : Stays z s) (c : CoreId) (d : BitVec 5) (a : BitVec 5) (b : BitVec 5) (st : BitVec 3) :
  StaysX z (execDot8 c d a b st s) := by
  unfold execDot8
  repeat' with_reducible (first | assumption | apply done_stays | apply State.laneReg_stays | apply Stays.ite | apply StaysX.next | apply StaysX.ite)

theorem execDot8su_stays {z s : State} (h : Stays z s) (c : CoreId) (d : BitVec 5) (a : BitVec 5) (b : BitVec 5) (st : BitVec 3) :
  StaysX z (execDot8su c d a b st s) := by
  unfold execDot8su
  repeat' with_reducible (first | assumption | apply done_stays | apply State.laneReg_stays | apply Stays.ite | apply StaysX.next | apply StaysX.ite)

theorem execCconj_stays {z s : State} (h : Stays z s) (c : CoreId) (d : BitVec 5) (a : BitVec 5) (st : BitVec 3) :
  StaysX z (execCconj c d a st s) := by
  unfold execCconj
  repeat' with_reducible (first | assumption | apply done_stays | apply State.laneReg_stays | apply Stays.ite | apply StaysX.next | apply StaysX.ite)

theorem execRdcs_stays {z s : State} (h : Stays z s) (c : CoreId) (d : BitVec 5) (a : BitVec 5) (sh : BitVec 6) :
  StaysX z (execRdcs c d a sh s) := by
  unfold execRdcs
  repeat' with_reducible (first | assumption | apply done_stays | apply State.laneMove_stays | apply Stays.ite | apply StaysX.next | apply StaysX.ite)

theorem execAclr_stays {z s : State} (h : Stays z s) (c : CoreId) (d : BitVec 5) :
  StaysX z (execAclr c d s) := by
  unfold execAclr
  repeat' with_reducible (first | assumption | apply done_stays | apply State.laneMove_stays | apply Stays.ite | apply StaysX.next | apply StaysX.ite)

theorem execCmov_stays {z s : State} (h : Stays z s) (c : CoreId) (d : BitVec 5) (a : BitVec 5) :
  StaysX z (execCmov c d a s) := by
  unfold execCmov
  repeat' with_reducible (first | assumption | apply done_stays | apply State.laneMove_stays | apply Stays.ite | apply StaysX.next | apply StaysX.ite)

theorem execCfromg_stays {z s : State} (h : Stays z s) (c : CoreId) (d : BitVec 5) (a : BitVec 5) :
  StaysX z (execCfromg c d a s) := by
  unfold execCfromg
  repeat' with_reducible (first | assumption | apply done_stays | apply State.laneMove_stays | apply Stays.ite | apply StaysX.next | apply StaysX.ite)

theorem execGfromc_stays {z s : State} (h : Stays z s) (c : CoreId) (d : BitVec 5) (a : BitVec 5) :
  StaysX z (execGfromc c d a s) := by
  unfold execGfromc
  repeat' with_reducible (first | assumption | apply done_stays | apply State.laneMove_stays | apply Stays.ite | apply StaysX.next | apply StaysX.ite)

theorem execGaccrl_stays {z s : State} (h : Stays z s) (c : CoreId) (d : BitVec 5) (a : BitVec 5) :
  StaysX z (execGaccrl c d a s) := by
  unfold execGaccrl
  repeat' with_reducible (first | assumption | apply done_stays | apply State.laneMove_stays | apply Stays.ite | apply StaysX.next | apply StaysX.ite)

theorem execGaccrh_stays {z s : State} (h : Stays z s) (c : CoreId) (d : BitVec 5) (a : BitVec 5) :
  StaysX z (execGaccrh c d a s) := by
  unfold execGaccrh
  repeat' with_reducible (first | assumption | apply done_stays | apply State.laneMove_stays | apply Stays.ite | apply StaysX.next | apply StaysX.ite)

theorem execGaccil_stays {z s : State} (h : Stays z s) (c : CoreId) (d : BitVec 5) (a : BitVec 5) :
  StaysX z (execGaccil c d a s) := by
  unfold execGaccil
  repeat' with_reducible (first | assumption | apply done_stays | apply State.laneMove_stays | apply Stays.ite | apply StaysX.next | apply StaysX.ite)

theorem execGaccih_stays {z s : State} (h : Stays z s) (c : CoreId) (d : BitVec 5) (a : BitVec 5) :
  StaysX z (execGaccih c d a s) := by
  unfold execGaccih
  repeat' with_reducible (first | assumption | apply done_stays | apply State.laneMove_stays | apply Stays.ite | apply StaysX.next | apply StaysX.ite)

theorem execAsetr_stays {z s : State} (h : Stays z s) (c : CoreId) (d : BitVec 5) (a : BitVec 5) (b : BitVec 5) :
  StaysX z (execAsetr c d a b s) := by
  unfold execAsetr
  repeat' with_reducible (first | assumption | apply done_stays | apply State.laneMove_stays | apply Stays.ite | apply StaysX.next | apply StaysX.ite)

theorem execAseti_stays {z s : State} (h : Stays z s) (c : CoreId) (d : BitVec 5) (a : BitVec 5) (b : BitVec 5) :
  StaysX z (execAseti c d a b s) := by
  unfold execAseti
  repeat' with_reducible (first | assumption | apply done_stays | apply State.laneMove_stays | apply Stays.ite | apply StaysX.next | apply StaysX.ite)

theorem execLflags_stays {z s : State} (h : Stays z s) (c : CoreId) (d : BitVec 5) :
  StaysX z (execLflags c d s) := by
  unfold execLflags
  repeat' with_reducible (first | assumption | apply done_stays | apply State.laneMove_stays | apply Stays.ite | apply StaysX.next | apply StaysX.ite)

theorem execLclrf_stays {z s : State} (h : Stays z s) (c : CoreId) :
  StaysX z (execLclrf c s) := by
  unfold execLclrf
  repeat' with_reducible (first | assumption | apply done_stays | apply State.laneMove_stays | apply Stays.ite | apply StaysX.next | apply StaysX.ite)

theorem execCld_stays {z s : State} (h : Stays z s) (c : CoreId) (d : BitVec 5) (a : BitVec 5) (imm : BitVec 16) :
  StaysX z (execCld c d a imm s) := by
  unfold execCld
  repeat' with_reducible (first | intro _ | assumption | apply done_stays | apply State.laneIssue_stays | apply State.coreLoad_stays | apply Stays.ite | apply StaysX.next | apply StaysX.ite | dsimp only | split | apply foldl_stays)

theorem execCldp_stays {z s : State} (h : Stays z s) (c : CoreId) (d : BitVec 5) (a : BitVec 5) (st : BitVec 3) :
  StaysX z (execCldp c d a st s) := by
  unfold execCldp
  repeat' with_reducible (first | assumption | apply done_stays | apply State.laneMem_stays | apply Stays.ite | apply StaysX.next | apply StaysX.ite)

theorem execCst_stays {z s : State} (h : Stays z s) (c : CoreId) (d : BitVec 5) (a : BitVec 5) (st : BitVec 3) :
  StaysX z (execCst c d a st s) := by
  unfold execCst
  repeat' with_reducible (first | intro _ | assumption | apply done_stays | apply State.laneIssue_stays | apply State.coreStore_stays | apply Stays.ite | apply StaysX.next | apply StaysX.ite | dsimp only | split | apply foldl_stays)

theorem execCmacm_stays {z s : State} (h : Stays z s) (c : CoreId) (d : BitVec 5) (a : BitVec 5) (b : BitVec 5) (st : BitVec 3) :
  StaysX z (execCmacm c d a b st s) := by
  unfold execCmacm
  repeat' with_reducible (first | assumption | apply done_stays | apply State.laneMem_stays | apply Stays.ite | apply StaysX.next | apply StaysX.ite)

theorem execCmacr_stays {z s : State} (h : Stays z s) (c : CoreId) (d : BitVec 5) (a : BitVec 5) (b : BitVec 5) (st : BitVec 3) :
  StaysX z (execCmacr c d a b st s) := by
  unfold execCmacr
  repeat' with_reducible (first | assumption | apply done_stays | apply State.laneMem_stays | apply Stays.ite | apply StaysX.next | apply StaysX.ite)

theorem execDot8m_stays {z s : State} (h : Stays z s) (c : CoreId) (d : BitVec 5) (a : BitVec 5) (b : BitVec 5) (st : BitVec 3) :
  StaysX z (execDot8m c d a b st s) := by
  unfold execDot8m
  repeat' with_reducible (first | assumption | apply done_stays | apply State.laneMem_stays | apply Stays.ite | apply StaysX.next | apply StaysX.ite)

theorem execDot8msu_stays {z s : State} (h : Stays z s) (c : CoreId) (d : BitVec 5) (a : BitVec 5) (b : BitVec 5) (st : BitVec 3) :
  StaysX z (execDot8msu c d a b st s) := by
  unfold execDot8msu
  repeat' with_reducible (first | assumption | apply done_stays | apply State.laneMem_stays | apply Stays.ite | apply StaysX.next | apply StaysX.ite)

theorem State.setLanePhase_stays {z s : State} (h : Stays z s) (n : Nat) (l : Nat) (c : Nat) :
  Stays z (State.setLanePhase s n l c) := by
  unfold State.setLanePhase
  repeat' with_reducible (first | assumption | apply State.onLink_stays | apply Stays.ite)

theorem execLaceTxWrite_stays {z s : State} (h : Stays z s) (i : Ini) (n : Fin 48) (l : Fin 4) (v : W32) :
  StaysX z (execLaceTxWrite i n l v s) := by
  unfold execLaceTxWrite
  repeat' with_reducible (first | assumption | apply done_stays | apply State.regWrite_stays | apply Stays.ite | apply StaysX.next | apply StaysX.ite)

theorem execLaneIdleEnter_stays {z s : State} (h : Stays z s) (n : Fin 48) :
  StaysX z (execLaneIdleEnter n s) := by
  unfold execLaneIdleEnter
  repeat' with_reducible (first | intro _ | assumption | apply State.lanesSend_stays | apply State.onLink_stays | apply done_stays | apply Stays.ite | apply StaysX.next | apply StaysX.ite | split | dsimp only)

theorem execLaneEieReceive_stays {z s : State} (h : Stays z s) (n : Fin 48) (l : Fin 4) :
  StaysX z (execLaneEieReceive n l s) := by
  unfold execLaneEieReceive
  repeat' with_reducible (first | assumption | apply done_stays | apply State.setLanePhase_stays | apply Stays.ite | apply StaysX.next | apply StaysX.ite)

theorem execLaneExit_stays {z s : State} (h : Stays z s) (n : Fin 48) :
  StaysX z (execLaneExit n s) := by
  unfold execLaneExit
  repeat' with_reducible (first | intro _ | assumption | apply State.lanesSend_stays | apply State.onLink_stays | apply done_stays | apply Stays.ite | apply StaysX.next | apply StaysX.ite | split | dsimp only)

theorem execLaneSquelchExit_stays {z s : State} (h : Stays z s) (n : Fin 48) (l : Fin 4) :
  StaysX z (execLaneSquelchExit n l s) := by
  unfold execLaneSquelchExit
  repeat' with_reducible (first | assumption | apply done_stays | apply State.setLanePhase_stays | apply Stays.ite | apply StaysX.next | apply StaysX.ite)

theorem execLaneExitAligned_stays {z s : State} (h : Stays z s) (n : Fin 48) :
  StaysX z (execLaneExitAligned n s) := by
  unfold execLaneExitAligned
  repeat' with_reducible (first | assumption | apply done_stays | apply State.advSat_stays | apply State.onLink_stays | apply Stays.ite | apply StaysX.next | apply StaysX.ite)

theorem State.laneLost_stays {z s : State} (h : Stays z s) (n : Nat) (l : Nat) (bit : Nat) :
  Stays z (State.laneLost s n l bit) := by
  unfold State.laneLost
  repeat' with_reducible (first | assumption | apply State.putBit_stays | apply State.wantRetrain_stays | apply State.laceTransient_stays | apply State.setFld_stays | apply Stays.ite)

theorem execLaneExitFail_stays {z s : State} (h : Stays z s) (n : Fin 48) (l : Fin 4) :
  StaysX z (execLaneExitFail n l s) := by
  unfold execLaneExitFail
  repeat' with_reducible (first | assumption | apply done_stays | apply State.laneLost_stays | apply State.putBit_stays | apply State.setLanePhase_stays | apply State.setLaneSt_stays | apply Stays.ite | apply StaysX.next | apply StaysX.ite)

theorem execLaneFalseExit_stays {z s : State} (h : Stays z s) (n : Fin 48) (l : Fin 4) :
  StaysX z (execLaneFalseExit n l s) := by
  unfold execLaneFalseExit
  repeat' with_reducible (first | assumption | apply done_stays | apply State.advSat_stays | apply State.setLanePhase_stays | apply Stays.ite | apply StaysX.next | apply StaysX.ite)

theorem execLaneLockLost_stays {z s : State} (h : Stays z s) (n : Fin 48) (l : Fin 4) :
  StaysX z (execLaneLockLost n l s) := by
  unfold execLaneLockLost
  repeat' with_reducible (first | assumption | apply done_stays | apply State.laneLost_stays | apply Stays.ite | apply StaysX.next | apply StaysX.ite)

theorem execSkipSetSend_stays {z s : State} (h : Stays z s) (n : Fin 48) (idle : Nat) :
  StaysX z (execSkipSetSend n idle s) := by
  unfold execSkipSetSend
  repeat' with_reducible (first | intro _ | assumption | apply State.onLink_stays | apply done_stays | apply Stays.ite | apply StaysX.next | apply StaysX.ite | split | dsimp only)

theorem execSkipSetReceive_stays {z s : State} (h : Stays z s) (n : Fin 48) (l : Fin 4) (groups : List (BitVec 10)) :
  StaysX z (execSkipSetReceive n l groups s) := by
  unfold execSkipSetReceive
  repeat' with_reducible (first | assumption | apply State.rxGroups_stays | apply done_stays | apply Stays.ite | apply StaysX.next | apply StaysX.ite | split | dsimp only)

theorem execTrainStart_stays {z s : State} (h : Stays z s) (n : Fin 48) :
  StaysX z (execTrainStart n s) := by
  unfold execTrainStart
  repeat' with_reducible (first | assumption | apply done_stays | apply State.linkRetrain_stays | apply State.trainStart_stays | apply Stays.ite | apply StaysX.next | apply StaysX.ite)

theorem State.reachGoal_stays {z s : State} (h : Stays z s) (n : Nat) (l : Nat) :
  Stays z (State.reachGoal s n l) := by
  unfold State.reachGoal
  repeat' with_reducible (first | intro _ | assumption | apply State.adapt_stays | apply State.sendTs_stays | apply State.onLink_stays | apply Stays.ite | split | dsimp only)

theorem State.tsFields_stays {z s : State} (h : Stays z s) (n : Nat) (l : Nat) (ts : TrainSet) (inverted : Bool) :
  Stays z (State.tsFields s n l ts inverted) := by
  unfold State.tsFields
  repeat' with_reducible (first | intro _ | assumption | apply State.reachGoal_stays | apply State.onLink_stays | apply State.putBit_stays | apply State.setFld_stays | apply State.wr_stays | apply Stays.ite | split | dsimp only)

theorem execTsReceive_stays {z s : State} (h : Stays z s) (n : Fin 48) (l : Fin 4) (ts : TrainSet) (inverted : Bool) (groups : List (BitVec 10)) :
  StaysX z (execTsReceive n l ts inverted groups s) := by
  unfold execTsReceive
  repeat' with_reducible (first | assumption | apply State.tsFields_stays | apply State.rxGroups_stays | apply done_stays | apply Stays.ite | apply StaysX.next | apply StaysX.ite | split | dsimp only)

theorem execTrainNegotiateDone_stays {z s : State} (h : Stays z s) (n : Fin 48) :
  StaysX z (execTrainNegotiateDone n s) := by
  unfold execTrainNegotiateDone
  repeat' with_reducible (first | assumption | apply State.negotiated_stays | apply done_stays | apply Stays.ite | apply StaysX.next | apply StaysX.ite | split | dsimp only)

theorem execTrainRateDone_stays {z s : State} (h : Stays z s) (n : Fin 48) :
  StaysX z (execTrainRateDone n s) := by
  unfold execTrainRateDone
  repeat' with_reducible (first | assumption | apply State.attemptOver_stays | apply done_stays | apply Stays.ite | apply StaysX.next | apply StaysX.ite | split | dsimp only)

theorem execTrainTimeout_stays {z s : State} (h : Stays z s) (n : Fin 48) :
  StaysX z (execTrainTimeout n s) := by
  unfold execTrainTimeout
  repeat' with_reducible (first | assumption | apply State.attemptOver_stays | apply State.negotiated_stays | apply done_stays | apply Stays.ite | apply StaysX.next | apply StaysX.ite | split | dsimp only)

theorem execLaceTestStart_stays {z s : State} (h : Stays z s) (i : Ini) (n : Fin 48) (v : W32) :
  StaysX z (execLaceTestStart i n v s) := by
  unfold execLaceTestStart
  repeat' with_reducible (first | assumption | apply done_stays | apply State.regWrite_stays | apply Stays.ite | apply StaysX.next | apply StaysX.ite)

theorem execLaceTestEnd_stays {z s : State} (h : Stays z s) (i : Ini) (n : Fin 48) (v : W32) :
  StaysX z (execLaceTestEnd i n v s) := by
  unfold execLaceTestEnd
  repeat' with_reducible (first | assumption | apply done_stays | apply State.regWrite_stays | apply Stays.ite | apply StaysX.next | apply StaysX.ite)

theorem execLaceTestLpb_stays {z s : State} (h : Stays z s) (i : Ini) (n : Fin 48) (v : W32) :
  StaysX z (execLaceTestLpb i n v s) := by
  unfold execLaceTestLpb
  repeat' with_reducible (first | assumption | apply done_stays | apply State.regWrite_stays | apply Stays.ite | apply StaysX.next | apply StaysX.ite)

theorem execLpbReceive_stays {z s : State} (h : Stays z s) (n : Fin 48) (l : Fin 4) :
  StaysX z (execLpbReceive n l s) := by
  unfold execLpbReceive
  repeat' with_reducible (first | assumption | apply done_stays | apply State.onLink_stays | apply State.setLaneSt_stays | apply State.putBit_stays | apply Stays.ite | apply StaysX.next | apply StaysX.ite)

theorem execFelEnd_stays {z s : State} (h : Stays z s) (n : Fin 48) (l : Fin 4) :
  StaysX z (execFelEnd n l s) := by
  unfold execFelEnd
  repeat' with_reducible (first | intro _ | assumption | apply State.laneDark_stays | apply State.setLaneSt_stays | apply State.onLink_stays | apply done_stays | apply Stays.ite | apply StaysX.next | apply StaysX.ite | split | dsimp only)

theorem execPrbsBitsRead_stays {z s : State} (h : Stays z s) (i : Ini) (n : Fin 48) (l : Fin 4) :
  StaysX z (execPrbsBitsRead i n l s) := by
  unfold execPrbsBitsRead
  repeat' with_reducible (first | assumption | apply done_stays | apply State.regReadCmd_stays | apply Stays.ite | apply StaysX.next | apply StaysX.ite)

theorem State.prbsBit_stays {z s : State} (h : Stays z s) (n : Nat) (l : Nat) (b : Bool) :
  Stays z (State.prbsBit s n l b) := by
  unfold State.prbsBit
  repeat' with_reducible (first | assumption | apply State.withLace_stays | apply State.advSat_stays | apply State.setFld_stays | apply Stays.ite)

theorem State.genStart_stays {z s : State} (h : Stays z s) (n : Nat) :
  StaysP z (State.genStart s n) := by
  unfold State.genStart
  repeat' with_reducible (first | intro _ | assumption | apply State.drawn_stays | apply Stays.ite | apply StaysP.ite | split | dsimp only [StaysP])

theorem State.looped_stays {z s : State} (h : Stays z s) (n : Nat) (l : Nat) (k : Nat) :
  StaysP z (State.looped s n l k) := by
  unfold State.looped
  repeat' with_reducible (first | intro _ | assumption | apply State.genStart_stays | apply State.withLace_stays | apply Stays.ite | apply StaysP.ite | split | dsimp only [StaysP])

theorem execPrbsCheckerSync_stays {z s : State} (h : Stays z s) (n : Fin 48) (l : Fin 4) (bits : List Bool) :
  StaysX z (execPrbsCheckerSync n l bits s) := by
  unfold execPrbsCheckerSync
  repeat' with_reducible (first | intro _ | assumption | apply State.looped_stays | apply State.prbsBit_stays | apply State.onLink_stays | apply done_stays | apply foldl_stays | apply Stays.ite | apply StaysX.next | apply StaysX.ite | apply StaysP.ite | apply foldl_stays | apply foldlP_stays | split | dsimp only [StaysP])

theorem execLinkEnable_stays {z s : State} (h : Stays z s) (i : Ini) (n : Fin 48) (v : W32) :
  StaysX z (execLinkEnable i n v s) := by
  unfold execLinkEnable
  repeat' with_reducible (first | assumption | apply done_stays | apply State.regWrite_stays | apply Stays.ite | apply StaysX.next | apply StaysX.ite)

theorem execLinkDisable_stays {z s : State} (h : Stays z s) (i : Ini) (n : Fin 48) (v : W32) :
  StaysX z (execLinkDisable i n v s) := by
  unfold execLinkDisable
  repeat' with_reducible (first | assumption | apply done_stays | apply State.regWrite_stays | apply Stays.ite | apply StaysX.next | apply StaysX.ite)

theorem execLinkRetrainCmd_stays {z s : State} (h : Stays z s) (i : Ini) (n : Fin 48) :
  StaysX z (execLinkRetrainCmd i n s) := by
  unfold execLinkRetrainCmd
  repeat' with_reducible (first | assumption | apply done_stays | apply State.regWrite_stays | apply Stays.ite | apply StaysX.next | apply StaysX.ite)

theorem execLinkSwapCmd_stays {z s : State} (h : Stays z s) (i : Ini) (n : Fin 48) :
  StaysX z (execLinkSwapCmd i n s) := by
  unfold execLinkSwapCmd
  repeat' with_reducible (first | assumption | apply done_stays | apply State.regWrite_stays | apply Stays.ite | apply StaysX.next | apply StaysX.ite)

theorem execLinkRetireCmd_stays {z s : State} (h : Stays z s) (i : Ini) (n : Fin 48) :
  StaysX z (execLinkRetireCmd i n s) := by
  unfold execLinkRetireCmd
  repeat' with_reducible (first | assumption | apply done_stays | apply State.regWrite_stays | apply Stays.ite | apply StaysX.next | apply StaysX.ite)

theorem execLinkReadmitCmd_stays {z s : State} (h : Stays z s) (i : Ini) (n : Fin 48) :
  StaysX z (execLinkReadmitCmd i n s) := by
  unfold execLinkReadmitCmd
  repeat' with_reducible (first | assumption | apply done_stays | apply State.regWrite_stays | apply Stays.ite | apply StaysX.next | apply StaysX.ite)

theorem execPkgIdWrite_stays {z s : State} (h : Stays z s) (i : Ini) (v : W32) :
  StaysX z (execPkgIdWrite i v s) := by
  unfold execPkgIdWrite
  repeat' with_reducible (first | assumption | apply done_stays | apply State.regWrite_stays | apply Stays.ite | apply StaysX.next | apply StaysX.ite)

theorem execRouteWrite_stays {z s : State} (h : Stays z s) (i : Ini) (p : BitVec 8) (v : W32) :
  StaysX z (execRouteWrite i p v s) := by
  unfold execRouteWrite
  repeat' with_reducible (first | assumption | apply done_stays | apply State.regWrite_stays | apply Stays.ite | apply StaysX.next | apply StaysX.ite)

theorem execWindowWrite_stays {z s : State} (h : Stays z s) (i : Ini) (w : Fin 64) (hi : Bool) (v : W32) :
  StaysX z (execWindowWrite i w hi v s) := by
  unfold execWindowWrite
  repeat' with_reducible (first | assumption | apply done_stays | apply State.regWrite_stays | apply Stays.ite | apply StaysX.next | apply StaysX.ite)

theorem State.takeHdr_stays {z s : State} (h : Stays z s) (n : Nat) (h : LHdr) :
  Stays z (State.takeHdr s n h) := by
  unfold State.takeHdr
  repeat' with_reducible (first | assumption | apply State.hdrIn_stays | apply Stays.ite | split | dsimp only)

theorem State.linkTake_stays {z s : State} (h : Stays z s) (n : Nat) (rx : List (List (BitVec 10))) (seq : Nat) (good : Bool) (h : LHdr) :
  StaysP z (State.linkTake s n rx seq good h) := by
  unfold State.linkTake
  repeat' with_reducible (first | intro _ | assumption | apply State.takeHdr_stays | apply State.seqIn_stays | apply State.rxLanes_stays | apply Stays.ite | apply StaysP.ite | split | dsimp only [StaysP])

theorem execLinkAckReceive_stays {z s : State} (h : Stays z s) (n : Fin 48) (rx : List (List (BitVec 10))) (h : LHdr) :
  StaysX z (execLinkAckReceive n rx h s) := by
  unfold execLinkAckReceive
  repeat' with_reducible (first | assumption | apply State.takeHdr_stays | apply State.rxLanes_stays | apply done_stays | apply Stays.ite | apply StaysX.next | apply StaysX.ite | split | dsimp only)

theorem State.linkUp_stays {z s : State} (h : Stays z s) (k : Nat) (req : Nat) (rsp : Nat) (fwd : Nat) :
  Stays z (State.linkUp s k req rsp fwd) := by
  unfold State.linkUp
  repeat' with_reducible (first | assumption | apply State.resume_stays | apply State.laceTransient_stays | apply State.syncLive_stays | apply State.setLinkSt_stays | apply State.setLink_stays | apply State.putBit_stays | apply Stays.ite | split | dsimp only)

theorem execLinkCreditInitReceive_stays {z s : State} (h : Stays z s) (n : Fin 48) (rx : List (List (BitVec 10))) (h : LHdr) (req : BitVec 8) (rsp : BitVec 8) (fwd : BitVec 8) :
  StaysX z (execLinkCreditInitReceive n rx h req rsp fwd s) := by
  unfold execLinkCreditInitReceive
  repeat' with_reducible (first | assumption | apply State.linkUp_stays | apply State.takeHdr_stays | apply State.rxLanes_stays | apply done_stays | apply Stays.ite | apply StaysX.next | apply StaysX.ite | split | dsimp only)

theorem State.remoteSig_stays {z s : State} (h : Stays z s) (d : Fin 4) (p : LData) (h : W32) (a : W32) :
  Stays z (State.remoteSig s d p h a) := by
  unfold State.remoteSig
  repeat' with_reducible (first | assumption | apply State.answerPkg_stays | apply State.countSig_stays | apply State.addCounter_stays | apply Stays.ite | split | dsimp only)

theorem State.remoteReq_stays {z s : State} (h : Stays z s) (link : Nat) (d : Fin 4) (p : LData) (k : Kind) (addr : Word) (len : Nat) (posted : Bool) (early : Bool) (data : List Byte) (op : AtomOp) (v : Word) :
  Stays z (State.remoteReq s link d p k addr len posted early data op v) := by
  unfold State.remoteReq
  repeat' with_reducible (first | intro _ | assumption | apply State.atomic_stays | apply State.fetch_stays | apply State.enter_stays | apply State.answerPkg_stays | apply State.notice_stays | apply State.withNet_stays | apply Stays.ite | apply StaysP.ite | split | dsimp only [StaysP])

theorem State.remoteAnswer_stays {z s : State} (h : Stays z s) (tag : BitVec 16) (reason : Nat) (data : List Byte) :
  Stays z (State.remoteAnswer s tag reason data) := by
  unfold State.remoteAnswer
  repeat' with_reducible (first | intro _ | assumption | apply State.undeliverSig_stays | apply State.notice_stays | apply State.respond_stays | apply State.advSat_stays | apply State.withSigOut_stays | apply State.withNet_stays | apply Stays.ite | split | dsimp only)

theorem State.forward_stays {z s : State} (h : Stays z s) (n : Nat) (p : LData) :
  Stays z (State.forward s n p) := by
  unfold State.forward
  repeat' with_reducible (first | intro _ | assumption | apply State.bounce_stays | apply State.oweUnits_stays | apply State.onLink_stays | apply State.withLace_stays | apply State.advSat_stays | apply Stays.ite | split | dsimp only)

theorem execLinkDataReceive_stays {z s : State} (h : Stays z s) (n : Fin 48) (rx : List (List (BitVec 10))) (good : Bool) (seq : BitVec 12) (h : LHdr) (p : LData) :
  StaysX z (execLinkDataReceive n rx good seq h p s) := by
  unfold execLinkDataReceive
  repeat' with_reducible (first | intro _ | assumption | apply State.forward_stays | apply State.remoteAnswer_stays | apply State.remoteReq_stays | apply State.remoteSig_stays | apply State.linkTake_stays | apply State.oweUnits_stays | apply done_stays | apply Stays.ite | apply StaysX.next | apply StaysX.ite | apply StaysP.ite | split | dsimp only [StaysP])

theorem State.swapOver_stays {z s : State} (h : Stays z s) (n : Nat) (out : Nat) :
  Stays z (State.swapOver s n out) := by
  unfold State.swapOver
  repeat' with_reducible (first | assumption | apply State.putBit_stays | apply State.setFld_stays | apply Stays.ite)

theorem execMgmtMarkReceive_stays {z s : State} (h : Stays z s) (n : Fin 48) (rx : List (List (BitVec 10))) (seq : BitVec 12) (h : LHdr) (w : BitVec 16) (out : BitVec 2) :
  StaysX z (execMgmtMarkReceive n rx seq h w out s) := by
  unfold execMgmtMarkReceive
  repeat' with_reducible (first | intro _ | assumption | apply State.swapOver_stays | apply State.linkTake_stays | apply State.onLink_stays | apply done_stays | apply Stays.ite | apply StaysX.next | apply StaysX.ite | apply StaysP.ite | split | dsimp only [StaysP])

theorem execMgmtSwapReceive_stays {z s : State} (h : Stays z s) (n : Fin 48) (rx : List (List (BitVec 10))) (seq : BitVec 12) (h : LHdr) :
  StaysX z (execMgmtSwapReceive n rx seq h s) := by
  unfold execMgmtSwapReceive
  repeat' with_reducible (first | intro _ | assumption | apply State.linkTake_stays | apply State.onLink_stays | apply done_stays | apply Stays.ite | apply StaysX.next | apply StaysX.ite | apply StaysP.ite | split | dsimp only [StaysP])

theorem execMgmtRetrainReceive_stays {z s : State} (h : Stays z s) (n : Fin 48) (rx : List (List (BitVec 10))) (seq : BitVec 12) (h : LHdr) :
  StaysX z (execMgmtRetrainReceive n rx seq h s) := by
  unfold execMgmtRetrainReceive
  repeat' with_reducible (first | intro _ | assumption | apply State.linkTake_stays | apply State.linkRetrain_stays | apply done_stays | apply Stays.ite | apply StaysX.next | apply StaysX.ite | apply StaysP.ite | split | dsimp only [StaysP])

theorem execWardenMark_stays {z s : State} (h : Stays z s) (n : Fin 48) :
  StaysX z (execWardenMark n s) := by
  unfold execWardenMark
  repeat' with_reducible (first | intro _ | assumption | apply State.swapOver_stays | apply State.sendMgmt_stays | apply State.onLink_stays | apply done_stays | apply Stays.ite | apply StaysX.next | apply StaysX.ite | apply StaysP.ite | split | dsimp only [StaysP])

theorem execReplayTimeout_stays {z s : State} (h : Stays z s) (n : Fin 48) :
  StaysX z (execReplayTimeout n s) := by
  unfold execReplayTimeout
  repeat' with_reducible (first | assumption | apply State.replayAll_stays | apply done_stays | apply Stays.ite | apply StaysX.next | apply StaysX.ite | split | dsimp only)

theorem execRetrainReqTimeout_stays {z s : State} (h : Stays z s) (n : Fin 48) :
  StaysX z (execRetrainReqTimeout n s) := by
  unfold execRetrainReqTimeout
  repeat' with_reducible (first | assumption | apply done_stays | apply State.linkRetrain_stays | apply State.onLink_stays | apply Stays.ite | apply StaysX.next | apply StaysX.ite | dsimp only | split)

theorem execLinkIdleAfter_stays {z s : State} (h : Stays z s) (n : Fin 48) :
  StaysX z (execLinkIdleAfter n s) := by
  unfold execLinkIdleAfter
  repeat' with_reducible (first | intro _ | assumption | apply State.onLink_stays | apply done_stays | apply Stays.ite | apply StaysX.next | apply StaysX.ite | split | dsimp only)

theorem execRemoteTimeout_stays {z s : State} (h : Stays z s) (k : Nat) (sig : Bool) :
  StaysX z (execRemoteTimeout k sig s) := by
  unfold execRemoteTimeout
  repeat' with_reducible (first | assumption | apply done_stays | apply State.undeliverSig_stays | apply State.unreach_stays | apply State.undeliverReq_stays | apply Stays.ite | apply StaysX.next | apply StaysX.ite | dsimp only | split)

theorem execHcmdBusTx_stays {z s : State} (h : Stays z s)  :
  StaysX z (execHcmdBusTx s) := by
  unfold execHcmdBusTx
  repeat' with_reducible (first | intro _ | assumption | apply done_stays | apply State.hcmdRun_stays | apply State.busTx_stays | apply Stays.ite | apply StaysX.next | apply StaysX.ite | dsimp only | split | apply foldl_stays)

theorem execHcmdBusRx_stays {z s : State} (h : Stays z s)  :
  StaysX z (execHcmdBusRx s) := by
  unfold execHcmdBusRx
  repeat' with_reducible (first | intro _ | assumption | apply done_stays | apply State.hcmdRun_stays | apply State.busRx_stays | apply Stays.ite | apply StaysX.next | apply StaysX.ite | dsimp only | split | apply foldl_stays)

theorem execMbcInitClear_stays {z s : State} (h : Stays z s) (i : Ini) (n : Fin 8) (v : W32) :
  StaysX z (execMbcInitClear i n v s) := by
  unfold execMbcInitClear
  repeat' with_reducible (first | assumption | apply done_stays | apply State.regWrite_stays | apply Stays.ite | apply StaysX.next | apply StaysX.ite)

theorem execMbcInitSet_stays {z s : State} (h : Stays z s) (i : Ini) (n : Fin 8) (v : W32) :
  StaysX z (execMbcInitSet i n v s) := by
  unfold execMbcInitSet
  repeat' with_reducible (first | assumption | apply done_stays | apply State.regWrite_stays | apply Stays.ite | apply StaysX.next | apply StaysX.ite)

theorem execMbcBusIntegrated_stays {z s : State} (h : Stays z s) (n : Fin 8) :
  StaysX z (execMbcBusIntegrated n s) := by
  unfold execMbcBusIntegrated
  repeat' with_reducible (first | intro _ | assumption | apply State.untx_stays | apply State.offer_stays | apply State.setAct_stays | apply State.onMbc_stays | apply done_stays | apply Stays.ite | apply StaysX.next | apply StaysX.ite | split | dsimp only)

theorem execMbcRecover_stays {z s : State} (h : Stays z s) (i : Ini) (n : Fin 8) :
  StaysX z (execMbcRecover i n s) := by
  unfold execMbcRecover
  repeat' with_reducible (first | assumption | apply done_stays | apply State.regWrite_stays | apply Stays.ite | apply StaysX.next | apply StaysX.ite)

theorem execMbcRecovered_stays {z s : State} (h : Stays z s) (n : Fin 8) :
  StaysX z (execMbcRecovered n s) := by
  unfold execMbcRecovered
  repeat' with_reducible (first | assumption | apply done_stays | apply State.setAct_stays | apply State.onMbc_stays | apply State.mbcEvt_stays | apply State.wr_stays | apply State.setFld_stays | apply State.offer_stays | apply State.lastArm_stays | apply Stays.ite | apply StaysX.next | apply StaysX.ite)

theorem execMbcTxreq_stays {z s : State} (h : Stays z s) (i : Ini) (n : Fin 8) (v : W32) :
  StaysX z (execMbcTxreq i n v s) := by
  unfold execMbcTxreq
  repeat' with_reducible (first | assumption | apply done_stays | apply State.regWrite_stays | apply Stays.ite | apply StaysX.next | apply StaysX.ite)

theorem execMbcTxcan_stays {z s : State} (h : Stays z s) (i : Ini) (n : Fin 8) (v : W32) :
  StaysX z (execMbcTxcan i n v s) := by
  unfold execMbcTxcan
  repeat' with_reducible (first | assumption | apply done_stays | apply State.regWrite_stays | apply Stays.ite | apply StaysX.next | apply StaysX.ite)

theorem execMbcTxAttemptEnd_stays {z s : State} (h : Stays z s) (n : Fin 8) (b : Fin 33) (sof : Word) (tdcv : Option Nat) (e : TxEnd) :
  StaysX z (execMbcTxAttemptEnd n b sof tdcv e s) := by
  unfold execMbcTxAttemptEnd
  repeat' with_reducible (first | assumption | apply State.attemptEnd_stays | apply State.untx_stays | apply State.offerOf_stays | apply done_stays | apply State.setFld_stays | apply Stays.ite | apply StaysX.next | apply StaysX.ite | split | dsimp only)

theorem State.initBusy_stays {z s : State} (h : Stays z s) (n : Nat) :
  Stays z (State.initBusy s n) := by
  unfold State.initBusy
  repeat' with_reducible (first | assumption | apply State.untx_stays | apply State.setAct_stays | apply Stays.ite | split | dsimp only)

theorem execMbcFrameReceived_stays {z s : State} (h : Stays z s) (n : Fin 8) (f : CanFrame) (stamp : Word) :
  StaysX z (execMbcFrameReceived n f stamp s) := by
  unfold execMbcFrameReceived
  repeat' with_reducible (first | assumption | apply State.initBusy_stays | apply State.mbcReceive_stays | apply State.untx_stays | apply State.offer_stays | apply done_stays | apply Stays.ite | apply StaysX.next | apply StaysX.ite | split | dsimp only)

theorem execMbcRxfAck_stays {z s : State} (h : Stays z s) (i : Ini) (n : Fin 8) :
  StaysX z (execMbcRxfAck i n s) := by
  unfold execMbcRxfAck
  repeat' with_reducible (first | assumption | apply done_stays | apply State.regWrite_stays | apply Stays.ite | apply StaysX.next | apply StaysX.ite)

theorem execMbcFailPop_stays {z s : State} (h : Stays z s) (i : Ini) (n : Fin 8) :
  StaysX z (execMbcFailPop i n s) := by
  unfold execMbcFailPop
  repeat' with_reducible (first | assumption | apply done_stays | apply State.regWrite_stays | apply Stays.ite | apply StaysX.next | apply StaysX.ite)

theorem State.ramBad_stays {z s : State} (h : Stays z s) (n : Nat) (bad : MbcBad) :
  Stays z (State.ramBad s n bad) := by
  unfold State.ramBad
  repeat' with_reducible (first | intro _ | assumption | apply State.passLose_stays | apply State.fifoLose_stays | apply State.rejoin_stays | apply State.reqFail_stays | apply State.onMbc_stays | apply State.setFld_stays | apply Stays.ite | split | dsimp only)

theorem execMbcRamError_stays {z s : State} (h : Stays z s) (n : Fin 8) (bad : MbcBad) (k : Nat) :
  StaysX z (execMbcRamError n bad k s) := by
  unfold execMbcRamError
  repeat' with_reducible (first | assumption | apply State.ramBad_stays | apply State.bodyReport_stays | apply State.offer_stays | apply done_stays | apply Stays.ite | apply StaysX.next | apply StaysX.ite | split | dsimp only)

theorem execMbcRxError_stays {z s : State} (h : Stays z s) (n : Fin 8) (bad : RxBad) :
  StaysX z (execMbcRxError n bad s) := by
  unfold execMbcRxError
  repeat' with_reducible (first | assumption | apply State.initBusy_stays | apply State.rejoin_stays | apply State.setLec_stays | apply State.setErr_stays | apply State.untx_stays | apply State.offer_stays | apply done_stays | apply State.setFld_stays | apply Stays.ite | apply StaysX.next | apply StaysX.ite | split | dsimp only)

theorem execLastRun_stays {z s : State} (h : Stays z s) (i : Ini) (n : Fin 8) (mode : Fin 4) :
  StaysX z (execLastRun i n mode s) := by
  unfold execLastRun
  repeat' with_reducible (first | assumption | apply done_stays | apply State.regWrite_stays | apply Stays.ite | apply StaysX.next | apply StaysX.ite)

theorem execLastStop_stays {z s : State} (h : Stays z s) (i : Ini) (n : Fin 8) :
  StaysX z (execLastStop i n s) := by
  unfold execLastStop
  repeat' with_reducible (first | assumption | apply done_stays | apply State.regWrite_stays | apply Stays.ite | apply StaysX.next | apply StaysX.ite)

theorem execLastCycleStart_stays {z s : State} (h : Stays z s) (n : Fin 8) :
  StaysX z (execLastCycleStart n s) := by
  unfold execLastCycleStart
  repeat' with_reducible (first | assumption | apply done_stays | apply State.onMbc_stays | apply State.cycleStart_stays | apply State.lastEvt_stays | apply Stays.ite | apply StaysX.next | apply StaysX.ite | dsimp only | split)

theorem execLastSlotStart_stays {z s : State} (h : Stays z s) (n : Fin 8) :
  StaysX z (execLastSlotStart n s) := by
  unfold execLastSlotStart
  repeat' with_reducible (first | assumption | apply done_stays | apply State.slotStart_stays | apply Stays.ite | apply StaysX.next | apply StaysX.ite)

theorem execLastWindowEnd_stays {z s : State} (h : Stays z s) (n : Fin 8) (begun : Bool) :
  StaysX z (execLastWindowEnd n begun s) := by
  unfold execLastWindowEnd
  repeat' with_reducible (first | intro _ | assumption | apply State.windowEnd_stays | apply done_stays | apply Stays.ite | apply StaysX.next | apply StaysX.ite | apply StaysP.ite | split | dsimp only [StaysP])

theorem execLastRefTimeout_stays {z s : State} (h : Stays z s) (n : Fin 8) :
  StaysX z (execLastRefTimeout n s) := by
  unfold execLastRefTimeout
  repeat' with_reducible (first | assumption | apply State.windowEnd_stays | apply State.offer_stays | apply State.lastEvt_stays | apply State.setLast_stays | apply done_stays | apply Stays.ite | apply StaysX.next | apply StaysX.ite | split | dsimp only)

theorem execNocRtEnable_stays {z s : State} (h : Stays z s) (i : Ini) (d : Fin 4) (j : Fin 17) (n : Fin 8) (dest : BitVec 6) :
  StaysX z (execNocRtEnable i d j n dest s) := by
  unfold execNocRtEnable
  repeat' with_reducible (first | assumption | apply done_stays | apply State.regWrite_stays | apply Stays.ite | apply StaysX.next | apply StaysX.ite)

theorem execNocRtEdit_stays {z s : State} (h : Stays z s) (i : Ini) (d : Fin 4) (j : Fin 17) (n : Fin 8) (route : Bool) (v : W32) :
  StaysX z (execNocRtEdit i d j n route v s) := by
  unfold execNocRtEdit
  repeat' with_reducible (first | assumption | apply done_stays | apply State.regWrite_stays | apply Stays.ite | apply StaysX.next | apply StaysX.ite)

theorem execBwcWindowBoundary_stays {z s : State} (h : Stays z s) (x : Fin 5) :
  StaysX z (execBwcWindowBoundary x s) := by
  unfold execBwcWindowBoundary
  repeat' with_reducible (first | assumption | apply done_stays | apply State.bwcBoundary_stays | apply Stays.ite | apply StaysX.next | apply StaysX.ite)

theorem execBwcBudgetWrite_stays {z s : State} (h : Stays z s) (i : Ini) (x : Fin 5) (cls : Fin 16) (r : Fin 4) (v : W32) :
  StaysX z (execBwcBudgetWrite i x cls r v s) := by
  unfold execBwcBudgetWrite
  repeat' with_reducible (first | assumption | apply done_stays | apply State.regWrite_stays | apply Stays.ite | apply StaysX.next | apply StaysX.ite)

theorem execBwcWindowWrite_stays {z s : State} (h : Stays z s) (i : Ini) (x : Fin 5) (v : W32) :
  StaysX z (execBwcWindowWrite i x v s) := by
  unfold execBwcWindowWrite
  repeat' with_reducible (first | assumption | apply done_stays | apply State.regWrite_stays | apply Stays.ite | apply StaysX.next | apply StaysX.ite)

theorem execAwlMatch_stays {z s : State} (h : Stays z s) (x : Fin 5) (point : BitVec 6) (port : BitVec 3) (dir : Bool) (k : Pkt) :
  StaysX z (execAwlMatch x point port dir k s) := by
  unfold execAwlMatch
  repeat' with_reducible (first | assumption | apply State.awlPass_stays | apply done_stays | apply Stays.ite | apply StaysX.next | apply StaysX.ite | split | dsimp only)

theorem execAwlTrigWrite_stays {z s : State} (h : Stays z s) (i : Ini) (x : Fin 5) (p : Fin 16) (v : W32) :
  StaysX z (execAwlTrigWrite i x p v s) := by
  unfold execAwlTrigWrite
  repeat' with_reducible (first | assumption | apply done_stays | apply State.regWrite_stays | apply Stays.ite | apply StaysX.next | apply StaysX.ite)

theorem execAwlUnfreeze_stays {z s : State} (h : Stays z s) (i : Ini) (x : Fin 5) :
  StaysX z (execAwlUnfreeze i x s) := by
  unfold execAwlUnfreeze
  repeat' with_reducible (first | assumption | apply done_stays | apply State.regWrite_stays | apply Stays.ite | apply StaysX.next | apply StaysX.ite)

theorem execAwlCfgWrite_stays {z s : State} (h : Stays z s) (i : Ini) (x : Fin 5) (p : Fin 16) (w : Fin 12) (v : W32) :
  StaysX z (execAwlCfgWrite i x p w v s) := by
  unfold execAwlCfgWrite
  repeat' with_reducible (first | assumption | apply done_stays | apply State.regWrite_stays | apply Stays.ite | apply StaysX.next | apply StaysX.ite)

theorem execMeshFlitError_stays {z s : State} (h : Stays z s) (d : Fin 4) (router : Fin 36) (k : Nat) :
  StaysX z (execMeshFlitError d router k s) := by
  unfold execMeshFlitError
  repeat' with_reducible (first | assumption | apply done_stays | apply State.advSat_stays | apply State.faultOrRetry_stays | apply Stays.ite | apply StaysX.next | apply StaysX.ite)

theorem execWeltFlitError_stays {z s : State} (h : Stays z s) (b : Fin 12) (k : Nat) :
  StaysX z (execWeltFlitError b k s) := by
  unfold execWeltFlitError
  repeat' with_reducible (first | assumption | apply done_stays | apply State.weltRetry_stays | apply State.faultOrRetry_stays | apply Stays.ite | apply StaysX.next | apply StaysX.ite)

theorem execLinHeaderSend_stays {z s : State} (h : Stays z s) (i : Ini) (n : Fin 8) (id : BitVec 6) :
  StaysX z (execLinHeaderSend i n id s) := by
  unfold execLinHeaderSend
  repeat' with_reducible (first | assumption | apply done_stays | apply State.regWrite_stays | apply Stays.ite | apply StaysX.next | apply StaysX.ite)

theorem execLinBreak_stays {z s : State} (h : Stays z s) (n : Fin 8) (start : Word) (stamp : Word) :
  StaysX z (execLinBreak n start stamp s) := by
  unfold execLinBreak
  repeat' with_reducible (first | assumption | apply State.linBreak_stays | apply done_stays | apply Stays.ite | apply StaysX.next | apply StaysX.ite | split | dsimp only)

theorem execLinCharReceive_stays {z s : State} (h : Stays z s) (n : Fin 8) (samples : BitVec 192) (cyc : Nat) (idle : Bool) :
  StaysX z (execLinCharReceive n samples cyc idle s) := by
  unfold execLinCharReceive
  repeat' with_reducible (first | intro _ | assumption | apply State.uartGot_stays | apply State.linChar_stays | apply State.onLin_stays | apply done_stays | apply Stays.ite | apply StaysX.next | apply StaysX.ite | apply StaysP.ite | split | dsimp only [StaysP])

theorem execLinPidReceive_stays {z s : State} (h : Stays z s) (n : Fin 8) :
  StaysX z (execLinPidReceive n s) := by
  unfold execLinPidReceive
  repeat' with_reducible (first | assumption | apply done_stays | apply State.linAct_stays | apply Stays.ite | apply StaysX.next | apply StaysX.ite)

theorem execLinResponseEnd_stays {z s : State} (h : Stays z s) (n : Fin 8) (bit : Bool) :
  StaysX z (execLinResponseEnd n bit s) := by
  unfold execLinResponseEnd
  repeat' with_reducible (first | assumption | apply done_stays | apply State.linRespEnd_stays | apply Stays.ite | apply StaysX.next | apply StaysX.ite)

theorem execLinFrameTimeout_stays {z s : State} (h : Stays z s) (n : Fin 8) :
  StaysX z (execLinFrameTimeout n s) := by
  unfold execLinFrameTimeout
  repeat' with_reducible (first | assumption | apply done_stays | apply State.linTimeout_stays | apply Stays.ite | apply StaysX.next | apply StaysX.ite)

theorem execLinWutxSend_stays {z s : State} (h : Stays z s) (i : Ini) (n : Fin 8) (dur : Byte) :
  StaysX z (execLinWutxSend i n dur s) := by
  unfold execLinWutxSend
  repeat' with_reducible (first | assumption | apply done_stays | apply State.regWrite_stays | apply Stays.ite | apply StaysX.next | apply StaysX.ite)

theorem execLinWutxEnd_stays {z s : State} (h : Stays z s) (n : Fin 8) :
  StaysX z (execLinWutxEnd n s) := by
  unfold execLinWutxEnd
  repeat' with_reducible (first | assumption | apply State.linWakeEnd_stays | apply done_stays | apply Stays.ite | apply StaysX.next | apply StaysX.ite | split | dsimp only)

theorem execLinBaudWrite_stays {z s : State} (h : Stays z s) (i : Ini) (n : Fin 8) (v : W32) :
  StaysX z (execLinBaudWrite i n v s) := by
  unfold execLinBaudWrite
  repeat' with_reducible (first | assumption | apply done_stays | apply State.regWrite_stays | apply Stays.ite | apply StaysX.next | apply StaysX.ite)

theorem execLinRqPop_stays {z s : State} (h : Stays z s) (i : Ini) (n : Fin 8) :
  StaysX z (execLinRqPop i n s) := by
  unfold execLinRqPop
  repeat' with_reducible (first | assumption | apply done_stays | apply State.regWrite_stays | apply Stays.ite | apply StaysX.next | apply StaysX.ite)

theorem execLinUartTx_stays {z s : State} (h : Stays z s) (i : Ini) (n : Fin 8) (c : Byte) :
  StaysX z (execLinUartTx i n c s) := by
  unfold execLinUartTx
  repeat' with_reducible (first | assumption | apply done_stays | apply State.regWrite_stays | apply Stays.ite | apply StaysX.next | apply StaysX.ite)

theorem execLinUartRxPop_stays {z s : State} (h : Stays z s) (i : Ini) (n : Fin 8) :
  StaysX z (execLinUartRxPop i n s) := by
  unfold execLinUartRxPop
  repeat' with_reducible (first | assumption | apply done_stays | apply State.regReadCmd_stays | apply Stays.ite | apply StaysX.next | apply StaysX.ite)

theorem execLinUartCharSent_stays {z s : State} (h : Stays z s) (n : Fin 8) :
  StaysX z (execLinUartCharSent n s) := by
  unfold execLinUartCharSent
  repeat' with_reducible (first | assumption | apply done_stays | apply State.uartSent_stays | apply Stays.ite | apply StaysX.next | apply StaysX.ite)

theorem execLinSelfCheckError_stays {z s : State} (h : Stays z s) (n : Fin 8) (k : Nat) :
  StaysX z (execLinSelfCheckError n k s) := by
  unfold execLinSelfCheckError
  repeat' with_reducible (first | assumption | apply State.bodyReport_stays | apply State.linEnd_stays | apply done_stays | apply Stays.ite | apply StaysX.next | apply StaysX.ite | split | dsimp only)

theorem execXcvrModeWrite_stays {z s : State} (h : Stays z s) (i : Ini) (x : Fin 8) (v : W32) :
  StaysX z (execXcvrModeWrite i x v s) := by
  unfold execXcvrModeWrite
  repeat' with_reducible (first | assumption | apply done_stays | apply State.regWrite_stays | apply Stays.ite | apply StaysX.next | apply StaysX.ite)

theorem execXcvrDominantTimeout_stays {z s : State} (h : Stays z s) (x : Fin 8) (dominant : Bool) :
  StaysX z (execXcvrDominantTimeout x dominant s) := by
  unfold execXcvrDominantTimeout
  repeat' with_reducible (first | assumption | apply done_stays | apply State.setXcv_stays | apply State.setFld_stays | apply State.linEvt_stays | apply Stays.ite | apply StaysX.next | apply StaysX.ite)

theorem State.mbWake_stays {z s : State} (h : Stays z s) (x : Nat) (why : Nat) (detail : W32) :
  Stays z (State.mbWake s x why detail) := by
  unfold State.mbWake
  repeat' with_reducible (first | assumption | apply State.wake_stays | apply State.setFld_stays | apply Stays.ite)

theorem execMbWakePattern_stays {z s : State} (h : Stays z s) (x : Fin 4) (d1 : Nat) (r : Nat) (d2 : Nat) :
  StaysX z (execMbWakePattern x d1 r d2 s) := by
  unfold execMbWakePattern
  repeat' with_reducible (first | assumption | apply State.mbWake_stays | apply State.mbEnter_stays | apply done_stays | apply State.advSat_stays | apply State.drawn_stays | apply Stays.ite | apply StaysX.next | apply StaysX.ite | split | dsimp only)

theorem execLinBusWake_stays {z s : State} (h : Stays z s) (x : Fin 4) (ticks : Nat) :
  StaysX z (execLinBusWake x ticks s) := by
  unfold execLinBusWake
  repeat' with_reducible (first | assumption | apply done_stays | apply State.wake_stays | apply Stays.ite | apply StaysX.next | apply StaysX.ite)

theorem execSwDecoderReady_stays {z s : State} (h : Stays z s) (x : Fin 4) :
  StaysX z (execSwDecoderReady x s) := by
  unfold execSwDecoderReady
  repeat' with_reducible (first | assumption | apply done_stays | apply State.setXcv_stays | apply Stays.ite | apply StaysX.next | apply StaysX.ite)

theorem State.fecUp_stays {z s : State} (h : Stays z s) (x : Nat) :
  Stays z (State.fecUp s x) := by
  unfold State.fecUp
  repeat' with_reducible (first | assumption | apply State.setFld_stays | apply State.advSat_stays | apply State.mbWake_stays | apply Stays.ite)

theorem execSwFrameDecode_stays {z s : State} (h : Stays z s) (x : Fin 4) (f : SwFrame) :
  StaysX z (execSwFrameDecode x f s) := by
  unfold execSwFrameDecode
  repeat' with_reducible (first | assumption | apply done_stays | apply State.fecUp_stays | apply State.setFld_stays | apply State.advSat_stays | apply State.wr_stays | apply State.mbWake_stays | apply Stays.ite | apply StaysX.next | apply StaysX.ite | dsimp only | split)

theorem execDecodingSilence_stays {z s : State} (h : Stays z s) (x : Fin 4) :
  StaysX z (execDecodingSilence x s) := by
  unfold execDecodingSilence
  repeat' with_reducible (first | assumption | apply done_stays | apply State.mbEnter_stays | apply Stays.ite | apply StaysX.next | apply StaysX.ite)

theorem execVbatLowEnter_stays {z s : State} (h : Stays z s)  :
  StaysX z (execVbatLowEnter s) := by
  unfold execVbatLowEnter
  repeat' with_reducible (first | assumption | apply State.withSup_stays | apply done_stays | apply State.diagGate_stays | apply State.putBit_stays | apply Stays.ite | apply StaysX.next | apply StaysX.ite)

theorem execVbatLowExit_stays {z s : State} (h : Stays z s)  :
  StaysX z (execVbatLowExit s) := by
  unfold execVbatLowExit
  repeat' with_reducible (first | assumption | apply done_stays | apply State.diagGate_stays | apply State.withSup_stays | apply Stays.ite | apply StaysX.next | apply StaysX.ite)

theorem execVbatOvEnter_stays {z s : State} (h : Stays z s)  :
  StaysX z (execVbatOvEnter s) := by
  unfold execVbatOvEnter
  repeat' with_reducible (first | assumption | apply done_stays | apply State.diagGate_stays | apply State.putBit_stays | apply State.ovEnter_stays | apply Stays.ite | apply StaysX.next | apply StaysX.ite)

theorem execVbatOvExit_stays {z s : State} (h : Stays z s)  :
  StaysX z (execVbatOvExit s) := by
  unfold execVbatOvExit
  repeat' with_reducible (first | assumption | apply State.diagGate_stays | apply done_stays | apply State.withSup_stays | apply Stays.ite | apply StaysX.next | apply StaysX.ite | split | dsimp only)

theorem execVbatOvRestore_stays {z s : State} (h : Stays z s)  :
  StaysX z (execVbatOvRestore s) := by
  unfold execVbatOvRestore
  repeat' with_reducible (first | assumption | apply State.ovRestore_stays | apply done_stays | apply Stays.ite | apply StaysX.next | apply StaysX.ite | split | dsimp only)

theorem execHcmdOutSet_stays {z s : State} (h : Stays z s)  :
  StaysX z (execHcmdOutSet s) := by
  unfold execHcmdOutSet
  repeat' with_reducible (first | intro _ | assumption | apply done_stays | apply State.hcmdRun_stays | apply State.hcmdOut_stays | apply Stays.ite | apply StaysX.next | apply StaysX.ite | dsimp only | split | apply foldl_stays)

theorem execHcmdOutClear_stays {z s : State} (h : Stays z s)  :
  StaysX z (execHcmdOutClear s) := by
  unfold execHcmdOutClear
  repeat' with_reducible (first | intro _ | assumption | apply done_stays | apply State.hcmdRun_stays | apply State.hcmdOut_stays | apply Stays.ite | apply StaysX.next | apply StaysX.ite | dsimp only | split | apply foldl_stays)

theorem execHcmdOutPwm_stays {z s : State} (h : Stays z s)  :
  StaysX z (execHcmdOutPwm s) := by
  unfold execHcmdOutPwm
  repeat' with_reducible (first | intro _ | assumption | apply done_stays | apply State.hcmdRun_stays | apply State.hcmdOut_stays | apply State.pwmSet_stays | apply Stays.ite | apply StaysX.next | apply StaysX.ite | dsimp only | split | apply foldl_stays)

theorem execHsoCtlWrite_stays {z s : State} (h : Stays z s) (i : Ini) (n : Fin 40) (v : W32) :
  StaysX z (execHsoCtlWrite i n v s) := by
  unfold execHsoCtlWrite
  repeat' with_reducible (first | assumption | apply done_stays | apply State.regWrite_stays | apply Stays.ite | apply StaysX.next | apply StaysX.ite)

theorem execHbrHctlWrite_stays {z s : State} (h : Stays z s) (i : Ini) (j : Fin 8) (v : W32) :
  StaysX z (execHbrHctlWrite i j v s) := by
  unfold execHbrHctlWrite
  repeat' with_reducible (first | assumption | apply done_stays | apply State.regWrite_stays | apply Stays.ite | apply StaysX.next | apply StaysX.ite)

theorem execHbrPctlWrite_stays {z s : State} (h : Stays z s) (i : Ini) (p : Fin 4) (v : W32) :
  StaysX z (execHbrPctlWrite i p v s) := by
  unfold execHbrPctlWrite
  repeat' with_reducible (first | assumption | apply done_stays | apply State.regWrite_stays | apply Stays.ite | apply StaysX.next | apply StaysX.ite)

theorem State.periodStart_stays {z s : State} (h : Stays z s) (x : Nat) (d : Drive) (pend : List (Drive × Word)) :
  Stays z (State.periodStart s x d pend) := by
  unfold State.periodStart
  repeat' with_reducible (first | intro _ | assumption | apply State.edgeOn_stays | apply State.openAll_stays | apply State.goTo_stays | apply State.onStage_stays | apply Stays.ite | split | dsimp only)

theorem execPwmPeriodStart_stays {z s : State} (h : Stays z s) (x : Fin 52) :
  StaysX z (execPwmPeriodStart x s) := by
  unfold execPwmPeriodStart
  repeat' with_reducible (first | intro _ | assumption | apply State.periodStart_stays | apply done_stays | apply Stays.ite | apply StaysX.next | apply StaysX.ite | apply StaysP.ite | split | dsimp only [StaysP])

theorem execStageOnEdge_stays {z s : State} (h : Stays z s) (x : Fin 52) :
  StaysX z (execStageOnEdge x s) := by
  unfold execStageOnEdge
  repeat' with_reducible (first | intro _ | assumption | apply State.edged_stays | apply State.goTo_stays | apply State.onStage_stays | apply done_stays | apply Stays.ite | apply StaysX.next | apply StaysX.ite | split | dsimp only)

theorem execStageOffEdge_stays {z s : State} (h : Stays z s) (x : Fin 52) :
  StaysX z (execStageOffEdge x s) := by
  unfold execStageOffEdge
  repeat' with_reducible (first | assumption | apply State.goTo_stays | apply done_stays | apply Stays.ite | apply StaysX.next | apply StaysX.ite | split | dsimp only)

theorem execDeadtimeEnd_stays {z s : State} (h : Stays z s) (x : Fin 52) :
  StaysX z (execDeadtimeEnd x s) := by
  unfold execDeadtimeEnd
  repeat' with_reducible (first | intro _ | assumption | apply State.onStage_stays | apply done_stays | apply Stays.ite | apply StaysX.next | apply StaysX.ite | split | dsimp only)

theorem execStageCurrentLimit_stays {z s : State} (h : Stays z s) (x : Fin 48) (reached : Bool) :
  StaysX z (execStageCurrentLimit x reached s) := by
  unfold execStageCurrentLimit
  repeat' with_reducible (first | assumption | apply done_stays | apply State.setProt_stays | apply State.setStage_stays | apply Stays.ite | apply StaysX.next | apply StaysX.ite | dsimp only | split)

theorem execStageTrip_stays {z s : State} (h : Stays z s) (x : Fin 48) :
  StaysX z (execStageTrip x s) := by
  unfold execStageTrip
  repeat' with_reducible (first | assumption | apply done_stays | apply State.shutdown_stays | apply Stays.ite | apply StaysX.next | apply StaysX.ite | dsimp only | split)

theorem execStageOvertemp_stays {z s : State} (h : Stays z s) (x : Fin 48) :
  StaysX z (execStageOvertemp x s) := by
  unfold execStageOvertemp
  repeat' with_reducible (first | assumption | apply done_stays | apply State.shutdown_stays | apply Stays.ite | apply StaysX.next | apply StaysX.ite)

theorem execStageRestart_stays {z s : State} (h : Stays z s) (x : Fin 52) (cool : Bool) :
  StaysX z (execStageRestart x cool s) := by
  unfold execStageRestart
  repeat' with_reducible (first | assumption | apply State.restart_stays | apply done_stays | apply Stays.ite | apply StaysX.next | apply StaysX.ite | split | dsimp only)

theorem execRestartCountClear_stays {z s : State} (h : Stays z s) (x : Fin 52) :
  StaysX z (execRestartCountClear x s) := by
  unfold execRestartCountClear
  repeat' with_reducible (first | intro _ | assumption | apply State.heelReport_stays | apply State.onStage_stays | apply done_stays | apply State.setFld_stays | apply Stays.ite | apply StaysX.next | apply StaysX.ite | split | dsimp only)

theorem State.pdFault_stays {z s : State} (h : Stays z s) (p : Nat) (cause : Nat) :
  Stays z (State.pdFault s p cause) := by
  unfold State.pdFault
  repeat' with_reducible (first | assumption | apply State.shutdown_stays | apply Stays.ite)

theorem execPdVdsFault_stays {z s : State} (h : Stays z s) (p : Fin 4) (f : Fin 4) :
  StaysX z (execPdVdsFault p f s) := by
  unfold execPdVdsFault
  repeat' with_reducible (first | assumption | apply State.pdFault_stays | apply done_stays | apply State.setFld_stays | apply Stays.ite | apply StaysX.next | apply StaysX.ite | split | dsimp only)

theorem execPdOvercurrent_stays {z s : State} (h : Stays z s) (p : Fin 4) :
  StaysX z (execPdOvercurrent p s) := by
  unfold execPdOvercurrent
  repeat' with_reducible (first | assumption | apply done_stays | apply State.pdFault_stays | apply Stays.ite | apply StaysX.next | apply StaysX.ite)

theorem execPdPumpUndervoltage_stays {z s : State} (h : Stays z s) (p : Fin 4) :
  StaysX z (execPdPumpUndervoltage p s) := by
  unfold execPdPumpUndervoltage
  repeat' with_reducible (first | assumption | apply done_stays | apply State.onStage_stays | apply State.openAll_stays | apply Stays.ite | apply StaysX.next | apply StaysX.ite)

theorem execPdPumpRecover_stays {z s : State} (h : Stays z s) (p : Fin 4) :
  StaysX z (execPdPumpRecover p s) := by
  unfold execPdPumpRecover
  repeat' with_reducible (first | assumption | apply done_stays | apply State.onStage_stays | apply State.reapply_stays | apply Stays.ite | apply StaysX.next | apply StaysX.ite)

theorem execPdCurrentSample_stays {z s : State} (h : Stays z s) (p : Fin 4) (uv : Int) :
  StaysX z (execPdCurrentSample p uv s) := by
  unfold execPdCurrentSample
  repeat' with_reducible (first | assumption | apply done_stays | apply State.setFld_stays | apply State.drawn_stays | apply Stays.ite | apply StaysX.next | apply StaysX.ite | split | dsimp only)

theorem State.onMeasure_stays {z s : State} (h : Stays z s) (x : Nat) (src : Nat) (open_ : Bool) (ma : BitVec 16) :
  Stays z (State.onMeasure s x src open_ ma) := by
  unfold State.onMeasure
  repeat' with_reducible (first | intro _ | assumption | apply State.sampleCur_stays | apply State.measured_stays | apply State.onStage_stays | apply Stays.ite | split | dsimp only)

theorem execHsoOnMeasure_stays {z s : State} (h : Stays z s) (x : Fin 48) (open_ : Bool) (ma : BitVec 16) :
  StaysX z (execHsoOnMeasure x open_ ma s) := by
  unfold execHsoOnMeasure
  repeat' with_reducible (first | assumption | apply State.onMeasure_stays | apply done_stays | apply Stays.ite | apply StaysX.next | apply StaysX.ite | split | dsimp only)

theorem execHsoProbePulse_stays {z s : State} (h : Stays z s) (x : Fin 40) (open_ : Bool) (ma : BitVec 16) :
  StaysX z (execHsoProbePulse x open_ ma s) := by
  unfold execHsoProbePulse
  repeat' with_reducible (first | assumption | apply State.onMeasure_stays | apply done_stays | apply Stays.ite | apply StaysX.next | apply StaysX.ite | split | dsimp only)

theorem execHsoOffPullup_stays {z s : State} (h : Stays z s) (x : Fin 40) :
  StaysX z (execHsoOffPullup x s) := by
  unfold execHsoOffPullup
  repeat' with_reducible (first | assumption | apply State.setStage_stays | apply done_stays | apply Stays.ite | apply StaysX.next | apply StaysX.ite | split | dsimp only)

theorem execHsoOffOpenMeasure_stays {z s : State} (h : Stays z s) (x : Fin 40) (high : Bool) :
  StaysX z (execHsoOffOpenMeasure x high s) := by
  unfold execHsoOffOpenMeasure
  repeat' with_reducible (first | assumption | apply State.setStage_stays | apply done_stays | apply Stays.ite | apply StaysX.next | apply StaysX.ite | split | dsimp only)

theorem execHsoOffShortMeasure_stays {z s : State} (h : Stays z s) (x : Fin 40) (high : Bool) :
  StaysX z (execHsoOffShortMeasure x high s) := by
  unfold execHsoOffShortMeasure
  repeat' with_reducible (first | assumption | apply State.measured_stays | apply State.setStage_stays | apply done_stays | apply Stays.ite | apply StaysX.next | apply StaysX.ite | split | dsimp only)

theorem execDiagAgeOut_stays {z s : State} (h : Stays z s) (x : Fin 48) :
  StaysX z (execDiagAgeOut x s) := by
  unfold execDiagAgeOut
  repeat' with_reducible (first | assumption | apply State.untested_stays | apply done_stays | apply Stays.ite | apply StaysX.next | apply StaysX.ite | split | dsimp only)

theorem execKeepBlink_stays {z s : State} (h : Stays z s) (k : Fin 2) :
  StaysX z (execKeepBlink k s) := by
  unfold execKeepBlink
  repeat' with_reducible (first | assumption | apply State.setKeep_stays | apply done_stays | apply Stays.ite | apply StaysX.next | apply StaysX.ite | split | dsimp only)

theorem execKeepTrip_stays {z s : State} (h : Stays z s) (k : Fin 2) :
  StaysX z (execKeepTrip k s) := by
  unfold execKeepTrip
  repeat' with_reducible (first | assumption | apply done_stays | apply State.putBit_stays | apply State.setKeep_stays | apply Stays.ite | apply StaysX.next | apply StaysX.ite)

theorem execPatternStart_stays {z s : State} (h : Stays z s) (i : Ini) (k : Fin 4) :
  StaysX z (execPatternStart i k s) := by
  unfold execPatternStart
  repeat' with_reducible (first | assumption | apply done_stays | apply State.regWrite_stays | apply Stays.ite | apply StaysX.next | apply StaysX.ite)

theorem execPatternAbort_stays {z s : State} (h : Stays z s) (i : Ini) (k : Fin 4) :
  StaysX z (execPatternAbort i k s) := by
  unfold execPatternAbort
  repeat' with_reducible (first | assumption | apply done_stays | apply State.regWrite_stays | apply Stays.ite | apply StaysX.next | apply StaysX.ite)

theorem execPatternStepTime_stays {z s : State} (h : Stays z s) (k : Fin 4) :
  StaysX z (execPatternStepTime k s) := by
  unfold execPatternStepTime
  repeat' with_reducible (first | assumption | apply done_stays | apply State.patEnd_stays | apply State.patNext_stays | apply Stays.ite | apply StaysX.next | apply StaysX.ite | dsimp only | split)

theorem execPatternStall_stays {z s : State} (h : Stays z s) (k : Fin 4) :
  StaysX z (execPatternStall k s) := by
  unfold execPatternStall
  repeat' with_reducible (first | assumption | apply done_stays | apply State.patNext_stays | apply Stays.ite | apply StaysX.next | apply StaysX.ite | dsimp only | split)

end Sys2Proof.Machine
end

