-- ==== Sys2Proof/Laws/StaysE.lean ====
section
/-! SUPPORT. Laws/StaysE.lean: every operation and meaning of Quecen, Queues, Seasons, Streams, Supplies, TimeBase, Training, Logic, Idle keeps the canonical
form, the variant and the queue of waiting commands (Stays); each lemma says it of one definition, whose helpers have theirs before it. -/
namespace Sys2Proof.Machine

theorem execAdd_stays {z s : State} (h : Stays z s) (c : CoreId) (d : BitVec 5) (a : BitVec 5) (b : BitVec 5) :
  StaysX z (execAdd c d a b s) := by
  unfold execAdd
  repeat' with_reducible (first | assumption | apply done_stays | apply State.aluRR_stays | apply Stays.ite | apply StaysX.next | apply StaysX.ite)

theorem execSub_stays {z s : State} (h : Stays z s) (c : CoreId) (d : BitVec 5) (a : BitVec 5) (b : BitVec 5) :
  StaysX z (execSub c d a b s) := by
  unfold execSub
  repeat' with_reducible (first | assumption | apply done_stays | apply State.aluRR_stays | apply Stays.ite | apply StaysX.next | apply StaysX.ite)

theorem execAnd_stays {z s : State} (h : Stays z s) (c : CoreId) (d : BitVec 5) (a : BitVec 5) (b : BitVec 5) :
  StaysX z (execAnd c d a b s) := by
  unfold execAnd
  repeat' with_reducible (first | assumption | apply done_stays | apply State.aluRR_stays | apply Stays.ite | apply StaysX.next | apply StaysX.ite)

theorem execOr_stays {z s : State} (h : Stays z s) (c : CoreId) (d : BitVec 5) (a : BitVec 5) (b : BitVec 5) :
  StaysX z (execOr c d a b s) := by
  unfold execOr
  repeat' with_reducible (first | assumption | apply done_stays | apply State.aluRR_stays | apply Stays.ite | apply StaysX.next | apply StaysX.ite)

theorem execXor_stays {z s : State} (h : Stays z s) (c : CoreId) (d : BitVec 5) (a : BitVec 5) (b : BitVec 5) :
  StaysX z (execXor c d a b s) := by
  unfold execXor
  repeat' with_reducible (first | assumption | apply done_stays | apply State.aluRR_stays | apply Stays.ite | apply StaysX.next | apply StaysX.ite)

theorem execSll_stays {z s : State} (h : Stays z s) (c : CoreId) (d : BitVec 5) (a : BitVec 5) (b : BitVec 5) :
  StaysX z (execSll c d a b s) := by
  unfold execSll
  repeat' with_reducible (first | assumption | apply done_stays | apply State.aluRR_stays | apply Stays.ite | apply StaysX.next | apply StaysX.ite)

theorem execSrl_stays {z s : State} (h : Stays z s) (c : CoreId) (d : BitVec 5) (a : BitVec 5) (b : BitVec 5) :
  StaysX z (execSrl c d a b s) := by
  unfold execSrl
  repeat' with_reducible (first | assumption | apply done_stays | apply State.aluRR_stays | apply Stays.ite | apply StaysX.next | apply StaysX.ite)

theorem execSra_stays {z s : State} (h : Stays z s) (c : CoreId) (d : BitVec 5) (a : BitVec 5) (b : BitVec 5) :
  StaysX z (execSra c d a b s) := by
  unfold execSra
  repeat' with_reducible (first | assumption | apply done_stays | apply State.aluRR_stays | apply Stays.ite | apply StaysX.next | apply StaysX.ite)

theorem execSlt_stays {z s : State} (h : Stays z s) (c : CoreId) (d : BitVec 5) (a : BitVec 5) (b : BitVec 5) :
  StaysX z (execSlt c d a b s) := by
  unfold execSlt
  repeat' with_reducible (first | assumption | apply done_stays | apply State.aluRR_stays | apply Stays.ite | apply StaysX.next | apply StaysX.ite)

theorem execSltu_stays {z s : State} (h : Stays z s) (c : CoreId) (d : BitVec 5) (a : BitVec 5) (b : BitVec 5) :
  StaysX z (execSltu c d a b s) := by
  unfold execSltu
  repeat' with_reducible (first | assumption | apply done_stays | apply State.aluRR_stays | apply Stays.ite | apply StaysX.next | apply StaysX.ite)

theorem execMin_stays {z s : State} (h : Stays z s) (c : CoreId) (d : BitVec 5) (a : BitVec 5) (b : BitVec 5) :
  StaysX z (execMin c d a b s) := by
  unfold execMin
  repeat' with_reducible (first | assumption | apply done_stays | apply State.aluRR_stays | apply Stays.ite | apply StaysX.next | apply StaysX.ite)

theorem execMax_stays {z s : State} (h : Stays z s) (c : CoreId) (d : BitVec 5) (a : BitVec 5) (b : BitVec 5) :
  StaysX z (execMax c d a b s) := by
  unfold execMax
  repeat' with_reducible (first | assumption | apply done_stays | apply State.aluRR_stays | apply Stays.ite | apply StaysX.next | apply StaysX.ite)

theorem execMinu_stays {z s : State} (h : Stays z s) (c : CoreId) (d : BitVec 5) (a : BitVec 5) (b : BitVec 5) :
  StaysX z (execMinu c d a b s) := by
  unfold execMinu
  repeat' with_reducible (first | assumption | apply done_stays | apply State.aluRR_stays | apply Stays.ite | apply StaysX.next | apply StaysX.ite)

theorem execMaxu_stays {z s : State} (h : Stays z s) (c : CoreId) (d : BitVec 5) (a : BitVec 5) (b : BitVec 5) :
  StaysX z (execMaxu c d a b s) := by
  unfold execMaxu
  repeat' with_reducible (first | assumption | apply done_stays | apply State.aluRR_stays | apply Stays.ite | apply StaysX.next | apply StaysX.ite)

theorem execMul_stays {z s : State} (h : Stays z s) (c : CoreId) (d : BitVec 5) (a : BitVec 5) (b : BitVec 5) :
  StaysX z (execMul c d a b s) := by
  unfold execMul
  repeat' with_reducible (first | assumption | apply done_stays | apply State.aluRR_stays | apply Stays.ite | apply StaysX.next | apply StaysX.ite)

theorem execMulh_stays {z s : State} (h : Stays z s) (c : CoreId) (d : BitVec 5) (a : BitVec 5) (b : BitVec 5) :
  StaysX z (execMulh c d a b s) := by
  unfold execMulh
  repeat' with_reducible (first | assumption | apply done_stays | apply State.aluRR_stays | apply Stays.ite | apply StaysX.next | apply StaysX.ite)

theorem execMulhu_stays {z s : State} (h : Stays z s) (c : CoreId) (d : BitVec 5) (a : BitVec 5) (b : BitVec 5) :
  StaysX z (execMulhu c d a b s) := by
  unfold execMulhu
  repeat' with_reducible (first | assumption | apply done_stays | apply State.aluRR_stays | apply Stays.ite | apply StaysX.next | apply StaysX.ite)

theorem execDiv_stays {z s : State} (h : Stays z s) (c : CoreId) (d : BitVec 5) (a : BitVec 5) (b : BitVec 5) :
  StaysX z (execDiv c d a b s) := by
  unfold execDiv
  repeat' with_reducible (first | assumption | apply done_stays | apply State.aluRR_stays | apply Stays.ite | apply StaysX.next | apply StaysX.ite)

theorem execDivu_stays {z s : State} (h : Stays z s) (c : CoreId) (d : BitVec 5) (a : BitVec 5) (b : BitVec 5) :
  StaysX z (execDivu c d a b s) := by
  unfold execDivu
  repeat' with_reducible (first | assumption | apply done_stays | apply State.aluRR_stays | apply Stays.ite | apply StaysX.next | apply StaysX.ite)

theorem execRem_stays {z s : State} (h : Stays z s) (c : CoreId) (d : BitVec 5) (a : BitVec 5) (b : BitVec 5) :
  StaysX z (execRem c d a b s) := by
  unfold execRem
  repeat' with_reducible (first | assumption | apply done_stays | apply State.aluRR_stays | apply Stays.ite | apply StaysX.next | apply StaysX.ite)

theorem execRemu_stays {z s : State} (h : Stays z s) (c : CoreId) (d : BitVec 5) (a : BitVec 5) (b : BitVec 5) :
  StaysX z (execRemu c d a b s) := by
  unfold execRemu
  repeat' with_reducible (first | assumption | apply done_stays | apply State.aluRR_stays | apply Stays.ite | apply StaysX.next | apply StaysX.ite)

theorem execClz_stays {z s : State} (h : Stays z s) (c : CoreId) (d : BitVec 5) (a : BitVec 5) :
  StaysX z (execClz c d a s) := by
  unfold execClz
  repeat' with_reducible (first | assumption | apply done_stays | apply State.simple_stays | apply Stays.ite | apply StaysX.next | apply StaysX.ite)

theorem execCtz_stays {z s : State} (h : Stays z s) (c : CoreId) (d : BitVec 5) (a : BitVec 5) :
  StaysX z (execCtz c d a s) := by
  unfold execCtz
  repeat' with_reducible (first | assumption | apply done_stays | apply State.simple_stays | apply Stays.ite | apply StaysX.next | apply StaysX.ite)

theorem execPopc_stays {z s : State} (h : Stays z s) (c : CoreId) (d : BitVec 5) (a : BitVec 5) :
  StaysX z (execPopc c d a s) := by
  unfold execPopc
  repeat' with_reducible (first | assumption | apply done_stays | apply State.simple_stays | apply Stays.ite | apply StaysX.next | apply StaysX.ite)

theorem execAddw_stays {z s : State} (h : Stays z s) (c : CoreId) (d : BitVec 5) (a : BitVec 5) (b : BitVec 5) :
  StaysX z (execAddw c d a b s) := by
  unfold execAddw
  repeat' with_reducible (first | assumption | apply done_stays | apply State.aluRR_stays | apply Stays.ite | apply StaysX.next | apply StaysX.ite)

theorem execSubw_stays {z s : State} (h : Stays z s) (c : CoreId) (d : BitVec 5) (a : BitVec 5) (b : BitVec 5) :
  StaysX z (execSubw c d a b s) := by
  unfold execSubw
  repeat' with_reducible (first | assumption | apply done_stays | apply State.aluRR_stays | apply Stays.ite | apply StaysX.next | apply StaysX.ite)

theorem execAddi_stays {z s : State} (h : Stays z s) (c : CoreId) (d : BitVec 5) (a : BitVec 5) (imm : BitVec 16) :
  StaysX z (execAddi c d a imm s) := by
  unfold execAddi
  repeat' with_reducible (first | assumption | apply done_stays | apply State.aluRI_stays | apply Stays.ite | apply StaysX.next | apply StaysX.ite)

theorem execAndi_stays {z s : State} (h : Stays z s) (c : CoreId) (d : BitVec 5) (a : BitVec 5) (imm : BitVec 16) :
  StaysX z (execAndi c d a imm s) := by
  unfold execAndi
  repeat' with_reducible (first | assumption | apply done_stays | apply State.aluRZ_stays | apply Stays.ite | apply StaysX.next | apply StaysX.ite)

theorem execOri_stays {z s : State} (h : Stays z s) (c : CoreId) (d : BitVec 5) (a : BitVec 5) (imm : BitVec 16) :
  StaysX z (execOri c d a imm s) := by
  unfold execOri
  repeat' with_reducible (first | assumption | apply done_stays | apply State.aluRZ_stays | apply Stays.ite | apply StaysX.next | apply StaysX.ite)

theorem execXori_stays {z s : State} (h : Stays z s) (c : CoreId) (d : BitVec 5) (a : BitVec 5) (imm : BitVec 16) :
  StaysX z (execXori c d a imm s) := by
  unfold execXori
  repeat' with_reducible (first | assumption | apply done_stays | apply State.aluRZ_stays | apply Stays.ite | apply StaysX.next | apply StaysX.ite)

theorem execSlli_stays {z s : State} (h : Stays z s) (c : CoreId) (d : BitVec 5) (a : BitVec 5) (sh : BitVec 6) :
  StaysX z (execSlli c d a sh s) := by
  unfold execSlli
  repeat' with_reducible (first | assumption | apply done_stays | apply State.simple_stays | apply Stays.ite | apply StaysX.next | apply StaysX.ite)

theorem execSrli_stays {z s : State} (h : Stays z s) (c : CoreId) (d : BitVec 5) (a : BitVec 5) (sh : BitVec 6) :
  StaysX z (execSrli c d a sh s) := by
  unfold execSrli
  repeat' with_reducible (first | assumption | apply done_stays | apply State.simple_stays | apply Stays.ite | apply StaysX.next | apply StaysX.ite)

theorem execSrai_stays {z s : State} (h : Stays z s) (c : CoreId) (d : BitVec 5) (a : BitVec 5) (sh : BitVec 6) :
  StaysX z (execSrai c d a sh s) := by
  unfold execSrai
  repeat' with_reducible (first | assumption | apply done_stays | apply State.simple_stays | apply Stays.ite | apply StaysX.next | apply StaysX.ite)

theorem execSlti_stays {z s : State} (h : Stays z s) (c : CoreId) (d : BitVec 5) (a : BitVec 5) (imm : BitVec 16) :
  StaysX z (execSlti c d a imm s) := by
  unfold execSlti
  repeat' with_reducible (first | assumption | apply done_stays | apply State.aluRI_stays | apply Stays.ite | apply StaysX.next | apply StaysX.ite)

theorem execSltiu_stays {z s : State} (h : Stays z s) (c : CoreId) (d : BitVec 5) (a : BitVec 5) (imm : BitVec 16) :
  StaysX z (execSltiu c d a imm s) := by
  unfold execSltiu
  repeat' with_reducible (first | assumption | apply done_stays | apply State.aluRI_stays | apply Stays.ite | apply StaysX.next | apply StaysX.ite)

theorem execLui_stays {z s : State} (h : Stays z s) (c : CoreId) (d : BitVec 5) (imm : BitVec 16) :
  StaysX z (execLui c d imm s) := by
  unfold execLui
  repeat' with_reducible (first | assumption | apply done_stays | apply State.simple_stays | apply Stays.ite | apply StaysX.next | apply StaysX.ite)

theorem execShori_stays {z s : State} (h : Stays z s) (c : CoreId) (d : BitVec 5) (a : BitVec 5) (imm : BitVec 16) :
  StaysX z (execShori c d a imm s) := by
  unfold execShori
  repeat' with_reducible (first | assumption | apply done_stays | apply State.aluRZ_stays | apply Stays.ite | apply StaysX.next | apply StaysX.ite)

theorem execLb_stays {z s : State} (h : Stays z s) (c : CoreId) (d : BitVec 5) (a : BitVec 5) (imm : BitVec 16) :
  StaysX z (execLb c d a imm s) := by
  unfold execLb
  repeat' with_reducible (first | assumption | apply done_stays | apply State.load_stays | apply Stays.ite | apply StaysX.next | apply StaysX.ite)

theorem execLbu_stays {z s : State} (h : Stays z s) (c : CoreId) (d : BitVec 5) (a : BitVec 5) (imm : BitVec 16) :
  StaysX z (execLbu c d a imm s) := by
  unfold execLbu
  repeat' with_reducible (first | assumption | apply done_stays | apply State.load_stays | apply Stays.ite | apply StaysX.next | apply StaysX.ite)

theorem execLh_stays {z s : State} (h : Stays z s) (c : CoreId) (d : BitVec 5) (a : BitVec 5) (imm : BitVec 16) :
  StaysX z (execLh c d a imm s) := by
  unfold execLh
  repeat' with_reducible (first | assumption | apply done_stays | apply State.load_stays | apply Stays.ite | apply StaysX.next | apply StaysX.ite)

theorem execLhu_stays {z s : State} (h : Stays z s) (c : CoreId) (d : BitVec 5) (a : BitVec 5) (imm : BitVec 16) :
  StaysX z (execLhu c d a imm s) := by
  unfold execLhu
  repeat' with_reducible (first | assumption | apply done_stays | apply State.load_stays | apply Stays.ite | apply StaysX.next | apply StaysX.ite)

theorem execLw_stays {z s : State} (h : Stays z s) (c : CoreId) (d : BitVec 5) (a : BitVec 5) (imm : BitVec 16) :
  StaysX z (execLw c d a imm s) := by
  unfold execLw
  repeat' with_reducible (first | assumption | apply done_stays | apply State.load_stays | apply Stays.ite | apply StaysX.next | apply StaysX.ite)

theorem execLwu_stays {z s : State} (h : Stays z s) (c : CoreId) (d : BitVec 5) (a : BitVec 5) (imm : BitVec 16) :
  StaysX z (execLwu c d a imm s) := by
  unfold execLwu
  repeat' with_reducible (first | assumption | apply done_stays | apply State.load_stays | apply Stays.ite | apply StaysX.next | apply StaysX.ite)

theorem execLd_stays {z s : State} (h : Stays z s) (c : CoreId) (d : BitVec 5) (a : BitVec 5) (imm : BitVec 16) :
  StaysX z (execLd c d a imm s) := by
  unfold execLd
  repeat' with_reducible (first | assumption | apply done_stays | apply State.load_stays | apply Stays.ite | apply StaysX.next | apply StaysX.ite)

theorem execSb_stays {z s : State} (h : Stays z s) (c : CoreId) (d : BitVec 5) (a : BitVec 5) (imm : BitVec 16) :
  StaysX z (execSb c d a imm s) := by
  unfold execSb
  repeat' with_reducible (first | assumption | apply done_stays | apply State.store_stays | apply Stays.ite | apply StaysX.next | apply StaysX.ite)

theorem execSh_stays {z s : State} (h : Stays z s) (c : CoreId) (d : BitVec 5) (a : BitVec 5) (imm : BitVec 16) :
  StaysX z (execSh c d a imm s) := by
  unfold execSh
  repeat' with_reducible (first | assumption | apply done_stays | apply State.store_stays | apply Stays.ite | apply StaysX.next | apply StaysX.ite)

theorem execSw_stays {z s : State} (h : Stays z s) (c : CoreId) (d : BitVec 5) (a : BitVec 5) (imm : BitVec 16) :
  StaysX z (execSw c d a imm s) := by
  unfold execSw
  repeat' with_reducible (first | assumption | apply done_stays | apply State.store_stays | apply Stays.ite | apply StaysX.next | apply StaysX.ite)

theorem execSd_stays {z s : State} (h : Stays z s) (c : CoreId) (d : BitVec 5) (a : BitVec 5) (imm : BitVec 16) :
  StaysX z (execSd c d a imm s) := by
  unfold execSd
  repeat' with_reducible (first | assumption | apply done_stays | apply State.store_stays | apply Stays.ite | apply StaysX.next | apply StaysX.ite)

theorem execAmoaddW_stays {z s : State} (h : Stays z s) (c : CoreId) (d : BitVec 5) (a : BitVec 5) (b : BitVec 5) :
  StaysX z (execAmoaddW c d a b s) := by
  unfold execAmoaddW
  repeat' with_reducible (first | assumption | apply done_stays | apply State.atomic_stays | apply Stays.ite | apply StaysX.next | apply StaysX.ite)

theorem execAmoaddD_stays {z s : State} (h : Stays z s) (c : CoreId) (d : BitVec 5) (a : BitVec 5) (b : BitVec 5) :
  StaysX z (execAmoaddD c d a b s) := by
  unfold execAmoaddD
  repeat' with_reducible (first | assumption | apply done_stays | apply State.atomic_stays | apply Stays.ite | apply StaysX.next | apply StaysX.ite)

theorem execAmoswapW_stays {z s : State} (h : Stays z s) (c : CoreId) (d : BitVec 5) (a : BitVec 5) (b : BitVec 5) :
  StaysX z (execAmoswapW c d a b s) := by
  unfold execAmoswapW
  repeat' with_reducible (first | assumption | apply done_stays | apply State.atomic_stays | apply Stays.ite | apply StaysX.next | apply StaysX.ite)

theorem execAmoswapD_stays {z s : State} (h : Stays z s) (c : CoreId) (d : BitVec 5) (a : BitVec 5) (b : BitVec 5) :
  StaysX z (execAmoswapD c d a b s) := by
  unfold execAmoswapD
  repeat' with_reducible (first | assumption | apply done_stays | apply State.atomic_stays | apply Stays.ite | apply StaysX.next | apply StaysX.ite)

theorem execCasW_stays {z s : State} (h : Stays z s) (c : CoreId) (d : BitVec 5) (a : BitVec 5) (b : BitVec 5) :
  StaysX z (execCasW c d a b s) := by
  unfold execCasW
  repeat' with_reducible (first | assumption | apply done_stays | apply State.atomic_stays | apply Stays.ite | apply StaysX.next | apply StaysX.ite)

theorem execCasD_stays {z s : State} (h : Stays z s) (c : CoreId) (d : BitVec 5) (a : BitVec 5) (b : BitVec 5) :
  StaysX z (execCasD c d a b s) := by
  unfold execCasD
  repeat' with_reducible (first | assumption | apply done_stays | apply State.atomic_stays | apply Stays.ite | apply StaysX.next | apply StaysX.ite)

theorem execBeq_stays {z s : State} (h : Stays z s) (c : CoreId) (a : BitVec 5) (b : BitVec 5) (off : BitVec 16) :
  StaysX z (execBeq c a b off s) := by
  unfold execBeq
  repeat' with_reducible (first | assumption | apply done_stays | apply State.branch_stays | apply Stays.ite | apply StaysX.next | apply StaysX.ite)

theorem execBne_stays {z s : State} (h : Stays z s) (c : CoreId) (a : BitVec 5) (b : BitVec 5) (off : BitVec 16) :
  StaysX z (execBne c a b off s) := by
  unfold execBne
  repeat' with_reducible (first | assumption | apply done_stays | apply State.branch_stays | apply Stays.ite | apply StaysX.next | apply StaysX.ite)

theorem execBlt_stays {z s : State} (h : Stays z s) (c : CoreId) (a : BitVec 5) (b : BitVec 5) (off : BitVec 16) :
  StaysX z (execBlt c a b off s) := by
  unfold execBlt
  repeat' with_reducible (first | assumption | apply done_stays | apply State.branch_stays | apply Stays.ite | apply StaysX.next | apply StaysX.ite)

theorem execBge_stays {z s : State} (h : Stays z s) (c : CoreId) (a : BitVec 5) (b : BitVec 5) (off : BitVec 16) :
  StaysX z (execBge c a b off s) := by
  unfold execBge
  repeat' with_reducible (first | assumption | apply done_stays | apply State.branch_stays | apply Stays.ite | apply StaysX.next | apply StaysX.ite)

theorem execBltu_stays {z s : State} (h : Stays z s) (c : CoreId) (a : BitVec 5) (b : BitVec 5) (off : BitVec 16) :
  StaysX z (execBltu c a b off s) := by
  unfold execBltu
  repeat' with_reducible (first | assumption | apply done_stays | apply State.branch_stays | apply Stays.ite | apply StaysX.next | apply StaysX.ite)

theorem execBgeu_stays {z s : State} (h : Stays z s) (c : CoreId) (a : BitVec 5) (b : BitVec 5) (off : BitVec 16) :
  StaysX z (execBgeu c a b off s) := by
  unfold execBgeu
  repeat' with_reducible (first | assumption | apply done_stays | apply State.branch_stays | apply Stays.ite | apply StaysX.next | apply StaysX.ite)

theorem execJ_stays {z s : State} (h : Stays z s) (c : CoreId) (off : BitVec 26) :
  StaysX z (execJ c off s) := by
  unfold execJ
  repeat' with_reducible (first | intro _ | assumption | apply done_stays | apply State.issue_stays | apply State.onCore_stays | apply Stays.ite | apply StaysX.next | apply StaysX.ite | dsimp only | split | apply foldl_stays)

theorem execJal_stays {z s : State} (h : Stays z s) (c : CoreId) (off : BitVec 26) :
  StaysX z (execJal c off s) := by
  unfold execJal
  repeat' with_reducible (first | intro _ | assumption | apply done_stays | apply State.issue_stays | apply State.onCore_stays | apply Stays.ite | apply StaysX.next | apply StaysX.ite | dsimp only | split | apply foldl_stays)

theorem execJalr_stays {z s : State} (h : Stays z s) (c : CoreId) (d : BitVec 5) (a : BitVec 5) (imm : BitVec 16) :
  StaysX z (execJalr c d a imm s) := by
  unfold execJalr
  repeat' with_reducible (first | intro _ | assumption | apply done_stays | apply State.issue_stays | apply State.onCore_stays | apply Stays.ite | apply StaysX.next | apply StaysX.ite | dsimp only | split | apply foldl_stays)

theorem execFenceRw_stays {z s : State} (h : Stays z s) (c : CoreId) :
  StaysX z (execFenceRw c s) := by
  unfold execFenceRw
  repeat' with_reducible (first | intro _ | assumption | apply done_stays | apply State.issue_stays | apply State.onCore_stays | apply Stays.ite | apply StaysX.next | apply StaysX.ite | dsimp only | split | apply foldl_stays)

theorem execFenceW_stays {z s : State} (h : Stays z s) (c : CoreId) :
  StaysX z (execFenceW c s) := by
  unfold execFenceW
  repeat' with_reducible (first | intro _ | assumption | apply done_stays | apply State.issue_stays | apply State.onCore_stays | apply Stays.ite | apply StaysX.next | apply StaysX.ite | dsimp only | split | apply foldl_stays)

theorem execFenceI_stays {z s : State} (h : Stays z s) (c : CoreId) :
  StaysX z (execFenceI c s) := by
  unfold execFenceI
  repeat' with_reducible (first | assumption | apply done_stays | apply State.simple_stays | apply Stays.ite | apply StaysX.next | apply StaysX.ite)

theorem execEcall_stays {z s : State} (h : Stays z s) (c : CoreId) :
  StaysX z (execEcall c s) := by
  unfold execEcall
  repeat' with_reducible (first | intro _ | assumption | apply done_stays | apply State.issue_stays | apply State.except_stays | apply Stays.ite | apply StaysX.next | apply StaysX.ite | dsimp only | split | apply foldl_stays)

theorem execBrk_stays {z s : State} (h : Stays z s) (c : CoreId) :
  StaysX z (execBrk c s) := by
  unfold execBrk
  repeat' with_reducible (first | intro _ | assumption | apply done_stays | apply State.issue_stays | apply State.onCore_stays | apply State.except_stays | apply Stays.ite | apply StaysX.next | apply StaysX.ite | dsimp only | split | apply foldl_stays)

theorem execEret_stays {z s : State} (h : Stays z s) (c : CoreId) :
  StaysX z (execEret c s) := by
  unfold execEret
  repeat' with_reducible (first | intro _ | assumption | apply done_stays | apply State.issue_stays | apply State.ifPriv_stays | apply State.onCore_stays | apply Stays.ite | apply StaysX.next | apply StaysX.ite | dsimp only | split | apply foldl_stays)

theorem execWfi_stays {z s : State} (h : Stays z s) (c : CoreId) :
  StaysX z (execWfi c s) := by
  unfold execWfi
  repeat' with_reducible (first | intro _ | assumption | apply done_stays | apply State.issue_stays | apply State.ifPriv_stays | apply State.onCore_stays | apply Stays.ite | apply StaysX.next | apply StaysX.ite | dsimp only | split | apply foldl_stays)

theorem execSrd_stays {z s : State} (h : Stays z s) (c : CoreId) (d : BitVec 5) (n : BitVec 12) :
  StaysX z (execSrd c d n s) := by
  unfold execSrd
  repeat' with_reducible (first | intro _ | assumption | apply done_stays | apply State.issue_stays | apply State.illegal_stays | apply State.privFault_stays | apply State.onCore_stays | apply Stays.ite | apply StaysX.next | apply StaysX.ite | dsimp only | split | apply foldl_stays)

theorem execSwr_stays {z s : State} (h : Stays z s) (c : CoreId) (a : BitVec 5) (n : BitVec 12) :
  StaysX z (execSwr c a n s) := by
  unfold execSwr
  repeat' with_reducible (first | intro _ | assumption | apply done_stays | apply State.issue_stays | apply State.illegal_stays | apply State.ifPriv_stays | apply State.onCore_stays | apply Stays.ite | apply StaysX.next | apply StaysX.ite | dsimp only | split | apply foldl_stays)

theorem execSset_stays {z s : State} (h : Stays z s) (c : CoreId) (d : BitVec 5) (a : BitVec 5) (n : BitVec 12) :
  StaysX z (execSset c d a n s) := by
  unfold execSset
  repeat' with_reducible (first | intro _ | assumption | apply done_stays | apply State.issue_stays | apply State.illegal_stays | apply State.ifPriv_stays | apply State.onCore_stays | apply Stays.ite | apply StaysX.next | apply StaysX.ite | dsimp only | split | apply foldl_stays)

theorem execSclr_stays {z s : State} (h : Stays z s) (c : CoreId) (d : BitVec 5) (a : BitVec 5) (n : BitVec 12) :
  StaysX z (execSclr c d a n s) := by
  unfold execSclr
  repeat' with_reducible (first | intro _ | assumption | apply done_stays | apply State.issue_stays | apply State.illegal_stays | apply State.ifPriv_stays | apply State.onCore_stays | apply Stays.ite | apply StaysX.next | apply StaysX.ite | dsimp only | split | apply foldl_stays)

theorem execRdt_stays {z s : State} (h : Stays z s) (c : CoreId) (d : BitVec 5) :
  StaysX z (execRdt c d s) := by
  unfold execRdt
  repeat' with_reducible (first | assumption | apply done_stays | apply State.simple_stays | apply Stays.ite | apply StaysX.next | apply StaysX.ite)

theorem execWaitt_stays {z s : State} (h : Stays z s) (c : CoreId) (a : BitVec 5) :
  StaysX z (execWaitt c a s) := by
  unfold execWaitt
  repeat' with_reducible (first | intro _ | assumption | apply done_stays | apply State.issue_stays | apply State.onCore_stays | apply Stays.ite | apply StaysX.next | apply StaysX.ite | dsimp only | split | apply foldl_stays)

theorem execSig_stays {z s : State} (h : Stays z s) (c : CoreId) (a : BitVec 5) (b : BitVec 5) :
  StaysX z (execSig c a b s) := by
  unfold execSig
  repeat' with_reducible (first | intro _ | assumption | apply done_stays | apply State.issue_stays | apply State.withHandle_stays | apply State.onCore_stays | apply State.sigNow_stays | apply Stays.ite | apply StaysX.next | apply StaysX.ite | dsimp only | split | apply foldl_stays)

theorem execWaitge_stays {z s : State} (h : Stays z s) (c : CoreId) (d : BitVec 5) (a : BitVec 5) (b : BitVec 5) :
  StaysX z (execWaitge c d a b s) := by
  unfold execWaitge
  repeat' with_reducible (first | intro _ | assumption | apply done_stays | apply State.issue_stays | apply State.withHandle_stays | apply State.waitge_stays | apply Stays.ite | apply StaysX.next | apply StaysX.ite | dsimp only | split | apply foldl_stays)

theorem execPreg_stays {z s : State} (h : Stays z s) (c : CoreId) (d : BitVec 5) (a : BitVec 5) :
  StaysX z (execPreg c d a s) := by
  unfold execPreg
  repeat' with_reducible (first | intro _ | assumption | apply done_stays | apply State.issue_stays | apply State.withHandle_stays | apply State.onCore_stays | apply Stays.ite | apply StaysX.next | apply StaysX.ite | dsimp only | split | apply foldl_stays)

theorem execPunreg_stays {z s : State} (h : Stays z s) (c : CoreId) (d : BitVec 5) (a : BitVec 5) :
  StaysX z (execPunreg c d a s) := by
  unfold execPunreg
  repeat' with_reducible (first | intro _ | assumption | apply done_stays | apply State.issue_stays | apply State.withHandle_stays | apply State.onCore_stays | apply Stays.ite | apply StaysX.next | apply StaysX.ite | dsimp only | split | apply foldl_stays)

theorem execRdc_stays {z s : State} (h : Stays z s) (c : CoreId) (d : BitVec 5) (a : BitVec 5) :
  StaysX z (execRdc c d a s) := by
  unfold execRdc
  repeat' with_reducible (first | intro _ | assumption | apply done_stays | apply State.issue_stays | apply State.withHandle_stays | apply State.onCore_stays | apply Stays.ite | apply StaysX.next | apply StaysX.ite | dsimp only | split | apply foldl_stays)

theorem execIllegalEncoding_stays {z s : State} (h : Stays z s) (c : CoreId) :
  StaysX z (execIllegalEncoding c s) := by
  unfold execIllegalEncoding
  repeat' with_reducible (first | intro _ | assumption | apply done_stays | apply State.issue_stays | apply State.illegal_stays | apply Stays.ite | apply StaysX.next | apply StaysX.ite | dsimp only | split | apply foldl_stays)

theorem execWaittEnd_stays {z s : State} (h : Stays z s) (c : CoreId) :
  StaysX z (execWaittEnd c s) := by
  unfold execWaittEnd
  repeat' with_reducible (first | intro _ | assumption | apply State.unlessIrq_stays | apply State.boundary_stays | apply State.onCore_stays | apply done_stays | apply Stays.ite | apply StaysX.next | apply StaysX.ite | split | dsimp only)

theorem execWaitgeMet_stays {z s : State} (h : Stays z s) (c : CoreId) :
  StaysX z (execWaitgeMet c s) := by
  unfold execWaitgeMet
  repeat' with_reducible (first | intro _ | assumption | apply State.waitge_stays | apply State.unlessIrq_stays | apply State.boundary_stays | apply State.onCore_stays | apply done_stays | apply Stays.ite | apply StaysX.next | apply StaysX.ite | split | dsimp only)

theorem execWaitgeDeadline_stays {z s : State} (h : Stays z s) (c : CoreId) :
  StaysX z (execWaitgeDeadline c s) := by
  unfold execWaitgeDeadline
  repeat' with_reducible (first | intro _ | assumption | apply State.waitge_stays | apply State.unlessIrq_stays | apply State.boundary_stays | apply State.onCore_stays | apply done_stays | apply Stays.ite | apply StaysX.next | apply StaysX.ite | split | dsimp only)

theorem execInterruptEntry_stays {z s : State} (h : Stays z s) (c : CoreId) :
  StaysX z (execInterruptEntry c s) := by
  unfold execInterruptEntry
  repeat' with_reducible (first | intro _ | assumption | apply State.unlessIrq_stays | apply State.boundary_stays | apply State.settle_stays | apply done_stays | apply Stays.ite | apply StaysX.next | apply StaysX.ite | split | dsimp only)

theorem execNoticeArrive_stays {z s : State} (h : Stays z s) (c : CoreId) (addr : Word) (ini : BitVec 16) (reason : BitVec 4) :
  StaysX z (execNoticeArrive c addr ini reason s) := by
  unfold execNoticeArrive
  repeat' with_reducible (first | assumption | apply done_stays | apply State.event_stays | apply State.queueNotice_stays | apply Stays.ite | apply StaysX.next | apply StaysX.ite)

theorem execCoreStart_stays {z s : State} (h : Stays z s) (i : Ini) (v : W32) :
  StaysX z (execCoreStart i v s) := by
  unfold execCoreStart
  repeat' with_reducible (first | assumption | apply done_stays | apply State.regWrite_stays | apply Stays.ite | apply StaysX.next | apply StaysX.ite)

theorem execCoreSwi_stays {z s : State} (h : Stays z s) (i : Ini) (v : W32) :
  StaysX z (execCoreSwi i v s) := by
  unfold execCoreSwi
  repeat' with_reducible (first | assumption | apply done_stays | apply State.regWrite_stays | apply Stays.ite | apply StaysX.next | apply StaysX.ite)

theorem execQueueDoorbell_stays {z s : State} (h : Stays z s) (i : Ini) (g : Fin 32) (q : Fin 4) (tail : BitVec 16) :
  StaysX z (execQueueDoorbell i g q tail s) := by
  unfold execQueueDoorbell
  repeat' with_reducible (first | assumption | apply done_stays | apply State.regWrite_stays | apply Stays.ite | apply StaysX.next | apply StaysX.ite)

theorem execListStart_stays {z s : State} (h : Stays z s) (g : Fin 32) (q : Fin 4) :
  StaysX z (execListStart g q s) := by
  unfold execListStart
  repeat' with_reducible (first | assumption | apply done_stays | apply State.listStart_stays | apply Stays.ite | apply StaysX.next | apply StaysX.ite)

theorem execEntNop_stays {z s : State} (h : Stays z s) (g : Fin 32) (q : Fin 4) :
  StaysX z (execEntNop g q s) := by
  unfold execEntNop
  repeat' with_reducible (first | intro _ | assumption | apply done_stays | apply State.entStart_stays | apply State.qOk_stays | apply Stays.ite | apply StaysX.next | apply StaysX.ite | dsimp only | split | apply foldl_stays)

theorem State.entSignal_stays {z s : State} (h : Stays z s) (k : Nat) (w : List W32) :
  Stays z (State.entSignal s k w) := by
  unfold State.entSignal
  repeat' with_reducible (first | intro _ | assumption | apply State.signal_stays | apply State.countSig_stays | apply State.qOk_stays | apply State.qFin_stays | apply Stays.ite | apply StaysP.ite | apply StaysO.ite | apply StaysOP.ite | apply StaysO.some | apply StaysO.none | apply StaysOP.some | apply StaysOP.none | apply StaysO.getD | apply StaysO.or | apply StaysOP.or | apply foldl_stays | split | dsimp only [StaysP] | (apply StaysO.of_eq ‹_›) | (apply StaysP.of_eq ‹_›) | (apply StaysOP.of_eq ‹_›))

theorem execEntSignal_stays {z s : State} (h : Stays z s) (g : Fin 32) (q : Fin 4) :
  StaysX z (execEntSignal g q s) := by
  unfold execEntSignal
  repeat' with_reducible (first | intro _ | assumption | apply done_stays | apply State.entStart_stays | apply State.entSignal_stays | apply Stays.ite | apply StaysX.next | apply StaysX.ite | dsimp only | split | apply foldl_stays)

theorem State.entWait_stays {z s : State} (h : Stays z s) (k : Nat) (w : List W32) :
  Stays z (State.entWait s k w) := by
  unfold State.entWait
  repeat' with_reducible (first | assumption | apply State.qOk_stays | apply State.qFin_stays | apply State.qWait_stays | apply Stays.ite | dsimp only | split)

theorem execEntWait_stays {z s : State} (h : Stays z s) (g : Fin 32) (q : Fin 4) :
  StaysX z (execEntWait g q s) := by
  unfold execEntWait
  repeat' with_reducible (first | intro _ | assumption | apply done_stays | apply State.entStart_stays | apply State.entWait_stays | apply Stays.ite | apply StaysX.next | apply StaysX.ite | dsimp only | split | apply foldl_stays)

theorem execEntWaitMet_stays {z s : State} (h : Stays z s) (g : Fin 32) (q : Fin 4) :
  StaysX z (execEntWaitMet g q s) := by
  unfold execEntWaitMet
  repeat' with_reducible (first | assumption | apply done_stays | apply State.qOk_stays | apply Stays.ite | apply StaysX.next | apply StaysX.ite | dsimp only | split)

theorem execEntWaitTimeout_stays {z s : State} (h : Stays z s) (g : Fin 32) (q : Fin 4) :
  StaysX z (execEntWaitTimeout g q s) := by
  unfold execEntWaitTimeout
  repeat' with_reducible (first | assumption | apply done_stays | apply State.qFin_stays | apply State.dropWaiter_stays | apply Stays.ite | apply StaysX.next | apply StaysX.ite | dsimp only | split)

theorem State.entWaitt_stays {z s : State} (h : Stays z s) (k : Nat) (w : List W32) :
  Stays z (State.entWaitt s k w) := by
  unfold State.entWaitt
  repeat' with_reducible (first | assumption | apply State.qOk_stays | apply State.qWait_stays | apply Stays.ite)

theorem execEntWaitt_stays {z s : State} (h : Stays z s) (g : Fin 32) (q : Fin 4) :
  StaysX z (execEntWaitt g q s) := by
  unfold execEntWaitt
  repeat' with_reducible (first | intro _ | assumption | apply done_stays | apply State.entStart_stays | apply State.entWaitt_stays | apply Stays.ite | apply StaysX.next | apply StaysX.ite | dsimp only | split | apply foldl_stays)

theorem execEntWaittEnd_stays {z s : State} (h : Stays z s) (g : Fin 32) (q : Fin 4) :
  StaysX z (execEntWaittEnd g q s) := by
  unfold execEntWaittEnd
  repeat' with_reducible (first | assumption | apply done_stays | apply State.qOk_stays | apply Stays.ite | apply StaysX.next | apply StaysX.ite | dsimp only | split)

theorem execEntIrq_stays {z s : State} (h : Stays z s) (g : Fin 32) (q : Fin 4) :
  StaysX z (execEntIrq g q s) := by
  unfold execEntIrq
  repeat' with_reducible (first | intro _ | assumption | apply done_stays | apply State.entStart_stays | apply State.qOk_stays | apply State.putBit_stays | apply Stays.ite | apply StaysX.next | apply StaysX.ite | dsimp only | split | apply foldl_stays)

theorem execEntJump_stays {z s : State} (h : Stays z s) (g : Fin 32) (q : Fin 4) :
  StaysX z (execEntJump g q s) := by
  unfold execEntJump
  repeat' with_reducible (first | intro _ | assumption | apply done_stays | apply State.entStart_stays | apply State.qOk_stays | apply Stays.ite | apply StaysX.next | apply StaysX.ite | dsimp only | split | apply foldl_stays)

theorem execEntAcq_stays {z s : State} (h : Stays z s) (g : Fin 32) (q : Fin 4) :
  StaysX z (execEntAcq g q s) := by
  unfold execEntAcq
  repeat' with_reducible (first | intro _ | assumption | apply done_stays | apply State.entStart_stays | apply State.acq_stays | apply Stays.ite | apply StaysX.next | apply StaysX.ite | dsimp only | split | apply foldl_stays)

theorem execEntRel_stays {z s : State} (h : Stays z s) (g : Fin 32) (q : Fin 4) :
  StaysX z (execEntRel g q s) := by
  unfold execEntRel
  repeat' with_reducible (first | intro _ | assumption | apply done_stays | apply State.entStart_stays | apply State.rel_stays | apply Stays.ite | apply StaysX.next | apply StaysX.ite | dsimp only | split | apply foldl_stays)

theorem State.setProducers_stays {z s : State} (h : Stays z s) (k : Nat) (l : List W32) :
  Stays z (State.setProducers s k l) := by
  unfold State.setProducers
  repeat' with_reducible (first | assumption | apply State.setFld_stays | apply State.onQueue_stays | apply Stays.ite)

theorem State.entPreg_stays {z s : State} (h : Stays z s) (k : Nat) (w : List W32) :
  Stays z (State.entPreg s k w) := by
  unfold State.entPreg
  repeat' with_reducible (first | assumption | apply State.qOk_stays | apply State.qFin_stays | apply State.setProducers_stays | apply Stays.ite | dsimp only | split)

theorem execEntPreg_stays {z s : State} (h : Stays z s) (g : Fin 32) (q : Fin 4) :
  StaysX z (execEntPreg g q s) := by
  unfold execEntPreg
  repeat' with_reducible (first | intro _ | assumption | apply done_stays | apply State.entStart_stays | apply State.entPreg_stays | apply Stays.ite | apply StaysX.next | apply StaysX.ite | dsimp only | split | apply foldl_stays)

theorem State.entPunreg_stays {z s : State} (h : Stays z s) (k : Nat) (w : List W32) :
  Stays z (State.entPunreg s k w) := by
  unfold State.entPunreg
  repeat' with_reducible (first | assumption | apply State.qOk_stays | apply State.setProducers_stays | apply State.qFin_stays | apply Stays.ite | dsimp only | split)

theorem execEntPunreg_stays {z s : State} (h : Stays z s) (g : Fin 32) (q : Fin 4) :
  StaysX z (execEntPunreg g q s) := by
  unfold execEntPunreg
  repeat' with_reducible (first | intro _ | assumption | apply done_stays | apply State.entStart_stays | apply State.entPunreg_stays | apply Stays.ite | apply StaysX.next | apply StaysX.ite | dsimp only | split | apply foldl_stays)

theorem State.entCopyRun_stays {z s : State} (h : Stays z s) (k : Nat) (w : List W32) :
  Stays z (State.entCopyRun s k w) := by
  unfold State.entCopyRun
  repeat' with_reducible (first | intro _ | assumption | apply State.copyEnd_stays | apply State.copyRun_stays | apply Stays.ite | apply StaysP.ite | split | dsimp only [StaysP])

theorem execEntCopy_stays {z s : State} (h : Stays z s) (g : Fin 32) (q : Fin 4) :
  StaysX z (execEntCopy g q s) := by
  unfold execEntCopy
  repeat' with_reducible (first | intro _ | assumption | apply State.entCopyRun_stays | apply State.entStart_stays | apply State.qTake_stays | apply done_stays | apply Stays.ite | apply StaysX.next | apply StaysX.ite | split | dsimp only)

theorem execEntUnknownOpcode_stays {z s : State} (h : Stays z s) (g : Fin 32) (q : Fin 4) :
  StaysX z (execEntUnknownOpcode g q s) := by
  unfold execEntUnknownOpcode
  repeat' with_reducible (first | intro _ | assumption | apply done_stays | apply State.entStart_stays | apply Stays.ite | apply StaysX.next | apply StaysX.ite | dsimp only | split | apply foldl_stays)

theorem execEntryComplete_stays {z s : State} (h : Stays z s) (g : Fin 32) (q : Fin 4) :
  StaysX z (execEntryComplete g q s) := by
  unfold execEntryComplete
  repeat' with_reducible (first | assumption | apply done_stays | apply State.entryComplete_stays | apply Stays.ite | apply StaysX.next | apply StaysX.ite)

theorem execQueueResume_stays {z s : State} (h : Stays z s) (i : Ini) (g : Fin 32) (q : Fin 4) :
  StaysX z (execQueueResume i g q s) := by
  unfold execQueueResume
  repeat' with_reducible (first | assumption | apply done_stays | apply State.regWrite_stays | apply Stays.ite | apply StaysX.next | apply StaysX.ite)

theorem execQueueRetry_stays {z s : State} (h : Stays z s) (i : Ini) (g : Fin 32) (q : Fin 4) :
  StaysX z (execQueueRetry i g q s) := by
  unfold execQueueRetry
  repeat' with_reducible (first | assumption | apply done_stays | apply State.regWrite_stays | apply Stays.ite | apply StaysX.next | apply StaysX.ite)

theorem execQueueCancel_stays {z s : State} (h : Stays z s) (i : Ini) (g : Fin 32) (q : Fin 4) (relholds : Bool) :
  StaysX z (execQueueCancel i g q relholds s) := by
  unfold execQueueCancel
  repeat' with_reducible (first | assumption | apply done_stays | apply State.regWrite_stays | apply Stays.ite | apply StaysX.next | apply StaysX.ite)

theorem execQueueCancelDone_stays {z s : State} (h : Stays z s) (g : Fin 32) (q : Fin 4) :
  StaysX z (execQueueCancelDone g q s) := by
  unfold execQueueCancelDone
  repeat' with_reducible (first | intro _ | assumption | apply State.onQueue_stays | apply State.setQState_stays | apply done_stays | apply State.putBit_stays | apply Stays.ite | apply StaysX.next | apply StaysX.ite | split | dsimp only)

theorem State.sigRefused_stays {z s : State} (h : Stays z s) (i : Ini) (cls : Nat) :
  Stays z (State.sigRefused s i cls) := by
  unfold State.sigRefused
  repeat' with_reducible (first | assumption | apply State.notice_stays | apply State.captureRefusal_stays | apply State.drawn_stays | apply Stays.ite | split | dsimp only)

theorem execCounterIncrement_stays {z s : State} (h : Stays z s) (i : Ini) (h : W32) (n : W32) :
  StaysX z (execCounterIncrement i h n s) := by
  unfold execCounterIncrement
  repeat' with_reducible (first | assumption | apply State.sigRefused_stays | apply State.countSig_stays | apply State.addCounter_stays | apply done_stays | apply Stays.ite | apply StaysX.next | apply StaysX.ite | split | dsimp only)

theorem execCntWrite_stays {z s : State} (h : Stays z s) (i : Ini) (x : Fin 5) (n : Fin 4096) (v : W32) :
  StaysX z (execCntWrite i x n v s) := by
  unfold execCntWrite
  repeat' with_reducible (first | assumption | apply done_stays | apply State.regWrite_stays | apply Stays.ite | apply StaysX.next | apply StaysX.ite)

theorem execHoldAcqRead_stays {z s : State} (h : Stays z s) (i : Ini) (x : Fin 5) (n : Fin 256) :
  StaysX z (execHoldAcqRead i x n s) := by
  unfold execHoldAcqRead
  repeat' with_reducible (first | assumption | apply done_stays | apply State.regReadCmd_stays | apply Stays.ite | apply StaysX.next | apply StaysX.ite)

theorem execHoldRelWrite_stays {z s : State} (h : Stays z s) (i : Ini) (x : Fin 5) (n : Fin 256) (v : W32) :
  StaysX z (execHoldRelWrite i x n v s) := by
  unfold execHoldRelWrite
  repeat' with_reducible (first | assumption | apply done_stays | apply State.regWrite_stays | apply Stays.ite | apply StaysX.next | apply StaysX.ite)

theorem State.fltWrite_stays {z s : State} (h : Stays z s) (a : Nat) (bs : List Byte) (x3 : Nat) :
  StaysP z (State.fltWrite s a bs x3) := by
  induction x3 generalizing s a bs with
  | zero =>
    unfold State.fltWrite
    repeat' with_reducible (first | intro _ | assumption | apply State.busWrite_stays | apply Stays.ite | apply StaysP.ite | apply StaysO.ite | apply StaysOP.ite | apply StaysO.some | apply StaysO.none | apply StaysOP.some | apply StaysOP.none | apply StaysO.getD | apply StaysO.or | apply StaysOP.or | apply foldl_stays | split | dsimp only [StaysP] | (apply StaysO.of_eq ‹_›) | (apply StaysP.of_eq ‹_›) | (apply StaysOP.of_eq ‹_›))
  | succ n ih =>
    unfold State.fltWrite
    repeat' with_reducible (first | intro _ | assumption | apply ih | apply State.busWrite_stays | apply Stays.ite | apply StaysP.ite | apply StaysO.ite | apply StaysOP.ite | apply StaysO.some | apply StaysO.none | apply StaysOP.some | apply StaysOP.none | apply StaysO.getD | apply StaysO.or | apply StaysOP.or | apply foldl_stays | split | dsimp only [StaysP] | (apply StaysO.of_eq ‹_›) | (apply StaysP.of_eq ‹_›) | (apply StaysOP.of_eq ‹_›))

theorem State.censusFire_stays {z s : State} (h : Stays z s) (k : Nat) (ms : List CenWait) :
  Stays z (State.censusFire s k ms) := by
  unfold State.censusFire
  repeat' with_reducible (first | intro _ | assumption | apply State.fltWrite_stays | apply State.event_stays | apply State.setEvt_stays | apply State.putBit_stays | apply Stays.ite | apply StaysP.ite | split | dsimp only [StaysP])

theorem State.cenTick_stays {z s : State} (h : Stays z s)  :
  Stays z (State.cenTick s) := by
  unfold State.cenTick
  repeat' with_reducible (first | intro _ | assumption | apply State.each_stays | apply State.withEng_stays | apply Stays.ite | split | dsimp only)

theorem execCensusFire_stays {z s : State} (h : Stays z s) (k : Fin 8) :
  StaysX z (execCensusFire k s) := by
  unfold execCensusFire
  repeat' with_reducible (first | assumption | apply State.censusFire_stays | apply done_stays | apply Stays.ite | apply StaysX.next | apply StaysX.ite | split | dsimp only)

theorem execPwrReqAutumn_stays {z s : State} (h : Stays z s) (i : Ini) :
  StaysX z (execPwrReqAutumn i s) := by
  unfold execPwrReqAutumn
  repeat' with_reducible (first | assumption | apply done_stays | apply State.regWrite_stays | apply Stays.ite | apply StaysX.next | apply StaysX.ite)

theorem execPwrReqSummer_stays {z s : State} (h : Stays z s) (i : Ini) :
  StaysX z (execPwrReqSummer i s) := by
  unfold execPwrReqSummer
  repeat' with_reducible (first | assumption | apply done_stays | apply State.regWrite_stays | apply Stays.ite | apply StaysX.next | apply StaysX.ite)

theorem execDieResetRelease_stays {z s : State} (h : Stays z s) (x : Fin 6) :
  StaysX z (execDieResetRelease x s) := by
  unfold execDieResetRelease
  repeat' with_reducible (first | assumption | apply done_stays | apply State.dieRelease_stays | apply Stays.ite | apply StaysX.next | apply StaysX.ite)

theorem execDieInitScrubDone_stays {z s : State} (h : Stays z s) (x : Fin 6) :
  StaysX z (execDieInitScrubDone x s) := by
  unfold execDieInitScrubDone
  repeat' with_reducible (first | assumption | apply done_stays | apply State.withSup_stays | apply State.withBoot_stays | apply State.clearMem_stays | apply State.summerCheck_stays | apply State.syncLive_stays | apply State.setLarderState_stays | apply Stays.ite | apply StaysX.next | apply StaysX.ite)

theorem execDieImageCheck_stays {z s : State} (h : Stays z s) (d : Fin 4) :
  StaysX z (execDieImageCheck d s) := by
  unfold execDieImageCheck
  repeat' with_reducible (first | assumption | apply done_stays | apply State.dieImageCheck_stays | apply Stays.ite | apply StaysX.next | apply StaysX.ite)

theorem execThermalSample_stays {z s : State} (h : Stays z s) (t : List Int) :
  StaysX z (execThermalSample t s) := by
  unfold execThermalSample
  repeat' with_reducible (first | intro _ | assumption | apply State.wr_stays | apply State.withSup_stays | apply done_stays | apply State.forceAutumn_stays | apply State.putBit_stays | apply Stays.ite | apply StaysX.next | apply StaysX.ite | dsimp only | split | apply foldl_stays)

theorem execWinterReqArm_stays {z s : State} (h : Stays z s) (i : Ini) :
  StaysX z (execWinterReqArm i s) := by
  unfold execWinterReqArm
  repeat' with_reducible (first | assumption | apply done_stays | apply State.regWrite_stays | apply Stays.ite | apply StaysX.next | apply StaysX.ite)

theorem execWinterReq_stays {z s : State} (h : Stays z s) (i : Ini) :
  StaysX z (execWinterReq i s) := by
  unfold execWinterReq
  repeat' with_reducible (first | assumption | apply done_stays | apply State.regWrite_stays | apply Stays.ite | apply StaysX.next | apply StaysX.ite)

theorem execPwrHeelAck_stays {z s : State} (h : Stays z s) (i : Ini) (v : W32) :
  StaysX z (execPwrHeelAck i v s) := by
  unfold execPwrHeelAck
  repeat' with_reducible (first | assumption | apply done_stays | apply State.regWrite_stays | apply Stays.ite | apply StaysX.next | apply StaysX.ite)

theorem execWinterGraceExpire_stays {z s : State} (h : Stays z s)  :
  StaysX z (execWinterGraceExpire s) := by
  unfold execWinterGraceExpire
  repeat' with_reducible (first | assumption | apply done_stays | apply State.winterEnd_stays | apply State.putBit_stays | apply Stays.ite | apply StaysX.next | apply StaysX.ite)

theorem execWinterSave_stays {z s : State} (h : Stays z s)  :
  StaysX z (execWinterSave s) := by
  unfold execWinterSave
  repeat' with_reducible (first | assumption | apply State.loadAon_stays | apply State.saveBlock_stays | apply State.sumFlush_stays | apply State.putWord_stays | apply done_stays | apply State.keepOn_stays | apply State.withSup_stays | apply Stays.ite | apply StaysX.next | apply StaysX.ite)

theorem execWinterCapture_stays {z s : State} (h : Stays z s)  :
  StaysX z (execWinterCapture s) := by
  unfold execWinterCapture
  repeat' with_reducible (first | intro _ | assumption | apply State.heelReset_stays | apply State.thawBegin_stays | apply State.setInh_stays | apply State.captureDtb_stays | apply done_stays | apply State.withSup_stays | apply State.wr_stays | apply foldl_stays | apply Stays.ite | apply StaysX.next | apply StaysX.ite | apply StaysP.ite | apply foldl_stays | apply foldlP_stays | split | dsimp only [StaysP])

theorem execInsoleCheckDone_stays {z s : State} (h : Stays z s)  :
  StaysX z (execInsoleCheckDone s) := by
  unfold execInsoleCheckDone
  repeat' with_reducible (first | assumption | apply State.insoleReinit_stays | apply State.insoleCorrect_stays | apply State.unkeep_stays | apply State.keepsOff_stays | apply State.event_stays | apply done_stays | apply State.putDword_stays | apply State.putBit_stays | apply State.withFlt_stays | apply State.withSup_stays | apply State.wr_stays | apply Stays.ite | apply StaysX.next | apply StaysX.ite | split | dsimp only)

theorem execWinterBrownout_stays {z s : State} (h : Stays z s)  :
  StaysX z (execWinterBrownout s) := by
  unfold execWinterBrownout
  repeat' with_reducible (first | intro _ | assumption | apply State.keepOn_stays | apply State.loadAon_stays | apply State.wake_stays | apply done_stays | apply State.putWord_stays | apply State.putBit_stays | apply State.withSup_stays | apply State.resetRegs_stays | apply Stays.ite | apply StaysX.next | apply StaysX.ite | split | dsimp only)

theorem execRtcAlarmWake_stays {z s : State} (h : Stays z s)  :
  StaysX z (execRtcAlarmWake s) := by
  unfold execRtcAlarmWake
  repeat' with_reducible (first | assumption | apply done_stays | apply State.wake_stays | apply Stays.ite | apply StaysX.next | apply StaysX.ite)

theorem execWakePinConfirm_stays {z s : State} (h : Stays z s) (n : Fin 4) (rising : Bool) :
  StaysX z (execWakePinConfirm n rising s) := by
  unfold execWakePinConfirm
  repeat' with_reducible (first | assumption | apply done_stays | apply State.wake_stays | apply Stays.ite | apply StaysX.next | apply StaysX.ite)

theorem execEngineGate_stays {z s : State} (h : Stays z s) (g : Fin 32) :
  StaysX z (execEngineGate g s) := by
  unfold execEngineGate
  repeat' with_reducible (first | assumption | apply done_stays | apply State.gateCheck_stays | apply Stays.ite | apply StaysX.next | apply StaysX.ite)

theorem State.strStart_stays {z s : State} (h : Stays z s) (u : Nat) (w : W32) :
  Stays z (State.strStart s u w) := by
  unfold State.strStart
  repeat' with_reducible (first | assumption | apply State.strIllegal_stays | apply State.bindCheck_stays | apply State.onStream_stays | apply Stays.ite)

theorem execStrStart_stays {z s : State} (h : Stays z s) (g : Fin 32) (n : Fin 16) :
  StaysX z (execStrStart g n s) := by
  unfold execStrStart
  repeat' with_reducible (first | intro _ | assumption | apply done_stays | apply State.strExec_stays | apply State.strStart_stays | apply Stays.ite | apply StaysX.next | apply StaysX.ite | dsimp only | split | apply foldl_stays)

theorem State.strBind_stays {z s : State} (h : Stays z s) (u : Nat) :
  Stays z (State.strBind s u) := by
  unfold State.strBind
  repeat' with_reducible (first | assumption | apply State.strFail_stays | apply Stays.ite | split | dsimp only)

theorem State.strEnd_stays {z s : State} (h : Stays z s) (u : Nat) :
  Stays z (State.strEnd s u) := by
  unfold State.strEnd
  repeat' with_reducible (first | assumption | apply State.strIllegal_stays | apply State.strBind_stays | apply State.strFlush_stays | apply State.strSettle_stays | apply State.onStream_stays | apply Stays.ite)

theorem execStrEnd_stays {z s : State} (h : Stays z s) (g : Fin 32) (n : Fin 16) :
  StaysX z (execStrEnd g n s) := by
  unfold execStrEnd
  repeat' with_reducible (first | intro _ | assumption | apply done_stays | apply State.strExec_stays | apply State.strEnd_stays | apply Stays.ite | apply StaysX.next | apply StaysX.ite | dsimp only | split | apply foldl_stays)

theorem execStrAddr_stays {z s : State} (h : Stays z s) (g : Fin 32) (n : Fin 16) :
  StaysX z (execStrAddr g n s) := by
  unfold execStrAddr
  repeat' with_reducible (first | intro _ | assumption | apply done_stays | apply State.strExec_stays | apply State.onStream_stays | apply Stays.ite | apply StaysX.next | apply StaysX.ite | dsimp only | split | apply foldl_stays)

theorem execStrAdd_stays {z s : State} (h : Stays z s) (g : Fin 32) (n : Fin 16) :
  StaysX z (execStrAdd g n s) := by
  unfold execStrAdd
  repeat' with_reducible (first | intro _ | assumption | apply done_stays | apply State.strExec_stays | apply State.onStream_stays | apply Stays.ite | apply StaysX.next | apply StaysX.ite | dsimp only | split | apply foldl_stays)

theorem execStrLoop_stays {z s : State} (h : Stays z s) (g : Fin 32) (n : Fin 16) :
  StaysX z (execStrLoop g n s) := by
  unfold execStrLoop
  repeat' with_reducible (first | intro _ | assumption | apply done_stays | apply State.strExec_stays | apply State.strIllegal_stays | apply State.setStream_stays | apply Stays.ite | apply StaysX.next | apply StaysX.ite | dsimp only | split | apply foldl_stays)

theorem execStrEndl_stays {z s : State} (h : Stays z s) (g : Fin 32) (n : Fin 16) :
  StaysX z (execStrEndl g n s) := by
  unfold execStrEndl
  repeat' with_reducible (first | intro _ | assumption | apply done_stays | apply State.strExec_stays | apply State.strIllegal_stays | apply State.setStream_stays | apply Stays.ite | apply StaysX.next | apply StaysX.ite | dsimp only | split | apply foldl_stays)

theorem State.strMove_stays {z s : State} (h : Stays z s) (u : Nat) (r : Nat) (len : Nat) (ext : List Byte) :
  Stays z (State.strMove s u r len ext) := by
  unfold State.strMove
  repeat' with_reducible (first | intro _ | assumption | apply State.strFeed_stays | apply State.strAccept_stays | apply State.strPlaceAll_stays | apply State.strGenMove_stays | apply State.onStream_stays | apply State.setStream_stays | apply Stays.ite | apply StaysP.ite | split | dsimp only [StaysP])

theorem execStrMove_stays {z s : State} (h : Stays z s) (g : Fin 32) (n : Fin 16) (ext : List Byte) :
  StaysX z (execStrMove g n ext s) := by
  unfold execStrMove
  repeat' with_reducible (first | intro _ | assumption | apply State.strMove_stays | apply State.strBind_stays | apply State.strExec_stays | apply State.strIllegal_stays | apply done_stays | apply State.onStream_stays | apply Stays.ite | apply StaysX.next | apply StaysX.ite | apply StaysP.ite | split | dsimp only [StaysP])

theorem State.strSkip_stays {z s : State} (h : Stays z s) (u : Nat) (len : Nat) (ext : List Byte) :
  Stays z (State.strSkip s u len ext) := by
  unfold State.strSkip
  repeat' with_reducible (first | assumption | apply State.strAccept_stays | apply State.setStream_stays | apply State.strFeed_stays | apply Stays.ite)

theorem execStrSkip_stays {z s : State} (h : Stays z s) (g : Fin 32) (n : Fin 16) (ext : List Byte) :
  StaysX z (execStrSkip g n ext s) := by
  unfold execStrSkip
  repeat' with_reducible (first | intro _ | assumption | apply done_stays | apply State.strExec_stays | apply State.strIllegal_stays | apply State.strBind_stays | apply State.strSkip_stays | apply Stays.ite | apply StaysX.next | apply StaysX.ite | dsimp only | split | apply foldl_stays)

theorem State.strSig_stays {z s0 : State} (h : Stays z s0) (u : Nat) (add : W32) (h : W32) :
  Stays z (State.strSig s0 u add h) := by
  unfold State.strSig
  repeat' with_reducible (first | assumption | apply State.strFail_stays | apply State.strFlush_stays | apply State.countSig_stays | apply State.addCounter_stays | apply State.onStream_stays | apply Stays.ite | split | dsimp only)

theorem execStrSig_stays {z s : State} (h : Stays z s) (g : Fin 32) (n : Fin 16) :
  StaysX z (execStrSig g n s) := by
  unfold execStrSig
  repeat' with_reducible (first | intro _ | assumption | apply done_stays | apply State.strExec_stays | apply State.strIllegal_stays | apply State.strSig_stays | apply Stays.ite | apply StaysX.next | apply StaysX.ite | dsimp only | split | apply foldl_stays)

theorem execStrTdim_stays {z s : State} (h : Stays z s) (g : Fin 32) (n : Fin 16) :
  StaysX z (execStrTdim g n s) := by
  unfold execStrTdim
  repeat' with_reducible (first | intro _ | assumption | apply done_stays | apply State.strExec_stays | apply State.strIllegal_stays | apply State.onStream_stays | apply Stays.ite | apply StaysX.next | apply StaysX.ite | dsimp only | split | apply foldl_stays)

theorem State.strCoord_stays {z s : State} (h : Stays z s) (u : Nat) (k : Nat) (x4 : Nat) :
  Stays z (State.strCoord s u k x4) := by
  induction x4 generalizing s u k with
  | zero =>
    unfold State.strCoord
    repeat' with_reducible (first | intro _ | assumption | apply ih | apply State.strGen_stays | apply State.setMat_stays | apply State.onStream_stays | apply Stays.ite | apply StaysP.ite | split | dsimp only [StaysP])
  | succ n ih =>
    unfold State.strCoord
    repeat' with_reducible (first | intro _ | assumption | apply ih | apply State.strGen_stays | apply State.setMat_stays | apply State.onStream_stays | apply Stays.ite | apply StaysP.ite | split | dsimp only [StaysP])

theorem State.strTrun_stays {z s : State} (h : Stays z s) (u : Nat) :
  Stays z (State.strTrun s u) := by
  unfold State.strTrun
  repeat' with_reducible (first | intro _ | assumption | apply State.strCoord_stays | apply State.strBind_stays | apply State.strIllegal_stays | apply State.setStream_stays | apply Stays.ite | split | dsimp only)

theorem execStrTrun_stays {z s : State} (h : Stays z s) (g : Fin 32) (n : Fin 16) :
  StaysX z (execStrTrun g n s) := by
  unfold execStrTrun
  repeat' with_reducible (first | intro _ | assumption | apply State.strTrun_stays | apply State.strExec_stays | apply done_stays | apply Stays.ite | apply StaysX.next | apply StaysX.ite | split | dsimp only)

theorem State.strRows_stays {z s : State} (h : Stays z s) (u : Nat) (k : Nat) (x3 : List (Option Byte)) :
  Stays z (State.strRows s u k x3) := by
  induction x3 generalizing s u k with
  | nil =>
    unfold State.strRows
    repeat' with_reducible (first | intro _ | assumption | apply State.strPlace_stays | apply State.onStream_stays | apply State.setMat_stays | apply Stays.ite | apply StaysP.ite | apply StaysO.ite | apply StaysOP.ite | apply StaysO.some | apply StaysO.none | apply StaysOP.some | apply StaysOP.none | apply StaysO.getD | apply StaysO.or | apply StaysOP.or | apply foldl_stays | split | dsimp only [StaysP] | (apply StaysO.of_eq ‹_›) | (apply StaysP.of_eq ‹_›) | (apply StaysOP.of_eq ‹_›))
  | cons b l ih =>
    unfold State.strRows
    repeat' with_reducible (first | intro _ | assumption | apply ih | apply State.strPlace_stays | apply State.onStream_stays | apply State.setMat_stays | apply Stays.ite | apply StaysP.ite | apply StaysO.ite | apply StaysOP.ite | apply StaysO.some | apply StaysO.none | apply StaysOP.some | apply StaysOP.none | apply StaysO.getD | apply StaysO.or | apply StaysOP.or | apply foldl_stays | split | dsimp only [StaysP] | (apply StaysO.of_eq ‹_›) | (apply StaysP.of_eq ‹_›) | (apply StaysOP.of_eq ‹_›))

theorem State.strRrow_stays {z s : State} (h : Stays z s) (u : Nat) :
  Stays z (State.strRrow s u) := by
  unfold State.strRrow
  repeat' with_reducible (first | intro _ | assumption | apply State.strRows_stays | apply State.strCoord_stays | apply State.strBind_stays | apply State.strIllegal_stays | apply State.strAccept_stays | apply State.onStream_stays | apply State.setStream_stays | apply Stays.ite | split | dsimp only)

theorem execStrRrow_stays {z s : State} (h : Stays z s) (g : Fin 32) (n : Fin 16) :
  StaysX z (execStrRrow g n s) := by
  unfold execStrRrow
  repeat' with_reducible (first | intro _ | assumption | apply State.strRrow_stays | apply State.strExec_stays | apply done_stays | apply Stays.ite | apply StaysX.next | apply StaysX.ite | split | dsimp only)

theorem execStreamChain_stays {z s : State} (h : Stays z s) (g : Fin 32) (n : Fin 16) :
  StaysX z (execStreamChain g n s) := by
  unfold execStreamChain
  repeat' with_reducible (first | assumption | apply done_stays | apply State.setStream_stays | apply Stays.ite | apply StaysX.next | apply StaysX.ite | dsimp only | split)

theorem State.strPlaceProgram_stays {z s : State} (h : Stays z s) (k : Nat) (u : Nat) (w : List W32) :
  Stays z (State.strPlaceProgram s k u w) := by
  unfold State.strPlaceProgram
  repeat' with_reducible (first | assumption | apply State.qFin_stays | apply State.setQState_stays | apply State.qOk_stays | apply State.setStream_stays | apply Stays.ite)

theorem execEntStrRun_stays {z s : State} (h : Stays z s) (g : Fin 32) (q : Fin 4) :
  StaysX z (execEntStrRun g q s) := by
  unfold execEntStrRun
  repeat' with_reducible (first | intro _ | assumption | apply done_stays | apply State.strPlaceProgram_stays | apply State.entStart_stays | apply State.qTake_stays | apply Stays.ite | apply StaysX.next | apply StaysX.ite | dsimp only | split | apply foldl_stays)

theorem State.strCancelWait_stays {z s : State} (h : Stays z s) (k : Nat) :
  Stays z (State.strCancelWait s k) := by
  unfold State.strCancelWait
  repeat' with_reducible (first | assumption | apply State.qOk_stays | apply Stays.ite | dsimp only | split)

theorem execEntStrCancel_stays {z s : State} (h : Stays z s) (g : Fin 32) (q : Fin 4) :
  StaysX z (execEntStrCancel g q s) := by
  unfold execEntStrCancel
  repeat' with_reducible (first | intro _ | assumption | apply done_stays | apply State.entStart_stays | apply State.strCancelWait_stays | apply State.setQState_stays | apply State.strCancel_stays | apply Stays.ite | apply StaysX.next | apply StaysX.ite | dsimp only | split | apply foldl_stays)

theorem execStreamTakeFault_stays {z s : State} (h : Stays z s) (g : Fin 32) (n : Fin 16) :
  StaysX z (execStreamTakeFault g n s) := by
  unfold execStreamTakeFault
  repeat' with_reducible (first | intro _ | assumption | apply State.strError_stays | apply done_stays | apply Stays.ite | apply StaysX.next | apply StaysX.ite | apply StaysP.ite | split | dsimp only [StaysP])

theorem execStrCancelCtl_stays {z s : State} (h : Stays z s) (i : Ini) (g : Fin 32) (n : Fin 16) :
  StaysX z (execStrCancelCtl i g n s) := by
  unfold execStrCancelCtl
  repeat' with_reducible (first | assumption | apply done_stays | apply State.regWrite_stays | apply Stays.ite | apply StaysX.next | apply StaysX.ite)

theorem execStreamCancelDone_stays {z s : State} (h : Stays z s) (g : Fin 32) (n : Fin 16) :
  StaysX z (execStreamCancelDone g n s) := by
  unfold execStreamCancelDone
  repeat' with_reducible (first | intro _ | assumption | apply done_stays | apply State.each_stays | apply State.onStream_stays | apply State.strCancelWait_stays | apply Stays.ite | apply StaysX.next | apply StaysX.ite | dsimp only | split | apply foldl_stays)

theorem execStrLinesRead_stays {z s : State} (h : Stays z s) (i : Ini) (g : Fin 32) (n : Fin 16) :
  StaysX z (execStrLinesRead i g n s) := by
  unfold execStrLinesRead
  repeat' with_reducible (first | assumption | apply done_stays | apply State.regReadCmd_stays | apply Stays.ite | apply StaysX.next | apply StaysX.ite)

theorem execRailOutOfWindow_stays {z s : State} (h : Stays z s) (r : Rail) :
  StaysX z (execRailOutOfWindow r s) := by
  unfold execRailOutOfWindow
  repeat' with_reducible (first | assumption | apply State.soleOnlyReset_stays | apply State.systemReset_stays | apply State.forceAutumn_stays | apply State.supplyEvent_stays | apply State.setRail_stays | apply done_stays | apply State.withSup_stays | apply Stays.ite | apply StaysX.next | apply StaysX.ite | split | dsimp only)

theorem execRailInWindow_stays {z s : State} (h : Stays z s) (r : Rail) :
  StaysX z (execRailInWindow r s) := by
  unfold execRailInWindow
  repeat' with_reducible (first | assumption | apply done_stays | apply State.setRail_stays | apply Stays.ite | apply StaysX.next | apply StaysX.ite)

theorem execAonPowerOnReset_stays {z s : State} (h : Stays z s) (left : Bool) :
  StaysX z (execAonPowerOnReset left s) := by
  unfold execAonPowerOnReset
  repeat' with_reducible (first | intro _ | assumption | apply State.soleReset_stays | apply State.heelReset_stays | apply State.checkBegin_stays | apply State.diesOff_stays | apply State.setInh_stays | apply State.keepsOff_stays | apply done_stays | apply State.putWord_stays | apply State.withIo_stays | apply State.withSup_stays | apply State.withTb_stays | apply State.clearMem_stays | apply State.resetRegs_stays | apply Stays.ite | apply StaysX.next | apply StaysX.ite | split | dsimp only)

theorem execAonRelease_stays {z s : State} (h : Stays z s)  :
  StaysX z (execAonRelease s) := by
  unfold execAonRelease
  repeat' with_reducible (first | assumption | apply done_stays | apply State.setInh_stays | apply State.withSup_stays | apply Stays.ite | apply StaysX.next | apply StaysX.ite)

theorem execHeelBrownout_stays {z s : State} (h : Stays z s)  :
  StaysX z (execHeelBrownout s) := by
  unfold execHeelBrownout
  repeat' with_reducible (first | assumption | apply State.withSup_stays | apply done_stays | apply State.systemReset_stays | apply Stays.ite | apply StaysX.next | apply StaysX.ite)

theorem execHeelBrownoutRecover_stays {z s : State} (h : Stays z s)  :
  StaysX z (execHeelBrownoutRecover s) := by
  unfold execHeelBrownoutRecover
  repeat' with_reducible (first | assumption | apply State.withSup_stays | apply done_stays | apply State.thawBegin_stays | apply Stays.ite | apply StaysX.next | apply StaysX.ite)

theorem execResetPin_stays {z s : State} (h : Stays z s)  :
  StaysX z (execResetPin s) := by
  unfold execResetPin
  repeat' with_reducible (first | assumption | apply done_stays | apply State.systemReset_stays | apply Stays.ite | apply StaysX.next | apply StaysX.ite)

theorem execRstReqArm_stays {z s : State} (h : Stays z s) (i : Ini) :
  StaysX z (execRstReqArm i s) := by
  unfold execRstReqArm
  repeat' with_reducible (first | assumption | apply done_stays | apply State.regWrite_stays | apply Stays.ite | apply StaysX.next | apply StaysX.ite)

theorem execSwSystemReset_stays {z s : State} (h : Stays z s) (i : Ini) :
  StaysX z (execSwSystemReset i s) := by
  unfold execSwSystemReset
  repeat' with_reducible (first | assumption | apply done_stays | apply State.regWrite_stays | apply Stays.ite | apply StaysX.next | apply StaysX.ite)

theorem execSwSoleReset_stays {z s : State} (h : Stays z s) (i : Ini) :
  StaysX z (execSwSoleReset i s) := by
  unfold execSwSoleReset
  repeat' with_reducible (first | assumption | apply done_stays | apply State.regWrite_stays | apply Stays.ite | apply StaysX.next | apply StaysX.ite)

theorem execSwDieReset_stays {z s : State} (h : Stays z s) (i : Ini) (d : Fin 4) :
  StaysX z (execSwDieReset i d s) := by
  unfold execSwDieReset
  repeat' with_reducible (first | assumption | apply done_stays | apply State.regWrite_stays | apply Stays.ite | apply StaysX.next | apply StaysX.ite)

theorem execWatchdogExpire_stays {z s : State} (h : Stays z s) (n : Fin 2) :
  StaysX z (execWatchdogExpire n s) := by
  unfold execWatchdogExpire
  repeat' with_reducible (first | assumption | apply done_stays | apply State.wdogExpire_stays | apply Stays.ite | apply StaysX.next | apply StaysX.ite)

theorem execWdogKick_stays {z s : State} (h : Stays z s) (i : Ini) (n : Fin 2) (v : W32) :
  StaysX z (execWdogKick i n v s) := by
  unfold execWdogKick
  repeat' with_reducible (first | assumption | apply done_stays | apply State.regWrite_stays | apply Stays.ite | apply StaysX.next | apply StaysX.ite)

theorem execWdogCfgWrite_stays {z s : State} (h : Stays z s) (i : Ini) (n : Fin 2) (v : W32) :
  StaysX z (execWdogCfgWrite i n v s) := by
  unfold execWdogCfgWrite
  repeat' with_reducible (first | assumption | apply done_stays | apply State.regWrite_stays | apply Stays.ite | apply StaysX.next | apply StaysX.ite)

theorem execRegulatorInWindow_stays {z s : State} (h : Stays z s)  :
  StaysX z (execRegulatorInWindow s) := by
  unfold execRegulatorInWindow
  repeat' with_reducible (first | assumption | apply done_stays | apply State.withSup_stays | apply State.setRail_stays | apply Stays.ite | apply StaysX.next | apply StaysX.ite)

theorem execHeelMainRelease_stays {z s : State} (h : Stays z s) (refclk : Bool) :
  StaysX z (execHeelMainRelease refclk s) := by
  unfold execHeelMainRelease
  repeat' with_reducible (first | assumption | apply done_stays | apply State.heelRelease_stays | apply State.withTb_stays | apply Stays.ite | apply StaysX.next | apply StaysX.ite)

theorem execSoleRelease_stays {z s : State} (h : Stays z s) (straps : Byte) :
  StaysX z (execSoleRelease straps s) := by
  unfold execSoleRelease
  repeat' with_reducible (first | assumption | apply done_stays | apply State.soleRelease_stays | apply State.withSup_stays | apply Stays.ite | apply StaysX.next | apply StaysX.ite)

theorem execPmbStart_stays {z s : State} (h : Stays z s) (i : Ini) (v : W32) :
  StaysX z (execPmbStart i v s) := by
  unfold execPmbStart
  repeat' with_reducible (first | assumption | apply done_stays | apply State.regWrite_stays | apply Stays.ite | apply StaysX.next | apply StaysX.ite)

theorem execPmbDone_stays {z s : State} (h : Stays z s) (end_ : PmbEnd) (data : BitVec 16) :
  StaysX z (execPmbDone end_ data s) := by
  unfold execPmbDone
  repeat' with_reducible (first | assumption | apply done_stays | apply State.putBit_stays | apply State.setFld_stays | apply Stays.ite | apply StaysX.next | apply StaysX.ite | split | dsimp only)

theorem execPmbTimeout_stays {z s : State} (h : Stays z s)  :
  StaysX z (execPmbTimeout s) := by
  unfold execPmbTimeout
  repeat' with_reducible (first | assumption | apply done_stays | apply State.putBit_stays | apply Stays.ite | apply StaysX.next | apply StaysX.ite | split | dsimp only)

theorem execRegWrite_stays {z s : State} (h : Stays z s) (i : Ini) (a : Word) (n : Nat) (v : W32) :
  StaysX z (execRegWrite i a n v s) := by
  unfold execRegWrite
  repeat' with_reducible (first | assumption | apply State.busWrite_stays | apply done_stays | apply State.faultOf_stays | apply Stays.ite | apply StaysX.next | apply StaysX.ite | dsimp only | split)

theorem execRefclkLoss_stays {z s : State} (h : Stays z s)  :
  StaysX z (execRefclkLoss s) := by
  unfold execRefclkLoss
  repeat' with_reducible (first | assumption | apply done_stays | apply State.refclkLoss_stays | apply Stays.ite | apply StaysX.next | apply StaysX.ite)

theorem execXtal32Loss_stays {z s : State} (h : Stays z s) (periods : Nat) :
  StaysX z (execXtal32Loss periods s) := by
  unfold execXtal32Loss
  repeat' with_reducible (first | assumption | apply State.xtalLost_stays | apply State.xtalStop_stays | apply done_stays | apply State.withTb_stays | apply Stays.ite | apply StaysX.next | apply StaysX.ite | split | dsimp only)

theorem execReflossClear_stays {z s : State} (h : Stays z s) (i : Ini) (present : Bool) :
  StaysX z (execReflossClear i present s) := by
  unfold execReflossClear
  repeat' with_reducible (first | assumption | apply State.regWrite_stays | apply done_stays | apply State.withTb_stays | apply Stays.ite | apply StaysX.next | apply StaysX.ite | split | dsimp only)

theorem execRtcLprcClear_stays {z s : State} (h : Stays z s) (i : Ini) (present : Bool) :
  StaysX z (execRtcLprcClear i present s) := by
  unfold execRtcLprcClear
  repeat' with_reducible (first | assumption | apply State.regWrite_stays | apply done_stays | apply State.withTb_stays | apply Stays.ite | apply StaysX.next | apply StaysX.ite | split | dsimp only)

theorem execDtbSyncMessage_stays {z s : State} (h : Stays z s)  :
  StaysX z (execDtbSyncMessage s) := by
  unfold execDtbSyncMessage
  repeat' with_reducible (first | intro _ | assumption | apply State.syncCopy_stays | apply done_stays | apply State.each_stays | apply State.withTb_stays | apply Stays.ite | apply StaysX.next | apply StaysX.ite | split | dsimp only)

theorem execHeelPllLock_stays {z s : State} (h : Stays z s)  :
  StaysX z (execHeelPllLock s) := by
  unfold execHeelPllLock
  repeat' with_reducible (first | assumption | apply done_stays | apply State.withTb_stays | apply Stays.ite | apply StaysX.next | apply StaysX.ite)

theorem execDtbAlign_stays {z s : State} (h : Stays z s)  :
  StaysX z (execDtbAlign s) := by
  unfold execDtbAlign
  repeat' with_reducible (first | intro _ | assumption | apply State.stampLate_stays | apply State.loadMaster_stays | apply done_stays | apply State.putBit_stays | apply State.withSup_stays | apply Stays.ite | apply StaysX.next | apply StaysX.ite | apply StaysP.ite | split | dsimp only [StaysP])

theorem execTbaseCapture_stays {z s : State} (h : Stays z s)  :
  StaysX z (execTbaseCapture s) := by
  unfold execTbaseCapture
  repeat' with_reducible (first | assumption | apply State.captureDtb_stays | apply done_stays | apply Stays.ite | apply StaysX.next | apply StaysX.ite | split | dsimp only)

theorem execTbaseNowRead_stays {z s : State} (h : Stays z s) (i : Ini) :
  StaysX z (execTbaseNowRead i s) := by
  unfold execTbaseNowRead
  repeat' with_reducible (first | assumption | apply done_stays | apply State.regReadCmd_stays | apply Stays.ite | apply StaysX.next | apply StaysX.ite)

theorem execTbaseRtcRead_stays {z s : State} (h : Stays z s) (i : Ini) :
  StaysX z (execTbaseRtcRead i s) := by
  unfold execTbaseRtcRead
  repeat' with_reducible (first | assumption | apply done_stays | apply State.regReadCmd_stays | apply Stays.ite | apply StaysX.next | apply StaysX.ite)

theorem execAlarmCommit_stays {z s : State} (h : Stays z s) (i : Ini) (n : Fin 8) (v : W32) :
  StaysX z (execAlarmCommit i n v s) := by
  unfold execAlarmCommit
  repeat' with_reducible (first | assumption | apply done_stays | apply State.regWrite_stays | apply Stays.ite | apply StaysX.next | apply StaysX.ite)

theorem execAlarmFire_stays {z s : State} (h : Stays z s) (n : Fin 8) :
  StaysX z (execAlarmFire n s) := by
  unfold execAlarmFire
  repeat' with_reducible (first | assumption | apply done_stays | apply State.fireAlarm_stays | apply Stays.ite | apply StaysX.next | apply StaysX.ite)

theorem State.ckptRun_stays {z s : State} (h : Stays z s) (k : Nat) (cls : Nat) (src : Nat) (dst : Nat) (left : Nat) (mirror : Option Nat) (x8 : Nat) :
  StaysP z (State.ckptRun s k cls src dst left mirror x8) := by
  induction x8 generalizing s k cls src dst left mirror with
  | zero =>
    unfold State.ckptRun
    repeat' with_reducible (first | intro _ | assumption | apply ih | apply State.qWrite_stays | apply State.qRead_stays | apply Stays.ite | apply StaysP.ite | split | dsimp only [StaysP])
  | succ n ih =>
    unfold State.ckptRun
    repeat' with_reducible (first | intro _ | assumption | apply ih | apply State.qWrite_stays | apply State.qRead_stays | apply Stays.ite | apply StaysP.ite | split | dsimp only [StaysP])

theorem State.entCkptRun_stays {z s : State} (h : Stays z s) (k : Nat) (w : List W32) :
  Stays z (State.entCkptRun s k w) := by
  unfold State.entCkptRun
  repeat' with_reducible (first | intro _ | assumption | apply State.ckptRun_stays | apply State.copyEnd_stays | apply Stays.ite | apply StaysP.ite | split | dsimp only [StaysP])

theorem execEntCkpt_stays {z s : State} (h : Stays z s) (g : Fin 32) (q : Fin 4) :
  StaysX z (execEntCkpt g q s) := by
  unfold execEntCkpt
  repeat' with_reducible (first | intro _ | assumption | apply State.entCkptRun_stays | apply State.entStart_stays | apply State.qTake_stays | apply done_stays | apply Stays.ite | apply StaysX.next | apply StaysX.ite | split | dsimp only)

theorem execTrackerOpen_stays {z s : State} (h : Stays z s) (i : Ini) (n : Fin 4) :
  StaysX z (execTrackerOpen i n s) := by
  unfold execTrackerOpen
  repeat' with_reducible (first | assumption | apply done_stays | apply State.regWrite_stays | apply Stays.ite | apply StaysX.next | apply StaysX.ite)

theorem execTrackerAbort_stays {z s : State} (h : Stays z s) (i : Ini) (n : Fin 4) :
  StaysX z (execTrackerAbort i n s) := by
  unfold execTrackerAbort
  repeat' with_reducible (first | assumption | apply done_stays | apply State.regWrite_stays | apply Stays.ite | apply StaysX.next | apply StaysX.ite)

theorem execSealWriteAck_stays {z s : State} (h : Stays z s) (n : Fin 4) :
  StaysX z (execSealWriteAck n s) := by
  unfold execSealWriteAck
  repeat' with_reducible (first | assumption | apply done_stays | apply State.localSealed_stays | apply State.mirrorSealed_stays | apply State.withResp_stays | apply Stays.ite | apply StaysX.next | apply StaysX.ite | dsimp only | split)

theorem State.pipeStart_stays {z s : State} (h : Stays z s) (k : Nat) (w : List W32) :
  Stays z (State.pipeStart s k w) := by
  unfold State.pipeStart
  repeat' with_reducible (first | intro _ | assumption | apply State.qFin_stays | apply State.qFetch_stays | apply State.qStop_stays | apply State.onQueue_stays | apply State.pipeShow_stays | apply State.setQState_stays | apply State.setPipe_stays | apply State.wr_stays | apply Stays.ite | apply StaysP.ite | split | dsimp only [StaysP])

theorem execEntPipe_stays {z s : State} (h : Stays z s) (g : Fin 32) (q : Fin 4) :
  StaysX z (execEntPipe g q s) := by
  unfold execEntPipe
  repeat' with_reducible (first | intro _ | assumption | apply State.pipeStart_stays | apply State.entStart_stays | apply State.qTake_stays | apply done_stays | apply Stays.ite | apply StaysX.next | apply StaysX.ite | split | dsimp only)

theorem State.pipeSubmit_stays {z s : State} (h : Stays z s) (p : Pipe) (base : Word) (stride : Nat) (i : Nat) :
  Stays z (State.pipeSubmit s p base stride i) := by
  unfold State.pipeSubmit
  repeat' with_reducible (first | assumption | apply State.pipeShow_stays | apply State.onQueue_stays | apply State.setPipe_stays | apply Stays.ite)

theorem execPipeFwdSubmit_stays {z s : State} (h : Stays z s) (g : Fin 32) :
  StaysX z (execPipeFwdSubmit g s) := by
  unfold execPipeFwdSubmit
  repeat' with_reducible (first | assumption | apply done_stays | apply State.pipeSubmit_stays | apply Stays.ite | apply StaysX.next | apply StaysX.ite | dsimp only | split)

theorem State.pipeXfer_stays {z s : State} (h : Stays z s) (p : Pipe) (prefetch : Bool) :
  Stays z (State.pipeXfer s p prefetch) := by
  unfold State.pipeXfer
  repeat' with_reducible (first | intro _ | assumption | apply State.copyRun_stays | apply State.pipeShow_stays | apply State.setPipe_stays | apply Stays.ite | apply StaysP.ite | split | dsimp only [StaysP])

theorem execPipeOffloadStart_stays {z s : State} (h : Stays z s) (g : Fin 32) :
  StaysX z (execPipeOffloadStart g s) := by
  unfold execPipeOffloadStart
  repeat' with_reducible (first | assumption | apply State.pipeXfer_stays | apply done_stays | apply Stays.ite | apply StaysX.next | apply StaysX.ite | split | dsimp only)

theorem execPipePrefetchStart_stays {z s : State} (h : Stays z s) (g : Fin 32) :
  StaysX z (execPipePrefetchStart g s) := by
  unfold execPipePrefetchStart
  repeat' with_reducible (first | assumption | apply State.pipeXfer_stays | apply done_stays | apply Stays.ite | apply StaysX.next | apply StaysX.ite | split | dsimp only)

theorem execPipeTransferDone_stays {z s : State} (h : Stays z s) (g : Fin 32) :
  StaysX z (execPipeTransferDone g s) := by
  unfold execPipeTransferDone
  repeat' with_reducible (first | assumption | apply State.qStop_stays | apply State.pipeShow_stays | apply done_stays | apply State.setPipe_stays | apply Stays.ite | apply StaysX.next | apply StaysX.ite | split | dsimp only)

theorem execPipePhaseEnd_stays {z s : State} (h : Stays z s) (g : Fin 32) :
  StaysX z (execPipePhaseEnd g s) := by
  unfold execPipePhaseEnd
  repeat' with_reducible (first | assumption | apply done_stays | apply State.addCounter_stays | apply State.countSig_stays | apply State.event_stays | apply State.pipeShow_stays | apply State.setPipe_stays | apply Stays.ite | apply StaysX.next | apply StaysX.ite | dsimp only | split)

theorem execPipeBwdSubmit_stays {z s : State} (h : Stays z s) (g : Fin 32) :
  StaysX z (execPipeBwdSubmit g s) := by
  unfold execPipeBwdSubmit
  repeat' with_reducible (first | assumption | apply done_stays | apply State.pipeSubmit_stays | apply Stays.ite | apply StaysX.next | apply StaysX.ite | dsimp only | split)

theorem execPipeComplete_stays {z s : State} (h : Stays z s) (g : Fin 32) :
  StaysX z (execPipeComplete g s) := by
  unfold execPipeComplete
  repeat' with_reducible (first | assumption | apply done_stays | apply State.pipeShow_stays | apply State.setPipe_stays | apply State.qCur_stays | apply State.setQState_stays | apply State.onQueue_stays | apply Stays.ite | apply StaysX.next | apply StaysX.ite | dsimp only | split)

theorem State.pipeTick_stays {z s : State} (h : Stays z s)  :
  Stays z (State.pipeTick s) := by
  unfold State.pipeTick
  repeat' with_reducible (first | intro _ | assumption | apply State.each_stays | apply State.advSat_stays | apply Stays.ite | dsimp only | split | apply foldl_stays)

theorem State.cellTick_stays {z s : State} (h : Stays z s) (x : Nat) (counted : Bool) (tracks : Nat) (n : Nat) :
  Stays z (State.cellTick s x counted tracks n) := by
  unfold State.cellTick
  repeat' with_reducible (first | assumption | apply State.setRgn_stays | apply State.drawn_stays | apply Stays.ite | split | dsimp only)

theorem State.sliceTick_stays {z s : State} (h : Stays z s) (x : Nat) (i : Nat) :
  Stays z (State.sliceTick s x i) := by
  unfold State.sliceTick
  repeat' with_reducible (first | assumption | apply State.setRgn_stays | apply State.drawn_stays | apply Stays.ite | split | dsimp only)

theorem State.pinTick_stays {z s : State} (h : Stays z s) (x : Nat) :
  Stays z (State.pinTick s x) := by
  unfold State.pinTick
  repeat' with_reducible (first | assumption | apply State.setRgn_stays | apply State.drawn_stays | apply Stays.ite | split | dsimp only)

theorem State.chanTick_stays {z s : State} (h : Stays z s) (x : Nat) (p : Nat) :
  Stays z (State.chanTick s x p) := by
  unfold State.chanTick
  repeat' with_reducible (first | assumption | apply State.setRgn_stays | apply State.drawn_stays | apply Stays.ite | split | dsimp only)

theorem State.rgnTick_stays {z s : State} (h : Stays z s) (x : Nat) (counted : Bool) :
  Stays z (State.rgnTick s x counted) := by
  unfold State.rgnTick
  repeat' with_reducible (first | intro _ | assumption | apply State.chanTick_stays | apply State.pinTick_stays | apply State.sliceTick_stays | apply State.cellTick_stays | apply State.drawn_stays | apply State.each_stays | apply Stays.ite | split | dsimp only)

theorem State.fabTick_stays {z s : State} (h : Stays z s) (was : State) :
  Stays z (State.fabTick s was) := by
  unfold State.fabTick
  repeat' with_reducible (first | intro _ | assumption | apply State.rgnTick_stays | apply State.each_stays | apply Stays.ite | apply StaysP.ite | split | dsimp only [StaysP])

theorem State.idle_stays {z s : State} (h : Stays z s)  :
  Stays z (State.idle s) := by
  unfold State.idle
  repeat' with_reducible (first | assumption | apply State.fabTick_stays | apply State.pipeTick_stays | apply State.cenTick_stays | apply State.lacePump_stays | apply State.wdogHold_stays | apply State.autumnDone_stays | apply State.nocTick_stays | apply State.tick_stays | apply Stays.ite | split | dsimp only)

end Sys2Proof.Machine
end

