-- ==== Sys2Proof/Tests/Slice0.lean ====
section
/-! SUPPORT. Tests/Slice0.lean: for every statement with hypotheses concrete states and operands that meet them (hyp_<statement>), ill-formed operands that the check refuses
(wf_…), and single steps whose results the manual gives (test_…). -/
namespace Sys2Proof.Tests
open Sys2Proof Sys2Proof.Machine
set_option Elab.async false

/-! ### Small states -/

def heel : Ini := .core .heel true
def a0 : Ini := .core (.sole 0) true
def dbg : Ini := .debug
def kp (d : Fin 4) : Ini := .core (.keeper d) true

/-- s with register values. -/
def put (s : State) (l : List (Nat × W32)) : State := l.foldl (fun s p => s.wr p.1 p.2) s
/-- The reset state with register values. -/
def S (l : List (Nat × W32)) : State := put State.reset l
/-- s with another supply record. -/
def supOf (f : Supply → Supply) (s : State) : State := { s with sup := f s.sup }
def tbOf (f : TimeBase → TimeBase) (s : State) : State := { s with tb := f s.tb }
/-- A package in Summer with every die LIVE. -/
def summer : State :=
  supOf (fun x => { x with railIn := (List.range 20).map (fun k => (8 + k, true)) }) (S [(R.PWR_STATE, BitVec.ofNat 32 psSummer), (R.LIVE_DIE_STATE, 0x333333), (R.PWR_EN, 0xFF)])
/-- The state that a command answers. -/
def after (i : Instr) (s : State) : State := match exec i s with
  | .next t => t
  | _ => s

/-- A reset request armed in Summer. -/
def armed : State := supOf (fun x => { x with rstArm := some 0 }) summer
/-- Alarm 7 signals counter 0 of die 0. -/
def counters : State := put summer [(R.TBASE_ALM_SIG 7, 0x8000)]
/-- The Heel core with a vector base. -/
def vectored : State := State.reset.setCore .heel { State.reset.core .heel with sys := [(srVbaseLo, 0x1000)] }

/-- A package in Autumn, its dies OFF. -/
def autumn : State := S [(R.PWR_STATE, BitVec.ofNat 32 psAutumn), (R.LIVE_DIE_STATE, 0x111111)]

/-- A signed image of kind 1: LEN 4, HI 1; the key and the signature made by hand outside Lean. -/
def heelImg : List Byte :=
  leBytes 32 0x4000000000000000000000001000100014e58494d ++ List.replicate 48 0 ++
    beBytes 48 0x5a667d62430a8c253ebae433333904dc6e1d41dcdc479704773159b905a3ad82d2bad7762d81a366cc46fbb2e2327f5c ++
    beBytes 48 0xd8a17e55b8e2f47bc369fd9616695ce273dce4e307830a65f5a4a9aa8967c987aeea7ad365677a13bfd65c3fe5a66939 ++
    beBytes 48 0xbdc53542c5213a51345dba8220abb23c71659a4d850b3bbaff8d035bd08a59eb32099c96a9049e4d7d435cf675713bc8 ++
    beBytes 48 0x79591ff64cbebe24882724a57aaf21494e6ecb1e5d24ee1143532cb543bc78edc010523f98fdef210d717a8cc6a9a7bc ++
    beBytes 48 0x317960ba0ea4beb081dad3b5334445387b78314a2c0df1e31ca62271e17f356358b1f357f745f693215c50b07a2f6663 ++
    List.replicate 192 0 ++ leBytes 4 0x4030201

/-- A signed image of kind 2: LEN 4, HI 1, DI 1, LOAD 0x0100_0000; the key and the signature made by hand outside Lean. -/
def soleImg : List Byte :=
  leBytes 32 0x100000000000004000000000000000000010001000200014e58494d ++ List.replicate 48 0 ++
    beBytes 48 0x11a736b2d44cfef966bd4f1fd7ea249f4e54c736895979d053fc28d667bba6fafbc2b5d96f78b283e48e7b0f0faa9b16 ++
    beBytes 48 0xd8a17e55b8e2f47bc369fd9616695ce273dce4e307830a65f5a4a9aa8967c987aeea7ad365677a13bfd65c3fe5a66939 ++
    beBytes 48 0xbdc53542c5213a51345dba8220abb23c71659a4d850b3bbaff8d035bd08a59eb32099c96a9049e4d7d435cf675713bc8 ++
    beBytes 48 0x49c2212d3381e2790fad2a35fbe88f9c6fe8b801aba4f46402c0ccdb1215312f3d129a355444cec115a4fa651f1e7dfb ++
    beBytes 48 0x31d0f9eaeee59cbc36d981d0283b901d9c01c57dd04153989ba913b3c651bc82fa753a2c6741ab5b942b7509302ecd5e ++
    List.replicate 192 0 ++ leBytes 4 0x8070605

/-- Memory cells that hold bytes from an address on. -/
def cellsAt : Nat → List Byte → List Host.Cell
  | _, [] => []
  | a, b :: l => (a, b) :: cellsAt (a + 1) l

/-- Bytes lie from an address on, and both boot ROMs run. -/
def bootable (a : Nat) (l : List Byte) : State :=
  { State.reset with mem := cellsAt a l, boot := { State.reset.boot with heelRom := true, soleRom := true } }

def bootOf (f : Boot → Boot) (s : State) : State := s.withBoot (f s.boot)
/-- Some image. -/
def img1 : Img := ⟨0, 3, 1, 1, 1, 0, 4, 0, 0⟩

/-- The image store is unlocked. -/
def storable : State := S [(R.BOOT_ST_CTL, 1)]
/-- A word waits at the Heel's command port. -/
def heard (w : W32) : State := bootOf (fun x => { x with tx := [w] }) (put State.reset [(R.PWR_WINTER_CFG, 5)])
/-- A0 runs at the first word of Sole SRAM, with v in g5, w in g6 and f of its other state. -/
def coreAt (c : CoreId) (f : Core → Core) (s : State) : State := s.setCore c (f (s.core c))
def onA0 (f : Core → Core) (s : State) : State := coreAt (.sole 0) (fun x => f { x with pc := 0x01000000 }) s
/-- A0 has a vector base. -/
def vecA0 (f : Core → Core) (s : State) : State := onA0 (fun x => f { x with sys := tabPut sysReset srVbaseLo 0x01000200 x.sys }) s
/-- SOFT is pending at A0, enabled at priority 15, and A0 has a vector base. -/
def interrupted (f : Core → Core) : State :=
  onA0 (fun x => f { x with soft := true, sys := [(1, 3), (srVbaseLo, 0x01000200), (srIrqEn, 2), (0x012, 0xF0)] }) summer
/-- Region 0 of A0's guard covers Sole SRAM; the guard is not enabled. -/
def guarded : State :=
  put summer [(R.GRD_BASE_LO (grdTable 0) 0 0, 0x01000000), (R.GRD_LIMIT_LO (grdTable 0) 0 0, 0x01FFFFFF), (R.GRD_PERM (grdTable 0) 0 0, 0x7F)]
/-- A0 runs at the user level; region 0 of its guard allows every access to Sole SRAM. -/
def userA0 (f : Core → Core) : State :=
  onA0 (fun x => f { x with sys := [(1, 0), (srVbaseLo, 0x01000200)] })
    (put guarded [(R.GRD_CTL (grdBase 0), 1)])
/-- Host memory is being filled. -/
def filling : State := S [(R.GRD_HMEM_STAT, fput (fput 0 F.GRD_HMEM_STAT.FILLING 1) F.GRD_HMEM_STAT.DENSITY 1)]
/-- The words as bytes. -/
def wordBytes (w : List W32) : List Byte := w.flatMap (fun x => leBytes 4 x.toNat)
/-- Queue q of engine g runs a list at 0x0100_0100, whose first entry is w, padded with zero words. -/
def queued (g : Fin 32) (q : Fin 4) (w : List W32) (s : State) : State :=
  ((s.putBytes 0x01000140 (wordBytes w)).setQState (qKey g q) 2).onQueue (qKey g q)
    (fun x => { x with list := some ⟨0x01000100, 0, none, 2, false⟩ })
/-- The entry that comes next in queue k. -/
def entryOf (s : State) (k : Nat) : List W32 := match (s.entryFetch k).2 with
  | some (.inl w) => w
  | _ => []
theorem comes_of {s : State} {k : Nat} {w : List W32} (h : s.entryDue k = true) (hw : entryOf s k = w) (hn : w ≠ []) : s.comes k w := by
  unfold entryOf at hw
  refine ⟨h, ?_⟩
  split at hw
  · rename_i b hb
    exact hw ▸ hb
  · exact absurd hw.symm hn
/-- Sixteen words that begin with those of l. -/
def pad16 (l : List W32) : List W32 := l ++ List.replicate (16 - l.length) 0
/-- What an entry's form asks beside the clause's own condition. -/
def entryOk (g : Fin 32) (q : Fin 4) (op : Nat) (used : List Nat) (l : List W32) (s : State) : Bool :=
  let t := queued g q (pad16 l) s
  t.entryDue (qKey g q) && entryOf t (qKey g q) == pad16 l && opIs op (pad16 l) && entryReserved (pad16 l) used && (t.begun (qKey g q) (pad16 l)).doneOk (pad16 l)
/-- The state once entry l of queue 0 of engine 0 has been fetched in Summer. -/
def begunIn (l : List W32) (s : State) : State := (queued 0 0 (pad16 l) s).begun 0 (pad16 l)
/-- COPY of four bytes from 0x0100_0140, the entry itself, to 0x0100_0200. -/
def copyEnt : List W32 := [0x10, 0, 0, 0x01000140, 0, 0x01000200, 0, 4]
/-- Remote window 0 leads to package 5. -/
def windowed (s : State) : State := put s [(R.LACE_WIN_HI 0, fput 0x80000000 F.LACE_WIN_HI.PKG 5)]
/-- COPY of four bytes from that window, and one of eight bytes of which four are done. -/
def farEnt : List W32 := [0x10, 0, 0, 0, 0xF000, 0x01000200, 0, 4]
def copyEnt8 : List W32 := [0x10, 0, 0, 0x01000140, 0, 0x01000200, 0, 8]
/-- A MATMUL of one by one by k, integers, output-stationary, on quarter 0, ports SA 0, SB 1, SC 2, SO 3. -/
def matmulEnt (k : W32) : List W32 := [0x30, 0, 0, 0x00010001, k, 0x00011600, 0x3210]
def convEnt : List W32 := [0x31, 0, 0, 0x00010001, 0x00010001, 0x00011600, 0x3210, 0x11110101, 0, 0x00010001]
/-- A DECODE of up to one request, N and K of one. -/
def decodeEnt : List W32 := [0x32, 0, 0, 0x00010001, 0x00000001, 0x00011600, 0x3210]
/-- Entry w of queue 0 of engine 0 runs in Summer, with m of its matrix state. -/
def matRuns (w : List W32) (m : Mat) (s : State) : State := (s.onQueue 0 (fun x => { x with entry := some (pad16 w) })).setMat 0 (some m)
def ready1 : Mat := { Mat.init with la := List.replicate 256 0, lb := List.replicate 1024 0 }
/-- The decode ring of engine 0 has two places, at 0x0100_0400, and one request. -/
def ringed : State :=
  let s := put summer [(R.CUBE_DQ_CFG 0 0, 1), (R.CUBE_DQ_BASE_LO 0 0, 0x01000400), (R.CUBE_DQ_PTR 0 0, 0x00010000)]
  s.withEng { s.eng with stamps := [(0, [0])] }
/-- Stream unit 0 of engine 0 runs a program that stands at 0x0100_0800, with instruction words w and v there and f of its state. -/
def strAtOp (w v : W32) (f : Stream → Stream) (s : State) : State :=
  (s.putBytes 0x01000800 (wordBytes [w, v])).setStream 0 (f { Stream.init with cur := some ⟨0x01000800, 0, 0⟩, pc := 0x01000800, begun := true })
/-- What strAt asks of that state. -/
def strOk (op : Nat) (w v : W32) (f : Stream → Stream) (s : State) : Bool :=
  let t := strAtOp w v f s
  t.strRuns 0 && decide ((t.stream 0).cur = some ⟨0x01000800, 0, 0⟩) && decide ((t.stream 0).pc.toNat - (0x01000800 : Word).toNat < 8192) && (match (t.strFetch 0 ⟨0x01000800, 0, 0⟩).2 with
    | some (.inl b) => wd (leWords (b.drop ((t.stream 0).pc.toNat % 64))) 0 == w && wd (leWords (b.drop ((t.stream 0).pc.toNat % 64))) 1 == v
    | _ => false) && w.toNat % 256 == op && (t.stream 0).begun == (op != 1) && w &&& ~~~(strFields op).1 == 0 && v &&& ~~~(strFields op).2 == 0
def strIn (w v : W32) (f : Stream → Stream) (s : State) : State := (strAtOp w v f s).strFetched 0
theorem strAt_of {op : Nat} {w v : W32} {f : Stream → Stream} {s : State} (h : strOk op w v f s = true) : (strAtOp w v f s).strAt 0 op w v := by
  simp only [strOk, Bool.and_eq_true, decide_eq_true_eq, beq_iff_eq] at h
  obtain ⟨⟨⟨⟨⟨⟨⟨h1, h2⟩, hp⟩, h3⟩, h4⟩, h5⟩, h6⟩, h7⟩ := h
  refine ⟨h1, ?_, h4, h5, h6, h7⟩
  split at h3
  · rename_i b hb
    simp only [Bool.and_eq_true, beq_iff_eq] at h3
    exact ⟨_, b, h2, hp, hb, h3.1, h3.2⟩
  · simp at h3
/-- A PIPE of two micro-batches and two slots of a line; PHSIG as given. -/
def pipeDesc (phsig : W32) : List W32 :=
  [0x12025044, phsig, 0x01001000, 0, 0x40, 0x01001100, 0, 0x40, 0x01002000, 0, 64, 0x01003000, 0, 64, 0x8000, 1]
/-- That PIPE runs on queue 0 of engine 0, with f of its state. -/
def piped (phsig : W32) (f : Pipe → Pipe) : State :=
  (summer.setQState 0 2).setPipe 0 (some (f ⟨0, ⟨0x01000100, 0, none, 2, false⟩, 0, pad16 [0x50], pipeDesc phsig, 1, 0, 0, 0, 0, 0, 0, none, none, false, 0⟩))
/-- Tracker 0 is open for checkpoint 7. -/
def tracked : State := put summer [(R.TRN_CK_STAT 0, fput 0 F.TRN_CK_STAT.STATE 1), (R.TRN_CK_ID 0, 7), (R.TRN_CK_PIECES 0, fput 0 F.TRN_CK_PIECES.PIECES 2)]
def ckptEnt : List W32 := [0x11, 0, 0, 0x01000140, 0, 0x01000200, 0, 4, 0, 0, 7]
/-- A fabric load of one frame, whose one function is number 5, with MAXTIME 10. -/
def fabBody : List Byte :=
  leBytes 8 0x0000000146414252 ++ List.replicate 28 0 ++ [1] ++ List.replicate 27 0 ++ [5, 0, 10, 0] ++ List.replicate 188 0 ++ List.replicate 72 0
def fab1 : FabReg := ⟨0x01001000, { img1 with kind := 4, len := 328 }, sha384 fabBody⟩
/-- Load 0 is registered, and lies in Sole SRAM; the keepers have booted images of its fabric epoch. -/
def fabbed : State :=
  bootOf (fun x => { x with fabs := [fab1], die := [(0, some img1)] }) (summer.putBytes 0x01001200 fabBody)
/-- Region 0 of die 0 holds that load, with f of its state. -/
def loadedRgn (f : Rgn → Rgn) (s : State) : State := (s.setRgnState 0 2).setRgn 0 (f { Rgn.init with body := fabBody })
def running0 (w : List W32) (s : State) : State := s.onQueue 0 (fun x => { x with entry := some (pad16 w) })
/-- Link 47 in Summer, with LSTAT.STATE st, further register values and f of its state. -/
def linked (st : Nat) (l : List (Nat × W32)) (f : Link → Link) : State := (put (summer.setLinkSt 47 st) l).setLink 47 (f Link.init)
/-- The same with lanes ACTIVE. -/
def laned (st : Nat) (l : List (Nat × W32)) (f : Link → Link) : State := ((((linked st l f).setLaneSt 47 0 3).setLaneSt 47 1 3).setLaneSt 47 2 3).setLaneSt 47 3 3
/-- Link 47's die DTB is n. -/
def at47 (n : Word) (s : State) : State := tbOf (fun x => { x with copy := [(4, n)] }) s
/-- Link 47 UP with its four lanes ACTIVE and locked. -/
def linkUp (l : List (Nat × W32)) (f : Link → Link) : State := put (laned 2 l (fun x => f { x with part := 15 }))
  ((List.range 4).map (fun i => (lnreg R.LACE_LNSTAT 47 i, fput (fput 0 F.LACE_LNSTAT.STATE 3) F.LACE_LNSTAT.LOCK 1)))
/-- Eight TS2 in a row on each lane. -/
def agreed : Tab (Option TrainSet × Nat) := [(0, (none, 8)), (1, (none, 8)), (2, (none, 8)), (3, (none, 8))]
/-- Each lane's receiver has reached the goal of the phase at DTB 0. -/
def goaled : Tab (Option Word) := [(0, some 0), (1, some 0), (2, some 0), (3, some 0)]
/-- Packet SEQ q of a replay buffer. -/
def waits (q : Nat) : LPkt := ⟨q, 0, 1, 0, 0, .swap⟩
def hdr0 : LHdr := ⟨false, false, 0, 3, 0⟩
def peer47 (pkg rates : Nat) : Nat × W32 := (lreg R.LACE_PEER 47, fput (fput 0 F.LACE_PEER.PKG pkg) F.LACE_PEER.RATES rates)
/-- Stage x in the reset state, with register values, f of its state, and the Heel's DTB n. -/
def staged (x : Nat) (n : Word) (l : List (Nat × W32)) (f : Stage → Stage) : State := tbOf (fun y => { y with copy := [(0, n)], body := n.toNat }) ((S l).onStage x f)
/-- Pattern engine k drives pre-driver P (KIND 1), or HB A and B, as PATCFG says. -/
def patterned (k : Nat) (n : Word) (l : List (Nat × W32)) (p : Option Word) : State := tbOf (fun y => { y with copy := [(0, n)] }) ((S l).setPat k p)
def pwm50 : Drive := ⟨2, 512, 0, 1000⟩
/-- Cyclic sensing runs on input 63, which has moved. -/
def cyclic : State :=
  let s := S [(swReg R.SWI_CYC_LO R.SWI_CYC_HI 63, 0x80000000), (swReg R.SWI_WCHG_LO R.SWI_WCHG_HI 63, 0x80000000)]
  { s with io := { s.io with swi := { s.io.swi with cyclic := true } }, sup := { s.sup with winter := .winter, aon := [(swReg R.SWI_CYC_LO R.SWI_CYC_HI 63, 0x80000000)] } }
/-- Bus controller 7 runs (INIT 0), with register values and f of its state. -/
def onBus (l : List (Nat × W32)) (f : Mbc → Mbc) : State := (put State.reset ((R.MBC_CTL 7, 0) :: l)).setMbc 7 (f Mbc.init)
/-- It has joined the bus. -/
def hasJoined (x : Mbc) : Mbc := { x with joined := true }
/-- Buffer 31's frame is on the bus. -/
def sends31 (x : Mbc) : Mbc := { x with joined := true, tx := some 31, snap := List.replicate 80 0 }
/-- A data frame of identifier n with no data. -/
def frame0 (n : BitVec 29) : CanFrame := ⟨n, false, false, false, false, false, 0, []⟩
def cell31 : CellTx := ⟨31, 0, 0, List.replicate 80 0, 63⟩
/-- The words wait at the Heel's command port. -/
def saying (l : List W32) (s : State) : State := bootOf (fun x => { x with tx := l }) s
/-- The samples of a character, its stop bits recessive. -/
def charSamples (b : Byte) : BitVec 192 := BitVec.ofNat 192 ((List.range 12).foldl (fun x k => if (2 * b.toNat + 0xE00).testBit k then x + 0xFFFF * 2 ^ (16 * k) else x) 0)
/-- LIN controller 7 with LIN_CTL c, register values, f of its state. -/
def onLin7 (c : W32) (l : List (Nat × W32)) (f : Lin → Lin) : State := (put State.reset ((R.LIN_CTL 7, c) :: l)).setLin 7 (f Lin.init)
/-- A frame in a phase. -/
def lframe (ph : LinPhase) (f : LinFrame → LinFrame) (x : Lin) : Lin := { x with frame := some (f (linFrame ph 0 0 80)) }
/-- The angle unit runs in a state at Heel DTB n, with register values, f of its state. -/
def turning (ctl st : W32) (n : Word) (l : List (Nat × W32)) (f : Ang → Ang) : State :=
  tbOf (fun y => { y with copy := [(0, n)] }) ((put State.reset ([(R.ANG_CTL, ctl), (R.ANG_STAT, st)] ++ l)).withAng (f Ang.init))
/-- The last edge came at DTB 0, n teeth after a gap; p is the period before it. -/
def edged (p n : Nat) (x : Ang) : Ang := { x with last := some 0, per := some p, since := n }
/-- The TAP runs an instruction. -/
def tapped (f : Dbg → Dbg) : State := State.reset.withDbg (f { Dbg.init with tlrAt := none })
/-- The debug port selects A0, in Summer. -/
def selected (f : Core → Core) : State := coreAt (.sole 0) f (put summer [(R.DBG_CSEL, 0)])
def dHalted (x : Core) : Core := { x with dhalt := some 1 }
theorem hyp_RegisterWritesFollowTheirAccessCodes :
    ((regRow R.PWR_EN).isSome = true) ∧
    (R.CORE_ENTRY_LO 9 ∈ (List.range 10).map R.CORE_ENTRY_LO ∧ State.reset.takes a0 (R.CORE_ENTRY_LO 9) 5 = true) ∧
    (R.TBASE_ALM_SIG 7 ∈ (List.range 8).map R.TBASE_ALM_SIG ∧ State.reset.takes a0 (R.TBASE_ALM_SIG 7) 5 = true) ∧
    (State.reset.mapped R.PWR_EN = true ∧ State.reset.regionOf R.PWR_EN = some (.heelReg, 0x20000000, 0x200FFFFF) ∧ isRegRegion .heelReg R.PWR_EN = true ∧ R.PWR_EN + 8 - 1 ≤ 0x200FFFFF ∧ (vectored.core .heel).vectors = true ∧ vectored.mapped R.PWR_EN = true) := by decide +kernel

theorem hyp_ReferenceAndSyncEventsAct :
    (State.reset.sup.heelHeld = false ∧ State.reset.tb.refclk = true ∧ State.reset.tb.lprc = none ∧ State.reset.tb.quiet = none) ∧
    (let s (q : Nat) := tbOf (fun x => { x with quiet := some q }) State.reset; (s 400000).tb.lprc = none ∧ (s 400000).tb.quiet = some 400000 ∧ (s 399999).tb.quiet = some 399999) ∧
    ((State.reset.withTb { State.reset.tb with refclk := true }).takes a0 R.TBASE_STATUS 8 = true ∧ (State.reset.withTb { State.reset.tb with xtal := false }).takes a0 R.TBASE_STATUS 16 = true) ∧
    ((tbOf (fun x => { x with master := 5 }) State.reset).copy 0 ≠ 5 ∧ State.reset.fld R.TBASE_SYNC_HEEL F.TBASE_SYNC_HEEL.HEEL < 255) := by decide +kernel

theorem hyp_TimeBaseLoadsReadsAndAlarms_a :
    ((S [(R.TBASE_STATUS, 0)]).sup.heelHeld = false ∧ (S [(R.TBASE_STATUS, 0)]).tb.ticking = true ∧ (S [(R.TBASE_STATUS, 0)]).bit R.TBASE_STATUS 0 = false) ∧
    (State.reset.tb.rtc.toNat % 32768 = 0 ∧ State.reset.sup.heelHeld = false ∧ State.reset.collecting = false ∧ (S [(R.TBASE_STATUS, 1)]).bit R.TBASE_STATUS 0 = true) ∧
    (State.reset.gives heel R.TBASE_NOW_LO = true ∧ State.reset.gives a0 R.TBASE_NOW_LO = true) ∧
    (State.reset.gives a0 R.TBASE_RTC_LO = true) := by decide +kernel

theorem hyp_TimeBaseLoadsReadsAndAlarms_b :
    (State.reset.takes a0 (R.TBASE_ALM_HI 7) 1 = true ∧ (S [(R.TBASE_ALM_CFG 7, 1)]).takes a0 (R.TBASE_ALM_HI 7) 0 = true ∧ (S [(R.TBASE_ALM_CFG 7, 1)]).bit (R.TBASE_ALM_CFG 7) 0 = true) ∧
    ((tbOf (fun x => { x with master := 5, almCmp := [(7, 5)] }) (S [(R.TBASE_ALM_CFG 7, 13), (R.TBASE_ALM_PEND, 0x80)])).alarmDue 7 = true) ∧
    ((counters.handle (counters.rd (R.TBASE_ALM_SIG 7)) true = .counter (R.ENG_CNT (cntBase 8) 0)) ) := by decide +kernel

theorem hyp_SupplyEventsAndResetsAct_a :
    (State.reset.railIn (railKey .vcc5) = true ∧ State.reset.railIn (railKey .vddHeel) = true ∧ State.reset.railIn (railKey .vio18) = true ∧ State.reset.railIn (railKey .vddqLp) = true ∧ State.reset.sup.winter = .none) ∧
    (summer.railIn (railKey (.vddC 3)) = true ∧ summer.railIn (railKey (.vlaceC 0)) = true ∧ summer.railIn (railKey (.viofC 0)) = true ∧ summer.enPin 3 = true ∧ summer.power = psSummer ∧ summer.sup.winter = .none) ∧
    ((supOf (fun x => { x with aonHeld := true }) State.reset).sup.aonHeld = true) := by decide +kernel

theorem hyp_SupplyEventsAndResetsAct_b :
    (State.reset.sup.brownout = false ∧ State.reset.sup.winter ≠ .winter) ∧
    ((supOf (fun x => { x with brownout := true, winter := .winter, woken := true }) State.reset).sup.woken = true) ∧
    (State.reset.takes a0 R.PWR_RST_REQ 0xA5A5 = true) ∧
    (armed.takes a0 R.PWR_RST_REQ 0x5A5A0001 = true ∧ armed.inArm armed.sup.rstArm = true ∧ armed.sup.winter = .none) ∧
    (armed.takes a0 R.PWR_RST_REQ 0x5A5A0002 = true) ∧
    (armed.takes a0 R.PWR_RST_REQ (BitVec.ofNat 32 (0x5A5A0008 + 3)) = true ∧ 3 < variantDies armed.variant ∧ armed.diePowered 3 = true) := by decide +kernel

theorem hyp_WatchdogsReleasesAndPmbusAct_a :
    ((tbOf (fun x => { x with master := 100000000000, copy := [(0, 100000000000)] }) (S [(R.PWR_WDOG_CFG 0, 1), (R.PWR_WDOG_CFG 1, 1)])).wdogDue 0 = true) ∧
    ((tbOf (fun x => { x with master := 100000000000, copy := [(0, 100000000000)] }) (S [(R.PWR_WDOG_CFG 0, 1), (R.PWR_WDOG_CFG 1, 1)])).wdogDue 1 = true) ∧
    (State.reset.takes heel (R.PWR_WDOG_KICK 0) 0xA55A = true ∧ State.reset.takes a0 (R.PWR_WDOG_KICK 1) 0xA55A = true) ∧
    ((S [(R.PWR_WDOG_CFG 0, 1)]).takes heel (R.PWR_WDOG_KICK 0) 7 = true ∧ (S [(R.PWR_WDOG_CFG 0, 1)]).bit (R.PWR_WDOG_CFG 0) 0 = true) ∧
    (State.reset.takes heel (R.PWR_WDOG_CFG 0) 1 = true ∧ State.reset.takes a0 (R.PWR_WDOG_CFG 1) 1 = true) ∧
    ((supOf (fun x => { x with heelHeld := true, soleHeld := true }) State.reset).sup.aonHeld = false ∧ State.reset.sup.brownout = false) := by decide +kernel

theorem hyp_WatchdogsReleasesAndPmbusAct_b :
    ((supOf (fun x => { x with heelHeld := true, fullModeIn := true }) State.reset).heelRails = true ∧ State.reset.sup.fullModeIn = true ∧ State.reset.sup.checking = false) ∧
    ((supOf (fun x => { x with soleHeld := true }) (S [(R.TBASE_STATUS, 1)])).soleRails = true ∧ (supOf (fun x => { x with soleHeld := true }) (S [(R.TBASE_STATUS, 1)])).bit R.TBASE_STATUS 0 = true) ∧
    (State.reset.takes a0 R.PWR_PMB_CMD 0x80000000 = true) ∧
    ((S [(R.PWR_PMB_STAT, 1), (R.PWR_PMB_CFG, 8)]).bit R.PWR_PMB_STAT 0 = true ∧ (S [(R.PWR_PMB_STAT, 1), (R.PWR_PMB_CFG, 8)]).bit R.PWR_PMB_CFG 3 = true) ∧
    ((supOf (fun x => { x with pmbCmd := 0x280 }) State.reset).sup.pmbCmd.getLsbD 7 = true) := by decide +kernel

theorem hyp_SeasonRequestsAndDieStartsAct_a :
    (summer.takes a0 R.PWR_REQ 1 = true ∧ summer.power = psSummer) ∧
    (autumn.takes a0 R.PWR_REQ 1 = true ∧ autumn.power = psAutumn) ∧
    (autumn.takes a0 R.PWR_REQ 2 = true ∧ autumn.sup.winter = .none ∧ 5 ∈ autumn.presentDies ∧ autumn.anyState 5 ≠ 5) ∧
    (let s := supOf (fun x => { x with dieRst := [5] }) summer; 5 ∈ s.presentDies ∧ 5 ∈ s.sup.dieRst ∧ s.dieRails 5 = true ∧ s.enPin 5 = true) := by decide +kernel

theorem hyp_SeasonRequestsAndDieStartsAct_b :
    (let s := tbOf (fun x => { x with loaded := [(4, true)] }) (supOf (fun x => { x with scrub := [3, 4] }) summer); 3 ∈ s.sup.scrub ∧ tabGet boolFalse s.tb.loaded (1 + 3) = true ∧ 4 ∈ s.sup.scrub ∧ 4 ∈ s.presentDies) ∧
    (let s := bootOf (fun x => { x with dieRom := [3] }) summer; 3 ∈ s.boot.dieRom ∧ 3 < variantDies s.variant ∧ s.boot.stagedDie = none) ∧
    (let s := bootOf (fun x => { x with dieRom := [3], stagedDie := some img1, stagedBody := [0, 0, 0, 0], sole := some img1 }) (summer.putBytes 0x01E00000 [0, 0, 0, 0]); s.boot.stagedDie = some img1 ∧ s.bytes 0x01E00000 img1.len.toNat = s.boot.stagedBody ∧ s.boot.sole = some img1) ∧
    (let s := bootOf (fun x => { x with dieRom := [3], stagedDie := some { img1 with di := 2 }, stagedBody := [0, 0, 0, 0], sole := some img1 }) (summer.putBytes 0x01E00000 [0, 0, 0, 0]); s.bytes 0x01E00000 4 = s.boot.stagedBody ∧ img1.di ≠ 2) := by decide +kernel

theorem hyp_SeasonRequestsAndDieStartsAct_c :
    (let s := supOf (fun x => { x with hot := [3] }) summer; s.diePowered 3 = true ∧ 135 < ([0, 0, 0, 136, 0, 0, 0, 0] : List Int).getD 3 0 ∧ 3 ∈ s.sup.hot ∧ s.power = psSummer) ∧
    (let s := put summer [(R.PWR_GATE_ENG, 0x80000000)]; s.bit R.PWR_GATE_ENG 31 = true ∧ s.diePowered 3 = true ∧ s.engineIdle 31 = true) := by decide +kernel

theorem hyp_WinterEntryAndThawAct_a :
    (summer.takes a0 R.PWR_WINTER_REQ 0xC3C3 = true) ∧
    (let s := supOf (fun x => { x with winArm := some 0 }) summer; s.takes a0 R.PWR_WINTER_REQ 0x3C3C0003 = true ∧ s.inArm s.sup.winArm = true ∧ s.boot.swap = none ∧ s.sup.winter = .none ∧ s.wakePending = false ∧
    (put s [(R.PWR_WINTER_CFG, 0)]).fld R.PWR_WINTER_CFG F.PWR_WINTER_CFG.GRACE = 0 ∧ (put s [(R.PWR_WINTER_CFG, 0)]).takes a0 R.PWR_WINTER_REQ 0x3C3C0003 = true) ∧
    (let s := put (supOf (fun x => { x with winArm := some 0 }) autumn) [(R.WAKE_PEND, 0x2000), (R.WAKE_EN, 0x2000), (R.PWR_WINTER_CFG, 5)]; s.takes a0 R.PWR_WINTER_REQ 0x3C3C0003 = true ∧ s.wakePending = true ∧ s.fld R.PWR_WINTER_CFG F.PWR_WINTER_CFG.GRACE ≠ 0) := by decide +kernel

theorem hyp_WinterEntryAndThawAct_b :
    (let s := supOf (fun x => { x with winter := .grace }) summer; s.takes heel R.PWR_HEEL_ACK 0 = true ∧ iniHeelCore heel = true ∧ s.wakePending = false ∧ (summer.copy 0).toNat < (supOf (fun x => { x with grace := 1 }) s).sup.grace.toNat ∧ s.sup.grace.toNat ≤ (s.copy 0).toNat) ∧
    (let s := put (supOf (fun x => { x with winter := .grace }) summer) [(R.WAKE_PEND, 0x2000), (R.WAKE_EN, 0x2000)]; s.takes heel R.PWR_HEEL_ACK 0 = true ∧ s.wakePending = true) ∧
    ((supOf (fun x => { x with winter := .saved, woken := true }) summer).sup.brownout = false ∧ (saveList ≠ [])) ∧
    (let s := supOf (fun x => { x with checking := true }) (State.reset.putBytes 0x28000000 (leBytes 4 insSignature.toNat)); ((s.withSup { s.sup with checking := false }).insoleCorrect).insoleGood = true) ∧
    (let s := supOf (fun x => { x with checking := true }) State.reset; let u : State := { s with lines := [(0x28000040, .uncorrectable)], sup := { s.sup with checking := false } }; u.insoleCorrect.insoleGood = false) ∧
    (State.reset.tb.rtc = State.reset.sup.rtcAlm ∧ State.reset.collecting = false) := by decide +kernel

theorem hyp_WinterEntryAndThawAct_c :
    (let s := put (supOf (fun x => { x with winter := .winter, aon := [(R.WAKE_EN, 0xFFFF), (R.WAKE_PIN_CFG, 0x3213)] }) State.reset) []; fget (s.aonRd R.WAKE_PIN_CFG) ⟨12, 2⟩ = 3 ∧ fget (s.aonRd R.WAKE_PIN_CFG) ⟨4, 2⟩ = 1 ∧ s.collecting = true ∧ s.sup.woken = false ∧ s.wakeEnabled.getLsbD 12 = true) := by decide +kernel

theorem hyp_BootAndVerificationAct :
    (let s := bootOf (fun x => { x with heelRom := true, soleRom := true }) State.reset; let p := s.verify false (areaAddr 1 0) (· == 1); p.2.code ≠ 0 ∧ ((p.1.heelEvent p.2.code).verify false (areaAddr 1 1) (· == 1)).2.code ≠ 0) ∧
    (let s := bootOf (fun x => { x with soleRom := true }) State.reset; let p := s.verify false (areaAddr 2 0) (· == 2); p.2.code ≠ 0 ∧ ((p.1.bootEvent p.2.code).verify false (areaAddr 2 1) (· == 2)).2.code ≠ 0) ∧
    (State.reset.takes a0 R.BOOT_VER_CTL 0x80000000 = true ∧ State.reset.takes a0 R.BOOT_VER_CTL 0x80000004 = true ∧ State.reset.boot.job = none) ∧
    (State.reset.takes a0 R.BOOT_ROLL_COMMIT 0xC0DE000F = true ∧ fget (0xC0DE000F : W32) F.BOOT_ROLL_COMMIT.KEY = 0xC0DE ∧ State.reset.takes a0 R.BOOT_ROLL_COMMIT 0xF = true) := by decide +kernel

theorem hyp_SwapStoreAndCommandPortAct_a :
    (State.reset.takes a0 R.BOOT_SWAP 0xA5C30102 = true ∧ fget (0xA5C30102 : W32) F.BOOT_SWAP.KEY = 0xA5C3 ∧ State.reset.boot.swap = none ∧ State.reset.boot.stagedSole = none ∧ State.reset.takes a0 R.BOOT_SWAP 0 = true) ∧
    ((bootOf (fun x => { x with stagedSole := some img1 }) State.reset).takes a0 R.BOOT_SWAP 0xA5C30102 = true ∧ (0xA5C30102 : W32).getLsbD 1 = true ∧ (0xA5C30102 : W32).getLsbD 8 = true) ∧
    (let s : State := bootOf (fun x => { x with swap := some ⟨true, false, [], false, none, some 0⟩ }) State.reset; s.takes heel R.BOOT_HEEL_HANDOVER 0 = true ∧ (0 : Word).toNat ≤ s.tb.master.toNat) ∧
    (((State.reset.setCore (.sole 9) { State.reset.core (.sole 9) with swapStop := true }).core (.sole 9)).swapStop = true) := by decide +kernel

theorem hyp_SwapStoreAndCommandPortAct_b :
    (let q : Req := { ini := a0, kind := .write, addr := 0x25FFFFC0, len := 64, posted := false, early := false, cls := storable.iniLabel a0 }
    storable.clearWay q = true ∧ (storable.enter q).1.storeWriteOk a0 0x25FFFFC0 64 = true) ∧
    (storable.takes a0 R.BOOT_ST_CTL (0x80000000 + 511 * 65536 + 1) = true) ∧
    (State.reset.takes a0 R.BOOT_HCMD_TX 0x01000007 = true) ∧
    ((bootOf (fun x => { x with rx := [7] }) State.reset).gives a0 R.BOOT_HCMD_RX = true) ∧
    (let s := heard 7; s.hcmdHead = some (7, 0, []) ∧ s.bridgeLive 16 = true ∧ s.boot.rx = [] ∧ s.wakePending = false ∧ (s.power = psSummer ∨ s.power = psAutumn) ∧ s.fld R.PWR_WINTER_CFG F.PWR_WINTER_CFG.GRACE ≠ 0) := by decide +kernel

theorem hyp_SwapStoreAndCommandPortAct_c :
    ((put (heard 7) [(R.WAKE_PEND, 0x2000), (R.WAKE_EN, 0x2000)]).wakePending = true) ∧
    ((heard 0x80).hcmdHead = some (0x80, 0, []) ∧ (heard 0xFF).hcmdHead = some (0xFF, 0, []) ∧ (heard 0).hcmdHead = some (0, 0, []) ∧ (heard 8).hcmdHead = some (8, 0, []) ∧ (heard 0x7F).hcmdHead = some (0x7F, 0, [])) := by decide +kernel

/-! ### Signed images -/
/-- What the steps of R112 ask of an object with a body of four bytes that is not encrypted. -/
theorem verify_ok {s : State} {a : Nat} {ok : Nat → Bool} {h b : List Byte} (hb : s.bytes a 512 = h) (hs : s.storeLineBad a 512 = false) (hl : h.length = 512)
    (hv : hdrValid h = true) (hk : ok (hdrImg h (slotOf a)).kind = true) (he : s.boot.keys = [])
    (hc : ecdsaOk (beNat ((h.drop 0x80).take 48)) (beNat ((h.drop 0xB0).take 48)) (beNat ((h.drop 0xE0).take 48)) (beNat ((h.drop 0x110).take 48)) (h.take 0xE0) = true)
    (hr : s.rollback (hdrImg h (slotOf a)).kind = 0)
    (hn : (hdrImg h (slotOf a)).len.toNat = 4) (hs2 : s.storeLineBad (a + 512) 4 = false) (hb2 : s.bytes (a + 512) 4 = b) (hd : sha384 b = (h.drop 0x50).take 48)
    (hx : hdrEnc h = false) : (s.verify false a ok).2.code = 0 := by
  simp [State.verify, State.verifyWith, State.objBytes, State.keyOk, hb, hb2, hs, hs2, hl, hv, hk, he, hc, hr, hn, hd, hx]
theorem tabGet_cellsAt (l : List Byte) : ∀ (a i : Nat), i < l.length → tabGet memDefault (cellsAt a l) (a + i) = l.getD i 0 := by
  induction l with
  | nil => intro a i h; simp at h
  | cons b l ih =>
    intro a i h
    cases i with
    | zero => simp [cellsAt, tabGet]
    | succ i =>
      have := ih (a + 1) i (by simpa using h)
      simp only [cellsAt, tabGet]
      rw [show a + (i + 1) = a + 1 + i by omega]
      simpa [show a ≠ a + 1 + i by omega] using this
theorem bytes_bootable {l : List Byte} {a : Nat} {s : State} (hm : s.mem = cellsAt a l) : ∀ n i, i + n ≤ l.length → s.bytes (a + i) n = (l.drop i).take n := by
  intro n
  induction n with
  | zero => simp [State.bytes]
  | succ n ih =>
    intro i h
    have h1 : s.byte (a + i) = l.getD i 0 := by rw [State.byte, hm]; exact tabGet_cellsAt l a i (by omega)
    have hlt : i < l.length := by omega
    simp only [State.bytes, h1]
    rw [show a + i + 1 = a + (i + 1) by omega, ih (i + 1) (by omega)]
    rw [List.drop_eq_getElem_cons hlt, List.take_succ_cons]
    simp [List.getD, List.getElem?_eq_getElem hlt]
def hdrOf (l : List Byte) : List Byte := (l.drop 0).take 512
def bodyOf (l : List Byte) : List Byte := (l.drop 512).take 4
theorem verify_image {s : State} {a : Nat} {ok : Nat → Bool} {l : List Byte} (hm : s.mem = cellsAt a l) (hl : l.length = 516) (hlines : s.lines = [])
    (hv : hdrValid (hdrOf l) = true) (hk : ok (hdrImg (hdrOf l) (slotOf a)).kind = true) (he : s.boot.keys = [])
    (hc : ecdsaOk (beNat (((hdrOf l).drop 0x80).take 48)) (beNat (((hdrOf l).drop 0xB0).take 48)) (beNat (((hdrOf l).drop 0xE0).take 48))
      (beNat (((hdrOf l).drop 0x110).take 48)) ((hdrOf l).take 0xE0) = true)
    (hr : s.rollback (hdrImg (hdrOf l) (slotOf a)).kind = 0) (hn : (hdrImg (hdrOf l) (slotOf a)).len.toNat = 4)
    (hd : sha384 (bodyOf l) = ((hdrOf l).drop 0x50).take 48) (hx : hdrEnc (hdrOf l) = false) : (s.verify false a ok).2.code = 0 := by
  have hs : ∀ a n, s.storeLineBad a n = false := by intro a n; simp [State.storeLineBad, State.storeBad, State.line, hlines, tabGet, lineDefault]
  exact verify_ok (b := bodyOf l) (bytes_bootable hm 512 0 (by omega)) (hs _ _) (by simp [hl]) hv hk he hc hr hn (hs _ _)
    (bytes_bootable hm 4 512 (by omega)) hd hx
set_option maxRecDepth 100000 in
theorem heelImg_signed : ecdsaOk (beNat (((hdrOf heelImg).drop 0x80).take 48)) (beNat (((hdrOf heelImg).drop 0xB0).take 48)) (beNat (((hdrOf heelImg).drop 0xE0).take 48))
    (beNat (((hdrOf heelImg).drop 0x110).take 48)) ((hdrOf heelImg).take 0xE0) = true := by decide +kernel
set_option maxRecDepth 100000 in
theorem soleImg_signed : ecdsaOk (beNat (((hdrOf soleImg).drop 0x80).take 48)) (beNat (((hdrOf soleImg).drop 0xB0).take 48)) (beNat (((hdrOf soleImg).drop 0xE0).take 48))
    (beNat (((hdrOf soleImg).drop 0x110).take 48)) ((hdrOf soleImg).take 0xE0) = true := by decide +kernel
set_option maxRecDepth 100000 in
/-- A signed Heel image at a verifies in every state whose memory holds it alone. -/
theorem heelImg_verifies {s : State} {slot : Nat} (hm : s.mem = cellsAt (areaAddr 1 slot) heelImg) (hlines : s.lines = []) (he : s.boot.keys = [])
    (hr : s.rollback 1 = 0) : (s.verify false (areaAddr 1 slot) (· == 1)).2.code = 0 := by
  have hk : ∀ k, (hdrImg (hdrOf heelImg) k).kind = 1 := fun k => by show hdrField (hdrOf heelImg) 6 1 = 1; decide +kernel
  exact verify_image hm (by decide +kernel) hlines (by decide +kernel) (by rw [hk]; rfl) he heelImg_signed (by rw [hk]; exact hr)
    (by show (BitVec.ofNat 32 (hdrField (hdrOf heelImg) 0x14 4)).toNat = 4; decide +kernel) (by decide +kernel) (by decide +kernel)
set_option maxRecDepth 100000 in
theorem soleImg_verifies {s : State} {slot : Nat} (hm : s.mem = cellsAt (areaAddr 2 slot) soleImg) (hlines : s.lines = []) (he : s.boot.keys = [])
    (hr : s.rollback 2 = 0) : (s.verify false (areaAddr 2 slot) (· == 2)).2.code = 0 := by
  have hk : ∀ k, (hdrImg (hdrOf soleImg) k).kind = 2 := fun k => by show hdrField (hdrOf soleImg) 6 1 = 2; decide +kernel
  exact verify_image hm (by decide +kernel) hlines (by decide +kernel) (by rw [hk]; rfl) he soleImg_signed (by rw [hk]; exact hr)
    (by show (BitVec.ofNat 32 (hdrField (hdrOf soleImg) 0x14 4)).toNat = 4; decide +kernel) (by decide +kernel) (by decide +kernel)
/-- Verification at an address whose 512 bytes make no valid header. -/
theorem verify_header {s : State} {a : Nat} {ok : Nat → Bool} (hs : s.storeLineBad a 512 = false) (hv : hdrValid (s.bytes a 512) = false) :
    (s.verify false a ok).1 = s ∧ (s.verify false a ok).2.code = 1 := by
  simp [State.verify, State.verifyWith, State.objBytes, hs, hv]
set_option maxRecDepth 100000 in
theorem hyp_BootAndVerificationAct_heel :
    (let s := bootable (areaAddr 1 0) heelImg
     s.boot.heelRom = true ∧ s.sup.heelHeld = false ∧ s.fld R.BOOT_SEL F.BOOT_SEL.HEEL = 0 ∧ (s.verify false (areaAddr 1 0) (· == 1)).2.code = 0) ∧
    (let s := bootable (areaAddr 1 1) heelImg
     let p := s.verify false (areaAddr 1 0) (· == 1)
     s.boot.heelRom = true ∧ s.fld R.BOOT_SEL F.BOOT_SEL.HEEL = 0 ∧ p.2.code ≠ 0 ∧ ((p.1.heelEvent p.2.code).verify false (areaAddr 1 1) (· == 1)).2.code = 0) := by
  refine ⟨⟨rfl, rfl, by decide +kernel, heelImg_verifies rfl rfl rfl (by decide +kernel)⟩, rfl, by decide +kernel, ?_⟩
  have h := verify_header (s := bootable (areaAddr 1 1) heelImg) (a := areaAddr 1 0) (ok := (· == 1)) (by decide +kernel) (by decide +kernel)
  rw [h.1, h.2]
  exact ⟨by decide, heelImg_verifies rfl rfl rfl (by decide +kernel)⟩
set_option maxRecDepth 100000 in
theorem hyp_BootAndVerificationAct_sole :
    (let s := bootable (areaAddr 2 0) soleImg
     s.boot.soleRom = true ∧ s.sup.soleHeld = false ∧ s.fld R.BOOT_SEL F.BOOT_SEL.SOLE = 0 ∧ (s.verify false (areaAddr 2 0) (· == 2)).2.code = 0) ∧
    (let s := bootable (areaAddr 2 1) soleImg
     let p := s.verify false (areaAddr 2 0) (· == 2)
     s.boot.soleRom = true ∧ s.fld R.BOOT_SEL F.BOOT_SEL.SOLE = 0 ∧ p.2.code ≠ 0 ∧ ((p.1.bootEvent p.2.code).verify false (areaAddr 2 1) (· == 2)).2.code = 0) := by
  refine ⟨⟨rfl, rfl, by decide +kernel, soleImg_verifies rfl rfl rfl (by decide +kernel)⟩, rfl, by decide +kernel, ?_⟩
  have h := verify_header (s := bootable (areaAddr 2 1) soleImg) (a := areaAddr 2 0) (ok := (· == 2)) (by decide +kernel) (by decide +kernel)
  rw [h.1, h.2]
  exact ⟨by decide, soleImg_verifies rfl rfl rfl (by decide +kernel)⟩

theorem hyp_AluRegisterFormsGiveTheirResult :
    ((onA0 id summer).ready (.sole 0) = true ∧ (coreAt (.sole 9) (fun x => { x with run := .running, pc := 0x01000000 }) summer).ready (.sole 9) = true ∧ State.reset.ready .heel = true ∧ (coreAt (.keeper 3) (fun x => { x with run := .running }) summer).ready (.keeper 3) = true) := by decide +kernel

theorem hyp_DivisionGivesQuotientAndRemainder :
    ((onA0 (fun x => { x with g := [(5, 0x8000000000000000), (6, 0xFFFFFFFFFFFFFFFF)] }) summer).ready (.sole 0) = true) := by decide +kernel

theorem hyp_ImmediateFormsGiveTheirResult :
    (State.reset.ready .heel = true) := by decide +kernel

theorem hyp_BranchesAndJumpsSetThePc :
    ((coreAt (.keeper 3) (fun x => { x with run := .running }) summer).ready (.keeper 3) = true) := by decide +kernel

theorem hyp_LoadsReadMemory :
    (let s := onA0 (fun x => { x with g := [(5, 0x01FFFFFF)] }) summer; let u := s.fetched (.sole 0); (0x01FFFFFF : Word).toNat % 1 = 0 ∧ u.readsMem (u.coreReq (.sole 0) .read 0x01FFFFFF 1) = true ∧ u.readsMem (u.coreReq (.sole 0) .read 0x01FFFFFE 2) = true) ∧
    (let s := onA0 (fun x => { x with g := [(5, 0x01000000)] }) summer; let u := s.fetched (.sole 0); (0x01000000 : Word).toNat % 8 = 0 ∧ u.readsMem (u.coreReq (.sole 0) .read 0x01000000 8) = true ∧ u.readsMem (u.coreReq (.sole 0) .read 0x01FFFFFC 4) = true) := by decide +kernel

theorem hyp_StoresAndAtomicsWriteMemory :
    (let s := onA0 id summer; let u := s.fetched (.sole 0); u.writesMem (u.coreReq (.sole 0) .write 0x01FFFFFF 1) = true ∧ u.writesMem (u.coreReq (.sole 0) .write 0x01FFFFFE 2) = true ∧ u.writesMem (u.coreReq (.sole 0) .write 0x01FFFFFC 4) = true ∧ u.writesMem (u.coreReq (.sole 0) .write 0x01000000 8) = true) ∧
    (let s := onA0 id summer; let u := s.fetched (.sole 0); u.storesOut (.sole 0) = false ∧ u.atomsMem (u.coreReq (.sole 0) .atomic 0x01FFFFFC 4) = true ∧ u.atomsMem (u.coreReq (.sole 0) .atomic 0x01FFFFF8 8) = true) := by decide +kernel

theorem hyp_SystemInstructionsComplete :
    (let s := onA0 id summer; s.ready (.sole 0) = true ∧ (s.core (.sole 0)).priv = true ∧ (s.fetched (.sole 0)).storesOut (.sole 0) = false ∧ (s.fetched (.sole 0)).wfiEnds (.sole 0) = false) := by decide +kernel

theorem hyp_SystemRegisterAccesses :
    (let s := onA0 id summer; s.ready (.sole 0) = true ∧ (s.core (.sole 0)).priv = true ∧ sysNamed (.sole 0) 0 = true ∧ sysNamed (.sole 0) 0x017 = true ∧ sysNamed (.sole 0) 0x001 = true ∧ sysNamed (.sole 0) 0x011 = true ∧ hasLane (.sole 0) = true) := by decide +kernel

theorem hyp_CounterInstructionsComplete :
    (let s := onA0 (fun x => { x with g := [(5, 0x8000)] }) summer; s.ready (.sole 0) = true ∧ (s.fetched (.sole 0)).handle (((s.core (.sole 0)).gr 5).setWidth 32) false = .counter (R.ENG_CNT (cntBase 8) 0) ∧ (s.fetched (.sole 0)).storesOut (.sole 0) = false) ∧
    (let s := onA0 (fun x => { x with g := [(5, 0x0000)] }) summer; (s.fetched (.sole 0)).handle 0x03FF false = .counter (R.ENG_CNT (cntBase 0) 1023)) ∧
    (let s := { onA0 id summer with net := [{ req := { summer.coreReq (.sole 0) .write 0x01000000 8 with posted := true }, data := [], atom := none }] }; s.ready (.sole 0) = true ∧ (s.fetched (.sole 0)).storesOut (.sole 0) = true ∧ (s.fetched (.sole 0)).handle 0x8000 false = .counter (R.ENG_CNT (cntBase 8) 0)) := by decide +kernel

theorem hyp_WaitsEndAsTheyShould :
    (let s := onA0 (fun x => { x with wait := some (.waitt 0) }) summer; s.atBoundary (.sole 0) = true ∧ (s.core (.sole 0)).stepping = none ∧ (0 : Word).toNat ≤ (s.dtbOf (.sole 0)).toNat) ∧
    (let s := onA0 (fun x => { x with wait := some (.waitge 5 0x8000 1 (some 0) true true) }) summer; s.atBoundary (.sole 0) = true) ∧
    (let s := onA0 (fun x => { x with wait := some (.waitge 5 0x8000 1 (some 0) true false) }) summer; s.atBoundary (.sole 0) = true ∧ (0 : Word).toNat ≤ (s.dtbOf (.sole 0)).toNat) := by decide +kernel

theorem hyp_CoreEventsComplete :
    (State.reset.domainUp (.sole 0) = true ∧ State.reset.domainUp .heel = true ∧ (onA0 (fun x => { x with notices := List.replicate 15 ⟨0, 0, 0⟩ }) State.reset).domainUp (.sole 0) = true) ∧
    (let s := coreAt (.sole 9) (fun x => { x with run := .running }) summer; s.domainUp (.sole 9) = true ∧ (s.core (.sole 9)).run = .running ∧ 0 < s.retryCount 9 ∧ s.testing (unitCode 0xB 1) = false ∧ s.outOfService (unitCode 0xB 1) = false ∧ s.fld R.CORE_PAIR_STAT ⟨8, 8⟩ < 255) ∧
    (summer.takes a0 R.CORE_START 0x3FE = true ∧ summer.takes a0 R.CORE_SWI 0x3FF = true ∧ (summer.core (.sole 9)).run = .held) := by decide +kernel

theorem hyp_OperandsLevelsAndHandlesTrap_a :
    (let s := vecA0 (fun x => { x with g := [(5, 0x01000001)] }) summer; s.ready (.sole 0) = true ∧ (s.core (.sole 0)).vectors = true ∧ ((s.core (.sole 0)).gr 5).toNat % 2 ≠ 0) ∧
    (let s := userA0 id; s.ready (.sole 0) = true ∧ (s.core (.sole 0)).vectors = true ∧ (s.core (.sole 0)).priv = false) ∧
    (let s := vecA0 id summer; s.ready (.sole 0) = true ∧ (s.fetched (.sole 0)).handle 0x20000 false = .malformed ∧ (s.fetched (.sole 0)).handle 0x20000 true = .malformed ∧ (s.fetched (.sole 0)).handle 0x10000 false = .malformed) := by decide +kernel

theorem hyp_OperandsLevelsAndHandlesTrap_b :
    (let s := vecA0 id State.reset; s.ready (.sole 0) = true ∧ (s.fetched (.sole 0)).handle 0x8000 false = .notLive ∧ (s.fetched (.sole 0)).handle 0x8000 true = .notLive) ∧
    (vectored.ready .heel = true ∧ hasLane .heel = false ∧ (vectored.core .heel).vectors = true) := by decide +kernel

theorem hyp_ExceptionEntrySavesTheCore :
    (let s := vecA0 id summer; s.ready (.sole 0) = true ∧ (s.core (.sole 0)).vectors = true ∧ (s.fetched (.sole 0)).on R.DBG_STAT F.DBG_STAT.ATTACHED = false) ∧
    (let s := vecA0 id (put summer [(R.DBG_STAT, 0xFFFFFFFF)]); s.ready (.sole 0) = true ∧ (s.core (.sole 0)).vectors = true ∧ (s.fetched (.sole 0)).on R.DBG_STAT F.DBG_STAT.ATTACHED = true) ∧
    (let s := onA0 (fun x => x.putSrBit srStatus stExl true) summer; s.ready (.sole 0) = true ∧ (s.core (.sole 0)).srBit srStatus stExl = true) := by decide +kernel

theorem hyp_InterruptEntryTakesTheHighestLine :
    (let s := interrupted id; s.atBoundary (.sole 0) = true ∧ (s.core (.sole 0)).stepping = none ∧ s.irqBest (.sole 0) = some 1 ∧ (s.core (.sole 0)).srBit srStatus stIe = true ∧ (s.core (.sole 0)).srAddr srVbaseLo srVbaseHi ≠ 0 ∧ (s.core (.sole 0)).wait = none) ∧
    (let s := interrupted (fun x => { x with wait := some .wfi }); s.atBoundary (.sole 0) = true ∧ s.irqBest (.sole 0) = some 1) ∧
    (State.reset.irqBest (.sole 0) = none ∧ (State.reset.core (.sole 0)).srBit srStatus stIe = false ∧ (State.reset.core (.sole 0)).wait ≠ some .wfi) := by decide +kernel

theorem hyp_LaneMovesCopy :
    (let s := onA0 id summer; s.ready (.sole 0) = true ∧ hasLane (.sole 0) = true ∧ (15 : BitVec 5).toNat < 16 ∧ (3 : BitVec 5).toNat < 4) := by decide +kernel

theorem hyp_LaneArithmeticComputes :
    (let s := onA0 (fun x => { x with laneC := [(15, 0x7FFFFFFF80000000)], laneA := [(7, 0x7FFFFFFFFFFFFFFFFFFF)] }) summer; s.ready (.sole 0) = true ∧ (4 : BitVec 3).getLsbD 2 = true ∧ (3 : BitVec 3).getLsbD 2 = false ∧ (5 : BitVec 3).getLsbD 1 = false) := by decide +kernel

theorem hyp_LaneMemoryFormsReadAndStore :
    (let s := onA0 (fun x => { x with g := [(5, 0x01FFFFF8)] }) summer; let u := s.fetched (.sole 0); s.ready (.sole 0) = true ∧ hasLane (.sole 0) = true ∧ ((s.core (.sole 0)).gr 5).toNat % 8 = 0 ∧ u.readsMem (u.coreReq (.sole 0) .read ((s.core (.sole 0)).gr 5) 8) = true ∧ u.writesMem (u.coreReq (.sole 0) .write ((s.core (.sole 0)).gr 5) 8) = true) ∧
    (let s := onA0 (fun x => { x with g := [(5, 0x01FFFFFC)] }) summer; let u := s.fetched (.sole 0); ((s.core (.sole 0)).gr 5).toNat % 4 = 0 ∧ u.readsMem (u.coreReq (.sole 0) .read ((s.core (.sole 0)).gr 5) 4) = true ∧ (14 : BitVec 5).toNat ≤ 14) := by decide +kernel

theorem hyp_RepeatMakesEveryRepetition :
    (let s := onA0 id summer; let p := (s.fetched (.sole 0)).fetch (.sole 0) ((s.core (.sole 0)).pc + 4); s.ready (.sole 0) = true ∧ p.2 = none ∧ p.1.core (.sole 0) = s.core (.sole 0) ∧ laneRegOk .cmac 0 15 15 3 = true) ∧
    (let s := vecA0 (fun x => { x with g := [(5, 0x28001000)] }) summer; (s.core (.sole 0)).vectors = true ∧ followerOk .other = false ∧ laneMemOk .cmacm 3 15 2 = true ∧ ((s.core (.sole 0)).gr 5).toNat % 8 = 0 ∧ (s.fetched (.sole 0)).regionOf 0x28001000 = some (.insole, 0x28000000, 0x2800FFFF)) ∧
    (let s := vectored; let p := (s.fetched .heel).fetch .heel ((s.core .heel).pc + 4); s.ready .heel = true ∧ p.2 = none ∧ p.1.core .heel = s.core .heel ∧ hasLane .heel = false) := by decide +kernel

theorem hyp_RequestsAndGuardsAct_a :
    (State.reset.iniUp a0 = true ∧ iniFabric a0 = false ∧ (State.reset.enter { ini := a0, kind := .read, addr := 0x01FFFFC0, len := 64, posted := false, early := false, cls := 0 }).2.1 = 0) ∧
    ((State.reset.enter { ini := a0, kind := .read, addr := 0x02000000, len := 1, posted := false, early := false, cls := 0 }).2.1 ≠ 0) ∧
    (let n : NetReq := { req := { ini := a0, kind := .read, addr := 0x01FFFFC0, len := 64, posted := false, early := false, cls := 0 }, data := [], atom := none }
    let s := { State.reset with net := [n] }
    s.granting 0 n = true ∧ n.lace = none ∧ n.orphan = false ∧ s.hears n.req.ini = true ∧ n.abroad = none ∧ n.req.kind = .read ∧ s.regionOf n.req.addr.toNat = some (.sram, 0x01000000, 0x01FFFFFF) ∧ s.targetLive a0 .sram 0x01FFFFC0 = true ∧ readOwnerOk .sram a0 = true ∧ s.cleanAt .sram 0x01FFFFC0 64 = true) ∧
    (let r : NetResp := { req := { ini := .soleUnit 0, kind := .read, addr := 0x01FFFFC0, len := 8, posted := false, early := false, cls := 0 }, reason := 0, data := [1] }; ({ State.reset with resp := [] } : State).sealOf r = none) := by decide +kernel

theorem hyp_RequestsAndGuardsAct_f :
    (let n : NetReq := { req := { ini := a0, kind := .read, addr := 0x01FFFFC0, len := 64, posted := false, early := false, cls := 0 }, data := [], atom := none }
    let s := { State.reset with net := [n, n] }; s.net[1]? = some n ∧ s.granting 1 n = false) ∧
    (let q : Req := { ini := queueIni 0, kind := .read, addr := 0xF00000000000, len := 4, posted := false, early := false, cls := 0 }
    let s := { windowed (queued 0 0 [] summer) with resp := [{ req := q, reason := 0, data := [1] }] }; s.resp[0]? = some { req := q, reason := 0, data := [1] } ∧ s.awaits q = true) := by decide +kernel

theorem hyp_RequestsAndGuardsAct_b :
    (let r : NetResp := { req := { ini := a0, kind := .read, addr := 0x01FFFFC0, len := 8, posted := false, early := false, cls := 0 }, reason := 0, data := [1] }; let s := { onA0 (fun x => { x with wait := some (.access (.load 5 8 false)) }) State.reset with resp := [r] }; s.resp[0]? = some r ∧ (s.core (.sole 0)).wait = some (.access (.load 5 8 false)) ∧ (s.core (.sole 0)).stepping = none) ∧
    ((put State.reset []).training = true ∧ State.reset.on R.GRD_HMEM_STAT F.GRD_HMEM_STAT.KEPT = false ∧ (S [(R.GRD_HMEM_STAT, fput 0 F.GRD_HMEM_STAT.KEPT 1)]).training = true ∧ (S [(R.GRD_HMEM_STAT, fput 0 F.GRD_HMEM_STAT.KEPT 1)]).on R.GRD_HMEM_STAT F.GRD_HMEM_STAT.KEPT = true) ∧
    (filling.on R.GRD_HMEM_STAT F.GRD_HMEM_STAT.FILLING = true ∧ (filling.rd R.GRD_HMEM_FILL).toNat < Min.min 1 filling.hostMib ∧ filling.hostMib ≤ 0x100000) := by decide +kernel

theorem hyp_RequestsAndGuardsAct_c :
    ((put summer [(R.GRD_SCRUB_CFG (grdBase 0), 1)]).scrubbing 0 = true ∧ (put summer [(R.GRD_SCRUB_CFG (grdBase 11), 1)]).scrubbing 7 = true ∧ summer.line ((summer.scrubMem 7).2.1) = .clean) ∧
    (summer.takes a0 (R.GRD_SCRUB_CFG (grdBase 0)) 1 = true ∧ summer.takes (kp 3) (R.GRD_SCRUB_CFG (grdBase 11)) 1 = true) ∧
    (14 ≤ grdCount 0 ∧ summer.takes a0 (R.GRD_PERM (grdTable 0) 0 31) 0x7F = true ∧ (List.range 32).all (fun m => !summer.grdOverlap (grdTable 0) 0 31 m) = true ∧ summer.takes a0 (R.GRD_BASE_LO (grdTable 0) 0 31 + 12) 5 = true) ∧
    ((put guarded [(R.GRD_BASE_LO (grdTable 0) 0 1, 0x01000000), (R.GRD_LIMIT_LO (grdTable 0) 0 1, 0x0100003F)]).grdOverlap (grdTable 0) 0 1 0 = true ∧ guarded.takes a0 (R.GRD_BASE_LO (grdTable 0) 0 0) 1 = true ∧ guarded.bit (R.GRD_PERM (grdTable 0) 0 0) 0 = true) := by decide +kernel

theorem hyp_RequestsAndGuardsAct_d :
    (summer.takes a0 (R.GRD_VIOL_INFO (grdBase 0)) 0x80000000 = true ∧ summer.takes heel (R.GRD_NOTE_POP (grdBase 1)) 1 = true ∧ coreDie .heel = 1 ∧ summer.takes (kp 3) (R.GRD_NOTE_STAT (grdBase 11)) 0x100 = true) := by decide +kernel

theorem hyp_RoutesWindowsAndProbesAct_a :
    (summer.takes a0 (R.NOC_RT_DEST 3 16 7) 0x8000003F = true ∧ summer.bit (R.NOC_RT_DEST 3 16 7) 31 = false) ∧
    (summer.routeCheck 3 16 7 0x8000003F (summer.rd (R.NOC_RT_ROUTE 3 16 7)) ≠ 0) ∧
    (summer.routeCheck 0 0 0 0x80000007 (summer.rd (R.NOC_RT_ROUTE 0 0 0)) = 0 ∧ summer.takes (kp 0) (R.NOC_RT_DEST 0 0 0) 0x80000007 = true ∧ summer.bit (R.NOC_RT_DEST 0 0 0) 31 = false) ∧
    (summer.takes (kp 3) (R.NOC_RT_ROUTE 3 16 7) 5 = true ∧ (put summer [(R.NOC_RT_DEST 3 16 7, 0x80000005)]).takes (kp 3) (R.NOC_RT_ROUTE 3 16 7) 5 = true ∧ (put summer [(R.NOC_RT_DEST 3 16 7, 0x80000005)]).takes (kp 3) (R.NOC_RT_DEST 3 16 7) 5 = true) ∧
    (summer.netUp 4 = true ∧ (summer.dieDtb (netDie 4)).toNat % summer.bwcWindow (netDie 4) = 0) := by decide +kernel

theorem hyp_RoutesWindowsAndProbesAct_b :
    (summer.takes a0 (R.BWC_BUDGET (bwcBase (netDie 4)) 15 3) 7 = true ∧ summer.takes a0 (R.BWC_WINDOW (bwcBase (netDie 4))) 7 = true) ∧
    (summer.bit (R.AWL_STAT (awlBase (netDie 4))) 16 = false ∧ (put summer [(R.AWL_STAT (awlBase (netDie 4)), 0x10000)]).bit (R.AWL_STAT (awlBase (netDie 4))) 16 = true) ∧
    (summer.takes a0 (R.AWL_TRIG (awlBase (netDie 1)) 0) 7 = true ∧ 0 < awlCount 1 ∧ summer.takes a0 (R.AWL_STAT (awlBase (netDie 4))) 0x10000 = true ∧ (List.range (awlCount 4)).all (fun p => !summer.awlDue 4 p) = true) ∧
    (summer.takes a0 (R.AWL_CFG (awlBase (netDie 1)) 0 + 44) 7 = true ∧ (put summer [(R.AWL_CFG (awlBase (netDie 1)) 0, 1)]).bit (R.AWL_CFG (awlBase (netDie 1)) 0) 0 = true) := by decide +kernel

theorem hyp_RoutesWindowsAndProbesAct_c :
    (summer.diePowered 3 = true ∧ 0 < summer.retryCount 6 ∧ summer.bridgeLive 11 = true ∧ 0 < summer.retryCount 7) := by decide +kernel

theorem hyp_QueueEntriesAct_comes :
    (queued 31 3 (pad16 [0x100]) summer).comes (qKey 31 3) (pad16 [0x100]) ∧ (queued 0 0 (pad16 [0x800]) summer).comes (qKey 0 0) (pad16 [0x800]) ∧
    (queued 0 0 (pad16 [0xFF]) summer).comes (qKey 0 0) (pad16 [0xFF]) :=
  ⟨comes_of (by decide +kernel) (by decide +kernel) (by decide), comes_of (by decide +kernel) (by decide +kernel) (by decide),
    comes_of (by decide +kernel) (by decide +kernel) (by decide)⟩

theorem hyp_QueueEntriesAct_a :
    (entryReserved (pad16 [0x800]) [] = false ∧ opIs 0 (pad16 [0x800]) = true ∧ entryReserved (pad16 [0x100, 0xF000]) [] = true ∧ ((queued 0 0 (pad16 [0x100, 0xF000]) summer).begun 0 (pad16 [0x100, 0xF000])).doneOk (pad16 [0x100, 0xF000]) = false ∧ knownOps.contains 0xFF = false) ∧
    (entryOk 31 3 0 [] [0] summer = true ∧ entryOk 0 0 0 [] [0x100, 0x8000, 1] summer = true) ∧
    (entryOk 0 0 1 [3, 4] [1, 0, 0, 0x8FFF, 5] summer = true ∧ (begunIn [1, 0, 0, 0x8FFF, 5] summer).handle 0x8FFF true = .counter (R.ENG_CNT (cntBase 8) 4095) ∧ (begunIn [1] summer).handle 0xF000 true = .malformed ∧ entryOk 0 0 1 [3, 4] [1, 0, 0, 0xF000, 5] summer = true) := by decide +kernel

theorem hyp_QueueEntriesAct_b :
    (entryOk 0 0 2 [3, 4, 5, 6] [2, 0, 0, 0x8000, 0] summer = true ∧ entryOk 0 0 2 [3, 4, 5, 6] [2, 0, 0, 0x8000, 1] summer = true ∧ waitMet ((begunIn [2] summer).rd (R.ENG_CNT (cntBase 8) 0)) 0 = true ∧ waitMet ((begunIn [2] summer).rd (R.ENG_CNT (cntBase 8) 0)) 1 = false) ∧
    ((begunIn [2] summer).qLate 0 none = false ∧ (begunIn [2] (tbOf (fun x => { x with copy := [(1, 9)] }) summer)).qLate 0 (some 9) = true ∧ (begunIn [2] (tbOf (fun x => { x with copy := [(1, 8)] }) summer)).qLate 0 (some 9) = false ∧ (begunIn [2] summer).handle 0xF000 false = .malformed) ∧
    (entryOk 0 0 3 [5, 6] [3, 0, 0, 0, 0, 0xFFFFFFFF, 0xFFFFFFFF] summer = true ∧ entryOk 0 0 4 [] [4] summer = true) := by decide +kernel

theorem hyp_QueueEntriesAct_c :
    (entryOk 0 0 5 [3, 4] [5, 0, 0, 0x01000100, 0xFFFF] summer = true ∧ wdAddrOk (pad16 [5, 0, 0, 0x01000100, 0xFFFF]) 3 = true ∧ ((queued 0 0 (pad16 [5]) summer).pipeOf 0).isNone = true) ∧
    (entryOk 0 0 6 [3, 5, 6] [6, 0, 0, 0x80FF] summer = true ∧ (begunIn [6] summer).holdRef 0x80FF = some (256 * 8 + 255) ∧ ((begunIn [6] summer).holdEntry 0 .read (holdAddr (256 * 8 + 255) 0x400)).2 = none ∧ (begunIn [6] summer).holdRef 0xF000 = none) ∧
    (let s := { summer with holds := [(256 * 8 + 255, ⟨true, false, 5, []⟩)] }; ((begunIn [6] s).hold (256 * 8 + 255)).held = true ∧ ((begunIn [6] s).hold (256 * 8 + 255)).owner ≠ ownerId (queueIni 0)) ∧
    (let s := { summer with holds := [(256 * 8 + 255, ⟨true, false, ownerId (queueIni 0), []⟩)] }; entryOk 0 0 7 [3] [7, 0, 0, 0x80FF] s = true ∧ ((begunIn [7] s).hold (256 * 8 + 255)).owner = ownerId (queueIni 0) ∧ ((begunIn [7] s).holdEntry 0 .write (holdAddr (256 * 8 + 255) 0x800)).2 = none) := by decide +kernel

theorem hyp_QueueEntriesAct_d :
    (entryOk 0 0 8 [3] [8, 0, 0, 0x8000] summer = true ∧ entryOk 0 0 9 [3] [9, 0, 0, 0x8000] summer = true ∧ (begunIn [8] summer).handle 0x8000 false = .counter (R.ENG_CNT (cntBase 8) 0) ∧ ((begunIn [8] summer).queue 0).producers = []) ∧
    (entryOk 0 0 0x10 [3, 4, 5, 6, 7] copyEnt summer = true ∧ copyLenOk 4 = true ∧ copyLenOk 0x80000000 = true) ∧
    (let u := begunIn copyEnt summer; let v := u.granted 0; u.grants 0 [0] (decide (u.chanUsed 0 ≤ 2)) = true ∧ copyStep (wdAddr (pad16 copyEnt) 3).toNat (wdAddr (pad16 copyEnt) 5).toNat 4 = 4 ∧
    (v.qRead 0 0 (wdAddr (pad16 copyEnt) 3) 4 (v.qCls 0)).2 = some (.inl (leBytes 4 0x10)) ∧ ((v.qRead 0 0 (wdAddr (pad16 copyEnt) 3) 4 (v.qCls 0)).1.qWrite 0 0 (wdAddr (pad16 copyEnt) 5) (leBytes 4 0x10) (v.qCls 0) false).2 = none) ∧
    (let u := begunIn farEnt (windowed summer); let v := u.granted 0; u.grants 0 [0] (decide (u.chanUsed 0 ≤ 2)) = true ∧ copyStep (wdAddr (pad16 farEnt) 3).toNat (wdAddr (pad16 farEnt) 5).toNat 4 = 4 ∧ (v.qRead 0 0 (wdAddr (pad16 farEnt) 3) 4 (v.qCls 0)).2 = none ∧ entryOk 0 0 0x10 [3, 4, 5, 6, 7] farEnt (windowed summer) = true) ∧
    (let s := (running0 copyEnt8 summer).onQueue 0 (fun x => { x with copied := 4 }); opIs 0x10 (pad16 copyEnt8) = true ∧ (s.queue 0).fin = none ∧ copyStep 0x01000144 0x01000204 4 = 4 ∧
    (s.qRead 0 0 0x01000144 4 (s.qCls 0)).2 = some (.inl [0, 0, 0, 0]) ∧ ((s.qRead 0 0 0x01000144 4 (s.qCls 0)).1.qWrite 0 0 0x01000204 [0, 0, 0, 0] (s.qCls 0) false).2 = none) ∧
    (let s := summer.onQueue 127 (fun x => { x with wait := some (.counter 0x8000 1 none true true) }); (s.queue (qKey 31 3)).wait = some (.counter 0x8000 1 none true true)) := by decide +kernel

theorem hyp_QueueEntriesAct_e :
    (let s := summer.onQueue 127 (fun x => { x with wait := some (.counter 0x8000 1 (some 0) true false) }); s.qLate (qKey 31 3) (some 0) = true) := by decide +kernel

theorem hyp_QueuesRunTheirLists_a :
    (let s := put (summer.setQState 127 1) [(qreg R.ENG_QCFG 127, 0xFFFFFFFF)]; s.takes a0 (qreg R.ENG_QDB 127) 1 = true ∧ s.qState 127 = 1 ∧ sub16 1 (s.qHead 127) ≤ s.qCap 127 ∧ sub16 (s.qTail 127) (s.qHead 127) ≤ sub16 1 (s.qHead 127) ∧ 1 ≠ s.qTail 127) ∧
    (let s := summer.setQState 127 4; s.takes a0 (qreg R.ENG_QDB 127) 0xFFFF = true ∧ s.qCap 127 < sub16 0xFFFF (s.qHead 127)) ∧
    (let s := ((summer.putBytes 0x01000100 (wordBytes [0x4C48, 1])).setQState 0 2).onQueue 0 (fun x => { x with next := some 0x01000100 }); s.qState 0 = 2 ∧ (s.queue 0).list = none ∧ s.engUsable 0 = true ∧ s.xferFailed 0 = false ∧
    (match (s.qFetch 0 0x01000100 64 (s.fld (qreg R.ENG_QCFG 0) F.ENG_QCFG.HCLASS)).2 with | some (.inl b) => headerOk (leWords b) | _ => false) = true) ∧
    (let s := windowed ((summer.setQState 0 2).onQueue 0 (fun x => { x with next := some 0xF00000000000 })); s.qState 0 = 2 ∧ (s.qFetch 0 0xF00000000000 64 (s.fld (qreg R.ENG_QCFG 0) F.ENG_QCFG.HCLASS)).2 = none ∧ (s.qFetch 0 0xF00000000000 64 (s.fld (qreg R.ENG_QCFG 0) F.ENG_QCFG.HCLASS)).1.net.length = 1) := by decide +kernel

theorem hyp_QueuesRunTheirLists_b :
    (let s := (summer.setQState 0 2).onQueue 0 (fun x => { x with next := some 0x01000100 }); (match (s.qFetch 0 0x01000100 64 (s.fld (qreg R.ENG_QCFG 0) F.ENG_QCFG.HCLASS)).2 with | some (.inl b) => headerOk (leWords b) | _ => true) = false) ∧
    (let s := (queued 0 0 [] summer).onQueue 0 (fun x => { x with entry := some (pad16 [0x100, 0x8000, 1]), fin := some ⟨0, 0, 0⟩ }); s.outUnits 0 = [] ∧ s.qOut 0 = false ∧ s.rgnOut 0 = false ∧ (s.queue 0).idx + 1 < 2 ∧ s.handle 0x8000 true = .counter (R.ENG_CNT (cntBase 8) 0)) ∧
    (let s := (queued 0 0 [] summer).onQueue 0 (fun x => { x with entry := some (pad16 [0]), fin := some ⟨255, 0, 0⟩ }); s.outUnits 0 = [] ∧ opIs 0x11 (pad16 [0]) = false ∧ opIs 5 (pad16 [0]) = false) := by decide +kernel

theorem hyp_QueuesRunTheirLists_c :
    (let s := ((queued 0 0 [] summer).onQueue 0 (fun x => { x with fail := some (2, 0x01000140) })).setQState 0 4; s.qState 0 = 4 ∧ (s.queue 0).idx + 1 < 2 ∧ s.takes a0 (qreg R.ENG_QCTL 0) (1 ||| (s.rd (qreg R.ENG_QCTL 0) &&& 8)) = true ∧ s.takes a0 (qreg R.ENG_QCTL 0) (2 ||| (s.rd (qreg R.ENG_QCTL 0) &&& 8)) = true) ∧
    (let s := summer.setQState 127 2; s.takes a0 (qreg R.ENG_QCTL 127) 12 = true ∧ s.takes a0 (qreg R.ENG_QCTL 127) 4 = true ∧ s.qState 127 ≠ 0) ∧
    (let s := summer.setQState 127 5; s.qState 127 = 5 ∧ s.qOut 127 = false ∧ s.writesOut 127 true = false ∧ s.cancelOver 127 = true) := by decide +kernel

theorem hyp_CountersHoldsAndCensusAct_a :
    (summer.handle 0x8000 false = .counter (R.ENG_CNT (cntBase 8) 0) ∧ summer.handle 0xBFFF false = .counter (R.ENG_CNT (cntBase 11) 4095) ∧ (State.reset.handle 0x8000 false = .notLive)) ∧
    (let s := onA0 (fun x => { x with wait := some (.waitge 5 0x8000 1 none true false) }) summer; (s.core (.sole 0)).wait = some (.waitge 5 0x8000 1 none true false) ∧ handleReg 0x8000 = R.ENG_CNT (cntBase 8) 0) ∧
    (summer.takes a0 (R.ENG_CNT (cntBase (syncDie 4)) 4095) 7 = true ∧ summer.takes a0 (R.ENG_CNT (cntBase (syncDie 0)) 1023) 7 = true) ∧
    (summer.gives a0 (R.ENG_HOLD_ACQ (holdBase (syncDie 4)) 255) = true ∧ (summer.hold (256 * syncDie 4 + 255)).held = false) ∧
    (let s := { summer with holds := [(256 * syncDie 4 + 255, ⟨true, false, 5, []⟩)] }; (s.hold (256 * syncDie 4 + 255)).held = true ∧ (s.hold (256 * syncDie 4 + 255)).owner ≠ ownerId a0 ∧ s.gives a0 (R.ENG_HOLD_ACQ (holdBase (syncDie 4)) 255) = true) := by decide +kernel

theorem hyp_CountersHoldsAndCensusAct_d :
    (((summer.setRgnState 31 2).setRgn 31 { Rgn.init with body := List.replicate 11 0 ++ [0x22] }).iniUp (.region 3 7 1) = true ∧ State.reset.iniUp (.region 3 7 15) = false ∧ iniFabric a0 = false) ∧
    (summer.handle 0x8000 false = .counter (R.ENG_CNT (cntBase 8) 0) ∧ summer.handle 0xF000 false = .malformed ∧ (summer.core (.keeper 3)).notices.length < 16) := by decide +kernel

theorem hyp_CountersHoldsAndCensusAct_b :
    (let s := { summer with holds := [(256 * syncDie 4 + 255, ⟨true, false, ownerId a0, []⟩)] }; s.takes a0 (R.ENG_HOLD_REL (holdBase (syncDie 4)) 255) 0 = true ∧ (s.hold (256 * syncDie 4 + 255)).waiters = []) ∧
    (let s := put (onA0 (fun x => { x with wait := some (.waitge 5 0x8000 1 none true false) }) summer) [(R.ENG_CEN_CTL, 0x80), (R.ENG_CEN_CMASK 7, 1)]; s.sup.soleHeld = false ∧ s.bit R.ENG_CEN_CTL 7 = true ∧ s.bit R.ENG_CEN_STAT 7 = false ∧
    (s.cenQueues 7).map (fun n => queueBlocked (s.queue n)) ++ (s.cenCores 7).map (fun c => coreBlocked (s.core c)) = [some (0x8000, 1)] ∧ s.hasIncrementer (s.cenQueues 7) (s.cenCores 7) 0x8000 = false) := by decide +kernel

theorem hyp_CubesAndBatcherAct_a :
    (entryOk 0 0 0x30 [3, 4, 5, 6] (matmulEnt 1) summer = true ∧ matFieldsOk (pad16 (matmulEnt 1)) = true ∧ fmtOk (pad16 (matmulEnt 1)) = true ∧ shiftOk (pad16 (matmulEnt 1)) = true ∧ storeFits (pad16 (matmulEnt 1)) 0 = true) ∧
    (let u := begunIn (matmulEnt 1) summer; u.quarterGone 0 (pad16 (matmulEnt 1)) = false ∧ u.grants 0 [2] (u.quartersUsed 0 0 &&& matQmask (pad16 (matmulEnt 1)) == 0) = true ∧ (∀ p, p ∈ matPorts (pad16 (matmulEnt 1)) → (u.stream (matUnit (pad16 (matmulEnt 1)) p)).cur = none)) ∧
    (fmtOk (pad16 [0x30, 0, 0, 0x00010001, 1, 0x00011F00, 0x3210]) = false ∧ entryOk 0 0 0x30 [3, 4, 5, 6] [0x30, 0, 0, 0x00010001, 1, 0x00011F00, 0x3210] summer = true ∧ shiftOk (pad16 [0x30, 0, 0, 0x00010001, 1, 0x02011600, 0x3210]) = false) := by decide +kernel

theorem hyp_CubesAndBatcherAct_b :
    (let s := { summer with flt := { summer.flt with retired := [unitCode 4 0] } }; (begunIn (matmulEnt 1) s).quarterGone 0 (pad16 (matmulEnt 1)) = true ∧ entryOk 0 0 0x30 [3, 4, 5, 6] (matmulEnt 1) s = true) ∧
    (entryOk 0 0 0x31 [3, 4, 5, 6, 7, 8, 9] convEnt summer = true ∧ matFieldsOk (pad16 convEnt) = true ∧ convOk (pad16 convEnt) = true ∧ storeFits (pad16 convEnt) 0 = true) ∧
    (entryOk 0 0 0x32 [3, 4, 5, 6] decodeEnt ringed = true ∧ (begunIn decodeEnt ringed).dqCap 0 ≠ 0 ∧ decodeFill (pad16 decodeEnt) = 1) ∧
    (let s := matRuns (matmulEnt 1000) Mat.init summer; let w := pad16 (matmulEnt 1000); (s.queue 0).fin = none ∧ s.engUsable 0 = true ∧ matReady w (matGeom w Mat.init) (s.matPull 0 w (matGeom w Mat.init) Mat.init).2 = false) := by decide +kernel

theorem hyp_CubesAndBatcherAct_c :
    (let s := matRuns (matmulEnt 1000) ready1 summer; let w := pad16 (matmulEnt 1000); s.mat 0 = some ready1 ∧ ready1.finished = false ∧ matReady w (matGeom w ready1) (s.matPull 0 w (matGeom w ready1) ready1).2 = true ∧ ready1.s + 1 < (matGeom w ready1).bs) ∧
    (let s := matRuns (matmulEnt 1000) Mat.init summer; (s.queue 0).quarters.testBit 0 = true ∧ (s.mat 0).isSome = true ∧ 0 < s.retryCount 2) ∧
    (ringed.takes a0 (R.CUBE_DQ_TAIL 0 0) 2 = true ∧ (2 + 65536 - ringed.dqHead 0) % 65536 ≤ ringed.dqCap 0 ∧ ringed.takes a0 (R.CUBE_DQ_TAIL 0 0) 3 = true ∧ ringed.dqCap 0 < (3 + 65536 - ringed.dqHead 0) % 65536) := by decide +kernel

theorem hyp_CubesAndBatcherAct_d :
    (let s := matRuns decodeEnt Mat.init summer; s.batchNow 0 (pad16 decodeEnt) 0 = none ∧ opIs 0x32 (pad16 decodeEnt) = true ∧ Mat.init.batch = none) ∧
    (let s := matRuns decodeEnt Mat.init ringed; s.batchNow 0 (pad16 decodeEnt) 0 = some 1 ∧ storeFits (pad16 decodeEnt) 1 = true ∧
    (let z := s.askAll (((List.range 1).map (fun i => (s.dqHead 0 + i) % 65536)).map (fun i => { ini := queueIni 0, kind := .read, addr := s.dqAddr 0 i, len := 64, posted := false, early := true, cls := s.qCls 0 })); z.2 = true ∧ (z.1.readReqs 0 ((List.range 1).map (fun i => (s.dqHead 0 + i) % 65536))).2 = some (.inl [⟨0, 0, 0, 0⟩]))) ∧
    (let s := matRuns decodeEnt Mat.init (windowed (put ringed [(R.CUBE_DQ_BASE_LO 0 0, 0), (R.CUBE_DQ_BASE_HI 0 0, 0xF000)])); s.batchNow 0 (pad16 decodeEnt) 0 = some 1 ∧
    (s.askAll (((List.range 1).map (fun i => (s.dqHead 0 + i) % 65536)).map (fun i => { ini := queueIni 0, kind := .read, addr := s.dqAddr 0 i, len := 64, posted := false, early := true, cls := s.qCls 0 }))).2 = false) ∧
    (let m : Mat := { Mat.init with batch := some 1, reqs := [⟨0, 0, 0x8000, 1⟩], finished := true }; let s := matRuns decodeEnt m ringed; let y := s.stream (matUnit (pad16 decodeEnt) 3); y.buf = [] ∧ y.run = none ∧ y.error = false ∧ s.streamOut (matUnit (pad16 decodeEnt) 3) = false) ∧
    (summer.gives a0 (R.CUBE_STEPS_LO 0 0) = true ∧ summer.gives a0 (R.CUBE_STEPS_LO 3 7) = true) := by decide +kernel

theorem hyp_StreamInstructionsAct_a :
    (strOk 1 0x00401001 0 (fun x => { x with begun := false }) summer = true ∧ strOk 1 0x00410001 0 (fun x => { x with begun := false }) summer = true ∧ fget (0x00410001 : W32) ⟨16, 7⟩ = 65 ∧ fget (0x00401001 : W32) ⟨16, 7⟩ = 64) ∧
    (strOk 0 0 0 id summer = true ∧ (strIn 0 0 id summer).modeDue 0 = false ∧ (strIn 0 0 id summer).streamOut 0 = false ∧ ((strIn 0 0 id summer).stream 0).next = none ∧ strOk 0 0 0 (fun x => { x with loops := [⟨0, 1, []⟩] }) summer = true) ∧
    (strOk 0 0 0 (fun x => { x with chunks := [⟨none, 0, 1, [], .ok⟩] }) summer = true ∧ strOk 2 0x000F0302 0xFFFFFFFF id summer = true ∧ strOk 3 0x303 0xFFFFFFFF id summer = true) := by decide +kernel

theorem hyp_StreamInstructionsAct_b :
    (strOk 4 4 0 id summer = true ∧ strOk 4 4 1 (fun x => { x with loops := List.replicate 6 ⟨0, 1, []⟩ }) summer = true ∧ strOk 4 4 0xFFFFFF (fun x => { x with loops := List.replicate 5 ⟨0, 1, []⟩ }) summer = true) ∧
    (strOk 5 0xF05 0 id summer = true ∧ strOk 5 0xF05 0 (fun x => { x with loops := [⟨0x01000808, 2, [1, 2, 3, 4]⟩] }) summer = true ∧ strOk 5 0xF05 0 (fun x => { x with loops := [⟨0x01000808, 1, [1, 2, 3, 4]⟩] }) summer = true) ∧
    (strOk 6 0x306 0 id summer = true ∧ strOk 6 0x306 64 (fun x => x.setAreg 3 0x01000C00) summer = true ∧ ((strIn 0x306 64 (fun x => x.setAreg 3 0x01000C00) summer).stream 0).areg 3 = 0x01000C00 ∧
    (match (((strIn 0x306 64 (fun x => x.setAreg 3 0x01000C00) summer).onStream 0 (fun y => { y with left := some 64 })).strLine 0 0x01000C00 false).2 with | .ok d => d == List.replicate 64 0 | _ => false) = true ∧
    strOk 6 0x306 64 (fun x => x.setAreg 3 0xF00000000000) (windowed summer) = true ∧
    (match (((strIn 0x306 64 (fun x => x.setAreg 3 0xF00000000000) (windowed summer)).onStream 0 (fun y => { y with left := some 64 })).strLine 0 0xF00000000000 false).2 with | .wait => true | _ => false) = true) ∧
    (strOk 7 7 0 id summer = true ∧ strOk 7 7 0xFFFFFF id summer = true) := by decide +kernel

theorem hyp_StreamInstructionsAct_c :
    (strOk 8 0x10008 0x8000 id summer = true ∧ (strIn 0x10008 0x8000 id summer).handle 0x8000 false = .counter (R.ENG_CNT (cntBase 8) 0) ∧ (strIn 0x10008 0x8000 id summer).streamOut 0 = false ∧ strOk 8 8 0x8000 id summer = true) ∧
    (strOk 8 0x10008 0xF000 id summer = true ∧ (strIn 0x10008 0xF000 id summer).handle 0xF000 false = .malformed) ∧
    (let s := { summer with net := [{ req := { ini := streamIni 0, kind := .write, addr := 0x01000000, len := 4, posted := true, early := false, cls := 0 }, data := [], atom := none }] }; strOk 8 0x10008 0x8000 id s = true ∧ (strIn 0x10008 0x8000 id s).streamOut 0 = true) ∧
    (strOk 9 0x309 5 id summer = true ∧ strOk 9 0x209 0xFFFFFFFF id summer = true) ∧
    (strOk 10 10 0 id summer = true ∧ strOk 10 10 0 (fun x => { x with stride := [(0, some 1), (1, some 1), (2, some 1)], bound := [(0, 0)] }) (matRuns convEnt Mat.init summer) = true) := by decide +kernel

theorem hyp_StreamInstructionsAct_d :
    (let f := strIn 10 0 (fun x => { x with stride := [(0, some 1), (1, some 1), (2, some 1)], bound := [(0, 0)] }) (matRuns convEnt Mat.init summer); (f.stream 0).port = some (0, 0) ∧ (f.queue 0).entry = some (pad16 convEnt) ∧ opIs 0x31 (pad16 convEnt) = true ∧ f.mat 0 = some Mat.init ∧ ([0, 1, 2].all (fun d => (tabGet (fun _ => (none : Option W32)) (f.stream 0).stride d).isSome)) = true) ∧
    (let m : Mat := { Mat.init with batch := some 1, reqs := [⟨0, 0, 0x8000, 1⟩] }; strOk 11 11 0 (fun x => { x with bound := [(0, 0)] }) (matRuns decodeEnt m summer) = true ∧ ((strIn 11 0 (fun x => { x with bound := [(0, 0)] }) (matRuns decodeEnt m summer)).stream 0).port = some (0, 0)) ∧
    (aElem (matGeom (pad16 decodeEnt) { Mat.init with batch := some 1 }) (matFlow (pad16 decodeEnt)) (0x100000 / fmtBytes (matFmtA (pad16 decodeEnt))) = none ∧ strOk 11 11 0 (fun x => { x with bound := [(0, 0)] }) (matRuns (matmulEnt 1) Mat.init summer) = true) := by decide +kernel

theorem hyp_StreamUnitsAct_a :
    (entryOk 0 0 0x20 [3, 4, 5] [0x20, 0, 0, 15, 0x01000800] summer = true ∧ (begunIn [0x20, 0, 0, 15, 0x01000800] summer).grants 0 [31] (!(begunIn [0x20, 0, 0, 15, 0x01000800] summer).unitHeld 0 15) = true) ∧
    (let s := summer.setStream 15 { Stream.init with error := true }; ((begunIn [0x20, 0, 0, 15, 0x01000800] s).stream 15).error = true ∧ entryOk 0 0 0x20 [3, 4, 5] [0x20, 0, 0, 15, 0x01000800] s = true) ∧
    (let s := summer.setStream 15 { Stream.init with cur := some ⟨0, 0, 0⟩, next := some ⟨0, 0, 0⟩ }; ((begunIn [0x20, 0, 0, 15, 0x01000800] s).stream 15).next ≠ none ∧ entryOk 0 0 0x20 [3, 4, 5] [0x20, 0, 0, 15, 0x01000800] s = true) ∧
    (entryOk 0 0 0x21 [3] [0x21, 0, 0, 0xFFFF] summer = true ∧ (∀ n : Fin 16, ((begunIn [0x21, 0, 0, 0xFFFF] summer).stream n.val).cur = none ∧ (begunIn [0x21, 0, 0, 0xFFFF] summer).streamOut n.val = false)) ∧
    (let s := summer.setStream (strKey 31 15) { Stream.init with next := some ⟨0x01000800, 0, 3⟩ }; (s.stream (strKey 31 15)).next = some ⟨0x01000800, 0, 3⟩ ∧ (s.stream (strKey 31 15)).cur = none) ∧
    (let s := summer.setStream (strKey 31 15) { Stream.init with bound := [(124, 0)], chunks := [⟨some 0, 0, 64, [], .held 2 5⟩] }; (s.stream (strKey 31 15)).port = some (124, 0)) := by decide +kernel

theorem hyp_StreamUnitsAct_b :
    (summer.takes a0 (R.STR_CTL 3 7 15) 1 = true ∧ summer.gives a0 (R.STR_LINES_LO 3 7 15) = true) ∧
    (let s := summer.setStream (strKey 31 15) { Stream.init with cancelling := true }; (s.stream (strKey 31 15)).cancelling = true ∧ s.streamOut (strKey 31 15) = false) := by decide +kernel

theorem hyp_CheckpointsAndPipelinesAct_a :
    (entryOk 0 0 0x11 [3, 4, 5, 6, 7, 8, 9, 10] ckptEnt tracked = true ∧ wdAddr (pad16 ckptEnt) 8 = 0 ∧ ((queued 0 0 (pad16 ckptEnt) tracked).trkOpen 7).isSome = true ∧ copyLenOk 4 = true) ∧
    (let u := begunIn ckptEnt tracked; let v := u.granted 0; u.grants 0 [0] (decide (u.chanUsed 0 ≤ 2)) = true ∧ (v.qRead 0 0 (wdAddr (pad16 ckptEnt) 3) 4 (v.qCls 0)).2 = some (.inl (leBytes 4 0x11)) ∧
    ((v.qRead 0 0 (wdAddr (pad16 ckptEnt) 3) 4 (v.qCls 0)).1.qWrite 0 0 (wdAddr (pad16 ckptEnt) 5) (leBytes 4 0x11) (v.qCls 0) true).2 = none) ∧
    (let s := put summer [(R.TRN_CK_PIECES 3, fput 0 F.TRN_CK_PIECES.PIECES 1)]; s.takes a0 R.TRN_CK_CTL 8 = true ∧ s.trkState 3 = 0 ∧ s.fld (R.TRN_CK_PIECES 3) F.TRN_CK_PIECES.PIECES ≠ 0 ∧ [0, 1, 2].all (fun m => s.trkState m == 0) = true ∧ summer.fld (R.TRN_CK_PIECES 3) F.TRN_CK_PIECES.PIECES = 0) := by decide +kernel

theorem hyp_CheckpointsAndPipelinesAct_b :
    (tracked.takes a0 R.TRN_CK_CTL 0x10 = true ∧ tracked.trkState 0 = 1 ∧ tracked.takes a0 R.TRN_CK_CTL 0x80 = true ∧ tracked.trkState 3 ≠ 1) ∧
    (let s := tracked.withEng { tracked.eng with sealLocal := [3] }; s.eng.sealLocal.contains 3 = true) ∧
    (entryOk 0 0 0x50 [3, 4] [0x50, 0, 0, 0x01000C00] summer = true ∧ (begunIn [0x50, 0, 0, 0x01000C00] summer).grants 0 [0, 7] true = true ∧ ((begunIn [0x50, 0, 0, 0x01000C00] summer).pipe 0).isNone = true ∧ ((queued 0 0 (pad16 [0x50]) summer).pipeOf 0).isNone = true) ∧
    (let u := begunIn [0x50, 0, 0, 0x01000C00] (summer.putBytes 0x01000C00 (wordBytes (pipeDesc 0x1000))); (match ((u.granted 0).qFetch 0 0x01000C00 64 0).2 with | some (.inl b) => pipeDescOk (leWords b) && ((u.granted 0).qFetch 0 0x01000C00 64 0).1.phaseOk (leWords b) | _ => false) = true) ∧
    (let u := begunIn [0x50, 0, 0, 0x01000C00] summer; (match ((u.granted 0).qFetch 0 0x01000C00 64 0).2 with | some (.inl b) => pipeDescOk (leWords b) | _ => true) = false) ∧
    (let s := piped 0 id; (match s.pipeGoes 0 with | some p => s.fwdDue p && p.slotFree && p.key / 4 == 0 | none => false) = true) := by decide +kernel

theorem hyp_CheckpointsAndPipelinesAct_c :
    (let s := piped 0 (fun p => { p with phase := 3, pfDone := 2 }); (match s.pipeGoes 0 with | some p => s.bwdDue p && p.fetched | none => false) = true) ∧
    (let s := piped 0 (fun p => { p with fwdSub := 1, fwdEnd := 1 }); (match s.pipeGoes 0 with | some p => p.phase != 3 && p.xfer.isNone && decide (p.offDone < p.moved) && decide (p.offDone < p.fwdEnd) &&
    (s.copyRun p.key 1 (fget (wd p.desc 1) ⟨8, 4⟩) (p.slotAddr p.offNext) (p.offAddr p.offNext) 64 true 64).2.2 == some ⟨0, 0, 0⟩ | none => false) = true) ∧
    (let s := windowed (piped 0 (fun p => { p with fwdSub := 1, fwdEnd := 1, desc := [0x12025044, 0, 0x01001000, 0, 0x40, 0x01001100, 0, 0x40, 0, 0xF000, 64, 0x01003000, 0, 64, 0x8000, 1] }))
    (match s.pipeGoes 0 with | some p => decide ((wd p.desc 10).toNat = 64) && decide (p.offDone < p.moved) && decide (p.offDone < p.fwdEnd) &&
    (s.copyRun p.key 1 (fget (wd p.desc 1) ⟨8, 4⟩) (p.slotAddr p.offNext) (p.offAddr p.offNext) 64 true 64).2.2.isNone | none => false) = true) ∧
    (let s := piped 0 (fun p => { p with phase := 3 }); (match s.pipeGoes 0 with | some p => p.pfDue && p.xfer.isNone &&
    (s.copyRun p.key 1 (fget (wd p.desc 1) ⟨8, 4⟩) (p.offAddr p.pfNext) (p.slotAddr p.pfNext) 64 true 64).2.2 == some ⟨0, 0, 0⟩ | none => false) = true) ∧
    (let s := windowed (piped 0 (fun p => { p with phase := 3, desc := [0x12025044, 0, 0x01001000, 0, 0x40, 0x01001100, 0, 0x40, 0x01002000, 0, 64, 0, 0xF000, 64, 0x8000, 1] }))
    (match s.pipeGoes 0 with | some p => p.pfDue && p.xfer.isNone &&
    (s.copyRun p.key 1 (fget (wd p.desc 1) ⟨8, 4⟩) (p.offAddr p.pfNext) (p.slotAddr p.pfNext) 64 true 64).2.2.isNone | none => false) = true) ∧
    (let s := piped 0 (fun p => { p with xfer := some true, copied := 64 }); s.writesOut 0 true = false ∧ (match s.pipe 0 with | some p => p.copying true | none => true) = false) ∧
    ((match (piped 0 (fun p => { p with fwdEnd := 2, offDone := 2 })).pipe 0 with | some p => p.phase != 3 && p.fwdEnd == p.mb && p.offDone == p.moved && !(wd p.desc 1).getLsbD 12 | none => false) = true) ∧
    ((match (piped 0x1000 (fun p => { p with fwdEnd := 2, offDone := 2 })).pipe 0 with | some p => p.fwdEnd == p.mb && p.offDone == p.moved && (wd p.desc 1).getLsbD 12 | none => false) = true ∧ (piped 0x1000 id).handle 0x8000 false = .counter (R.ENG_CNT (cntBase 8) 0)) ∧
    (let s := piped 0 (fun p => { p with phase := 3, bwdEnd := 2 }); (match s.pipe 0 with | some p => p.phase == 3 && p.bwdEnd == p.mb && (s.queue p.key).list.isNone | none => false) = true) := by decide +kernel

theorem hyp_FabricRegionsAct_a :
    (entryOk 0 0 0x40 [3, 4] [0x40, 0, 0, 0, 0] fabbed = true ∧ (begunIn [0x40, 0, 0, 0, 0] fabbed).grants 0 [1] (!(begunIn [0x40, 0, 0, 0, 0] fabbed).fabPortUsed 0 0) = true ∧ entryOk 0 0 0x40 [3, 4] [0x40, 0, 0, 7, 63] fabbed = true ∧ (begunIn [0x40, 0, 0, 7, 63] fabbed).boot.fabs[63]? = none) ∧
    (let s := { fabbed with flt := { fabbed.flt with retired := [unitCode 9 0] } }; (begunIn [0x40, 0, 0, 0, 0] s).rgnState 0 = 4 ∧ entryOk 0 0 0x40 [3, 4] [0x40, 0, 0, 0, 0] s = true) ∧
    (let u := begunIn [0x40, 0, 0, 0, 0] fabbed; u.rgnState 0 ≠ 4 ∧ u.boot.swap = none ∧ tabGet (fun _ => none) u.boot.die 0 = some img1 ∧ img1.fi = fab1.img.fi ∧ u.fld R.BOOT_ROLL ⟨24, 8⟩ ≤ fab1.img.svn.toNat) := by decide +kernel

theorem hyp_FabricRegionsAct_b :
    (let u := begunIn [0x40, 0, 0, 0, 0] fabbed; let v := u.granted 0; let z := v.askAll (readsOf (queueIni 0) (v.qCls 0) fab1.bodyAddr 256); let p := z.1.qReadAll 0 (v.qCls 0) fab1.bodyAddr 256 2; z.2 = true ∧ p.2.2 = none ∧ preambleOk p.2.1 328 = true ∧ p.1.pinTaken 0 (bodyNat p.2.1 0x0C 4) = false) ∧
    (let u := begunIn [0x40, 0, 0, 0, 0] (windowed fabbed); let v := u.granted 0; (v.askAll (readsOf (queueIni 0) (v.qCls 0) 0xF00000000000 256)).2 = false) ∧
    (({ img1 with fi := 2 } : Img).fi ≠ fab1.img.fi ∧ (put fabbed [(R.BOOT_ROLL, 0x01000000)]).fld R.BOOT_ROLL ⟨24, 8⟩ = 1 ∧ fab1.img.svn.toNat = 0) ∧
    (let s := (running0 [0x40, 0, 0, 0, 0] fabbed).setRgn 0 { Rgn.init with waiting := [0] }; (s.rgn 0).head = some 0 ∧ s.rgnState 0 = 0 ∧ s.pinTaken 0 (s.queue 0).pins = false ∧ (s.rgn 0).call = none ∧ (s.rgn 0).ending = none ∧ (s.rgn 0).loading = none ∧ (loadedRgn id s).rgnState 0 = 2) := by decide +kernel

theorem hyp_FabricRegionsAct_c :
    (entryOk 0 0 0x41 [3, 4, 5, 6, 7, 8, 9, 10, 11, 12, 13, 14, 15] [0x41, 0, 0, 0x500] (loadedRgn id fabbed) = true ∧ (begunIn [0x41, 0, 0, 0x500] (loadedRgn id fabbed)).callCheck 0 (pad16 [0x41, 0, 0, 0x500]) = none ∧ (begunIn [0x41, 0, 0, 0x500] (loadedRgn id fabbed)).grants 0 [1] true = true) ∧
    (entryOk 0 0 0x41 [3, 4, 5, 6, 7, 8, 9, 10, 11, 12, 13, 14, 15] [0x41, 0, 0, 0x400] (loadedRgn id fabbed) = true ∧ (begunIn [0x41, 0, 0, 0x400] (loadedRgn id fabbed)).callCheck 0 (pad16 [0x41, 0, 0, 0x400]) = some (1, 0)) ∧
    (let s := loadedRgn (fun x => { x with waiting := [0] }) (running0 [0x41, 0, 0, 0x500] fabbed); (s.rgn 0).head = some 0 ∧ s.callCheck 0 (pad16 [0x41, 0, 0, 0x500]) = none ∧ callPorts (pad16 [0x41, 0, 0, 0x500]) = []) ∧
    (let s := loadedRgn (fun x => { x with call := some 0, started := some 0 }) (running0 [0x41, 0, 0, 0x500] fabbed); (s.rgn 0).call = some 0 ∧ (s.queue 0).fin = none) ∧
    (let s := put (tbOf (fun x => { x with copy := [(1, 1000)] }) (loadedRgn (fun x => { x with call := some 0, started := some 0 }) fabbed)) [(R.FAB_RSTAT 0 0, fput 0 F.FAB_RSTAT.FUNC 5)]; bodyFunc (s.rgn 0).body (s.fld (R.FAB_RSTAT 0 0) F.FAB_RSTAT.FUNC) = some (0, 10) ∧ 0 + 100 * 10 ≤ (s.copy 1).toNat) := by decide +kernel

theorem hyp_FabricRegionsAct_d :
    (let s := loadedRgn id fabbed; s.takes a0 (R.FAB_RCTL 0 0) 1 = true ∧ s.takes a0 (R.FAB_RCTL 0 0) 2 = true ∧ s.rgnState 0 = 2 ∧ (s.rgn 0).call = none ∧ (s.rgn 0).ending = none) ∧
    (let s := summer.setRgnState 31 3; s.rgnState 31 = 3 ∧ s.net = [] ∧ (s.rgn 31).ending = none) := by decide +kernel

def fabLoading : State := (running0 [0x40, 0, 0, 0, 0] fabbed).setRgn 0 { Rgn.init with loading := some 0 }
def fabCounted : State := fabLoading.advSat (R.FAB_CFG_CE 0 0) F.FAB_CFG_CE.COUNT 3
def fabAsked : State × Bool := fabCounted.askAll (readsOf (queueIni 0) (fabCounted.qCls 0) fab1.bodyAddr fab1.img.len.toNat)
theorem fabLoading_reads : (fabAsked.1.qReadAll 0 (fabCounted.qCls 0) fab1.bodyAddr 328 328).2 = (fabBody, none) := by decide +kernel
theorem hyp_FabricRegionsAct_done :
    let p := fabAsked.1.qReadAll 0 (fabCounted.qCls 0) fab1.bodyAddr fab1.img.len.toNat fab1.img.len.toNat
    fabLoading.net = [] ∧ fabLoading.resp = [] ∧ fabAsked.2 = true ∧ (fabLoading.rgn 0).loading = some 0 ∧ (fabLoading.queue 0).entry = some (pad16 [0x40, 0, 0, 0, 0]) ∧ fabLoading.boot.fabs[(wd (pad16 [0x40, 0, 0, 0, 0]) 4).toNat % 64]? = some fab1 ∧
      (p.1.rgn 0).loading = some 0 ∧ (framesOf p.2.1).all frameOk = true ∧ p.2.2 = none ∧ sha384 p.2.1 = fab1.digest := by
  have h := fabLoading_reads
  rw [show (328 : Nat) = fab1.img.len.toNat from rfl] at h
  simp only [h]
  refine ⟨by decide +kernel, by decide +kernel, by decide +kernel, by decide +kernel, by decide +kernel, ?_, by decide +kernel, by decide +kernel, trivial, by unfold fab1; dsimp only⟩
  have : (wd (pad16 [0x40, 0, 0, 0, 0]) 4).toNat % 64 = 0 := by decide
  rw [this]
  rfl

theorem hyp_LanesIdleAndTrain_a :
    (let v : W32 := fput (fput (fput 0 F.LACE_TX.PRE 8) F.LACE_TX.MAIN 32) F.LACE_TX.POST 8; summer.takes a0 (lnreg R.LACE_TX 47 3) v = true ∧ fget v F.LACE_TX.PRE + fget v F.LACE_TX.MAIN + fget v F.LACE_TX.POST = 48 ∧ 16 + fget v F.LACE_TX.PRE + fget v F.LACE_TX.POST ≤ fget v F.LACE_TX.MAIN ∧ summer.takes a0 (lnreg R.LACE_TX 47 3) 0 = true) ∧
    (let s := linked 2 [] (fun x => { x with idleReq := true }); s.linkSt 47 = 2 ∧ (s.link 47).idleReq = true ∧ s.fastRate 47 = true ∧ ((linked 2 [] (fun x => { x with tx := true })).link 47).idleReq = false) ∧
    (let s := laned 2 [] (fun x => { x with rx := [(3, 1)] }); s.laneSt 47 3 = 3 ∧ s.lanePhase 47 3 = 1 ∧ s.lanePhase 47 0 = 0 ∧ s.laneSt 47 0 = 3) := by decide +kernel

theorem hyp_LanesIdleAndTrain_b :
    (let s := laned 2 [] (fun x => { x with rx := [(0, 2), (1, 2), (2, 2), (3, 2)] }); [0, 1, 2, 3].all (fun i => s.lanePhase 47 i == 2) = true ∧ s.laneSt 47 3 = 3) ∧
    (let s := laned 2 [(lreg R.LACE_LSTAT 47, fput (fput 0 F.LACE_LSTAT.STATE 2) F.LACE_LSTAT.WARDEN 1)] (fun x => { x with rx := [(3, 2)] }); s.linkSt 47 = 2 ∧ (s.link 47).retrains + 1 ≤ s.retryCount 8 ∧ s.on (lreg R.LACE_LSTAT 47) F.LACE_LSTAT.WARDEN = true ∧ (laned 1 [] (fun x => { x with rx := [(3, 2)] })).linkSt 47 ≠ 2) ∧
    (let s := linked 1 [] id; s.linkSt 47 ≠ 2 ∧ s.trains 47 = true ∧ (s.link 47).phase = 0) ∧
    (let s := linked 1 [] (fun x => { x with phase := 1, part := 15 }); (s.link 47).part.testBit 3 = true ∧ (s.link 47).phase = 1) := by decide +kernel

theorem hyp_LanesIdleAndTrain_c :
    (let s := at47 300 (linked 1 [peer47 5 15, (lreg R.LACE_LCFG 47, 0xFFFFFFFF), (lreg R.LACE_PHY_CFG 47, 0xFFFFFFFF)] (fun x => { x with phase := 1, part := 15, heard := [(0, 1), (1, 2), (2, 3), (3, 4)], agree := agreed, goal := goaled })); s.nextRate 47 = some 0 ∧ (s.link 47).part < 16 ∧ [0, 1, 2, 3].all (fun i => tabGet natZero (s.link 47).heard i == i + 1 && decide (8 ≤ (tabGet noAgree (s.link 47).agree i).2) && s.sentTs2 47 i) = true) ∧
    (let s := at47 300 (linked 1 [peer47 5 15, (lreg R.LACE_PHY_CFG 47, 0xFFFFFFFF)] (fun x => { x with phase := 1, part := 15, heard := [(0, 4), (1, 3), (2, 2), (3, 1)], agree := agreed, goal := goaled })); s.nextRate 47 = some 0 ∧ [0, 1, 2, 3].all (fun i => tabGet natZero (s.link 47).heard i == 4 - i && decide (8 ≤ (tabGet noAgree (s.link 47).agree i).2) && s.sentTs2 47 i) = true) ∧
    (let s := at47 300 (linked 1 [peer47 5 15] (fun x => { x with phase := 2, part := 0 })); (s.link 47).phase = 2 ∧ s.heardIn 47 = [] ∧ 0 < s.minWidth 47 ∧ maskOf (s.heardIn 47) = (s.link 47).part ∧ (s.link 47).crOut = false) ∧
    (let s := at47 300 (linked 1 [peer47 0 15] (fun x => { x with phase := 2, part := 15, heard := [(0, 1), (1, 2), (2, 3), (3, 4)], agree := agreed, goal := goaled })); (s.heardIn 47).length = 4 ∧ maskOf (s.heardIn 47) = (s.link 47).part ∧ s.minWidth 47 ≤ 4 ∧ s.fld (lreg R.LACE_PEER 47) F.LACE_PEER.PKG = s.pkgId) := by decide +kernel

theorem hyp_LanesIdleAndTrain_d :
    (let s := at47 300 (linked 1 [peer47 5 15, (lreg R.LACE_LCFG 47, fput (fput 0 F.LACE_LCFG.EXPECT_EN 1) F.LACE_LCFG.EXPECT 6)] (fun x => { x with phase := 2, part := 15, heard := [(0, 1), (1, 2), (2, 3), (3, 4)], agree := agreed, goal := goaled })); s.fld (lreg R.LACE_PEER 47) F.LACE_PEER.PKG ≠ s.pkgId ∧ s.on (lreg R.LACE_LCFG 47) F.LACE_LCFG.EXPECT_EN = true ∧ s.fld (lreg R.LACE_LCFG 47) F.LACE_LCFG.EXPECT ≠ 5 ∧ s.minWidth 47 ≤ 4) ∧
    (let s := at47 300 (linked 1 [peer47 5 15] (fun x => { x with phase := 2, part := 15, heard := [(0, 1), (1, 2), (2, 3), (3, 4)], agree := agreed, goal := goaled })); s.on (lreg R.LACE_LCFG 47) F.LACE_LCFG.EXPECT_EN = false ∧ s.fld (lreg R.LACE_PEER 47) F.LACE_PEER.PKG ≠ s.pkgId ∧ s.linkSt 47 = 1) ∧
    (let s := at47 10000000000 (linked 1 [] (fun x => { x with phase := 1, part := 15 })); (s.link 47).began.toNat + s.trainTmo 47 ≤ (s.linkDtb 47).toNat ∧ s.heardIn 47 = [] ∧ s.linkSt 47 = 1) ∧
    (let s := at47 10000000000 (linked 1 [peer47 5 15, (lreg R.LACE_PHY_CFG 47, fput 0 F.LACE_PHY_CFG.RATES 15)] (fun x => { x with phase := 2, part := 15, tried := 1, heard := [(0, 1), (1, 2), (2, 3)], agree := agreed, goal := goaled })); (s.link 47).began.toNat + s.trainTmo 47 ≤ (s.linkDtb 47).toNat ∧ s.nextRate 47 = some 1 ∧ (bitsOf (s.link 47).part 4).all (s.heardIn 47).contains = false) := by decide +kernel

theorem hyp_LanesIdleAndTrain_f :
    (let s := linkUp [] (fun x => { x with skipped := true, slots := 4095 }); s.linkSt 47 = 2 ∧ (s.link 47).tx = false ∧ s.activeLanes 47 = [0, 1, 2, 3] ∧ (s.link 47).slots + 1 = 4096) ∧
    (let s := linked 0 [] (fun x => { x with lpb := 8 }); s.linkSt 47 = 0 ∧ bitsOf (s.link 47).lpb 4 = [3] ∧ (s.link 47).skipped = false) ∧
    (let s := linked 1 [(lreg R.LACE_PHY_STAT 47, fput 0 F.LACE_PHY_STAT.RATE 4)] (fun x => { x with phase := 2, part := 15 });
      (s.link 47).part.testBit 3 = true ∧ (s.link 47).phase = 2 ∧ (8 : BitVec 4).toNat = s.trainBit 47 ∧ tabGet noGoal (s.link 47).goal 3 = none) := by decide +kernel

theorem hyp_LaneTestsAct_a :
    (let a := lreg R.LACE_TEST 47; let v : W32 := fput (fput 0 F.LACE_TEST.MODE 7) F.LACE_TEST.LANES 15; (linked 0 [] id).takes a0 a v = true ∧ v.getLsbD 7 = false ∧ fget v F.LACE_TEST.MODE = 7 ∧ (linked 0 [] id).linkSt 47 = 0 ∧ (linked 2 [] id).takes a0 a v = true ∧ (linked 2 [] id).linkSt 47 ≠ 0) ∧
    (let a := lreg R.LACE_TEST 47; let v : W32 := fput (fput 0 F.LACE_TEST.MODE 1) F.LACE_TEST.LANES 15; (linked 0 [] id).takes a0 a v = true ∧ fget v F.LACE_TEST.MODE ≠ 7 ∧ (linked 0 [] id).fld a F.LACE_TEST.MODE ≠ 7) := by decide +kernel

theorem hyp_LaneTestsAct_b :
    (let a := lreg R.LACE_TEST 47; (linked 0 [] id).takes a0 a 0 = true ∧ (linked 0 [] id).fld a F.LACE_TEST.MODE = 0 ∧ (linked 0 [(a, 7)] id).takes a0 a 0 = true ∧ (linked 0 [(a, 7)] id).fld a F.LACE_TEST.MODE ≠ 0) ∧
    (let a := lreg R.LACE_TEST 47; let v : W32 := (fput 0 F.LACE_TEST.LANES 15) ||| 0x87; let s := laned 0 [(a, 7)] id; s.takes a0 a v = true ∧ s.fld a F.LACE_TEST.MODE = 7 ∧ fget v F.LACE_TEST.LANES = 15 ∧ [0, 1, 2, 3].all (fun l => s.laneSt 47 l == 3) = true ∧ (linked 0 [] id).takes a0 a 0x87 = true ∧ (linked 0 [] id).fld a F.LACE_TEST.MODE ≠ 7) := by decide +kernel

theorem hyp_LaneTestsAct_c :
    (let s := laned 0 [(lreg R.LACE_PHY_CFG 47, fput 0 F.LACE_PHY_CFG.FEL_ALLOW 1)] id; s.laneSt 47 3 = 3 ∧ s.linkSt 47 = 0 ∧ s.on (lreg R.LACE_PHY_CFG 47) F.LACE_PHY_CFG.FEL_ALLOW = true ∧ (laned 0 [] id).on (lreg R.LACE_PHY_CFG 47) F.LACE_PHY_CFG.FEL_ALLOW = false ∧ (laned 2 [] id).linkSt 47 ≠ 0) ∧
    (((linked 0 [] (fun x => { x with fel := 8 })).link 47).fel.testBit 3 = true ∧ summer.gives a0 (lnreg R.LACE_PRBS_BITS_LO 47 3) = true) ∧
    (let s := (linked 0 [(lreg R.LACE_TEST 47, 1)] id).setLaneSt 47 3 7; s.laneSt 47 3 = 7 ∧ (s.link 47).fel.testBit 3 = false ∧ s.fld (lreg R.LACE_TEST 47) F.LACE_TEST.MODE ∈ [1, 2] ∧ s.on (lnreg R.LACE_LNSTAT 47 3) F.LACE_LNSTAT.PRBS_SYNC = false ∧ s.testPattern 47 < 4) := by decide +kernel

theorem hyp_LaneTestsAct_d :
    (let s := (linked 0 [(lreg R.LACE_TEST 47, 5)] id).setLaneSt 47 3 7; s.laneSt 47 3 = 7 ∧ s.fld (lreg R.LACE_TEST 47) F.LACE_TEST.MODE = 5 ∧ s.on (lnreg R.LACE_LNSTAT 47 3) F.LACE_LNSTAT.PRBS_SYNC = false ∧ s.testPattern 47 < 4) ∧
    (let s := put ((linked 0 [(lreg R.LACE_TEST 47, 5)] id).setLaneSt 47 3 7) [(lnreg R.LACE_LNSTAT 47 3, fput (fput 0 F.LACE_LNSTAT.STATE 7) F.LACE_LNSTAT.PRBS_SYNC 1)]; s.laneSt 47 3 = 7 ∧ s.fld (lreg R.LACE_TEST 47) F.LACE_TEST.MODE = 5 ∧ s.on (lnreg R.LACE_LNSTAT 47 3) F.LACE_LNSTAT.PRBS_SYNC = true) := by decide +kernel

theorem hyp_LaneTestsAct_e :
    (let a := lreg R.LACE_TEST 47; let v : W32 := fput (fput 0 F.LACE_TEST.MODE 5) F.LACE_TEST.LANES 1
     let s := laned 0 [(a, 7), (lreg R.LACE_PHY_STAT 47, fput 0 F.LACE_PHY_STAT.RATE (fget v F.LACE_TEST.RATE + 1))] id
     s.takes a0 a v = true ∧ v.getLsbD 7 = false ∧ s.linkSt 47 = 0 ∧ s.fld a F.LACE_TEST.MODE = 7 ∧ fget v F.LACE_TEST.MODE = 5 ∧ s.testRateTrained 47 v = true ∧ s.laneSt 47 0 = 3) ∧
    (let s := (linked 0 [(lreg R.LACE_TEST 47, 3)] id).setLaneSt 47 3 7; s.laneSt 47 3 = 7 ∧ s.fld (lreg R.LACE_TEST 47) F.LACE_TEST.MODE = 3) ∧
    (let s := (linked 0 [(lreg R.LACE_TEST 47, 4)] id).setLaneSt 47 3 7; s.laneSt 47 3 = 7 ∧ s.fld (lreg R.LACE_TEST 47) F.LACE_TEST.MODE = 4 ∧ (s.link 47).fel.testBit 3 = false) ∧
    (let s := (linked 0 [(lreg R.LACE_TEST 47, 6)] id).setLaneSt 47 3 7; s.laneSt 47 3 = 7 ∧ s.fld (lreg R.LACE_TEST 47) F.LACE_TEST.MODE = 6) := by decide +kernel

theorem hyp_LinkCommandsAct_a :
    ((linked 0 [] id).takes a0 (lreg R.LACE_LCFG 47) 1 = true ∧ (linked 0 [] id).linkSt 47 = 0 ∧ (linked 0 [] id).bit (lreg R.LACE_LCFG 47) 0 = false ∧ (linked 4 [] id).linkSt 47 = 4 ∧ (linked 4 [] id).takes a0 (lreg R.LACE_LCFG 47) 0 = true ∧ (linked 2 [] id).takes a0 (lreg R.LACE_LCFG 47) 1 = true) ∧
    (let w : Nat × W32 := (lreg R.LACE_LSTAT 47, fput (fput 0 F.LACE_LSTAT.STATE 2) F.LACE_LSTAT.WARDEN 1); (linked 2 [] id).takes a0 (lreg R.LACE_LCTL 47) 1 = true ∧ (linked 2 [w] id).linkSt 47 = 2 ∧ ((linked 2 [w] id).link 47).retrains + 1 ≤ (linked 2 [w] id).retryCount 8 ∧ (linked 2 [w] id).on (lreg R.LACE_LSTAT 47) F.LACE_LSTAT.WARDEN = true ∧ (linked 2 [w] id).takes a0 (lreg R.LACE_LCTL 47) 2 = true) := by decide +kernel

theorem hyp_LinkCommandsAct_b :
    ((linked 2 [] id).on (lreg R.LACE_LSTAT 47) F.LACE_LSTAT.WARDEN = false ∧ (linked 3 [] id).linkSt 47 = 3 ∧ (linked 3 [] id).takes a0 (lreg R.LACE_LCTL 47) 2 = true ∧ (linked 1 [] id).takes a0 (lreg R.LACE_LCTL 47) 2 = true ∧ (linked 1 [] id).takes a0 (lreg R.LACE_LCTL 47) 1 = true) ∧
    (let s := { summer with flt := { summer.flt with retired := [linkUnit 47] } }; s.takes a0 (lreg R.LACE_LCTL 47) 4 = true ∧ s.linkSt 47 = 5 ∧ s.takes a0 (lreg R.LACE_LCTL 47) 8 = true ∧ s.dieLive 3 = true ∧ summer.takes a0 (lreg R.LACE_LCTL 47) 4 = true ∧ summer.linkSt 47 ≠ 5) := by decide +kernel

theorem hyp_LinkCommandsAct_c :
    (let s := put summer [(R.LIVE_DIE_STATE, 0x334333)]; s.dieLive 3 = false ∧ s.takes a0 (lreg R.LACE_LCTL 47) 8 = true) ∧
    (summer.takes a0 R.LACE_PKG 0xFF = true ∧ summer.linksIdle = true ∧ (linked 2 [] id).takes a0 R.LACE_PKG 0xFF = true ∧ (linked 2 [] id).linksIdle = false) ∧
    (summer.takes a0 (R.LACE_RT 255) 7 = true ∧ summer.takes a0 (R.LACE_WIN_LO 63) 0x1000 = true ∧ summer.takes a0 (R.LACE_WIN_HI 63) 0x80000000 = true ∧ (put summer [(R.LACE_WIN_HI 63, 0x80000000)]).windowEn 63 = true ∧ (put summer [(R.LACE_WIN_HI 63, 0x80000000)]).takes a0 (R.LACE_WIN_LO 63) 0x1000 = true) := by decide +kernel

theorem hyp_LinkPacketsAct_a :
    (let s := linked 2 [] (fun x => { x with replay := [waits 7, waits 8] }); s.linkSt 47 = 2 ∧ hdr0.nak = false ∧ hdr0.ackv = false ∧ (s.link 47).replay = [waits 7] ++ waits 8 :: [] ∧ (8 : BitVec 12).toNat = 8 ∧ 7 ≠ 8) ∧
    (let s := at47 100000 (linked 2 [] (fun x => { x with replay := [waits 7] })); (s.link 47).replay ≠ [] ∧ ((s.link 47).replay.map (fun p => p.count + 1)).foldl max 0 ≤ s.retryCount 8 ∧ (waits 7).sentAt.toNat + 100 * max 1 (s.fld (lreg R.LACE_LCFG 47) F.LACE_LCFG.RTO) ≤ (s.linkDtb 47).toNat) := by decide +kernel

theorem hyp_LinkPacketsAct_e :
    (let s := linkUp [] id; s.linkSt 47 = 2 ∧ s.linkHears 47 = true ∧ s.linkClean 47 = true) ∧
    (let s := linkUp [] (fun x => { x with rx := [(2, 1)], nakked := true }); s.linkSt 47 = 2 ∧ s.linkHears 47 = false ∧ (s.link 47).nakked = true) ∧
    (let s := (linkUp [] id).setFld (lnreg R.LACE_LNSTAT 47 3) F.LACE_LNSTAT.LOCK 0; s.linkSt 47 = 2 ∧ s.linkHears 47 = true ∧ s.linkClean 47 = false) ∧
    (let s := at47 1000 (linkUp [(lreg R.LACE_LSTAT 47, fput (fput 0 F.LACE_LSTAT.STATE 2) F.LACE_LSTAT.WARDEN 1)] (fun x => { x with markAt := some 0 }));
      s.markDue 47 = true ∧ s.linkSt 47 = 2 ∧ s.on (lreg R.LACE_LSTAT 47) F.LACE_LSTAT.WARDEN = true) ∧
    (let s := at47 20 (linkUp [] id); (s.link 47).owes = false ∧ (s.link 47).quiet.toNat + s.fld (lreg R.LACE_LCFG 47) F.LACE_LCFG.IDLE_AFTER ≤ (s.linkDtb 47).toNat) := by
  decide +kernel

/-- A packet on the lanes: none of its symbols is bad, and then one is; a full receive buffer, and a request for another package. -/
theorem hyp_LinkPacketsAct_f :
    (let s := linkUp [] id; let g := encodeSym false symSOP
     s.rxBad 47 [[g]] = false ∧ s.rxBad 47 [[g, 0]] = true ∧ (s.rxLanes 47 [[g]]).linkSt 47 = 2 ∧ (s.rxLanes 47 [[g]]).linkHears 47 = true) ∧
    (let p : LData := ⟨5, 6, 0, 0, 0, 0, .req .read 0x3000 4 false false [] .add 0⟩
     let s := linkUp [] (fun x => { x with buf := [(0, 64)] }); s.bufRoom 47 p = false ∧ (linkUp [] id).bufRoom 47 p = true) := by decide +kernel

/-- The CRC-32 of IEEE 802.3 of the nine digits is CBF43926 (its published check value); a packet on two lanes starts on lane 0 and is filled with PAD (R414, R416). -/
theorem test_framing :
    crc32 [0x31, 0x32, 0x33, 0x34, 0x35, 0x36, 0x37, 0x38, 0x39] = 0xCBF43926 ∧
    (let p : LSent := ⟨none, ⟨true, false, 7, 3, 0⟩, none⟩
     p.words = [0x401C0001, 3, 0] ∧ p.syms.length = 18 ∧ (stripe 4 0 p.syms).head? = some symSOP ∧ (stripe 4 2 p.syms).getLast? = some symPAD) := by decide +kernel

/-- R414, R415, R426: the third packet of a link whose peer has sent one of 2 units on RSP: SEQ, what it acknowledges and returns. -/
theorem test_link_header :
    ((Link.init.send 0 3 1 .swap).send 0 3 1 .swap).nextSeq = 2 ∧
    (let x : Link := { Link.init with expect := 1, taken := true, oweAck := true, oweCr := [(1, 2)], nextSeq := 2 }
     (x.send 7 3 1 (.mark 9 1)).sent = some ⟨some 2, ⟨true, false, 0, 1, 2⟩, some (.mark 9 1)⟩ ∧ (x.send 7 3 1 (.mark 9 1)).owes = false) := by decide

theorem hyp_LinkPacketsAct_b :
    (let s := linked 1 [(lreg R.LACE_LSTAT 47, fput (fput 0 F.LACE_LSTAT.STATE 1) F.LACE_LSTAT.WIDTH 4)] id; (s.link 47).phase = 0 ∧ s.fld (lreg R.LACE_LSTAT 47) F.LACE_LSTAT.WIDTH ≠ 0 ∧ (s.link 47).crIn = false ∧ s.linkSt 47 = 1 ∧ (linked 3 [(lreg R.LACE_LSTAT 47, fput (fput 0 F.LACE_LSTAT.STATE 3) F.LACE_LSTAT.WIDTH 4)] id).linkSt 47 = 3) ∧
    (let s := linked 2 [] id; (s.link 47).expect = 0 ∧ (1 + 4096 - (s.link 47).expect) % 4096 < 2048 ∧ 2048 ≤ (4095 + 4096 - (s.link 47).expect) % 4096 ∧ plainHdr hdr0 = true ∧ (linked 1 [] id).linkSt 47 ≠ 2) := by decide +kernel

theorem hyp_LinkPacketsAct_c :
    (let s := linked 2 [] id; (5 : BitVec 8).toNat ≠ s.pkgId ∧ 0 + 1 < (put s [(R.LACE_CL_CFG, fput 0 F.LACE_CL_CFG.MAXHOP 2)]).maxHop ∧ (put s [(R.LACE_CL_CFG, fput 0 F.LACE_CL_CFG.MAXHOP 2)]).maxHop ≤ 1 + 1 ∧ (0 : BitVec 8).toNat = s.pkgId ∧ s.net = [] ∧ s.sigOut = []) ∧
    (let s := linked 2 [] id; let u := ((s.linkTake 47 [] 0 true hdr0).1.oweUnits 47 0 1); (u.enter { ini := .package 5 3, kind := .read, addr := 0x02000000, len := 1, posted := false, early := false, cls := 0 }).2.1 ≠ 0) ∧
    (let s := put (linked 2 [] id) [(R.GRD_CTL (grdBase 11), 0)]; let u := ((s.linkTake 47 [] 0 true hdr0).1.oweUnits 47 0 1); (u.enter { ini := .package 5 3, kind := .read, addr := 0x01000000, len := 64, posted := false, early := false, cls := 0 }).2.1 = 0) ∧
    (let s := linked 2 [(lreg R.LACE_LSTAT 47, fput (fput 0 F.LACE_LSTAT.STATE 2) F.LACE_LSTAT.WARDEN 1)] (fun x => { x with mark := 65535, swaps := [(65534, true), (65534, false)] }); s.on (lreg R.LACE_LSTAT 47) F.LACE_LSTAT.WARDEN = true ∧ s.linkSt 47 = 2 ∧ ((s.link 47).swaps.filter (fun y => decide (2 ≤ (0 + 65536 - y.1) % 65536))).length = 2) := by decide +kernel

theorem hyp_LinkPacketsAct_d :
    (let s := at47 2000 (linked 2 [] (fun x => { x with asked := some 0 })); (0 : Word).toNat + 2000 ≤ (s.linkDtb 47).toNat ∧ (s.link 47).asked = some 0 ∧ s.linkSt 47 = 2 ∧ (s.link 47).retrains + 1 ≤ s.retryCount 8) ∧
    (let s := linked 2 [(lreg R.LACE_LCFG 47, fput 0 F.LACE_LCFG.IDLE_AFTER 1)] id; s.fld (lreg R.LACE_LCFG 47) F.LACE_LCFG.IDLE_AFTER ≠ 0 ∧ s.fld (lreg R.LACE_PHY_STAT 47) F.LACE_PHY_STAT.RATE ≠ 4 ∧ (s.link 47).replay = [] ∧ s.linkWaits 47 = false) ∧
    (let t0 : LaceTag := ⟨0, 0, none, none, false⟩; let s := tbOf (fun x => { x with master := 1000000000 }) { summer with sigOut := [⟨0x05018000, 1, a0, 0, some t0⟩] }; t0.since.toNat + s.remoteTmo ≤ s.tb.master.toNat ∧ s.sigOut[0]? = some ⟨0x05018000, 1, a0, 0, some t0⟩) := by decide +kernel

theorem hyp_FaultManagerActs_a :
    (State.reset.sup.soleHeld = false ∧ 0x20 ≤ (0x20 : BitVec 8).toNat ∧ (0x2B : BitVec 8).toNat ≤ 0x2B) ∧
    (let s := S [(R.FLT_LOG_CFG, fput 0 F.FLT_LOG_CFG.SIZE 4), (R.FLT_LOG_BASE_LO, 0x01010000)]; s.logSize ≠ 0 ∧ s.logUsed ≠ s.logSize ∧ s.flt.held = [] ∧ s.flt.refused = false ∧ s.entryCheck s.logReq = none) ∧
    (State.reset.sup.soleHeld = false ∧ State.reset.tb.master.toNat < State.reset.flt.recurEnd ∧ (tbOf (fun x => { x with master := 360000000000 }) State.reset).flt.recurEnd ≤ 360000000000) ∧
    (summer.takes a0 R.FLT_ACT (actWord 1 (unitCode 3 31)) = true ∧ summer.unitLive (unitCode 3 31) = true ∧ summer.containersLive (unitCode 3 31) = true) := by decide +kernel

theorem hyp_FaultManagerActs_b :
    (let s := { summer with flt := { summer.flt with retired := [unitCode 3 31] } }; s.takes a0 R.FLT_ACT (actWord 2 (unitCode 3 31)) = true ∧ s.isRetired (unitCode 3 31) = true ∧ s.testing (unitCode 3 31) = false ∧ s.unitPresent (unitCode 3 31) = true ∧ s.containersLive (unitCode 3 31) = true ∧ s.bit (R.FLT_TEST 0) 31 = false) ∧
    (let s := { summer with flt := { summer.flt with retired := [unitCode 3 31] } }; s.takes a0 R.FLT_ACT (actWord 3 (unitCode 3 31)) = true) ∧
    (let s := put { summer with flt := { summer.flt with retired := [unitCode 3 31] } } [(R.FLT_TEST 3, 0x8000301F)]; s.takes a0 R.FLT_ACT (actWord 4 (unitCode 3 31)) = true ∧ s.testing (unitCode 3 31) = true ∧ s.unitPresent (unitCode 3 31) = true) := by decide +kernel

theorem hyp_FaultManagerActs_c :
    (summer.takes a0 R.FLT_ACT (actWord 5 (BitVec.ofNat 16 (0xF000 + 255))) = true ∧ summer.takes a0 R.FLT_LOG_CFG 5 = true ∧ summer.takes a0 R.FLT_LOG_TAIL 5 = true ∧ summer.flt.held = []) ∧
    (let s := { summer with flt := { summer.flt with summary := [⟨unitCode 3 0, none, true, none, 0, none⟩] } }; s.bridgeLive 16 = true ∧ { s with flt := { s.flt with retired := [unitCode 8 16] } }.bridgeLive 16 = false) := by decide +kernel

theorem hyp_OutputStagesAreDriven_a :
    (State.reset.takes heel (R.HSO_CTL 39) 1 = true ∧ State.reset.stageRetired 39 = false ∧ State.reset.owner 39 = none ∧ State.reset.takes heel (R.HBR_HCTL 7) 1 = true ∧ State.reset.takes heel (R.HBR_PCTL 3) 1 = true ∧ State.reset.owner 51 = none) ∧
    (let s := patterned 3 0 [(R.HBR_PATCFG 3, fput (fput 0 F.HBR_PATCFG.KIND 1) F.HBR_PATCFG.P 3)] (some 0); (s.owner 51).isSome = true ∧ s.takes heel (R.HBR_PCTL 3) 1 = true ∧ ((patterned 3 0 [(R.HBR_PATCFG 3, fput 0 F.HBR_PATCFG.A 7)] (some 0)).owner 47).isSome = true) := by decide +kernel

theorem hyp_OutputStagesAreDriven_b :
    (let s := staged 39 200 [] (fun y => { y with pend := [(pwm50, 200)] }); s.stageBlocked 39 = false ∧ s.owner 39 = none ∧ (200 : Word).toNat ≤ s.heelDtb.toNat ∧ (staged 39 100000 [] (fun y => { y with pend := [(pwm50, 200)] })).periodOver 39 = true ∧ 100000 / perUnit 39 % pwm50.period = 0 ∧ turns 51 1 5 = true ∧ pwmMode 39 pwm50.mode = true ∧ pwmMode 51 4 = true) ∧
    (let s := staged 51 0 [] (fun y => { y with fresh := true }); s.edgeWaits 51 = true ∧ s.edgeBusy 51 = false ∧ (let u := staged 39 0 [] (fun y => { y with fresh := true }); u.edgeBusy 39 = false ∧ u.edgeBehind 39 = false ∧ u.edgeAt 39 ≤ 1024 * u.tb.body)) := by decide +kernel

theorem hyp_OutputStagesAreDriven_c :
    (let s := staged 39 0 [] (fun y => { y with cur := pwm50, closed := 1 }); s.stageBlocked 39 = false ∧ (s.stage 39).inPwm 39 = true ∧ (s.stage 39).cur.duty ≠ 1024 ∧ s.inPhase 39 = true ∧ (s.stage 39).onFor ≤ 1024 * (s.tb.body - (s.stage 39).onAt)) ∧
    (let s := staged 51 0 [] (fun y => { y with after := some 9 }); s.stageBlocked 51 = false ∧ (s.stage 51).after = some 9 ∧ s.needDead 51 9 = false) ∧
    (let s := bootOf (fun x => { x with tx := [0x100 + 1, 39] }) State.reset; s.hcmdHead = some (1, 0, [39]) ∧ s.bridgeLive 16 = true ∧ hcmdStage 39 = some 39 ∧ hcmdStage 40 = none ∧ hcmdStage 0x40 = some 40 ∧ hcmdStage 0x47 = some 47) := by decide +kernel

theorem hyp_OutputStagesAreDriven_d :
    ((bootOf (fun x => { x with tx := [0x100 + 2, 0x47] }) State.reset).hcmdHead = some (2, 0, [0x47]) ∧ (bootOf (fun x => { x with tx := [0x200 + 3, 0, 0x00640400] }) State.reset).hcmdHead = some (3, 0, [0, 0x00640400]) ∧ pwmOk 0x00640400 = true ∧ (bootOf (fun x => { x with tx := [0x100 + 1, 40] }) State.reset).hcmdHead = some (1, 0, [40])) := by decide +kernel

theorem hyp_OutputProtectionActs_a :
    (State.reset.sup.vbatLow = false ∧ State.reset.io.outs.stopped = none ∧ State.reset.sup.vbatOv = false ∧ (supOf (fun x => { x with vbatOv := true }) State.reset).sup.vbatOv = true) ∧
    (let s := tbOf (fun y => { y with body := 100000 }) (supOf (fun x => { x with ovWait := some 0, ovOff := true }) (S [(R.HSO_CTL 0, 1), (R.HSO_CTL 1, 2)])); s.sup.ovWait = some 0 ∧ 0 + 100000 ≤ s.tb.body ∧ s.sup.heelHeld = false ∧ s.needDead 0 1 = false ∧ (s.stage 0).due = none ∧ s.owner 0 = none ∧ (s.stage 0).closed = 0 ∧ pwmMode 0 (s.desired 0).mode = false ∧ pwmMode 1 (s.desired 1).mode = true) := by decide +kernel

theorem hyp_OutputProtectionActs_b :
    (let s := staged 47 0 [] (fun y => { y with closed := 1 }); (s.stage 47).closed ≠ 0 ∧ (s.stage 47).since = none) ∧
    (let s := staged 47 5000000 [] (fun y => { y with closed := 1, since := some 0 }); (s.stage 47).since = some 0 ∧ s.tripTime 47 ≤ (s.stage 47).trip + (s.heelDtb.toNat - (0 : Word).toNat) ∧ s.owner 47 = none ∧ s.restarts 47 + 1 ≤ s.restartMax 47) ∧
    (let s := supOf (fun x => { x with soleHeld := true }) (staged 47 5000000 [(diagReg 47, fput 0 F.HSO_DIAG.RESTARTS 15)] (fun y => { y with closed := 1, since := some 0 })); s.restartMax 47 ≤ s.restarts 47 ∧ s.sup.soleHeld = true ∧ s.owner 47 = none ∧ s.heelUp = false) ∧
    (let s := (staged 47 5000000 [(R.HBR_PATCFG 3, fput 0 F.HBR_PATCFG.A 7)] (fun y => { y with closed := 1, since := some 0 })).setPat 3 (some 0); s.owner 47 = some 3 ∧ s.restarts 47 + 1 ≤ s.restartMax 47) := by decide +kernel

theorem hyp_OutputProtectionActs_c :
    (let s := staged 47 0 [] (fun y => { y with closed := 1 }); s.stageBlocked 47 = false ∧ s.owner 47 = none) ∧
    (let s := staged 51 7 [] (fun y => { y with due := some 7 }); (s.stage 51).due = some 7 ∧ (7 : Word).toNat ≤ s.heelDtb.toNat ∧ s.sup.heelHeld = false ∧ s.sup.ovOff = false ∧ (s.stage 51).uv = false) ∧
    (let s := staged 51 100000007 [] (fun y => { y with shutAt := some 7 }); (s.stage 51).shutAt = some 7 ∧ (7 : Word).toNat + 100000000 ≤ s.heelDtb.toNat ∧ s.restarts 51 = 0) ∧
    (let s := supOf (fun x => { x with soleHeld := true }) (staged 39 100000007 [(diagReg 39, fput 0 F.HSO_DIAG.RESTARTS 3)] (fun y => { y with shutAt := some 7 })); s.restarts 39 = 3 ∧ s.stageRetired 39 = false ∧ s.heelUp = false) ∧
    (let s := staged 47 5000000 [(diagReg 47, fput 0 F.HSO_DIAG.RESTARTS 15)] (fun y => { y with closed := 1, since := some 0 }); s.restartMax 47 ≤ s.restarts 47 ∧ s.heelUp = true ∧ s.sup.late = [] ∧ s.testing (stageUnit 47) = false ∧ s.outOfService (stageUnit 47) = false) := by decide +kernel

theorem hyp_OutputProtectionActs_d :
    (let s := staged 51 0 [(R.HBR_PCFG 3, fput (fput 0 F.HBR_PCFG.SHUNT 1) F.HBR_PCFG.OC_LIM 1)] (fun y => { y with closed := 9 }); s.vdsSeen 51 3 = true ∧ (s.stage 51).closed ≠ 0 ∧ s.stageBlocked 51 = false ∧ s.owner 51 = none ∧ s.restarts 51 + 1 ≤ s.restartMax 51 ∧ s.on (R.HBR_PCFG 3) F.HBR_PCFG.SHUNT = true ∧ s.on (R.HBR_PCFG 3) F.HBR_PCFG.OC_LIM = true) := by decide +kernel

theorem hyp_OutputProtectionActs_e :
    (let s := staged 51 0 [] (fun y => { y with uv := true }); (s.stage 51).uv = true ∧ s.sup.heelHeld = false ∧ s.sup.ovOff = false ∧ s.stageRetired 51 = false ∧ (s.stage 51).due = none ∧ s.owner 51 = none ∧ pwmMode 51 (s.desired 51).mode = false) := by decide +kernel

theorem hyp_DiagnosisKeepsAndPatternsAct_a :
    (let s := staged 39 4000 [(R.HSO_DCFG 39, 1)] (fun y => { y with closed := 1, cur := ⟨1, 0, 0, 100⟩ }); s.onPhase 39 = true ∧ s.diagOn = true ∧ s.onDiag 39 = true ∧ longOn 39 (s.stage 39).cur = true ∧ (s.stage 39).onAt + 4000 ≤ s.tb.body ∧ (s.stage 39).mark = none) ∧
    (let s := staged 47 4000 [(R.HBR_HPER 7, 0xFFFFFFFF)] (fun y => { y with closed := 2, cur := ⟨2, 0, 0, 100⟩ }); s.onPhase 47 = true ∧ (s.stage 47).inPwm 47 = false ∧ s.onDiag 47 = true ∧ longOn 47 (s.stage 47).cur = true) := by decide +kernel

theorem hyp_DiagnosisKeepsAndPatternsAct_b :
    (let s := staged 39 4000 [(R.HSO_DCFG 39, fput 1 F.HSO_DCFG.PROBE_N 1024)] (fun y => { y with closed := 1, cur := ⟨2, 1, 0, 100⟩, num := 1023, probe := true }); s.probeDue 39 = true ∧ s.onPhase 39 = true ∧ (s.stage 39).onAt + 4000 ≤ s.tb.body ∧ (s.stage 39).inPwm 39 = true ∧ longOn 39 (s.stage 39).cur = false ∧ s.onDiag 39 = true ∧ probeN (s.rd (R.HSO_DCFG 39)) = 1024 ∧ (s.stage 39).num % 1024 = 1024 - 1 ∧ (s.stage 39).first = false) ∧
    (let s := staged 39 10000 [(R.HSO_DCFG 39, 2)] (fun y => { y with offAt := some 0 }); (s.stage 39).offAt = some 0 ∧ s.on (R.HSO_DCFG 39) F.HSO_DCFG.OFFDIAG = true ∧ s.diagOn = true ∧ (s.stage 39).closed = 0 ∧ (s.stage 39).off = 0 ∧ s.stageRetired 39 = false ∧ 0 + 10000 ≤ s.tb.body) := by decide +kernel

theorem hyp_DiagnosisKeepsAndPatternsAct_c :
    (((staged 39 25000 [] (fun y => { y with offAt := some 0, off := 1 })).stage 39).off = 1 ∧ ((staged 39 30000 [] (fun y => { y with offAt := some 0, off := 3 })).stage 39).off = 3) ∧
    (State.reset.sup.heelHeld = false ∧ State.reset.stageRetired 47 = false ∧ State.reset.ageOut (State.reset.stage 47).meas = true) ∧
    (let s := (S [(R.HSO_KEEP, fput 0 F.HSO_KEEP.K25 2)]).setKeep 1 ⟨true, true, false, 0⟩; (s.keep 1).armed = true ∧ keepMode (s.aonRd R.HSO_KEEP) 1 = 2 ∧ s.keepActive (s.aonRd R.HSO_KEEP) 1 = true) ∧
    (let s := S [(R.HBR_PATCFG 3, fput (fput 0 F.HBR_PATCFG.A 6) F.HBR_PATCFG.B 7)]; s.takes heel (R.HBR_PATCTL 3) 1 = true ∧ s.pat 3 = none ∧ s.patStages 3 = [46, 47] ∧ [46, 47].all (fun x => !s.stageRetired x && (s.owner x).isNone && !s.stageBlocked x) = true ∧ s.fld (R.HBR_PATSTEP 3 0) F.HBR_PATSTEP.END ≠ 2) := by decide +kernel

theorem hyp_DiagnosisKeepsAndPatternsAct_d :
    (State.reset.patStages 3 = [40, 40] ∧ (S [(R.HBR_PATCFG 3, 1)]).patStages 3 = [48] ∧ State.reset.takes heel (R.HBR_PATCTL 3) 1 = true) ∧
    (let s := patterned 3 0 [] (some 0); s.takes heel (R.HBR_PATCTL 3) 2 = true ∧ s.pat 3 = some 0) ∧
    (let s := patterned 3 100000 [(R.HBR_PATCFG 3, fput 0 F.HBR_PATCFG.NSTEPS 3)] (some 0); s.pat 3 = some 0 ∧ s.fld (R.HBR_PATSTAT 3) F.HBR_PATSTAT.STEP < s.fld (R.HBR_PATCFG 3) F.HBR_PATCFG.NSTEPS ∧ s.fld (R.HBR_PATSTEP 3 1) F.HBR_PATSTEP.END ≠ 2 ∧ fget (s.rd (R.HBR_PATSTEP 3 0)) F.HBR_PATSTEP.END = 0 ∧ (0 : Word).toNat + 100000 * max 1 (fget (s.rd (R.HBR_PATSTEP 3 0)) F.HBR_PATSTEP.DUR) ≤ s.heelDtb.toNat) := by decide +kernel

theorem hyp_DiagnosisKeepsAndPatternsAct_e :
    (let s := patterned 3 500000 [(R.HBR_PATSTEP 3 0, fput 0 F.HBR_PATSTEP.END 1)] (some 0); fget (s.rd (R.HBR_PATSTEP 3 0)) F.HBR_PATSTEP.END = 1 ∧ (0 : Word).toNat + 500000 ≤ s.heelDtb.toNat ∧ s.fld (R.HBR_PATCFG 3) F.HBR_PATCFG.NSTEPS ≤ s.fld (R.HBR_PATSTAT 3) F.HBR_PATSTAT.STEP) ∧
    (let s := patterned 3 100000 [(R.HBR_PATSTEP 3 0, fput (fput 0 F.HBR_PATSTEP.END 2) F.HBR_PATSTEP.LEVEL 1)] (some 0); fget (s.rd (R.HBR_PATSTEP 3 0)) F.HBR_PATSTEP.END = 2 ∧ s.patSwitch 3 = false) := by decide +kernel

theorem hyp_InputsAct_a :
    (let s := bootOf (fun x => { x with tx := [4] }) State.reset; s.hcmdHead = some (4, 0, []) ∧ s.bridgeLive 16 = true ∧ s.boot.rx = []) ∧
    (State.reset.sup.heelHeld = false ∧ State.reset.swDue = true ∧ [0, 1, 2, 3].all (fun k => (State.reset.pat k).isNone) = true ∧ (1 : BitVec 64).getLsbD 0 ≠ State.reset.swLevel 0 ∧ max 1 (State.reset.fld (R.SWI_CFG 0) F.SWI_CFG.FILT) ≤ tabGet natZero State.reset.io.swi.cand 0 + 1 ∧ (S [(R.SWI_CFG 63, 0xFFFFFFFF)]).on (R.SWI_CFG 63) F.SWI_CFG.ANA = true) ∧
    ((S [(R.SWI_CFG 63, 0xFFFFFFFF)]).fld (R.SWI_CFG 63) F.SWI_CFG.FILT > tabGet natZero State.reset.io.swi.cand 63 + 1 ∧ ((S [(R.SWI_CFG 63, 0xFFFFFFFF)]).fld (R.SWI_CFG 63) F.SWI_CFG.IRQEDGE).testBit 0 = true) := by decide +kernel

theorem hyp_InputsAct_b :
    (let s := cyclic; s.cycDue = true ∧ s.swMoved ≠ [] ∧ s.swNamed 63 = true ∧ (2 ^ 63 : BitVec 64).getLsbD 63 ≠ s.bit (swReg R.SWI_CYC_REF_LO R.SWI_CYC_REF_HI 63) 31) ∧
    (let s := S [(R.QDEC_CFG 3, 1)]; s.isRetired (qdecUnit 3) = false ∧ (s.qdec 3).learn = false ∧ s.bit (R.QDEC_CFG 3) 0 = true ∧ (lineFilt (max 1 (s.fld (R.QDEC_CFG 3) F.QDEC_CFG.FILT)) (s.qdec 3).a (s.qdec 3).ca true).1 ≠ (s.qdec 3).a ∧ s.bit (R.QDEC_CFG 3) 8 = false) ∧
    (let s := (S [(R.QDEC_CFG 3, 1)]).setQdec 3 ⟨true, false, 0, 0, 2, 7, false, none⟩; s.qdecDue 3 = true ∧ (s.qdec 3).counts ≠ 0 ∧ (lineFilt 1 true 0 false).1 = false ∧ (lineFilt 1 false 0 true).1 = true) := by decide +kernel

theorem hyp_InputsAct_c :
    (let s := State.reset.setQdec 3 { Qdec.init with learn := true }; (s.qdec 3).learn = true ∧ s.qdecDue 3 = true ∧ s.sup.heelHeld = false) ∧
    (State.reset.takes heel (R.QDEC_CTL 3) 1 = true ∧ State.reset.isRetired (qdecUnit 3) = false ∧ State.reset.takes heel (R.QDEC_CTL 3) 2 = true ∧ State.reset.takes heel (R.QDEC_POS 3) 5 = true ∧ State.reset.bit (R.QDEC_CFG 3) 0 = false ∧ (S [(R.QDEC_CFG 3, 1)]).takes heel (R.QDEC_POS 3) 5 = true) ∧
    ((1 : Nat) ≤ State.reset.retryCount 0xB ∧ (State.reset.heelUp = true ∧ State.reset.sup.late = [] ∧ (supOf (fun x => { x with soleHeld := true }) State.reset).heelUp = false) ∧ State.reset.testing (qdecUnit 3) = false ∧ State.reset.outOfService (qdecUnit 3) = false) := by decide +kernel

theorem hyp_MessageBusesAct_a :
    (let s := S [(R.MBC_NBT 7, 0x1C7E0), (R.MBC_DBT 7, 0x4C0)]; s.takes heel (R.MBC_CTL 7) (1 &&& ~~~1) = true ∧ s.mbcInit 7 = true ∧ s.timingOk 7 = true ∧ (S [(R.MBC_NBT 7, 0)]).timingOk 7 = false ∧ (S [(R.MBC_NBT 7, 0)]).takes heel (R.MBC_CTL 7) 0 = true) ∧
    (let s := onBus [] id; s.takes heel (R.MBC_CTL 7) (0 ||| 1) = true ∧ s.mbcInit 7 = false ∧ s.mbcState 7 < 2 ∧ (s.mbc 7).tx = none ∧ (s.mbc 7).cell = none) := by decide +kernel

theorem hyp_MessageBusesAct_b :
    (let s := onBus [] id; s.mbcUp 7 = true ∧ (s.mbc 7).joined = false ∧ s.mbcReady 7 = []) ∧
    (let s := onBus [(R.MBC_TXREQ 7, 0x80000000)] id; s.mbcUp 7 = true ∧ s.mbcInit 7 = false ∧ s.mbcState 7 < 2 ∧ (s.mbc 7).joined = false ∧ (s.mbc 7).tx = none ∧ s.fld (R.MBC_CTL 7) F.MBC_CTL.MODE = 0 ∧ s.mbcReady 7 = [(31, List.replicate 80 0)] ∧ txBad (txFrame (List.replicate 80 0)) = false) := by decide +kernel

theorem hyp_MessageBusesAct_c :
    (let s := onBus [(R.MBC_STAT 7, 2)] id; s.takes heel (R.MBC_CTL 7) (s.rd (R.MBC_CTL 7) ||| 0x100) = true ∧ s.mbcInit 7 = false ∧ s.mbcState 7 = 2 ∧ (onBus [] id).mbcState 7 ≠ 2 ∧ (onBus [] id).takes heel (R.MBC_CTL 7) 0x100 = true) ∧
    (let s := onBus [(R.MBC_STAT 7, 3)] id; s.mbcUp 7 = true ∧ s.mbcInit 7 = false ∧ s.mbcState 7 = 3) ∧
    (State.reset.takes heel (R.MBC_TXREQ 7) 0x80000000 = true ∧ State.reset.mbcCanSend 7 = false ∧ (onBus [] sends31).takes heel (R.MBC_TXREQ 7) 1 = true ∧ ((onBus [] sends31).mbc 7).tx ≠ none) := by decide +kernel

theorem hyp_MessageBusesAct_d :
    (let s := onBus [] hasJoined; s.takes heel (R.MBC_TXREQ 7) 0x80000000 = true ∧ s.mbcCanSend 7 = true ∧ (s.mbc 7).tx = none ∧ (s.mbc 7).cell = none ∧ s.rd (R.MBC_TXREQ 7) = 0 ∧ s.on (R.MBC_PT_STAT 7) F.MBC_PT_STAT.PTX_BUSY = false) ∧
    (let s := onBus [] hasJoined; s.lastRun 7 = false ∧ s.lastState 7 ≠ 2 ∧ (0x80000000 : W32) = BitVec.ofNat 32 (2 ^ 31) ∧ txBad (txFrame (s.bytes (txElem 7 31) 80)) = false) := by decide +kernel

theorem hyp_MessageBusesAct_e :
    (let s := (onBus [] hasJoined).putBytes (txElem 7 31 + 4) [0x20]; s.mbcCanSend 7 = true ∧ txBad (txFrame (s.bytes (txElem 7 31) 80)) = true ∧ (s.mbc 7).fails.length < 16) ∧
    (let s := onBus [(R.MBC_TXREQ 7, 0x80000000)] id; s.takes heel (R.MBC_TXCAN 7) 0x80000000 = true ∧ (s.mbc 7).tx = none ∧ (s.mbc 7).cell = none ∧ s.bit (R.MBC_TXREQ 7) 31 = true ∧ (s.mbc 7).fails.length < 16) := by decide +kernel

theorem hyp_MessageBusesAct_f :
    (let s := onBus [] sends31; s.takes heel (R.MBC_TXCAN 7) 0x80000000 = true ∧ (s.mbc 7).tx = some 31 ∧ (s.mbc 7).orphan = false ∧ (s.mbc 7).abort = none ∧ (s.mbc 7).txCell = none ∧ (s.mbc 7).cell = none) ∧
    (let s := onBus [(R.MBC_TXREQ 7, 0x80000000)] sends31; s.mbcUp 7 = true ∧ s.mbcInit 7 = false ∧ (s.mbc 7).tx = some 31 ∧ (s.mbc 7).orphan = false ∧ (s.mbc 7).txCell = none ∧ (s.mbc 7).win = none ∧ s.mbcTec 7 ≤ 256 ∧ s.fld (R.MBC_CTL 7) F.MBC_CTL.MODE ≠ 3) := by decide +kernel

theorem hyp_MessageBusesAct_g :
    (let s := onBus [(R.MBC_TXREQ 7, 0x80000000)] sends31; (s.mbc 7).abort = none ∧ s.bit (R.MBC_CTL 7) 3 = false ∧ txOneshot (s.mbc 7).snap = false ∧ txBad (txFrame (s.bytes (txElem 7 31) 80)) = false ∧ s.bit (R.MBC_TXREQ 7) 31 = true) ∧
    ((put (onBus [] sends31) [(R.MBC_CTL 7, 8)]).bit (R.MBC_CTL 7) 3 = true ∧ BusErr.crc ≠ BusErr.ack ∧ (onBus [(R.MBC_ECNT 7, 247)] sends31).mbcTec 7 + 8 + 8 * 0 ≤ 255) := by decide +kernel

theorem hyp_MessageBusesAct_h :
    (let s := onBus [(R.MBC_RXF_STAT 7, fput 0 F.MBC_RXF_STAT.FILL 47), (R.MBC_FLT_ID 7 31, fput 5 F.MBC_FLT_ID.ACT 1), (R.MBC_FLT_MASK 7 31, 0x1FFFFFFF)] hasJoined; s.mbcListens 7 = true ∧ s.mbcRec 7 ≤ 127 ∧ s.mbcTec 7 ≤ 255 ∧ s.filterOf 7 (frame0 5) = some 31 ∧ s.fld (R.MBC_FLT_ID 7 31) F.MBC_FLT_ID.ACT = 1 ∧ s.fld (R.MBC_RXF_STAT 7) F.MBC_RXF_STAT.FILL < 48 ∧ s.filterOf 7 (frame0 4) = none ∧ s.bit (R.MBC_CTL 7) 5 = false) ∧
    (let s := S [(R.MBC_RXF_STAT 7, fput 0 F.MBC_RXF_STAT.FILL 1)]; s.takes heel (R.MBC_RXF_ACK 7) 0 = true ∧ s.fld (R.MBC_RXF_STAT 7) F.MBC_RXF_STAT.FILL ≠ 0 ∧ s.takes heel (R.MBC_FAIL_POP 7) 0 = true) := by decide +kernel

theorem hyp_MessageBusesAct_i :
    (let s := onBus [(R.MBC_RXF_STAT 7, fput 0 F.MBC_RXF_STAT.FILL 1)] hasJoined; s.mbcUp 7 = true ∧ s.mbcInit 7 = false ∧ 0 < s.retryCount 0xB ∧ (0 + 48 - s.fld (R.MBC_RXF_STAT 7) F.MBC_RXF_STAT.GET) % 48 < s.fld (R.MBC_RXF_STAT 7) F.MBC_RXF_STAT.FILL ∧ s.mbcListens 7 = true ∧ s.mbcTec 7 ≤ 255 ∧ s.bit (R.MBC_CTL 7) 4 = false) := by decide +kernel

theorem hyp_MatrixAndBusCommandsAct_a :
    (let s := onBus [(R.LAST_LEN 7, 100)] id; s.takes heel (R.LAST_CTL 7) 1 = true ∧ s.lastRun 7 = false ∧ (s.setFld (R.LAST_CTL 7) F.LAST_CTL.MODE 2).lastCode 7 = 0 ∧ s.takes heel (R.LAST_CTL 7) 5 = true ∧ (State.reset.setFld (R.LAST_CTL 7) F.LAST_CTL.MODE 0).lastCode 7 ≠ 0 ∧ State.reset.takes heel (R.LAST_CTL 7) 1 = true) ∧
    (let s := onBus [(R.LAST_CTL 7, 1)] id; s.takes heel (R.LAST_CTL 7) 7 = true ∧ s.lastRun 7 = true ∧ s.takes heel (R.LAST_CTL 7) (s.rd (R.LAST_CTL 7) &&& 6) = true) := by decide +kernel

theorem hyp_MatrixAndBusCommandsAct_b :
    (let s := onBus [(R.LAST_CTL 7, 1), (R.LAST_STAT 7, fput 0 F.LAST_STAT.STATE 1)] id; s.mbcUp 7 = true ∧ s.lastRun 7 = true ∧ s.lastMode 7 ≠ 2 ∧ s.lastState 7 = 1 ∧ s.lastStart 7 (s.mbc 7).k ≤ s.heelDtb.toNat) ∧
    (let s := onBus [(R.LAST_CTL 7, 5), (R.LAST_STAT 7, fput 0 F.LAST_STAT.STATE 3)] (fun x => { x with ref := some (some 63, 9) }); s.mbcUp 7 = true ∧ s.lastRun 7 = true ∧ s.lastMode 7 = 2 ∧ s.lastState 7 = 3 ∧ (s.mbc 7).ref = some (some 63, 9)) := by decide +kernel

theorem hyp_MatrixAndBusCommandsAct_c :
    (let s := onBus [(R.LAST_CTL 7, 5), (R.LAST_CFG 7, 0), (R.LAST_STAT 7, fput 0 F.LAST_STAT.STATE 2)] id; s.lastRun 7 = true ∧ s.lastMode 7 = 2 ∧ s.lastState 7 = 2 ∧ (s.mbc 7).ref = none ∧ (s.mbc 7).refAt.toNat + 100 * s.fld (R.LAST_LEN 7) F.LAST_LEN.LEN + 1000 * s.fld (R.LAST_CFG 7) F.LAST_CFG.REFTMO ≤ s.heelDtb.toNat) ∧
    (let s := onBus [(R.LAST_STAT 7, fput 0 F.LAST_STAT.STATE 2), (R.LAST_CELL 7 0 0, 0xFD)] hasJoined; s.mbcUp 7 = true ∧ s.lastState 7 = 2 ∧ (s.mbc 7).nextSlot < s.lastSlots 7 ∧ (s.mbc 7).start.toNat + 100 * s.slotOff 7 (s.mbc 7).nextSlot ≤ s.heelDtb.toNat ∧ (s.mbc 7).openSlot = none ∧ s.lastCell 7 (s.fld (R.LAST_STAT 7) F.LAST_STAT.ROW) 0 = (1, some 31) ∧ txReady (s.bytes (txElem 7 31) 80) = false) := by decide +kernel

theorem hyp_MatrixAndBusCommandsAct_d :
    (let s := (onBus [(R.LAST_STAT 7, fput 0 F.LAST_STAT.STATE 2), (R.LAST_CELL 7 0 0, 0xFD)] hasJoined).putBytes (txElem 7 31 + 5) [2]; txReady (s.bytes (txElem 7 31) 80) = true ∧ s.mbcCanSend 7 = true ∧ (s.mbc 7).tx = none ∧ txBad (txFrame (s.bytes (txElem 7 31) 80)) = false ∧ s.lastState 7 = 2) ∧
    (let s := onBus [] (fun x => { x with openSlot := some 31 }); s.mbcUp 7 = true ∧ (s.mbc 7).openSlot = some 31 ∧ (s.mbc 7).start.toNat + 100 * (s.slotOff 7 31 + s.slotWin 7 31) ≤ s.heelDtb.toNat ∧ (s.mbc 7).cell = none) := by decide +kernel

theorem hyp_MatrixAndBusCommandsAct_e :
    (let s := onBus [] (fun x => { x with openSlot := some 31, cell := some cell31 }); s.mbcUp 7 = true ∧ (s.mbc 7).openSlot = some 31 ∧ (s.mbc 7).start.toNat + 100 * (s.slotOff 7 31 + s.slotWin 7 31) ≤ s.heelDtb.toNat ∧ (s.mbc 7).cell = some cell31 ∧ (s.mbc 7).fails.length < 16) ∧
    (let s := onBus [] (fun x => { sends31 x with openSlot := some 0, txCell := some cell31, win := some (0, 0) }); (s.mbc 7).tx = some 31 ∧ (s.mbc 7).openSlot = some 0 ∧ (s.mbc 7).cell = none ∧ (s.mbc 7).win = some ((s.mbc 7).start.toNat + 100 * s.slotOff 7 0, (s.mbc 7).start.toNat + 100 * s.slotOff 7 0 + 100 * s.slotWin 7 0) ∧ (s.mbc 7).txCell = some cell31 ∧ cell31.slot = 0 ∧ (s.mbc 7).orphan = false ∧ (s.mbc 7).abort = none) ∧
    (let s := saying [0x305, 0x407, 0x12345678, 9] (onBus [] id); s.hcmdHead = some (5, 0, [0x407, 0x12345678, 9]) ∧ s.bridgeLive 16 = true ∧ s.boot.rx = [] ∧ ([9] : List W32).length = (fget 0x407 ⟨8, 7⟩ + 3) / 4 ∧ fget 0x407 ⟨0, 4⟩ < 8 ∧ lenDlc ((0x12345678 : W32).getLsbD 30) 4 = some 4 ∧ (0x12345678 : W32).getLsbD 31 = false) := by decide +kernel

theorem hyp_MatrixAndBusCommandsAct_f :
    (let s := onBus [] id; s.isRetired (mbcUnit 7) = false ∧ s.mbcInit 7 = false ∧ s.on (R.MBC_PT_STAT 7) F.MBC_PT_STAT.PTX_BUSY = false ∧ State.reset.mbcInit 7 = true ∧ (saying [0x205, 0x407, 0] s).hcmdHead = some (5, 0, [0x407, 0])) ∧
    (let s := { State.reset with flt := { State.reset.flt with retired := [mbcUnit 7] } }; s.isRetired (mbcUnit 7) = true ∧ (saying [0x305, 0x407, 0, 9] s).hcmdHead = some (5, 0, [0x407, 0, 9])) := by decide +kernel

theorem hyp_MatrixAndBusCommandsAct_g :
    (let s := saying [0x405, 0x80F, 63, 9, 8] (S [(R.LIN_CTL 7, 1)]); s.hcmdHead = some (5, 0, [0x80F, 63, 9, 8]) ∧ s.bridgeLive 16 = true ∧ s.boot.rx = [] ∧ ([9, 8] : List W32).length = (fget 0x80F ⟨8, 7⟩ + 3) / 4 ∧ fget 0x80F ⟨0, 4⟩ = 15 ∧ fget 0x80F ⟨8, 7⟩ = 8 ∧ s.linMode 7 = 0 ∧ s.isRetired (linUnit 7) = false ∧ s.bit (R.LIN_CTL 7) 0 = true) := by decide +kernel

theorem hyp_MatrixAndBusCommandsAct_h :
    (let s := saying [0x106, 7] (onBus [(R.MBC_PT_STAT 7, fput 0 F.MBC_PT_STAT.PTRX_FILL 16)] id); s.hcmdHead = some (6, 0, [7]) ∧ s.bridgeLive 16 = true ∧ s.boot.rx = [] ∧ s.isRetired (mbcUnit 7) = false ∧ s.mbcInit 7 = false ∧ s.fld (R.MBC_PT_STAT 7) F.MBC_PT_STAT.PTRX_FILL ≠ 0 ∧ (onBus [] id).fld (R.MBC_PT_STAT 7) F.MBC_PT_STAT.PTRX_FILL = 0) ∧
    (let s := saying [0x106, 15] ((S [(R.LIN_CTL 7, 1)]).setLin 7 { Lin.init with pass := [(63, [1, 2, 3, 4, 5, 6, 7, 8])] }); s.hcmdHead = some (6, 0, [15]) ∧ s.linMode 7 ≠ 2 ∧ s.isRetired (linUnit 7) = false ∧ s.bit (R.LIN_CTL 7) 0 = true ∧ (s.lin 7).pass = [(63, [1, 2, 3, 4, 5, 6, 7, 8])]) := by decide +kernel

theorem hyp_LinControllersAct_a :
    (let s := onLin7 3 [] id; s.takes heel (R.LIN_HDR 7) 63 = true ∧ s.linUp 7 = true ∧ s.linMode 7 = 1 ∧ (s.lin 7).frame = none ∧ ((onLin7 3 [] (lframe .header id)).lin 7).frame ≠ none ∧ (onLin7 3 [] (lframe .header id)).takes heel (R.LIN_HDR 7) 0 = true) ∧
    (let s := onLin7 1 [] id; s.linUp 7 = true ∧ s.linOnBus 7 = true ∧ (s.lin 7).waking = false ∧ (s.lin 7).quiet.toNat ≤ (7 : Word).toNat ∧ s.linMode 7 = 0 ∧ 11 * 5 * s.linDiv 7 ≤ 4 * ((0x10000 : Word).toNat - (7 : Word).toNat) ∧ (s.lin 7).frame = none) := by decide +kernel

theorem hyp_LinControllersAct_b :
    (let s := onLin7 3 [] (lframe .header id); s.linUp 7 = true ∧ s.linMode 7 = 1 ∧ (s.lin 7).frame = some (linFrame .header 0 0 80) ∧ (linFrame .header 0 0 80).phase = .header ∧ 5 * s.linDiv 7 * (13 + s.fld (R.LIN_CTL 7) F.LIN_CTL.BRKLEN) < 4 * ((0x20000 : Word).toNat - (7 : Word).toNat + 1) ∧ charOf (2 ^ 192 - 1) 0 false = none ∧ s.linMode 7 ≠ 2) ∧
    (let s := onLin7 3 [] (lframe .break_ id); s.linMode 7 = 1 ∧ charOf (charSamples 0x55) 0 false = some (0x55, false, false) ∧ charOf (charSamples 0xFE) 0 false = some (0xFE, false, false) ∧ (s.lin 7).frame = some (linFrame .break_ 0 0 80) ∧ (s.lin 7).low = false) ∧
    ((onLin7 3 [] (fun x => { x with low := true })).lin 7).low = true ∧
    (let s := tbOf (fun y => { y with copy := [(0, 0x20000)] }) (onLin7 3 [] (lframe .break_ id)); 5 * s.linDiv 7 * (10 + s.fld (R.LIN_CTL 7) F.LIN_CTL.DELIM) ≤ 4 * (s.heelDtb.toNat - (0 : Word).toNat + 1)) ∧
    (((onLin7 3 [] (lframe .sync id)).lin 7).frame = some (linFrame .sync 0 0 80) ∧ ((onLin7 3 [] (lframe .response (fun f => { f with len := 8, data := List.replicate 8 1 }))).lin 7).frame = some { linFrame .response 0 0 80 with len := 8, data := List.replicate 8 1 }) := by decide +kernel

theorem hyp_LinControllersAct_c :
    (let s := onLin7 5 [] (fun x => { x with urx := List.replicate 15 (1, false, false) }); s.linUp 7 = true ∧ s.linMode 7 = 2 ∧ charOf (charSamples 0xFE) (s.fld (R.LIN_CTL 7) F.LIN_CTL.PAR) (s.bit (R.LIN_CTL 7) 12) = some (0xFE, false, false) ∧ (s.lin 7).urx.length < 16 ∧ ((onLin7 5 [] (fun x => { x with urx := List.replicate 16 (1, false, false) })).lin 7).urx.length = 16) ∧
    (let s := onLin7 1 [] (lframe .pid (fun f => { f with pid := 0x3F })); s.linUp 7 = true ∧ ((s.lin 7).frame.map LinFrame.pid) = some 0x3F ∧ (0x3F : Byte) ≠ linPid 63 ∧ (0xBF : Byte) = linPid 63 ∧ (s.lin 7).frame = some { linFrame .pid 0 0 80 with pid := 0x3F }) := by decide +kernel

theorem hyp_LinControllersAct_d :
    (let s := onLin7 1 [(R.LIN_RESP 7 63, 0)] id; fget (s.rd (R.LIN_RESP 7 63)) F.LIN_RESP.ACT = 0 ∧ fget ((onLin7 1 [(R.LIN_RESP 7 63, 2)] id).rd (R.LIN_RESP 7 63)) F.LIN_RESP.ACT = 2 ∧ ((onLin7 1 [] (lframe .pid (fun f => { f with pid := 0xBF }))).lin 7).frame = some { linFrame .pid 0 0 80 with pid := 0xBF }) ∧
    (((onLin7 1 [] (lframe .response (fun f => { f with publish := true }))).lin 7).frame = some { linFrame .response 0 0 80 with publish := true } ∧ ((onLin7 1 [] (lframe .response (fun f => { f with fe := true }))).lin 7).frame = some { linFrame .response 0 0 80 with fe := true } ∧ ((onLin7 1 [] (lframe .response (fun f => { f with len := 1, data := [1, 0xFE] }))).lin 7).frame = some { linFrame .response 0 0 80 with len := 1, data := [1] ++ [0xFE] }) ∧
    (tframe4 (linFrame .response 0 0 0) ≤ 4 * (State.reset.heelDtb.toNat - (0 : Word).toNat) ∧ (let s := tbOf (fun y => { y with body := 500000 }) (onLin7 1 [] (fun x => { x with waking := true })); (s.lin 7).waking = true ∧ s.linWakeOver 7 = true) ∧ ((onLin7 5 [] (fun x => { x with utx := [1] })).lin 7).utx = 1 :: []) := by decide +kernel

theorem hyp_LinControllersAct_e :
    (let s := onLin7 1 [] id; s.takes heel (R.LIN_WUTX 7) (BitVec.ofNat 32 (1 + 256 * (0xFF : Byte).toNat)) = true ∧ s.linUp 7 = true ∧ s.linMode 7 ≠ 2 ∧ (s.lin 7).waking = false ∧ (s.lin 7).frame = none ∧ s.takes heel (R.LIN_BAUD 7) 79 = true ∧ s.takes heel (R.LIN_BAUD 7) 80 = true ∧ s.takes heel (R.LIN_RQ_POP 7) 0 = true) ∧
    (let s := onLin7 5 [] (fun x => { x with utx := List.replicate 15 1, urx := [(0xFF, true, true)] }); s.takes heel (R.LIN_UART_TX 7) ((0xFF : Byte).setWidth 32) = true ∧ (s.lin 7).utx.length < 16 ∧ s.gives heel (R.LIN_UART_RX 7) = true ∧ (s.lin 7).urx = [(0xFF, true, true)]) := by decide +kernel

theorem hyp_LinControllersAct_f :
    (let s := State.reset; s.sup.heelHeld = false ∧ s.isRetired (linUnit 7) = false ∧ (s.lin 7).frame = none ∧ 0 < s.retryCount 0xB ∧ s.testing (linUnit 7) = false ∧ s.outOfService (linUnit 7) = false) := by decide +kernel

theorem hyp_TransceiversAndBusWakesAct_a :
    (let s := State.reset; s.takes heel (R.WAKE_XCFG 3) 3 = true ∧ s.isRetired (mbcUnit 3) = false ∧ s.takes heel (R.LIN_XCVR 3) 2 = true ∧ s.isRetired (linUnit 3) = false ∧ s.sup.heelHeld = false ∧ s.sup.aonHeld = false) ∧
    ((S [(R.WAKE_XSTAT 3, 4)]).mbState 3 = 4 ∧ ((State.reset.setXcv 7 { Xcv.init with st := 2 }).xcv (4 + 3)).st = 2) := by decide +kernel

theorem hyp_TransceiversAndBusWakesAct_b :
    (State.reset.mbState 3 = 1 ∧ 100 * (1800 + 1800 + 1800) ≤ 95 * 1000000 ∧ ((S [(R.WAKE_XCFG 3, 0x10)]).aonRd (R.WAKE_XCFG 3)).getLsbD 4 = true ∧ (State.reset.aonRd (R.WAKE_XCFG 3)).getLsbD 4 = false ∧ (State.reset.xcv (4 + 3)).st = 1 ∧ fget (State.reset.aonRd R.WAKE_LCFG) ⟨6, 2⟩ + 2 ≤ 5 ∧ 1 < fget (State.reset.aonRd R.WAKE_LCFG) ⟨6, 2⟩ + 2) ∧
    (let s := (S [(R.WAKE_XSTAT 3, 2)]).setXcv 3 { Xcv.init with ready := true }; s.mbState 3 = 2 ∧ (s.xcv 3).ready = true ∧ s.fld (R.WAKE_XSTAT 3) F.WAKE_XSTAT.FEC < 31 ∧ (S [(R.WAKE_XSTAT 3, fput 2 F.WAKE_XSTAT.FEC 31)]).fld (R.WAKE_XSTAT 3) F.WAKE_XSTAT.FEC = 31 ∧ (s.aonRd (R.WAKE_XCFG 3)).getLsbD 5 = true) := by decide +kernel

theorem hyp_TransceiversAndBusWakesAct_c :
    (let s := S [(R.WAKE_SWID 3, 5), (R.WAKE_SWMASK 3, 0x1FFFFFFF)]; (((frame0 5).id ^^^ (s.aonRd (R.WAKE_SWID 3)).setWidth 29) &&& (s.aonRd (R.WAKE_SWMASK 3)).setWidth 29) = 0 ∧ (frame0 5).ide = (s.aonRd (R.WAKE_SWID 3)).getLsbD 29 ∧ (frame0 5).rtr = false ∧ (s.aonRd (R.WAKE_XCFG 3)).getLsbD 9 = false ∧ (((frame0 4).id ^^^ (s.aonRd (R.WAKE_SWID 3)).setWidth 29) &&& (s.aonRd (R.WAKE_SWMASK 3)).setWidth 29) ≠ 0) := by decide +kernel

theorem hyp_AngleUnitTurnsTeethIntoEvents_a :
    (let s := turning 1 1 1001 [] id; s.angUp = true ∧ (true ≠ s.bit R.ANG_CTL 4) ∧ (false = s.bit R.ANG_CTL 4) ∧ s.ang.last = none ∧ ((turning 1 1 1001 [] (edged 1000 0)).ang.last = some 0)) ∧
    (let s := turning 3 1 1001 [] (edged 500 57); s.angUp = true ∧ s.angSt = 1 ∧ s.gapCand (s.angStamp - (0 : Word).toNat) = true ∧ s.twoRev = true ∧ (turning 1 1 1001 [] (edged 500 57)).twoRev = false ∧ (turning 1 1 1001 [] (edged 1000 57)).gapCand 1000 = false) := by decide +kernel

theorem hyp_AngleUnitTurnsTeethIntoEvents_b :
    (let s := turning 3 2 1001 [] (edged 500 57); s.angUp = true ∧ s.angSt = 2 ∧ s.gapCand (s.angStamp - (0 : Word).toNat) = true ∧ s.ang.since + 1 = s.teeth - s.angGap ∧ s.ang.gapCam = false ∧ (turning 3 2 1001 [] (edged 500 0)).ang.since + 1 ≠ s.teeth - s.angGap) ∧
    (let s := turning 1 3 1001 [] (edged 500 0); s.angUp = true ∧ s.angSt = 3 ∧ s.gapCand (s.angStamp - (0 : Word).toNat) = true ∧ s.ang.since + 1 ≠ s.teeth - s.angGap) := by decide +kernel

theorem hyp_AngleUnitTurnsTeethIntoEvents_c :
    (let s := turning 3 3 1001 [] (edged 500 57); s.angUp = true ∧ s.angSt = 3 ∧ s.gapCand (s.angStamp - (0 : Word).toNat) = true ∧ s.ang.since + 1 = s.teeth - s.angGap ∧ s.twoRev = true ∧ decide (s.fld R.ANG_STAT F.ANG_STAT.REV = 1) = (false != s.bit R.ANG_CTL 5)) ∧
    (let s := turning 1 3 201 [] (edged 200 3); s.angUp = true ∧ s.angSt = 3 ∧ s.gapCand (s.angStamp - (0 : Word).toNat) = false ∧ s.ang.since + 1 ≠ s.teeth - s.angGap ∧ 200 ≤ s.angStamp - (0 : Word).toNat) := by decide +kernel

theorem hyp_AngleUnitTurnsTeethIntoEvents_d :
    (let s := turning 1 4 1001 [] (edged 500 0); s.angUp = true ∧ s.angSt = 4 ∧ s.gapCand (s.angStamp - (0 : Word).toNat) = true ∧ s.coded = false) ∧
    (let s := turning 1 5 1001 [] (fun x => { edged 500 0 x with gaps := 1 }); s.angUp = true ∧ s.angSt = 5 ∧ s.gapCand (s.angStamp - (0 : Word).toNat) = true ∧ s.ang.gaps ≠ 0 ∧ s.ang.since + 1 ≠ s.teeth - s.angGap) := by decide +kernel

theorem hyp_AngleUnitTurnsTeethIntoEvents_e :
    (let s := turning 5 0x80005 1001 [] (edged 500 0); s.angUp = true ∧ s.angSt = 5 ∧ s.gapCand (s.angStamp - (0 : Word).toNat) = true ∧ s.ang.gaps = 0 ∧ s.coded = true ∧ s.twoRev = false ∧ s.fwdn ≤ s.fld R.ANG_STAT F.ANG_STAT.FWDCNT) ∧
    (let s := turning 5 4 1001 [] (fun x => { edged 500 0 x with judge := true }); s.angUp = true ∧ s.ang.judge = true ∧ s.angStamp < s.lastStamp + s.dirth ∧ s.angSt = 4 ∧ (turning 5 5 1 [] id).angSt = 5) := by decide +kernel

theorem hyp_AngleUnitTurnsTeethIntoEvents_f :
    (let s := turning 5 3 6750 [] (fun x => { edged 500 0 x with judge := true }); s.angUp = true ∧ s.ang.judge = true ∧ s.lastStamp + s.dirth ≤ s.heelDtb.toNat ∧ s.angSt ≠ 4) ∧
    (let s := turning 1 3 10000000 [] (fun x => { x with stallFrom := some 0 }); s.angUp = true ∧ s.ang.stallFrom = some 0 ∧ (0 : Word).toNat + 100000 * max 1 (s.fld R.ANG_CONF F.ANG_CONF.STALL) ≤ s.heelDtb.toNat) := by decide +kernel

theorem hyp_AngleUnitTurnsTeethIntoEvents_g :
    (let s := turning 1 3 10 [(R.ANG_CHSTAT 23, 1), (R.ANG_CHCFG 23, 0x7FB1)] (fun x => { x with chs := [(23, { AngCh.init with at_ := 10 })] }); s.angUp = true ∧ s.chSt 23 = 1 ∧ (s.angCh 23).at_.toNat ≤ s.heelDtb.toNat ∧ s.reaches (s.angCh 23).ahead = true ∧ s.chMode 23 = 0 ∧ s.angDist (s.angCh 23).start (s.angCh 23).fin = 0 ∧ s.bit (R.ANG_CHCFG 23) 8 = true) ∧
    (let s := turning 1 3 10 [(R.ANG_CHCFG 23, 0x7FB1)] id; (List.replicate 64 (0 : BitVec 12))[s.fld (R.ANG_CHCFG 23) F.ANG_CHCFG.SW]? = some 0 ∧ s.fld (R.ANG_CHCFG 23) F.ANG_CHCFG.ROUTE = 11 ∧ s.angDist 1 3839 ≠ 0 ∧ (S [(R.ANG_CHCFG 23, 3)]).chMode 23 = 1 ∧ (S [(R.ANG_CHCFG 23, 5)]).chMode 23 = 2) := by decide +kernel

theorem hyp_AngleUnitTurnsTeethIntoEvents_h :
    (let s := turning 1 3 10 [(R.ANG_CHSTAT 23, 2)] (fun x => { x with chs := [(23, { AngCh.init with at_ := 10 })] }); s.angUp = true ∧ s.chSt 23 = 2 ∧ (s.angCh 23).at_.toNat ≤ s.heelDtb.toNat ∧ s.reaches (s.angCh 23).ahead = true ∧ s.bit (R.ANG_CHCFG 23) 3 = false ∧ (S [(R.ANG_CHCFG 23, 8)]).bit (R.ANG_CHCFG 23) 3 = true) ∧
    (let s := State.reset; s.takes heel (R.ANG_CHDUR 23) 5 = true ∧ s.takes heel (R.ANG_CHANG 0) 5 = true ∧ s.takes heel (R.ANG_CHCFG 23) 1 = true ∧ s.chSt 23 = 0 ∧ s.angSt ≠ 3 ∧ (turning 1 3 0 [] id).takes heel (R.ANG_CHCFG 23) 1 = true ∧ (turning 1 3 0 [] id).angSt = 3) := by decide +kernel

theorem hyp_AngleUnitTurnsTeethIntoEvents_i :
    (let s := turning 1 3 0 [(R.ANG_CHSTAT 23, 2)] id; s.takes heel (R.ANG_CHCFG 23) 1 = true ∧ s.takes heel (R.ANG_CHCFG 23) 0 = true ∧ s.chSt 23 = 2) ∧
    (let s := State.reset; s.takes heel R.ANG_CTL 1 = true ∧ s.takes heel R.ANG_CTL 0 = true ∧ s.bit R.ANG_CTL 0 = false ∧ (turning 1 3 0 [] id).bit R.ANG_CTL 0 = true ∧ (turning 1 3 0 [] id).takes heel R.ANG_CTL 0 = true ∧ (turning 1 3 0 [] id).takes heel R.ANG_CTL 3 = true ∧ s.gives heel R.ANG_TSTAMP_LO = true) := by decide +kernel

theorem hyp_DebugPortActs_a :
    (let s := State.reset; s.sup.heelHeld = false ∧ s.tapReset = true ∧ s.sup.winter ≠ .committed ∧ s.sup.winter ≠ .saved ∧ s.bit R.DBG_STAT 0 = false ∧ (S [(R.DBG_STAT, 5)]).bit R.DBG_STAT 0 = true) ∧
    ((tbOf (fun y => { y with copy := [(0, 1000000)] }) (State.reset.withDbg { Dbg.init with live := true })).detachDue = true) ∧
    (State.reset.takes .debug R.DBG_STAT 1 = true ∧ State.reset.tapReset = true ∧ (tapped id).takes heel R.DBG_STAT 1 = true ∧ (tapped id).tapReset = false) := by decide +kernel

theorem hyp_DebugPortActs_b :
    ((tapped id).tapUp = true ∧ (tapped id).sup.winter ≠ .winter ∧ (0xFF : Byte) ∉ [0x00, 0x01, 0x02, 0x03, 0x04, 0x10, 0x11]) ∧
    (let s := tapped (fun x => { x with ir := 0x10 }); s.tapUp = true ∧ s.io.dbg.ir = 0x10 ∧ s.io.dbg.busy = none ∧ (tapped (fun x => { x with ir := 0x10, busy := some none })).io.dbg.busy ≠ none) ∧
    ((tapped (fun x => { x with busy := some none })).io.dbg.busy = some none ∧ (tapped (fun x => { x with busy := some (some ⟨2, 0, 6⟩) })).io.dbg.busy = some (some ⟨2, 0, 6⟩)) := by decide +kernel

theorem hyp_CoreDebugAndTraceAct_a :
    (let s := selected dHalted; s.dbgCore = some (.sole 0) ∧ s.domainUp (.sole 0) = true ∧ s.takes .debug R.DBG_CCTL 1 = true ∧ s.takes .debug R.DBG_CCTL 2 = true ∧ s.takes .debug R.DBG_CCTL 4 = true ∧ (s.core (.sole 0)).dhalt ≠ none) ∧
    (let s := selected (fun x => { x with wait := some .wfi }); s.takes .debug R.DBG_CCTL 1 = true ∧ (s.core (.sole 0)).dhalt = none ∧ (s.core (.sole 0)).wait = some .wfi ∧ s.takes .debug R.DBG_CCTL 2 = true ∧ s.takes .debug R.DBG_CCTL 4 = true) := by decide +kernel

theorem hyp_CoreDebugAndTraceAct_b :
    (let s := selected (fun x => { x with wait := some (.drain .fence) }); s.takes .debug R.DBG_CCTL 1 = true ∧ (s.core (.sole 0)).dhalt = none ∧ (s.core (.sole 0)).wait = some (.drain .fence)) ∧
    (let s := selected dHalted; s.takes .debug R.DBG_CREG (BitVec.ofNat 32 (31 + 2 ^ 31)) = true ∧ s.takes .debug R.DBG_CREG (BitVec.ofNat 32 (0x8F + 2 ^ 31)) = true ∧ s.takes .debug R.DBG_CREG 0x9F = true ∧ s.dbgCore = some (.sole 0) ∧ s.domainUp (.sole 0) = true ∧ hasLane (.sole 0) = true ∧ (selected id).takes .debug R.DBG_CREG 0x1FFF = true ∧ ((selected id).core (.sole 0)).dhalt = none) ∧
    (State.reset.sup.aonHeld = false) := by decide +kernel

theorem hyp_CoreDebugAndTraceAct_c :
    (let s := { S [(R.DBG_TRC_CTL, 1), (R.DBG_TRC_WPTR, 131071)] with traceQ := [List.replicate 32 0] }; s.sup.soleHeld = false ∧ s.traceQ = List.replicate 32 (0 : Byte) :: [] ∧ (List.replicate 32 (0 : Byte)).length = 32 ∧ s.bit R.DBG_TRC_CTL 0 = true ∧ s.bit R.DBG_TRC_CTL 1 = false ∧ s.fld R.DBG_TRC_WPTR F.DBG_TRC_WPTR.INDEX = 131071 ∧ State.reset.bit R.DBG_TRC_CTL 0 = false) ∧
    (let s := S [(R.DBG_TRC_CTL, 3), (R.DBG_TRC_STAT, 1)]; s.bit R.DBG_TRC_CTL 1 = true ∧ s.bit R.DBG_TRC_STAT 0 = true ∧ State.reset.bit R.DBG_TRC_STAT 0 = false) := by decide +kernel

theorem hyp_EmptyQueuePassesOneTick :
    (State.reset.pending = [] ∧ State.reset.tb.ticking = true ∧ (tbOf (fun x => { x with ticking := false }) State.reset).tb.ticking = false) := by decide +kernel

theorem hyp_StepKeepsTheCanonicalForm :
    (State.reset.wf = true ∧ (match step { State.reset with pending := [.refclkLoss] } with
      | .next _ => true
      | _ => false) = true) := by decide +kernel

theorem hyp_SeasonRequestsAreForSoleFirmware :
    (let s := vectored; iniPrivSole heel = false ∧ (R.PWR_REQ, Instr.pwrReqAutumn heel) ∈ [(R.PWR_REQ, Instr.pwrReqAutumn heel), (R.PWR_REQ, .pwrReqSummer heel)] ∧ heel = .core .heel true ∧ (s.core .heel).vectors = true ∧ s.sup.heelHeld = false ∧ (s.enter (s.regReq heel .write R.PWR_REQ)).2.1 = 0 ∧ s.clearWay (s.regReq heel .write R.PWR_REQ) = true) := by decide +kernel

/-! ### Single steps whose results the manual gives -/

/-- 02_handshake_timing.md, worked example "DTB after ten hours parked". -/
theorem test_dtb_capture : let s := tbOf (fun x => { x with rtc := 32768, copy := [(0, 5000000000)] }) (S [(R.TBASE_STATUS, 1)])
    (after .tbaseCapture s).dword insOffset = 4900000000 ∧ (after .tbaseCapture s).dword insMark = 5000000000 := by decide +kernel

theorem test_dtb_after_parking : let s := supOf (fun x => { x with thaw := true }) (tbOf (fun x => { x with rtc := 1179680768 }) ((S [(R.TBASE_STATUS, 0)]).putDword insOffset 4900000000))
    (after .dtbAlign s).tb.master = 3605000000000 := by decide +kernel

/-- 03_supplies_reset.md, worked example "capping compute die 2": START, LEN 2, CODE 0x21, ADDR 0x40. -/
theorem test_pmb_word : let t := after (.pmbStart a0 0x80022140) (S [(R.PWR_PMB_DATA, 0xB85)])
    fget t.sup.pmbCmd F.PWR_PMB_CMD.ADDR = 0x40 ∧ fget t.sup.pmbCmd F.PWR_PMB_CMD.CODE = 0x21 ∧ fget t.sup.pmbCmd F.PWR_PMB_CMD.LEN = 2 ∧ t.bit R.PWR_PMB_STAT 0 = true := by decide +kernel

/-- 06_quecen.md, worked example "a 50 µs bounded wait on an engine counter". -/
theorem test_deadline : ((after (.addi (.sole 0) 7 7 0x1388) (onA0 (fun x => x.setGr 7 10000000000) summer)).core (.sole 0)).gr 7 = 10000005000 := by decide +kernel

/-- 07_signal_lane.md, worked example "impedance of a cell at 64 Hz": 2^72 in Q17.62 units shifted right by 42 is 2^30. -/
theorem test_rdcs : ((after (.rdcs (.sole 0) 5 0 42) (onA0 (fun x => x.setAcc 0 false (2 ^ 72)) summer)).core (.sole 0)).cr 5 = 0x40000000 := by decide +kernel

/-- 08_memory.md, worked example "guarding engine 13": the enable of region 2 is refused, then succeeds. -/
theorem test_guard_overlap : let g := grdTable 9
    let s := put summer [(R.GRD_BASE_HI g 5 1, 0x1000), (R.GRD_BASE_LO g 5 1, 0x40000000), (R.GRD_LIMIT_HI g 5 1, 0x1000), (R.GRD_LIMIT_LO g 5 1, 0x43FFFFFF), (R.GRD_PERM g 5 1, 7),
      (R.GRD_BASE_HI g 5 2, 0x1000), (R.GRD_BASE_LO g 5 2, 0x43F00000), (R.GRD_LIMIT_HI g 5 2, 0x1000), (R.GRD_LIMIT_LO g 5 2, 0x47FFFFFF)]
    let t := after (.grdPermWrite a0 3 5 2 3) s
    t.rd (R.GRD_CFG_STAT (grdBase 9)) = 0x00050201 ∧ t.rd (R.GRD_PERM g 5 2) = 2 ∧
      (after (.grdPermWrite a0 3 5 2 3) (put s [(R.GRD_BASE_LO g 5 2, 0x44000000)])).rd (R.GRD_PERM g 5 2) = 3 := by decide +kernel

/-- 01_package.md, worked example "engine memory address of engine 21". -/
theorem test_engine_memory : State.reset.regionOf 0x300025000000 = some (.engMem 2 5, 0x300025000000, 0x300025FFFFFF) := by decide +kernel

/-- 09_network.md, worked example "a source route from engine 0 to Lace link 9": the route of six hops is accepted; N, E, E, N, W, E, E, E is refused as UTURN. -/
theorem test_source_route : (after (.nocRtEnable a0 0 0 0 0x17) (put summer [(R.NOC_RT_ROUTE 0 0 0, 0xA6)])).rd (R.NOC_RT_DEST 0 0 0) = 0x80000017 ∧
    (after (.nocRtEnable a0 0 0 1 0x17) (put summer [(R.NOC_RT_ROUTE 0 0 1, 8 + 16 * 0x0182)])).rd (R.NOC_RT_STAT (nocBase 8)) = 0x80000202 := by decide +kernel

/-- 09_network.md, R222: a target queue never reorders two requests of one initiator to the same 4 KiB block. -/
theorem test_older_first : let a := R.ENG_CNT (cntBase 8) 1
    let n : NetReq := { req := { ini := a0, kind := .write, addr := BitVec.ofNat 64 a, len := 4, posted := false, early := false, cls := 0 }, data := [5, 0, 0, 0], atom := none }
    let t := after (.cntWrite a0 1 0 7) { summer with net := [n] }
    t.rd a = 5 ∧ t.rd (R.ENG_CNT (cntBase 8) 0) = 7 ∧ t.net = [] := by decide +kernel

/-- 10_engines.md, worked example "one list on engine 9": a COPY whose read host memory refuses with UNFILLED. -/
theorem test_copy_unfilled : let w : List W32 := [0x10, 0, 0, 0x40000000, 0x1000, 0x11100000, 0x3000, 0x00100000]
    ((after (.entCopy 0 0) (queued 0 0 (pad16 w) (put summer [(R.GRD_HMEM_STAT, fput (fput 0 F.GRD_HMEM_STAT.FILLING 1) F.GRD_HMEM_STAT.DENSITY 5)]))).queue 0).fin =
      some ⟨5, 4, 0x100040000000⟩ := by decide +kernel

theorem test_copy_stops : (after (.entryComplete 0 0) ((queued 0 0 [] summer).onQueue 0 (fun x => { x with entry := some (pad16 [0x10]), fin := some ⟨5, 4, 0x100040000000⟩ }))).rd
    (R.ENG_QERR 0 0 0) = 0x80100405 := by decide +kernel

/-- 11_cubes.md and 10_engines.md: the compute steps of the MATMUL on engine 9, of the dilated CONV and of the DECODE of five requests. -/
theorem test_compute_steps : let n (x : Shape) : Nat := x.groups * x.bi * x.bj * x.bs
    n (matShape (pad16 [0x00110130, 5, 1, 0x01000100, 0x400, 0x141F0000, 0x2010]) 0) = 2048 ∧
      n (matShape (pad16 [0x31, 0, 0, 0x04000001, 0x00400060, 0x101F1000, 0x3010, 0x21110501, 0x04040000, 0x00010008]) 0) = 7680 ∧
      n (matShape (pad16 [0x32, 0, 0, 0x08001000, 0x00320008, 0x0E1F1000, 0x6054]) 5) = 2048 := by decide +kernel

/-- 11_cubes.md, worked example "a decode batch closed by MAXWAIT": 50 µs after the first of five arrivals, and no tick earlier. -/
theorem test_batch_maxwait : let w := pad16 [0x32, 0, 0, 0x08001000, 0x00320008, 0x0E1F1000, 0x6054]
    let s := put summer [(R.CUBE_DQ_CFG 0 0, 4), (R.CUBE_DQ_PTR 0 0, 0x00050000)]
    let t (n : Word) := (tbOf (fun x => { x with copy := [(1, n)] }) (s.withEng { s.eng with stamps := [(0, [40000000, 40001200, 40002000, 40003100, 40004400])] })).batchNow 0 w 40000000
    t 40004999 = none ∧ t 40005000 = some 5 := by decide +kernel

/-- 12_streams.md, worked example "the weight stream": ENDL with restore returns AR0 to its value at the start of the loop. -/
theorem test_endl_restores : let f (x : Stream) : Stream := { x.setAreg 0 0x300011100200 with loops := [⟨0x01000828, 1, [0x300011100000, 0, 0, 0]⟩] }
    ((after (.strEndl 0 0) (strAtOp 0x105 0 f summer)).stream 0).areg 0 = 0x300011100000 := by decide +kernel

/-- 15_lace_lanes.md, worked example "taps": PRE 4, MAIN 32, POST 12 meet R391. -/
theorem test_taps : (after (.laceTxWrite a0 30 0 0x000C2004) summer).rd 0x080020066100 = 0x000C2004 := by decide +kernel

/-- 16_lace_links.md, worked example "routes of a triple mesh": the page 67 leaves on the second of three links. -/
theorem test_route_pick : let s := put (after (.routeWrite a0 9 0x801A1918) summer) [(lreg R.LACE_LSTAT 24, 2), (lreg R.LACE_LSTAT 25, 2), (lreg R.LACE_LSTAT 26, 2)]
    s.rd 0x10014424 = 0x801A1918 ∧ s.routePick 9 (0x00043000 / 4096 % 256) = some 25 := by decide +kernel

/-- 17_faults.md, worked example "losing a second cube in quarter 2 of engine 21". -/
theorem test_quarter_tested : let s := { summer.withEng { summer.eng with spares := [(86, 10)] } with flt := { summer.flt with retired := [0x4056] } }
    s.cubeQstat 21 = 0x4B ∧ s.cubeLive 2 = 0xFFBFFFFF ∧ (after (.fltTest a0 0x4056) s).rd (R.FLT_TEST 0) = 0x80004056 := by decide +kernel

/-- 18_outputs.md, worked example "a dimmed marker lamp": the fourth shutdown exceeds RESTART 3. -/
theorem test_hso_settings : let t := after (.hsoCtlWrite heel 12 0x01000062) (S [(R.HSO_PER 12, 0x1388)])
    t.rd 0x2000A280 = 0x01000062 ∧ t.desired 12 = ⟨2, 6, 256, 5000⟩ := by decide +kernel

/-- 19_inputs.md, worked example "a door-handle wake and a window-lifter glitch": both filtered lines flip in one sample at POS 1,812. -/
theorem test_qdec_glitch : let s := (S [(R.QDEC_CFG 1, 0x0233), (R.QDEC_POS 1, 1812), (R.QDEC_STAT 1, 4)]).setQdec 1 ⟨true, false, 2, 2, 2, 0, false, none⟩
    let t := after (.qdecSample 1 false true) s
    t.rd (R.QDEC_POS 1) = 1812 ∧ t.rd (R.QDEC_STAT 1) = 0x00000102 := by decide +kernel

/-- 20_message_bus.md, worked example "a Last schedule on MB1": the settings are accepted, and an attempt that nobody acknowledges is CAUSE 2 and TEC + 8. -/
theorem test_last_schedule : let s := put State.reset [(R.MBC_NBT 1, 0x01F3EFC0), (R.MBC_DBT 1, 0x0105DFC0)]
    let t := after (.mbcInitClear heel 1 0) s
    let u := put t ([(R.LAST_CFG 1, 0x0303), (R.LAST_LEN 1, 0x2710), (R.LAST_START_LO 1, 1000000000), (R.LAST_SLOT 1 0, 0x01F40000), (R.LAST_SLOT 1 1, 0x01F409C4), (R.LAST_SLOT 1 2, 0x01F41388),
      (R.LAST_SLOT 1 3, 0x07D01D4C), (R.LAST_CELL 1 0 1, 0x00020085)] ++ (List.range 4).map (fun r => (R.LAST_CELL 1 r 0, 0x81)) ++ (List.range 3).map (fun r => (R.LAST_CELL 1 (r + 1) 1, 0x00020002)))
    t.mbcInit 1 = false ∧ (after (.lastRun heel 1 0) u).lastState 1 = 1 ∧ (after (.lastRun heel 1 0) (put u [(R.LAST_SLOT 1 3, 0x07D02711)])).lastRun 1 = false := by decide +kernel

theorem test_unacknowledged : let x : Mbc := { Mbc.init with joined := true, tx := some 0, snap := List.replicate 80 0, txCell := some ⟨0, 0, 0, List.replicate 80 0, 63⟩ }
    let t := after (.mbcTxAttemptEnd 1 0 7 none (.err .ack false false 0)) ((S [(R.MBC_CTL 1, 0), (R.LAST_CTL 1, 1), (R.LAST_STAT 1, 2)]).setMbc 1 x)
    t.mbcTec 1 = 8 ∧ ((t.mbc 1).fails.map FailRep.cause) = [2] := by decide +kernel

/-- 21_lin_wake.md, worked example "a fast LIN sender": the majority of the stop bit is recessive, its last sample is not. -/
theorem test_fast_sender : charOf (charSamples 0x55 - 2 ^ 153) 0 false = some (0x55, true, false) ∧ charOf (charSamples 0x55) 0 false = some (0x55, false, false) := by decide +kernel

/-- 21_lin_wake.md, the same example: the charger's frame 0x18DA_F155 with byte 0 0x03. -/
theorem test_selective_wake : let s := (S [(R.WAKE_XCFG 0, 0x82B1), (R.WAKE_SWID 0, 0x38DAF100), (R.WAKE_SWMASK 0, 0x1FFFFF00), (R.WAKE_SWDATA_LO 0, 1), (R.WAKE_XSTAT 0, 2)]).setXcv 0 { Xcv.init with ready := true }
    let f (b : Byte) : CanFrame := ⟨0x18DAF155, true, false, false, false, false, 8, [b, 0, 0, 0, 0, 0, 0, 0]⟩
    let t := after (.swFrameDecode 0 (.valid (f 3))) s
    t.rd (R.WAKE_SWCAP_ID 0) = 0xB8DAF155 ∧ t.fld (R.WAKE_XSTAT 0) F.WAKE_XSTAT.LASTWK = 2 ∧ t.bit R.WAKE_PEND 0 = true ∧
      (after (.swFrameDecode 0 (.valid (f 2))) s).bit R.WAKE_PEND 0 = false := by decide +kernel

/-- 22_angle.md, worked example "an ignition dwell during acceleration": edge 34, at t = 8,000,000,000 + 129,000. -/
theorem test_dwell_edge : let s := turning 0x323B 3 8000129050 [(R.ANG_CHCFG 5, 0x0064003D), (R.ANG_CHANG 5, 0x0A200000), (R.ANG_CHDUR 5, 200000), (R.ANG_CHSTAT 5, 1)] (fun x => { x with last := some 8000097200, per := some 32100, tk := 32100, tk1 := 32400, since := 33, a := 2112, p := 31800, chs := [(5, { AngCh.init with ang := 0x0A200000, dur := 200000, ahead := 480, at_ := 8000135700 })] })
    let t := after (.angCrankEdge false false []) s
    t.ang.a = 2176 ∧ t.ang.p = 31500 ∧ (t.angCh 5).at_ = 8000133750 ∧ t.timeOf (t.angCh 5).ahead = 8000333750 := by decide +kernel

/-- The same example: the occurrence begins, and its end is predicted. -/
theorem test_dwell_begin : let s := turning 0x323B 3 8000133750 [(R.ANG_CHCFG 5, 0x0064003D), (R.ANG_CHANG 5, 0x0A200000), (R.ANG_CHDUR 5, 200000), (R.ANG_CHSTAT 5, 1)] (fun x => { x with last := some 8000129000, since := 34, a := 2176, p := 31500, chs := [(5, { AngCh.init with ang := 0x0A200000, dur := 200000, ahead := 416, at_ := 8000133750 })] })
    let t := after (.angOccurrenceBegin 5 []) s
    t.rd (R.ANG_CHSTAMP 5) = 0xDCD85A76 ∧ (t.angCh 5).at_ = 8000333750 ∧ t.aevLevels.testBit 3 = true := by decide +kernel

/-- 23_debug.md, worked example "a workshop attach on a parked van": the ATTACH record in slot 18. -/
theorem test_attach_record : let s := put ((((tbOf (fun x => { x with copy := [(0, 2000000000)] }) State.reset).putDword 0x28003008 18).putBytes 0x28003004 (leBytes 4 41))) [(R.PWR_STATE, BitVec.ofNat 32 psAutumn)]
    let t := after .dbgAttach s
    t.word 0x28003004 = 42 ∧ t.byte 0x2800316E = 1 ∧ t.byte 0x2800316F = 1 ∧ t.rd R.DBG_STAT = 1 := by decide +kernel

/-! ### Ill-formed operands: the check refuses each -/

theorem wf_access_size : Instr.wf (.regWrite heel 0x20000000 3 0) = false ∧ Instr.wf (.regWrite heel 0x20000000 4 0) = true := by decide

theorem wf_thermal_sample : Instr.wf (.thermalSample (List.replicate 7 25)) = false ∧ Instr.wf (.thermalSample (List.replicate 8 25)) = true := by decide

theorem wf_store_line : Instr.wf (.storeLineWrite heel 0x10000000 (List.replicate 63 0)) = false := by decide

theorem wf_image_opcode : Instr.wf (.hcmdImageOpcode 0 (List.replicate 32 0)) = false := by decide

theorem wf_request_entry : Instr.wf (.requestEntry heel .read 0x01000000 257 false 0 [] .add 0) = false ∧ Instr.wf (.requestEntry heel .write 0x01000000 0 false 0 [] .add 0) = false ∧
    Instr.wf (.requestEntry heel .read 0x01000000 4 false 0 [0] .add 0) = false ∧ Instr.wf (.requestEntry heel .write 0x01000000 4 false 0 [0, 0, 0, 0] .add 0) = true := by decide

theorem wf_request_at_target : Instr.wf (.requestAtTarget 0 .clean (List.replicate 257 0) 0) = false := by decide +kernel

theorem wf_fault_report : Instr.wf (.faultReport 1 0 0 256 0 0 []) = false ∧ Instr.wf (.faultReport 1 0 0 255 0 0 (List.replicate 9 0)) = false := by decide

theorem wf_link_body : LBody.wf (.req .write 0 4 false false [1, 2, 3] .add 0) = false ∧ LBody.wf (.req .read 0 4 false false [1] .add 0) = false ∧ LBody.wf (.resp 3 [1]) = false ∧
    LBody.wf (.resp 0 [1]) = true := by decide

theorem wf_link_data : Instr.wf (.linkDataReceive 0 [] true 0 hdr0 ⟨0, 0, 0, 0, 0, 0, .resp 3 [1]⟩) = false := by decide

theorem wf_volts : Instr.wf (.swiSample (List.replicate 65 0)) = false ∧ Instr.wf (.angCrankEdge false false (List.replicate 65 0)) = false ∧
    Instr.wf (.angOccurrenceBegin 0 (List.replicate 65 0)) = false := by decide

theorem wf_can_frame : CanFrame.wf { frame0 2048 with ide := false } = false ∧ CanFrame.wf { frame0 0 with rtr := true, fdf := true } = false ∧
    CanFrame.wf { frame0 0 with brs := true } = false ∧ CanFrame.wf { frame0 0 with dlc := 9, data := List.replicate 9 0 } = false ∧
    CanFrame.wf { frame0 0 with dlc := 9, fdf := true, data := List.replicate 12 0 } = true := by decide

theorem wf_frame_received : Instr.wf (.mbcFrameReceived 0 (frame0 2048) 0) = false := by decide

theorem wf_decoded_frame : SwFrame.wf (.valid { frame0 0 with fdf := true }) = false ∧ Instr.wf (.swFrameDecode 0 (.valid { frame0 0 with fdf := true })) = false := by decide

theorem wf_boundary_cells : Instr.wf (.jtagSamplePreload []) = false := by decide

theorem wf_prbs_bits : Instr.wf (.prbsCheckerSync 0 0 []) = false := by decide

/-! ### Witnesses of clauses that a boundary or an interval decides -/

/-- The PMBus timeout at 35 ms and a tick before (R67), an acknowledgement in the grace period's last tick and at its end (R83), a derived RTC tick (R35). -/
theorem hyp_SupplyBoundaries :
    (let s (n : Word) := tbOf (fun x => { x with master := n }) (S [(R.PWR_PMB_STAT, 1), (R.PWR_PMB_CFG, 8)])
     (s 3500000).bit R.PWR_PMB_STAT 0 = true ∧ (s 3500000).bit R.PWR_PMB_CFG 3 = true ∧ (s 3500000).sup.pmbAt.toNat + 3500000 ≤ (s 3500000).tb.master.toNat ∧
       (s 3499999).tb.master.toNat < (s 3499999).sup.pmbAt.toNat + 3500000) ∧
    (let s (n : Word) := tbOf (fun x => { x with copy := [(0, n)] }) (supOf (fun x => { x with winter := .grace, grace := 100000 }) State.reset)
     (s 100000).sup.grace.toNat ≤ ((s 100000).copy 0).toNat ∧ ((s 99999).copy 0).toNat < (s 99999).sup.grace.toNat ∧ (s 99999).takes heel R.PWR_HEEL_ACK 1 = true) ∧
    (tbOf (fun x => { x with lprc := some 0, rtcFrac := 9375 }) State.reset).atXtal = true := by decide +kernel

/-- A sync message is due after 65,536 ticks (R40), the load and the capture at an XTAL32 edge (R44, R45). -/
theorem hyp_TimeBaseBoundaries :
    ((tbOf (fun x => { x with sync := 65535 }) State.reset).tb.sync < 65536 ∧ 65536 ≤ (tbOf (fun x => { x with sync := 65536, master := 100, copy := [(0, 90)] }) State.reset).tb.sync) ∧
    (let s := tbOf (fun x => { x with rtc := 32768, rtcFrac := 127 }) State.reset; s.tb.rtc.toNat % 32768 = 0 ∧ s.atXtal = true ∧ s.sup.heelHeld = false ∧ s.collecting = false ∧
      s.bit R.TBASE_STATUS 0 = true) := by decide +kernel

/-- A read that ends at a 256-byte boundary; the only request of its target is granted, one of the same initiator and block behind it is not (R219, R221, R222). -/
theorem hyp_RequestsAndGuardsAct_e :
    (0 < 64 ∧ (0x01FFFFC0 : Word).toNat % 256 + 64 ≤ 256) ∧
    (let n : NetReq := { req := { ini := a0, kind := .read, addr := 0x01FFFFC0, len := 64, posted := false, early := false, cls := 0 }, data := [], atom := none, arrived := true }
     let s := { State.reset with net := [n, n] }
     s.granting 0 n = true ∧ s.granting 1 n = false) := by decide +kernel

/-- A census group of one waiting core, 10,000 ticks after its conditions began to hold, and one tick before (R276). -/
theorem hyp_CountersHoldsAndCensusAct_c :
    let s (n : Word) := tbOf (fun x => { x with master := n }) (put (onA0 (fun x => { x with wait := some (.waitge 5 0x8000 1 none true false) }) summer) [(R.ENG_CEN_CTL, 0x80), (R.ENG_CEN_CMASK 7, 1)])
    let l := ((s 0).cenNow 7).getD []
    let u (n : Word) := { s n with eng := { (s n).eng with cen := [(7, some ⟨0, l⟩)] } }
    (u 10000).cenNow 7 = some l ∧ l.length = 1 ∧ tabGet cenNone (u 10000).eng.cen 7 = some ⟨0, l⟩ ∧ (0 : Word).toNat + 10000 ≤ (u 10000).tb.master.toNat ∧
      (u 9999).tb.master.toNat < (0 : Word).toNat + 10000 := by decide +kernel

/-- An interrupt is due in a WAITT and in a WAITGE, met or not (R161, R162). -/
theorem hyp_InterruptEntryTakesTheHighestLine_b :
    (interrupted (fun x => { x with wait := some (.waitt 5) })).irqDue (.sole 0) = some 1 ∧
    (interrupted (fun x => { x with wait := some (.waitge 5 0x8000 1 none true true) })).irqDue (.sole 0) = some 1 ∧
    (interrupted (fun x => { x with wait := some (.waitge 5 0x8000 1 (some 0) true false) })).irqDue (.sole 0) = some 1 := by decide +kernel

/-- A link whose lanes carry symbols, one in electrical idle, and a lane that does not train (R386, R389). -/
theorem hyp_LanesIdleAndTrain_e :
    (let s := laned 2 [] id; s.linkSt 47 = 2 ∧ (s.link 47).tx = false ∧ s.laneSt 47 3 = 3 ∧ s.lanePhase 47 3 = 0) ∧ ((linked 2 [] (fun x => { x with tx := true })).link 47).tx = true ∧
    (linked 2 [] id).laneSt 47 3 ≠ 3 := by decide +kernel

/-- A region that is LOADED, one that is not, and an integer slice mode (R364, R377). -/
theorem hyp_FabricRegionsAct_e : (loadedRgn id fabbed).rgnState 0 = 2 ∧ fabbed.rgnState 0 ≠ 2 ∧ 1 < 2 := by decide +kernel

/-- An instruction with an encoding, at its operands' greatest values, and a word that is not ILLEGAL (R138, R141). -/
theorem hyp_CoreWordsDecodeAsEncoded :
    encodeCore (.waitge .heel 31 31 31) = some (.heel, 0xDBFFF803, 0) ∧ decodeCore .heel 0xDBFFF803 0 ≠ .illegalEncoding .heel := by decide +kernel

/-! ### The lanes' code and the slices, by hand -/

/-- K28.5 and D21.5 at both disparities, a group that is no code, and K28.7, which has no meaning here (R386, R387). -/
theorem test_lane_code :
    encodeSym false symCOM = 0b0011111010 ∧ encodeSym true symCOM = 0b1100000101 ∧ encodeSym false (false, 0xB5) = 0b1010101010 ∧ encodeSym true (false, 0xB5) = 0b1010101010 ∧
    judgeGroup false 0 = .violation ∧ judgeGroup false (encodeSym false (true, 0xFC)) = .violation ∧ judgeGroup false (encodeSym true symCOM) = .disparity symCOM := by decide +kernel

/-- Eight INT8 products of −1 by 1 on an accumulator of 5, the same B taken as UINT8 255, and saturation (R364, R304). -/
theorem test_slice_sums :
    sliceOp 0 5 0xFFFFFFFFFFFFFFFF 0x0101010101010101 = 0xFFFFFFFD ∧ sliceOp 1 0 0x0101010101010101 0xFFFFFFFFFFFFFFFF = 2040 ∧
    sliceOp 0 0x7FFFFFFF 0x0101010101010101 0x0101010101010101 = 0x7FFFFFFF := by decide +kernel

end Sys2Proof.Tests
end

section
/-! SUPPORT. What the refusal of a request leaves behind it: the capture in the guard control block, the fault manager's
records and notices, and a core's exception (R157, R158, R203–R205, R452, R453). -/
namespace Sys2Proof.Machine

/-! ### What records a refusal -/

/-- The registers in which a refused request of i may be counted, captured or recorded: those of its entry, of the guard control block of its die, and of the log. -/
def recordReg (i : Ini) (a : Nat) : Bool := logReg a || entryReg i a || violReg (iniDie i) a

/-- The parts of the state that a refusal, its records and its exception may change. -/
def recordParts : List Part := [.regs, .mem, .lines, .cores, .flt, .net, .noc, .free]

/-- From s to t nothing has changed but what may record the refusal of a request of i; a log that is disabled sends no record into the network. -/
structure Recorded (i : Ini) (s t : State) : Prop where
  parts : Only recordParts s t
  regs : ∀ b, recordReg i b = false → t.rd b = s.rd b
  net : s.logSize = 0 → t.net = s.net

/-- The same, where no core has taken an exception: system registers and PC of every core stay. -/
structure Logged (i : Ini) (s t : State) : Prop extends Recorded i s t where
  cores : ∀ k, (t.core k).sys = (s.core k).sys ∧ (t.core k).pc = (s.core k).pc

theorem recordReg_of_logReg (i : Ini) {a : Nat} (h : logReg a = true) : recordReg i a = true := by
  simp [recordReg, h]

/-- The entry of i's own requests and that of the fault manager's records count in recording registers. -/
theorem recordReg_of_entryReg {i j : Ini} {a : Nat} (hj : j = i ∨ j = .soleUnit 3) (h : entryReg j a = true) : recordReg i a = true := by
  rcases hj with rfl | rfl
  · simp [recordReg, h]
  · exact recordReg_of_logReg i (by simp [logReg, h])

/-- The captures of i's own requests and of the fault manager's are recording registers. -/
theorem recordReg_of_violReg {i j : Ini} {a : Nat} (hj : j = i ∨ j = .soleUnit 3) (h : violReg (iniDie j) a = true) : recordReg i a = true := by
  rcases hj with rfl | rfl
  · simp [recordReg, h]
  · refine recordReg_of_logReg i ?_
    simp only [violReg, iniDie, Bool.or_eq_true] at h
    simp only [logReg, Bool.or_eq_true]
    obtain ((hcount | hinfo) | hlo) | hhi := h
    · exact .inl (.inl (.inl (.inl (.inr hcount))))
    · exact .inl (.inl (.inl (.inr hinfo)))
    · exact .inl (.inl (.inr hlo))
    · exact .inl (.inr hhi)

/-- No refusal changes the size of the log. -/
theorem recordReg_logCfg (i : Ini) : recordReg i R.FLT_LOG_CFG = false := by
  have hnoc : nocBase (iniDie i) = 0x10008000 ∨ 0x080000008000 ≤ nocBase (iniDie i) := by unfold nocBase; split <;> omega
  have hbwc : bwcBase (iniDie i) = 0x1000A000 ∨ 0x08000000A000 ≤ bwcBase (iniDie i) := by unfold bwcBase; split <;> omega
  have hgrd : grdBase (iniDie i) = 0x10007000 ∨ 0x20006000 ≤ grdBase (iniDie i) := by
    unfold grdBase
    split
    · omega
    · split <;> omega
  have hlog : logReg R.FLT_LOG_CFG = false := by decide
  rw [← Bool.not_eq_true]
  simp only [recordReg, hlog, entryReg, violReg, Bool.or_eq_true, Bool.and_eq_true, beq_iff_eq, decide_eq_true_eq, Bool.false_eq_true, false_or]
  simp only [R.NOC_STAT, R.GRD_VIOL_COUNT, R.GRD_VIOL_INFO, R.GRD_VIOL_ADDR_LO, R.GRD_VIOL_ADDR_HI, R.FLT_LOG_CFG]
  omega

theorem Recorded.logSize {i : Ini} {s t : State} (h : Recorded i s t) : t.logSize = s.logSize := by
  have hfld : t.fld R.FLT_LOG_CFG F.FLT_LOG_CFG.SIZE = s.fld R.FLT_LOG_CFG F.FLT_LOG_CFG.SIZE := by
    rw [State.fld, State.fld, h.regs _ (recordReg_logCfg i)]
  unfold State.logSize
  rw [hfld]

theorem Recorded.trans {i : Ini} {s t u : State} (h : Recorded i s t) (g : Recorded i t u) : Recorded i s u where
  parts := h.parts.trans g.parts
  regs b hb := (g.regs b hb).trans (h.regs b hb)
  net h0 := (g.net (h.logSize.trans h0)).trans (h.net h0)

theorem Logged.refl (i : Ini) (s : State) : Logged i s s := ⟨⟨Only.refl _ s, fun _ _ => rfl, fun _ => rfl⟩, fun _ => ⟨rfl, rfl⟩⟩

theorem Logged.trans {i : Ini} {s t u : State} (h : Logged i s t) (g : Logged i t u) : Logged i s u where
  toRecorded := h.toRecorded.trans g.toRecorded
  cores k := ⟨(g.cores k).1.trans (h.cores k).1, (g.cores k).2.trans (h.cores k).2⟩

/-- A core may take an exception after a refusal has been recorded where it could before. -/
theorem Logged.vectors {i : Ini} {s t : State} (h : Logged i s t) (k : CoreId) : (t.core k).vectors = (s.core k).vectors := by
  simp only [Core.vectors, Core.srBit, Core.srAddr, Core.sr, (h.cores k).1]

/-! ### The operations of State that recording is built of -/

/-- A change of recording registers, of memory, of the fault manager and of the network's packets. -/
theorem Logged.of_only {i : Ini} {ps : List Part} {s t : State} (h : Only ps s t) (hps : ps ⊆ [.regs, .mem, .lines, .flt, .noc])
    (hr : ∀ b, recordReg i b = false → t.rd b = s.rd b) : Logged i s t := by
  have out {p : Part} (hp : p ∉ [Part.regs, .mem, .lines, .flt, .noc]) : p.same s t := h p (fun e => hp (hps e))
  have hcores : t.cores = s.cores := out (p := .cores) (by decide)
  exact
    { parts := h.mono (fun p hp => (by decide : [Part.regs, .mem, .lines, .flt, .noc] ⊆ recordParts) (hps hp))
      regs := hr
      net := fun _ => out (p := .net) (by decide)
      cores := fun k => by simp [State.core, hcores] }

/-- A change of memory, of the fault manager and of the network's packets. -/
theorem Logged.of_only_noRegs {i : Ini} {ps : List Part} {s t : State} (h : Only ps s t) (hps : ps ⊆ [.mem, .lines, .flt, .noc]) : Logged i s t := by
  have hregs : t.regs = s.regs := h .regs (fun e => absurd (hps e) (by decide))
  exact Logged.of_only h (fun p hp => List.mem_cons_of_mem _ (hps hp)) (fun b _ => by simp [State.rd, hregs])

theorem Logged.wr {i : Ini} (s : State) {a : Nat} (v : W32) (ha : recordReg i a = true) : Logged i s (s.wr a v) := by
  refine Logged.of_only (Only.wr s a v) (by decide) (fun b hb => ?_)
  have hne : b ≠ a := by rintro rfl; simp [ha] at hb
  simp [hne]

theorem Logged.setFld {i : Ini} (s : State) {a : Nat} (f : Fld) (x : Nat) (ha : recordReg i a = true) : Logged i s (s.setFld a f x) := Logged.wr s _ ha

theorem Only.withFlt (s : State) (x : Flt) : Only [.flt] s (s.withFlt x) := by
  intro p hp; cases p <;> simp at hp <;> rfl
theorem Only.withNoc (s : State) (x : Noc) : Only [.noc] s (s.withNoc x) := by
  intro p hp; cases p <;> simp at hp <;> rfl
theorem Only.withNet (s : State) (x : List NetReq) : Only [.net] s (s.withNet x) := by
  intro p hp; cases p <;> simp at hp <;> rfl
theorem Only.drawn (s : State) : Only [.free] s s.drawn := by
  intro p hp; cases p <;> simp at hp <;> rfl
theorem Only.setCore (s : State) (c : CoreId) (x : Core) : Only [.cores] s (s.setCore c x) := by
  intro p hp; cases p <;> simp at hp <;> rfl
theorem Only.putLine (s : State) (a : Nat) (l : LineState) : Only [.lines] s (s.putLine a l) := by
  intro p hp; cases p <;> simp at hp <;> rfl
theorem Only.putByte (s : State) (a : Nat) (v : Byte) : Only [.mem] s (s.putByte a v) := by
  intro p hp; cases p <;> simp at hp <;> rfl
theorem Only.putBytes (s : State) (a : Nat) (l : List Byte) : Only [.mem] s (s.putBytes a l) := by
  induction l generalizing s a with
  | nil => exact Only.refl _ s
  | cons b l ih => exact (Only.putByte s a b).trans (ih _ _)

theorem Logged.withFlt {i : Ini} (s : State) (x : Flt) : Logged i s (s.withFlt x) := .of_only_noRegs (Only.withFlt s x) (by decide)
theorem Logged.withNoc {i : Ini} (s : State) (x : Noc) : Logged i s (s.withNoc x) := .of_only_noRegs (Only.withNoc s x) (by decide)

/-- A record goes into the network only where the log is enabled. -/
theorem Logged.withNet {i : Ini} (s : State) (x : List NetReq) (h : s.logSize ≠ 0) : Logged i s (s.withNet x) where
  parts := (Only.withNet s x).mono (by decide)
  regs _ _ := rfl
  net h0 := absurd h0 h
  cores _ := ⟨rfl, rfl⟩

theorem Recorded.setCore {i : Ini} (s : State) (c : CoreId) (x : Core) : Recorded i s (s.setCore c x) where
  parts := (Only.setCore s c x).mono (by decide)
  regs _ _ := rfl
  net _ := rfl

/-- A core's system registers and PC stay where its state is put back with the same ones. -/
theorem Logged.setCore {i : Ini} (s : State) (c : CoreId) (x : Core) (hsys : x.sys = (s.core c).sys) (hpc : x.pc = (s.core c).pc) :
    Logged i s (s.setCore c x) where
  toRecorded := Recorded.setCore s c x
  cores k := by
    rw [State.core_setCore]
    split
    · rename_i hk
      rw [coreKey_inj k c hk]
      exact ⟨hsys, hpc⟩
    · exact ⟨rfl, rfl⟩

theorem Recorded.drawn {i : Ini} (s : State) : Recorded i s s.drawn where
  parts := (Only.drawn s).mono (by decide)
  regs _ _ := rfl
  net _ := rfl

/-! ### The entry, captures and notices -/

theorem State.passEntry_logged {i : Ini} (s : State) (q : Req) (hc : q.cls < 16) (hq : q.ini = i ∨ q.ini = .soleUnit 3) : Logged i s (s.passEntry q).1 := by
  refine Logged.of_only (s.passEntry_only q) (by decide) (fun b hb => s.passEntry_rd q b hc ?_)
  rw [← Bool.not_eq_true]
  intro he
  exact Bool.false_ne_true (hb.symm.trans (recordReg_of_entryReg hq he))

theorem State.captureOnly_logged {i : Ini} (s : State) (q : Req) (c : Nat) (hq : q.ini = i ∨ q.ini = .soleUnit 3) : Logged i s (s.captureOnly q c).1 := by
  have wr (u : State) (a : Nat) (v : W32) (ha : violReg (iniDie q.ini) a = true) : Logged i u (u.wr a v) := Logged.wr u v (recordReg_of_violReg hq ha)
  have count (v : W32) := wr s (R.GRD_VIOL_COUNT (grdBase (iniDie q.ini))) v (by simp [violReg])
  unfold State.captureOnly
  dsimp only
  split
  · exact count _
  · exact (((count _).trans (wr _ _ _ (by simp [violReg]))).trans (wr _ _ _ (by simp [violReg]))).trans (wr _ _ _ (by simp [violReg]))

theorem State.queueNotice_logged {i : Ini} (s : State) (c : CoreId) (n : Notice) : Logged i s (s.queueNotice c n) := by
  unfold State.queueNotice
  dsimp only
  split <;> exact Logged.setCore s c _ rfl rfl

/-! ### Records of the log -/

theorem State.setEvt_logged {i : Ini} (s : State) (b : Nat) : Logged i s (s.setEvt b) := Logged.setFld s _ _ (recordReg_of_logReg i (by decide))

theorem State.dropRec_logged {i : Ini} (s : State) : Logged i s s.dropRec :=
  (Logged.wr s _ (recordReg_of_logReg i (by decide))).trans (State.setEvt_logged _ 4)

theorem State.holdRec_logged {i : Ini} (s : State) (r : Rec) : Logged i s (s.holdRec r) := by
  unfold State.holdRec
  split
  · exact Logged.withFlt s _
  · split
    · exact (Logged.withFlt s _).trans (State.dropRec_logged _)
    · exact State.dropRec_logged s

theorem State.stampRec_logged {i : Ini} (s : State) (r : Rec) : Logged i s (s.stampRec r).1 := Logged.wr s _ (recordReg_of_logReg i (by decide))

/-- A record is given its number, and held. -/
theorem State.stampHold_logged {i : Ini} (s : State) (r : Rec) : Logged i s ((s.stampRec r).1.holdRec (s.stampRec r).2) :=
  (State.stampRec_logged s r).trans (State.holdRec_logged _ _)

theorem State.logWritten_logged {i : Ini} (s : State) : Logged i s s.logWritten :=
  (Logged.setFld s _ _ (recordReg_of_logReg i (by decide))).trans (State.setEvt_logged _ 0)

theorem State.logRefused_logged {i : Ini} (s : State) : Logged i s s.logRefused :=
  (Logged.setFld s _ _ (recordReg_of_logReg i (by decide))).trans (Logged.withFlt _ _)

/-- A record is written only while the log is enabled: it may then go into the network. -/
theorem State.logPut_logged {i : Ini} (s : State) (r : Rec) (h : s.logSize ≠ 0) : Logged i s (s.logPut r).1 := by
  have enter : Logged i s (s.passEntry s.logReq).1 := s.passEntry_logged s.logReq (show 15 < 16 by decide) (.inr rfl)
  have send (x : List NetReq) : Logged i s ((s.passEntry s.logReq).1.withNet x) := enter.trans (Logged.withNet _ x (by rwa [enter.logSize]))
  have store (a : Nat) (bs : List Byte) (l : Nat) : Logged i s (((s.passEntry s.logReq).1.putBytes a bs).putLine l .clean) :=
    enter.trans (.of_only_noRegs (((Only.putBytes _ a bs).mono (by decide)).trans ((Only.putLine _ l _).mono (by decide)) : Only [.mem, .lines] _ _) (by decide))
  have memory (b : Bool) (x : List NetReq) (a : Nat) (bs : List Byte) (l : Nat) :
      Logged i s (if b = true then ((s.passEntry s.logReq).1.withNet x, (none : Option Nat))
        else (((s.passEntry s.logReq).1.putBytes a bs).putLine l .clean, none)).1 := by
    split
    · exact send x
    · exact store a bs l
  unfold State.logPut
  dsimp only
  split
  · exact enter
  · split
    · exact memory _ _ _ _ _
    · exact memory _ _ _ _ _
    · exact memory _ _ _ _ _
    · exact memory _ _ _ _ _
    · exact send _
    · exact send _
    · exact enter

theorem State.logBad_logged {i : Ini} (s : State) (q : Req) (c : Nat) (hq : q.ini = i ∨ q.ini = .soleUnit 3) : Logged i s (s.logBad q c) := by
  have capture := (State.logRefused_logged s).trans (State.captureOnly_logged s.logRefused q c hq)
  unfold State.logBad
  extract_lets s1 s2 t e1 s3 e2
  have notice : Logged i s s3 := by
    simp only [s3]
    split
    · exact (capture.trans (State.queueNotice_logged _ _ _)).trans (State.stampHold_logged _ _)
    · exact capture
  split
  · exact notice.trans (State.stampHold_logged _ _)
  · exact notice

theorem State.logRec_logged {i : Ini} (s : State) (r : Rec) : Logged i s (s.logRec r) := by
  have stamp : Logged i s (s.stampRec r).1 := State.stampRec_logged s r
  unfold State.logRec
  dsimp only
  split
  · exact Logged.refl i s
  · split
    · exact stamp.trans (State.holdRec_logged _ _)
    · rename_i hlog
      have put := stamp.trans (State.logPut_logged (s.stampRec r).1 (s.stampRec r).2 (fun e => hlog (.inl e)))
      split
      · exact put.trans (State.logWritten_logged _)
      · exact (put.trans (State.holdRec_logged _ _)).trans (State.logBad_logged _ _ _ (.inr rfl))

theorem State.event_logged {i : Ini} (s : State) (kind : Nat) (unit ini : BitVec 16) (addr : Word) (detail : List W32) :
    Logged i s (s.event kind unit ini addr detail) := State.logRec_logged s _

theorem State.captureRefusal_logged {i : Ini} (s : State) (q : Req) (c : Nat) (hq : q.ini = i) : Logged i s (s.captureRefusal q c) := by
  have capture := State.captureOnly_logged s q c (.inl hq)
  unfold State.captureRefusal
  dsimp only
  split
  · exact Logged.refl i s
  · split
    · exact capture.trans (State.event_logged _ _ _ _ _ _)
    · exact capture

/-- A request's entry counts it, and captures its refusal where it refuses it. -/
theorem State.enter_logged {i : Ini} (s : State) (q : Req) (hc : q.cls < 16) (hq : q.ini = i) : Logged i s (s.enter q).1 := by
  have pass := State.passEntry_logged s q hc (.inl hq)
  unfold State.enter
  dsimp only
  split
  · exact pass.trans (State.captureRefusal_logged _ _ _ hq)
  · exact pass

/-- A request that its entry refuses, or whose way is clear, leaves nothing but its records as it reaches its target. -/
theorem State.reach_logged {i : Ini} (s : State) (q : Req) (hc : q.cls < 16) (hq : q.ini = i) (hway : (s.enter q).2.1 = 0 → s.clearWay q = true) :
    Logged i s (s.reach q).1 := by
  by_cases h0 : (s.enter q).2.1 = 0
  · obtain ⟨_, x, e⟩ := State.reach_clear (hway h0)
    rw [e]
    exact (State.passEntry_logged s q hc (.inl hq)).trans (Logged.withNoc _ x)
  · unfold State.reach
    dsimp only
    rw [if_pos h0]
    exact State.enter_logged s q hc hq

/-! ### A core's exception -/

theorem State.haltCore_recorded {i : Ini} (s : State) (c : CoreId) (first second : Nat) : Recorded i s (s.haltCore c first second) :=
  (Recorded.setCore s c _).trans (State.event_logged _ _ _ _ _ _).toRecorded

theorem State.except_recorded {i : Ini} (s : State) (c : CoreId) (code sub : Nat) (tval : Word) : Recorded i s (s.except c code sub tval) := by
  have put (x : Core) : Recorded i s (s.drawn.setCore c x) := (Recorded.drawn s).trans (Recorded.setCore _ c x)
  unfold State.except
  dsimp only
  split
  · exact (put _).trans (State.haltCore_recorded _ _ _ _)
  · split
    · exact ((put _).trans (Recorded.drawn _)).trans (State.haltCore_recorded _ _ _ _)
    · exact put _

theorem State.faultOf_recorded {i : Ini} (s : State) (q : Req) (c : Nat) : Recorded i s (s.faultOf q c) := by
  unfold State.faultOf
  split
  · split
    · exact (Logged.refl i s).toRecorded
    · exact State.except_recorded s _ _ _ _
  · exact (Logged.refl i s).toRecorded

/-- A core whose EXL is clear and whose VBASE is not zero enters its handler. -/
theorem State.except_vectors (s : State) (c : CoreId) (code sub : Nat) (tval : Word) (h : (s.core c).vectors = true) :
    (s.except c code sub tval).core c = (s.core c).enter (s.excCause code sub) (s.core c).pc tval true 0 := by
  simp only [Core.vectors, Bool.and_eq_true, Bool.not_eq_true', bne_iff_ne, ne_eq] at h
  obtain ⟨hexl, hbase⟩ := h
  unfold State.except
  dsimp only
  rw [if_neg (by simp [hexl]), if_neg hbase]
  simp

@[simp] theorem Core.sr_setSr (c : Core) (n m : Nat) (v : W32) : (c.setSr n v).sr m = if m = n then v else c.sr m := by
  simp [Core.sr, Core.setSr]

/-- An address put into a pair of system registers keeps its 48 bits. -/
theorem addr48_of_halves (v : Word) : ((((v >>> 32).setWidth 16).setWidth 32).setWidth 16 ++ v.setWidth 32).setWidth 64 = addr48 v := by
  apply BitVec.eq_of_getLsbD_eq
  intro n hn
  simp only [addr48, BitVec.getLsbD_setWidth, BitVec.getLsbD_append, BitVec.getLsbD_ushiftRight]
  by_cases h : n < 32
  · simp [h, hn]; omega
  · have e : 32 + (n - 32) = n := by omega
    by_cases h48 : n < 48
    · have hlo : n - 32 < 16 ∧ n - 32 < 32 := by omega
      simp [h, hn, h48, hlo, e]
    · have hhi : ¬n - 32 < 16 := by omega
      simp [h, hn, h48, hhi]

theorem Core.enter_cause (x : Core) (cause : W32) (epc tval : Word) (exl : Bool) (off : Nat) : (x.enter cause epc tval exl off).sr srCause = cause := by
  change (Core.setSr _ srStatus _).sr srCause = cause
  simp [Core.setSrAddr, srStatus, srCause, srTvalLo, srTvalHi]

theorem Core.enter_epc (x : Core) (cause : W32) (epc tval : Word) (exl : Bool) (off : Nat) :
    (x.enter cause epc tval exl off).srAddr srEpcLo srEpcHi = addr48 epc := by
  change (Core.setSr _ srStatus _).srAddr srEpcLo srEpcHi = addr48 epc
  simp [Core.srAddr, Core.setSrAddr, srStatus, srCause, srTvalLo, srTvalHi, srEpcLo, srEpcHi, ← addr48_of_halves epc]

theorem Core.enter_tval (x : Core) (cause : W32) (epc tval : Word) (exl : Bool) (off : Nat) :
    (x.enter cause epc tval exl off).srAddr srTvalLo srTvalHi = addr48 tval := by
  change (Core.setSr _ srStatus _).srAddr srTvalLo srTvalHi = addr48 tval
  simp [Core.srAddr, Core.setSrAddr, srStatus, srTvalLo, srTvalHi, ← addr48_of_halves tval]

/-- CODE and SUB of an exception's cause. -/
theorem State.excCause_fields (s : State) {code sub : Nat} (hc : code < 256) (hs : sub < 256) :
    fget (s.excCause code sub) ⟨0, 8⟩ = code ∧ fget (s.excCause code sub) ⟨8, 8⟩ = sub := by
  have hline : s.draw.toNat % 32 < 32 := Nat.mod_lt _ (by decide)
  simp only [State.excCause, fget, BitVec.toNat_ushiftRight, BitVec.toNat_ofNat, Nat.shiftRight_eq_div_pow]
  omega

end Sys2Proof.Machine
end

section
/-! PROOF. PWR_REQ and PWR_WINTER_REQ refuse every initiator but privileged Sole firmware (R79). -/
namespace Sys2Proof.Machine

/-- The registers of R79. -/
def seasonReg (a : Nat) : Prop := a = R.PWR_REQ ∨ a = R.PWR_WINTER_REQ

theorem seasonReg_toNat {a : Nat} (ha : seasonReg a) : (BitVec.ofNat 64 a).toNat = a := by
  rcases ha with rfl | rfl <;> rfl

theorem State.regionOf_seasonReg (s : State) {a : Nat} (ha : seasonReg a) : s.regionOf a = some (.heelReg, 0x20000000, 0x200FFFFF) := by
  rcases ha with rfl | rfl <;> rfl

theorem isRegRegion_seasonReg {a : Nat} (ha : seasonReg a) : isRegRegion .heelReg a = true := by
  rcases ha with rfl | rfl <;> rfl

/-- R79: no other initiator is a writer, and the debug port is none (R583). -/
theorem State.writer_seasonReg (s : State) {i : Ini} {a : Nat} (hi : iniPrivSole i = false ∨ i = .debug) (ha : seasonReg a) : s.writer i .heelReg a = .refuse := by
  have hb : (iniPrivSole i && i != .debug) = false := by
    rcases hi with h | rfl
    · simp [h]
    · rfl
  have hrule : s.writerRule i a = some (writerIf (iniPrivSole i && i != .debug)) := by
    rcases ha with rfl | rfl <;> rfl
  simp [State.writer, hrule, hb, writerIf]

/-- At its target the write is refused with OWNER; where the Heel main domain is held in reset, and no fabric region made it, it is ignored (R2). The state stays. -/
theorem State.serveWrite_seasonReg (s : State) {i : Ini} {a : Nat} (bs : List Byte) (hi : iniPrivSole i = false ∨ i = .debug) (ha : seasonReg a) :
    s.serveWrite i .heelReg a bs = (s, if s.sup.heelHeld = true ∧ iniFabric i = false then .ok [] else .bad 8) := by
  unfold State.serveWrite
  rw [if_pos (isRegRegion_seasonReg ha)]
  cases hfab : iniFabric i with
  | true => simp
  | false =>
    cases hheld : s.sup.heelHeld with
    | true => simp [State.regWriteAt, State.regsUp, hheld]
    | false => simp [State.regWriteAt, State.regsUp, hheld, s.writer_seasonReg hi ha]

/-- The whole access: refused at its entry, else ignored or refused at its target. -/
theorem State.busWrite_seasonReg (s : State) {i : Ini} {a : Nat} (bs : List Byte) (hi : iniPrivSole i = false ∨ i = .debug) (ha : seasonReg a) :
    s.busWrite (s.regReq i .write a) bs =
      if (s.reach (s.regReq i .write a)).2 ≠ 0 then ((s.reach (s.regReq i .write a)).1, .bad (s.reach (s.regReq i .write a)).2)
      else if (s.reach (s.regReq i .write a)).1.sup.heelHeld = true ∧ iniFabric i = false then ((s.reach (s.regReq i .write a)).1, .ok [])
      else ((s.reach (s.regReq i .write a)).1.captureRefusal (s.regReq i .write a) 8, .bad 8) := by
  have serve := (s.reach (s.regReq i .write a)).1.serveWrite_seasonReg bs hi ha
  unfold State.busWrite
  simp only [show (s.regReq i .write a).addr.toNat = a from seasonReg_toNat ha, State.regionOf_seasonReg _ ha, show (s.regReq i .write a).ini = i from rfl,
    show (s.regReq i .write a).posted = false from rfl, Bool.false_eq_true, if_false, serve]
  by_cases hheld : (s.reach (s.regReq i .write a)).1.sup.heelHeld = true ∧ iniFabric i = false
  · simp only [if_pos hheld]
  · simp only [if_neg hheld]

section
variable {s : State} {i : Ini} {a : Nat} (bs : List Byte) (hi : iniPrivSole i = false ∨ i = .debug) (ha : seasonReg a)
  (hway : (s.enter (s.regReq i .write a)).2.1 = 0 → s.clearWay (s.regReq i .write a) = true)
include hi ha hway

/-- The write leaves nothing but the records of its refusal. -/
theorem State.busWrite_seasonReg_logged : Logged i s (s.busWrite (s.regReq i .write a) bs).1 := by
  have reach : Logged i s (s.reach (s.regReq i .write a)).1 := s.reach_logged _ (s.iniLabel_lt i) rfl hway
  rw [s.busWrite_seasonReg bs hi ha]
  split
  · exact reach
  · split
    · exact reach
    · exact reach.trans (State.captureRefusal_logged _ (s.regReq i .write a) 8 rfl)

/-- A write that its entry lets pass is refused with OWNER at its target. -/
theorem State.busWrite_seasonReg_refused (hpass : (s.enter (s.regReq i .write a)).2.1 = 0) (hheel : s.sup.heelHeld = false) :
    (s.busWrite (s.regReq i .write a) bs).2 = .bad 8 := by
  have hsup : (s.reach (s.regReq i .write a)).1.sup = s.sup :=
    (s.reach_logged (s.regReq i .write a) (s.iniLabel_lt i) rfl hway).parts .sup (by decide)
  rw [s.busWrite_seasonReg bs hi ha]
  simp [(State.reach_clear (hway hpass)).1, hsup, hheel]

/-- The whole command leaves nothing but the records of the refusal, and its core's exception. -/
theorem State.regWrite_seasonReg_recorded (v : W32) : Recorded i s (s.regWrite i a v) := by
  have bus := s.busWrite_seasonReg_logged (leBytes 4 v.toNat) hi ha hway
  unfold State.regWrite
  dsimp only
  split
  · exact bus.toRecorded.trans (State.faultOf_recorded _ _ _)
  · exact bus.toRecorded

end

/-- What the command raises where its access is refused. -/
theorem State.regWrite_bad (s : State) {i : Ini} {a c : Nat} {v : W32} {u : State} (h : s.busWrite (s.regReq i .write a) (leBytes 4 v.toNat) = (u, .bad c)) :
    s.regWrite i a v = u.faultOf (s.regReq i .write a) c := by
  unfold State.regReq at h ⊢
  unfold State.regWrite
  simp only [h]

theorem State.faultOf_coreWrite (s t : State) (k : CoreId) (p : Bool) (a c : Nat) :
    s.faultOf (t.regReq (.core k p) .write a) c = s.except k excStore (reasonSub c) (BitVec.ofNat 64 a) := rfl

/-- A core whose write its entry lets pass takes STORE with SUB REFUSED at the register's address (R157, R196). -/
theorem State.regWrite_seasonReg_except (s : State) (k : CoreId) (p : Bool) {a : Nat} (v : W32) (hi : iniPrivSole (.core k p) = false) (ha : seasonReg a)
    (hway : (s.enter (s.regReq (.core k p) .write a)).2.1 = 0 → s.clearWay (s.regReq (.core k p) .write a) = true)
    (hvec : (s.core k).vectors = true) (hheel : s.sup.heelHeld = false) (hpass : (s.enter (s.regReq (.core k p) .write a)).2.1 = 0) :
    let y := (s.regWrite (.core k p) a v).core k
    fget (y.sr srCause) ⟨0, 8⟩ = 6 ∧ fget (y.sr srCause) ⟨8, 8⟩ = 6 ∧ y.srAddr srTvalLo srTvalHi = BitVec.ofNat 64 a ∧
      y.srAddr srEpcLo srEpcHi = addr48 (s.core k).pc := by
  have bus := State.busWrite_seasonReg_logged (leBytes 4 v.toNat) (.inl hi) ha hway
  have refused := State.busWrite_seasonReg_refused (leBytes 4 v.toNat) (.inl hi) ha hway hpass hheel
  generalize hu : (s.busWrite (s.regReq (.core k p) .write a) (leBytes 4 v.toNat)).1 = u at bus
  have hwrite : s.regWrite (.core k p) a v = u.except k excStore (reasonSub 8) (BitVec.ofNat 64 a) :=
    (s.regWrite_bad (Prod.ext hu refused)).trans (u.faultOf_coreWrite s k p a 8)
  have htval : addr48 (BitVec.ofNat 64 a) = BitVec.ofNat 64 a := by rcases ha with rfl | rfl <;> rfl
  have hcause := u.excCause_fields (code := excStore) (sub := reasonSub 8) (by decide) (by decide)
  dsimp only
  rw [hwrite, State.except_vectors u k _ _ _ ((bus.vectors k).trans hvec), Core.enter_cause, Core.enter_tval, Core.enter_epc, htval, (bus.cores k).2]
  exact ⟨hcause.1, hcause.2, rfl, rfl⟩

/-- Each of the commands of R79 writes one of its registers. -/
theorem exec_seasonReg {s : State} {i : Ini} {v : W32} {a : Nat} {c : Instr}
    (h : (a, c) ∈ [(R.PWR_REQ, Instr.pwrReqAutumn i), (R.PWR_REQ, .pwrReqSummer i), (R.PWR_WINTER_REQ, .winterReqArm i), (R.PWR_WINTER_REQ, .winterReq i),
      (R.PWR_REQ, .regWrite i (BitVec.ofNat 64 R.PWR_REQ) 4 v), (R.PWR_WINTER_REQ, .regWrite i (BitVec.ofNat 64 R.PWR_WINTER_REQ) 4 v)]) :
    seasonReg a ∧ ∃ w, exec c s = .next (s.regWrite i a w) := by
  simp only [List.mem_cons, Prod.mk.injEq, List.not_mem_nil, or_false] at h
  rcases h with ⟨rfl, rfl⟩ | ⟨rfl, rfl⟩ | ⟨rfl, rfl⟩ | ⟨rfl, rfl⟩ | ⟨rfl, rfl⟩ | ⟨rfl, rfl⟩
  · exact ⟨.inl rfl, 1, rfl⟩
  · exact ⟨.inl rfl, 2, rfl⟩
  · exact ⟨.inr rfl, 0xC3C3, rfl⟩
  · exact ⟨.inr rfl, 0x3C3C0003, rfl⟩
  · exact ⟨.inl rfl, v, rfl⟩
  · exact ⟨.inr rfl, v, rfl⟩

/-- Settles O59: at its entry or at its target the write is refused, and a refusal leaves nothing but its records and its core's exception. -/
theorem seasonRequestsAreForSoleFirmware : Obligations.SeasonRequestsAreForSoleFirmware := by
  unfold Obligations.SeasonRequestsAreForSoleFirmware
  intro s i v hi a c hc hway
  obtain ⟨ha, w, hexec⟩ := exec_seasonReg hc
  have recorded := State.regWrite_seasonReg_recorded hi ha hway w
  refine ⟨_, hexec, recorded.parts .sup (by decide), recorded.parts .tb (by decide), recorded.parts .boot (by decide), recorded.parts .eng (by decide),
    recorded.parts .io (by decide), recorded.net, fun b hlog hentry hviol => recorded.regs b (by simp [recordReg, hlog, hentry, hviol]), ?_⟩
  rintro k p rfl hvec hheel hpass
  exact s.regWrite_seasonReg_except k p w (hi.resolve_right (by simp)) ha hway hvec hheel hpass

end Sys2Proof.Machine
end

section
/-! SUPPORT. What exception and interrupt entry leave of their core, what logging an event leaves of every core, and what a core that is ready makes of its
instruction (R135, R158, R159, R161, R204, R584). -/
namespace Sys2Proof.Machine

/-! ### One core of the state -/

theorem CoreOnly.setCore (s : State) (c : CoreId) (x : Core) : CoreOnly c s (s.setCore c x) := by
  intro k hk
  rw [State.core_setCore, if_neg (fun e => hk (coreKey_inj k c e))]

@[simp] theorem State.core_drawn (s : State) (c : CoreId) : s.drawn.core c = s.core c := rfl

@[simp] theorem State.core_withBoot (s : State) (b : Boot) (c : CoreId) : (s.withBoot b).core c = s.core c := rfl

theorem Only.withBoot (s : State) (b : Boot) : Only [.boot] s (s.withBoot b) := by
  intro p hp; cases p <;> simp at hp <;> rfl

/-! ### System registers -/

@[simp] theorem Core.srBit_setSr (x : Core) (n m b : Nat) (v : W32) : (x.setSr n v).srBit m b = if m = n then v.getLsbD b else x.srBit m b := by
  simp only [Core.srBit, Core.sr_setSr]
  split <;> rfl

theorem Core.srBit_putSrBit (x : Core) (n m b k : Nat) (v : Bool) (hb : b < 32) :
    (x.putSrBit n b v).srBit m k = if m = n ∧ k = b then v else x.srBit m k := by
  by_cases hm : m = n
  · subst hm
    simp [Core.putSrBit, fput_bit _ _ _ _ hb, Core.srBit]
  · simp [Core.putSrBit, hm]

theorem Core.srAddr_setSr_ne (x : Core) {n lo hi : Nat} (v : W32) (hlo : lo ≠ n) (hhi : hi ≠ n) : (x.setSr n v).srAddr lo hi = x.srAddr lo hi := by
  simp [Core.srAddr, hlo, hhi]

/-! ### Entry of an exception or an interrupt -/

section
variable (x : Core) (cause : W32) (epc tval : Word) (exl : Bool) (off : Nat)

/-- CORE_STATUS after an entry, bit by bit (R158). -/
theorem Core.enter_status (k : Nat) : (x.enter cause epc tval exl off).srBit srStatus k =
    if k = stIe then false else if k = stPriv then true else if k = stPie then x.srBit srStatus stIe
    else if k = stPpriv then x.srBit srStatus stPriv else if k = stExl then exl || x.srBit srStatus stExl else x.srBit srStatus k := by
  have set (v : W32) (b : Nat) (hb : b < 32) (m : Nat) : (fput v (bitF b) 1).getLsbD m = if m = b then true else v.getLsbD m := fput_bit v b m true hb
  have clear (v : W32) (b : Nat) (hb : b < 32) (m : Nat) : (fput v (bitF b) 0).getLsbD m = if m = b then false else v.getLsbD m := fput_bit v b m false hb
  change (Core.setSr _ srStatus _).srBit srStatus k = _
  rw [Core.srBit_setSr, if_pos rfl]
  have saved (m : Nat) : (fput (fput (fput (fput (x.sr srStatus) (bitF stPpriv) (x.srBit srStatus stPriv).toNat) (bitF stPie) (x.srBit srStatus stIe).toNat)
      (bitF stPriv) 1) (bitF stIe) 0).getLsbD m = if m = stIe then false else if m = stPriv then true else if m = stPie then x.srBit srStatus stIe
      else if m = stPpriv then x.srBit srStatus stPriv else x.srBit srStatus m := by
    simp only [clear _ stIe (by decide), set _ stPriv (by decide), fput_bit _ stPie _ _ (by decide), fput_bit _ stPpriv _ _ (by decide), Core.srBit]
  by_cases hk : k = stExl
  · subst hk
    cases exl with
    | false => exact saved stExl
    | true => exact set _ stExl (by decide) stExl
  · rw [if_neg hk, ← saved k]
    cases exl with
    | false => rfl
    | true => exact (set _ stExl (by decide) k).trans (if_neg hk)

/-- An entry writes no system register but those that save the core. -/
theorem Core.enter_sr_other {n : Nat} (h : n ∉ [srStatus, srCause, srEpcLo, srEpcHi, srTvalLo, srTvalHi]) :
    (x.enter cause epc tval exl off).sr n = x.sr n := by
  simp only [List.mem_cons, List.not_mem_nil, or_false, not_or] at h
  obtain ⟨hstatus, hcause, hepcLo, hepcHi, htvalLo, htvalHi⟩ := h
  change (Core.setSr _ srStatus _).sr n = x.sr n
  simp [Core.setSrAddr, hstatus, hcause, hepcLo, hepcHi, htvalLo, htvalHi]

/-- An entry changes nothing of its core but system registers, PC and the wait. -/
theorem Core.enter_rest : { x.enter cause epc tval exl off with sys := x.sys, pc := x.pc, wait := x.wait } = x := by
  simp only [Core.enter, Core.setSr, Core.setSrAddr]

/-- An entry at the core's PC, as the statements say it. -/
theorem Core.enter_entered : x.entered (x.enter cause x.pc tval exl off) tval (exl || x.srBit srStatus stExl) (BitVec.ofNat 64 off) := by
  have hsr (n : Nat) (hn : n ∉ [srStatus, srCause, srEpcLo, srEpcHi, srTvalLo, srTvalHi, srThr]) : (x.enter cause x.pc tval exl off).sr n = x.sr n :=
    x.enter_sr_other cause x.pc tval exl off (fun hmem => hn (List.mem_append_left [srThr] hmem))
  refine ⟨x.enter_epc .., x.enter_tval .., ?ppriv, ?pie, ?priv, ?ie, ?exl, ?pastdl, rfl, fun _ => rfl, hsr, x.enter_rest .., rfl⟩
  all_goals
    rw [Core.enter_status]
    rfl

end

/-- INWAIT and CORE_IRQ_THR are none of the registers that an entry is said to set. -/
theorem Core.entered.putInwait_setThr {x y : Core} {tval off : Word} {exl : Bool} (h : x.entered y tval exl off) (b : Bool) (v : W32) :
    x.entered ((y.putSrBit srStatus stInwait b).setSr srThr v) tval exl off := by
  obtain ⟨hepc, htval, hppriv, hpie, hpriv, hie, hexl, hpastdl, hpc, hgr, hsr, hrest, hwait⟩ := h
  have addr {lo hi : Nat} (hlo : lo ≠ srThr ∧ lo ≠ srStatus) (hhi : hi ≠ srThr ∧ hi ≠ srStatus) :
      ((y.putSrBit srStatus stInwait b).setSr srThr v).srAddr lo hi = y.srAddr lo hi := by
    rw [Core.srAddr_setSr_ne _ _ hlo.1 hhi.1, Core.putSrBit, Core.srAddr_setSr_ne _ _ hlo.2 hhi.2]
  have bit {k : Nat} (hk : k ≠ stInwait) : ((y.putSrBit srStatus stInwait b).setSr srThr v).srBit srStatus k = y.srBit srStatus k := by
    rw [Core.srBit_setSr, if_neg (by decide), Core.srBit_putSrBit _ _ _ _ _ _ (by decide), if_neg (fun e => hk e.2)]
  refine ⟨(addr (by decide) (by decide)).trans hepc, (addr (by decide) (by decide)).trans htval, (bit (by decide)).trans hppriv, (bit (by decide)).trans hpie,
    (bit (by decide)).trans hpriv, (bit (by decide)).trans hie, (bit (by decide)).trans hexl, (bit (by decide)).trans hpastdl, hpc, hgr, fun n hn => ?_,
    hrest, hwait⟩
  have hne : n ≠ srThr ∧ n ≠ srStatus := ⟨fun e => hn (by simp [e]), fun e => hn (by simp [e])⟩
  simpa [Core.putSrBit, hne] using hsr n hn

/-- An exception's cause is not marked as an interrupt's. -/
theorem State.excCause_intr (s : State) {code sub : Nat} (hc : code < 256) (hs : sub < 256) : (s.excCause code sub).getLsbD 31 = false := by
  have hline : s.draw.toNat % 32 < 32 := Nat.mod_lt _ (by decide)
  rw [State.excCause, BitVec.getLsbD_ofNat, Nat.testBit_lt_two_pow (by omega), Bool.and_false]

section
variable (s : State) (c : CoreId) (tval : Word)

/-- The state in which a core that vectors enters its handler. -/
theorem State.except_eq_enter (code sub : Nat) (h : (s.core c).vectors = true) :
    s.except c code sub tval = s.drawn.setCore c ((s.core c).enter (s.excCause code sub) (s.core c).pc tval true 0) := by
  simp only [Core.vectors, Bool.and_eq_true, Bool.not_eq_true', bne_iff_ne, ne_eq] at h
  obtain ⟨hexl, hbase⟩ := h
  unfold State.except
  dsimp only
  rw [if_neg (by simp [hexl]), if_neg hbase]

/-- R158: what the entry of an exception saves, and that nothing else changes. -/
theorem State.except_entered {code sub : Nat} (h : (s.core c).vectors = true) (hcode : code < 256) (hsub : sub < 256) :
    let t := s.except c code sub tval
    (s.core c).entered (t.core c) tval true 0 ∧ fget ((t.core c).sr srCause) ⟨0, 8⟩ = code ∧ fget ((t.core c).sr srCause) ⟨8, 8⟩ = sub ∧
      (t.core c).srBit srCause 31 = false ∧ (t.core c).sr srThr = (s.core c).sr srThr ∧ CoreOnly c s t ∧ Only [.cores, .free] s t := by
  have fields := s.excCause_fields hcode hsub
  dsimp only
  rw [s.except_vectors c code sub tval h, Core.srBit, Core.enter_cause, Core.enter_sr_other _ _ _ _ _ _ (by decide), s.except_eq_enter c tval code sub h]
  exact ⟨Core.enter_entered _ _ _ true 0, fields.1, fields.2, s.excCause_intr hcode hsub, rfl, CoreOnly.setCore s.drawn c _,
    ((Only.drawn s).mono (by simp)).trans ((Only.setCore _ c _).mono (by simp))⟩

end

/-! ### What an event of the log leaves of the cores -/

/-- A core without its queue of notices. -/
def Core.unnoted (x : Core) : Core := { x with notices := [], noteOvf := false, noteLost := 0 }

/-- From s to t no core has changed but in its queue of notices. -/
def NoticesOnly (s t : State) : Prop := ∀ k, (t.core k).unnoted = (s.core k).unnoted

theorem NoticesOnly.of_cores {s t : State} (h : t.cores = s.cores) : NoticesOnly s t := by
  intro k
  simp only [State.core, h]

theorem NoticesOnly.trans {s t u : State} (h : NoticesOnly s t) (g : NoticesOnly t u) : NoticesOnly s u := fun k => (g k).trans (h k)

theorem State.queueNotice_noticesOnly (s : State) (c : CoreId) (n : Notice) : NoticesOnly s (s.queueNotice c n) := by
  intro k
  unfold State.queueNotice
  dsimp only
  by_cases hk : k = c
  · subst hk
    split <;> simp [Core.unnoted]
  · have hkey : coreKey k ≠ coreKey c := fun e => hk (coreKey_inj k c e)
    split <;> simp [hkey]

@[simp] theorem State.wr_cores (s : State) (a : Nat) (v : W32) : (s.wr a v).cores = s.cores := Only.wr s a v .cores (by decide)

@[simp] theorem State.putLine_cores (s : State) (a : Nat) (l : LineState) : (s.putLine a l).cores = s.cores := rfl

@[simp] theorem State.putBytes_cores (s : State) (a : Nat) (l : List Byte) : (s.putBytes a l).cores = s.cores := Only.putBytes s a l .cores (by decide)

theorem State.logWritten_cores (s : State) : s.logWritten.cores = s.cores := by
  simp only [State.logWritten, State.setEvt, State.putBit, State.advWrap, State.setFld, State.wr_cores]

theorem State.holdRec_cores (s : State) (r : Rec) : (s.holdRec r).cores = s.cores := by
  unfold State.holdRec
  split
  · rfl
  · split <;> rfl

theorem State.stampHold_cores (s : State) (r : Rec) : ((s.stampRec r).1.holdRec (s.stampRec r).2).cores = s.cores := State.holdRec_cores _ _

theorem State.captureOnly_cores (s : State) (q : Req) (n : Nat) : (s.captureOnly q n).1.cores = s.cores := by
  unfold State.captureOnly
  dsimp only
  split <;> simp only [State.wr_cores]

theorem State.logPut_cores (s : State) (r : Rec) : (s.logPut r).1.cores = s.cores := by
  have enter : (s.passEntry s.logReq).1.cores = s.cores := s.passEntry_only s.logReq .cores (by decide)
  unfold State.logPut
  dsimp only
  split
  · exact enter
  · repeat' split
    all_goals simp only [State.withNet_cores, State.putLine_cores, State.putBytes_cores, enter]

theorem State.logBad_noticesOnly (s : State) (q : Req) (n : Nat) : NoticesOnly s (s.logBad q n) := by
  have capture : NoticesOnly s (s.logRefused.captureOnly q n).1 := .of_cores (State.captureOnly_cores s.logRefused q n)
  unfold State.logBad
  extract_lets s1 s2 t e1 s3 e2
  have notice : NoticesOnly s s3 := by
    simp only [s3]
    split
    · exact (capture.trans (State.queueNotice_noticesOnly _ _ _)).trans (.of_cores (State.stampHold_cores _ _))
    · exact capture
  split
  · exact notice.trans (.of_cores (State.stampHold_cores _ _))
  · exact notice

theorem State.logRec_noticesOnly (s : State) (r : Rec) : NoticesOnly s (s.logRec r) := by
  unfold State.logRec
  dsimp only
  split
  · exact .of_cores rfl
  · split
    · exact .of_cores (State.stampHold_cores s r)
    · have put := State.logPut_cores (s.stampRec r).1 (s.stampRec r).2
      split
      · exact .of_cores ((State.logWritten_cores _).trans put)
      · exact NoticesOnly.trans (.of_cores ((State.holdRec_cores _ _).trans put)) (State.logBad_noticesOnly _ _ _)

/-- Halting a core as on DOUBLE leaves every core, but for notices, as the halt itself does (R159). -/
theorem State.haltCore_noticesOnly (s : State) (c : CoreId) (first second : Nat) :
    NoticesOnly (s.setCore c { s.core c with run := .halted, wait := none }) (s.haltCore c first second) := State.logRec_noticesOnly _ _

/-- The halted core stands at its instruction with its registers (R159). -/
theorem State.haltCore_halts (s : State) (c : CoreId) (first second : Nat) :
    let y := (s.haltCore c first second).core c
    y.run = .halted ∧ y.pc = (s.core c).pc ∧ y.wait = none ∧ y.stepping = (s.core c).stepping ∧ y.sys = (s.core c).sys ∧ y.g = (s.core c).g := by
  have halt := s.haltCore_noticesOnly c first second c
  rw [State.core_setCore, if_pos rfl] at halt
  simp only [Core.unnoted, Core.mk.injEq] at halt
  obtain ⟨hg, hpc, hsys, _, _, hrun, hwait, _, _, _, _, _, _, hstep, _⟩ := halt
  exact ⟨hrun, hpc, hwait, hstep, hsys, hg⟩

/-- R159: an exception while EXL is set halts the core at its instruction, with DOUBLE in CORE_CAUSE. -/
theorem State.except_double (s : State) (c : CoreId) (code sub : Nat) (tval : Word) (h : (s.core c).srBit srStatus stExl = true) (hcode : code < 256) :
    let y := (s.except c code sub tval).core c
    y.run = .halted ∧ y.pc = (s.core c).pc ∧ y.wait = none ∧ y.stepping = (s.core c).stepping ∧ fget (y.sr srCause) ⟨0, 8⟩ = excDouble ∧
      ∀ r, y.gr r = (s.core c).gr r := by
  have hdouble : s.except c code sub tval =
      (s.drawn.setCore c ((s.core c).setSr srCause (s.excCause excDouble code))).haltCore c (fget ((s.core c).sr srCause) ⟨0, 8⟩) code := by
    rw [State.except, if_pos h]
  have halt := State.haltCore_halts (s.drawn.setCore c ((s.core c).setSr srCause (s.excCause excDouble code))) c (fget ((s.core c).sr srCause) ⟨0, 8⟩) code
  simp only [State.core_setCore, if_true] at halt
  dsimp only
  rw [hdouble]
  generalize ((State.setCore _ _ _).haltCore c _ _).core c = y at halt ⊢
  obtain ⟨hrun, hpc, hwait, hstep, hsys, hg⟩ := halt
  have hcause : y.sr srCause = s.excCause excDouble code := by simp [Core.sr, hsys, Core.setSr]
  exact ⟨hrun, hpc, hwait, hstep, hcause ▸ (s.excCause_fields (by decide) hcode).1, fun r => by simp only [Core.gr, hg, Core.setSr]⟩

/-! ### The instruction of a core that is ready -/

theorem State.boundary_of_stepping_none {s : State} {c : CoreId} (h : (s.core c).stepping = none) : s.boundary c = s := by
  simp [State.boundary, h]

section
variable {s : State} {c : CoreId} (h : s.ready c = true)
include h

theorem State.ready_core : (s.fetched c).core c = s.core c := by
  simp only [State.ready, Bool.and_eq_true, beq_iff_eq] at h
  exact h.2

theorem State.ready_stepping : (s.core c).stepping = none := by
  simp only [State.ready, Bool.and_eq_true, Option.isNone_iff_eq_none] at h
  obtain ⟨⟨⟨⟨⟨_, _⟩, _⟩, hstep⟩, _⟩, _⟩ := h
  exact hstep

/-- A ready core issues its instruction: the fetch, the effect, and the boundary after it. -/
theorem State.ready_issue (f : State → State) : s.issue c f = (f (s.fetched c)).boundary c := by
  simp only [State.ready, Bool.and_eq_true, Option.isNone_iff_eq_none] at h
  obtain ⟨⟨⟨⟨⟨hat, hirq⟩, hwait⟩, _⟩, hfetch⟩, _⟩ := h
  have hrun : s.mayRun c = true := by simp [State.mayRun, hat, hwait]
  have hsettle : s.settle c = s := by simp [State.settle, hwait]
  simp only [State.issue, State.unlessIrq, hirq, hrun, if_true, hsettle, hfetch, State.fetched]

/-- An instruction of a ready core whose effect is an exception raises it. -/
theorem State.ready_raises {i : Instr} {f : State → State} {code sub : Nat} {tval : Word} (hvec : (s.core c).vectors = true)
    (hexec : exec i s = .next (s.issue c f)) (hf : f (s.fetched c) = (s.fetched c).except c code sub tval) (hcode : code < 256) (hsub : sub < 256) :
    Raises i c s code sub tval := by
  have hcore := State.ready_core h
  have entered := (s.fetched c).except_entered c tval (hcore.symm ▸ hvec) hcode hsub
  have hstep : (((s.fetched c).except c code sub tval).core c).stepping = none := by
    rw [State.except_vectors _ _ _ _ _ (hcore.symm ▸ hvec), hcore]
    exact State.ready_stepping h
  rw [hcore] at entered
  exact ⟨_, by rw [hexec, State.ready_issue h, hf, State.boundary_of_stepping_none hstep], entered⟩

/-- An instruction of a ready core whose effect is an exception halts a core whose EXL is set. -/
theorem State.ready_double {i : Instr} {f : State → State} {code sub : Nat} {tval : Word} (hexl : (s.core c).srBit srStatus stExl = true)
    (hexec : exec i s = .next (s.issue c f)) (hf : f (s.fetched c) = (s.fetched c).except c code sub tval) (hcode : code < 256) :
    Completes i s (fun t => (t.core c).run = .halted ∧ (t.core c).pc = (s.core c).pc ∧ (t.core c).wait = none ∧ fget ((t.core c).sr srCause) ⟨0, 8⟩ = 12 ∧
      ∀ r, (t.core c).gr r = (s.core c).gr r) := by
  have hcore := State.ready_core h
  have double := (s.fetched c).except_double c code sub tval (hcore.symm ▸ hexl) hcode
  rw [hcore] at double
  obtain ⟨hrun, hpc, hwait, hstep, hcause, hgr⟩ := double
  have hnone := hstep.trans (State.ready_stepping h)
  exact ⟨_, by rw [hexec, State.ready_issue h, hf, State.boundary_of_stepping_none hnone], hrun, hpc, hwait, hcause, hgr⟩

end

end Sys2Proof.Machine
end

section
/-! PROOF. What exception entry saves, and where the core goes (R157–R159, R584). -/
namespace Sys2Proof.Machine

/-- R584: BRK of a ready core halts it with cause 2, once it has retired, while a debugger is attached. -/
theorem execBrk_attached {s : State} {c : CoreId} (h : s.ready c = true) (hatt : (s.fetched c).on R.DBG_STAT F.DBG_STAT.ATTACHED = true) :
    exec (.brk c) s = .next ((s.fetched c).setCore c { (s.core c).next with dhalt := some 2 }) := by
  have hcore := State.ready_core h
  have hstep := State.ready_stepping h
  have hhalt : { (s.core c).next with dhalt := some 2, stepping := none } = { (s.core c).next with dhalt := some 2 } := by
    simp [Core.next, hstep]
  change Host.Outcome.next (s.issue c _) = _
  rw [State.ready_issue h, if_pos hatt, State.onCore, hcore, hhalt, State.boundary_of_stepping_none (by simp [Core.next, hstep])]

/-- Settles O22: every exception is one entry of its core (R158), which a core with EXL set answers with DOUBLE (R159). -/
theorem exceptionEntrySavesTheCore : Obligations.ExceptionEntrySavesTheCore := by
  unfold Obligations.ExceptionEntrySavesTheCore
  refine ⟨fun s c code sub tval hvec hcode hsub => ?_, fun s c h hvec => ⟨?_, ?_, fun hfree => ?_, fun hatt => ?_⟩, fun s c i h hexl hi => ?_⟩
  · obtain ⟨hent, hcd, hsb, hintr, hthr, hcores, hparts⟩ := s.except_entered c tval hvec hcode hsub
    exact ⟨hent, hcd, hsb, hintr, hthr, hcores, hparts.mono (by simp)⟩
  · refine State.ready_raises h (f := fun t => t.except c (if (t.core c).priv then excEcallP else excEcallU) 0 0) hvec rfl ?_ ?_ (by decide)
    · simp only [State.ready_core h]
      rfl
    · split <;> decide
  · exact State.ready_raises h (f := fun t => t.illegal c) hvec rfl rfl (by decide) (by decide)
  · exact State.ready_raises h hvec rfl (if_neg (by simp [hfree])) (by decide) (by decide)
  · refine ⟨_, execBrk_attached h hatt, ?_, CoreOnly.setCore _ c _, Only.setCore _ c _⟩
    simp [Core.next]
  · simp only [List.mem_cons, List.not_mem_nil, or_false] at hi
    rcases hi with rfl | rfl
    · refine State.ready_double h (f := fun t => t.except c (if (t.core c).priv then excEcallP else excEcallU) 0 0) hexl rfl rfl ?_
      split <;> decide
    · exact State.ready_double h (f := fun t => t.illegal c) hexl rfl rfl (by decide)

end Sys2Proof.Machine
end

section
/-! SUPPORT. The line that a core takes among those that are ready, and what taking it leaves (R161, R162). -/
namespace Sys2Proof.Machine

/-! ### The choice among the lines -/

section
variable (s : State) (c : CoreId)

/-- A line is ready where it is pending, enabled and above the threshold (R161). -/
theorem State.irqReady_iff (m : Nat) : s.irqReady c m = true ↔
    s.irqLine c m = true ∧ (s.core c).srBit srIrqEn m = true ∧ fget ((s.core c).sr srThr) ⟨0, 4⟩ < (s.core c).irqPri m := by
  simp only [State.irqReady, Bool.and_eq_true, decide_eq_true_eq]
  exact ⟨fun ⟨⟨hen, hthr⟩, hline⟩ => ⟨hline, hen, hthr⟩, fun ⟨hline, hen, hthr⟩ => ⟨⟨hen, hthr⟩, hline⟩⟩

/-- The line a core would take among lines 0 to k - 1. -/
def State.irqBestBelow (k : Nat) : Option Nat :=
  (List.range k).foldl (fun best n =>
    if s.irqReady c n then
      match best with
      | none => some n
      | some m => if (s.core c).irqPri m < (s.core c).irqPri n then some n else best
    else best) none

theorem State.irqBest_eq_below : s.irqBest c = s.irqBestBelow c 32 := rfl

/-- Line k against the best of the lines below it. -/
theorem State.irqBestBelow_succ (k : Nat) :
    s.irqBestBelow c (k + 1) =
      if s.irqReady c k = true ∧ ∀ m, s.irqBestBelow c k = some m → (s.core c).irqPri m < (s.core c).irqPri k then some k else s.irqBestBelow c k := by
  rw [State.irqBestBelow, List.range_succ, List.foldl_append, List.foldl_cons, List.foldl_nil, ← State.irqBestBelow]
  cases s.irqBestBelow c k with
  | none => simp
  | some m =>
    by_cases hready : s.irqReady c k = true
    · simp [hready]
    · simp [hready]

/-- Line n is the one of R161 among lines 0 to k - 1: it is ready, of the highest priority, and the lowest-numbered on a tie. -/
structure State.IrqTop (k n : Nat) : Prop where
  lt : n < k
  ready : s.irqReady c n = true
  top : ∀ m, m < k → s.irqReady c m = true → (s.core c).irqPri m < (s.core c).irqPri n ∨ ((s.core c).irqPri m = (s.core c).irqPri n ∧ n ≤ m)

/-- At most one line is the top one. -/
theorem State.IrqTop.unique {k n m : Nat} (hn : s.IrqTop c k n) (hm : s.IrqTop c k m) : n = m := by
  have hnm := hn.top m hm.lt hm.ready
  have hmn := hm.top n hn.lt hn.ready
  omega

/-- The best line is the top one, and there is none only where no line is ready. -/
theorem State.irqBestBelow_spec (k : Nat) :
    (s.irqBestBelow c k = none → ∀ m, m < k → s.irqReady c m = false) ∧ ∀ n, s.irqBestBelow c k = some n → s.IrqTop c k n := by
  induction k with
  | zero => exact ⟨fun _ m hm => absurd hm (Nat.not_lt_zero m), fun n h => by simp [State.irqBestBelow] at h⟩
  | succ k ih =>
    obtain ⟨ihnone, ihsome⟩ := ih
    rw [State.irqBestBelow_succ]
    split
    case isTrue hk =>
      obtain ⟨hready, hbeats⟩ := hk
      refine ⟨fun h => by simp at h, fun n h => ?_⟩
      obtain rfl := Option.some.inj h
      refine ⟨Nat.lt_succ_self k, hready, fun m hm hmready => ?_⟩
      rcases Nat.lt_succ_iff_lt_or_eq.mp hm with hlt | rfl
      · cases hbest : s.irqBestBelow c k with
        | none => simp [ihnone hbest m hlt] at hmready
        | some b =>
          have hb := (ihsome b hbest).top m hlt hmready
          have hbk := hbeats b hbest
          omega
      · exact .inr ⟨rfl, Nat.le_refl _⟩
    case isFalse hk =>
      refine ⟨fun h m hm => ?_, fun n h => ?_⟩
      · have hnot : s.irqReady c k = false := by simpa [h] using hk
        rcases Nat.lt_succ_iff_lt_or_eq.mp hm with hlt | rfl
        · exact ihnone h m hlt
        · exact hnot
      · have top := ihsome n h
        refine ⟨Nat.lt_succ_of_lt top.lt, top.ready, fun m hm hmready => ?_⟩
        rcases Nat.lt_succ_iff_lt_or_eq.mp hm with hlt | rfl
        · exact top.top m hlt hmready
        · have hle : (s.core c).irqPri m ≤ (s.core c).irqPri n := by simpa [h, hmready] using hk
          have hlt := top.lt
          omega

/-- R161: the line a core takes is the top one of the 32. -/
theorem State.irqBest_eq_some_iff (n : Nat) : s.irqBest c = some n ↔ s.IrqTop c 32 n := by
  rw [State.irqBest_eq_below]
  obtain ⟨hnone, hsome⟩ := s.irqBestBelow_spec c 32
  refine ⟨hsome n, fun top => ?_⟩
  cases hbest : s.irqBestBelow c 32 with
  | none => exact absurd top.ready (by simp [hnone hbest n top.lt])
  | some m => rw [(hsome m hbest).unique s c top]

/-- Where there is no line to take, no line ends a WFI (R162). -/
theorem State.wfiEnds_of_irqBest_none (h : s.irqBest c = none) : s.wfiEnds c = false := by
  have hnone := (s.irqBestBelow_spec c 32).1 (by rw [← State.irqBest_eq_below, h])
  simpa [State.wfiEnds] using hnone

end

/-! ### Taking a line -/

/-- CORE_CAUSE of an interrupt of line n, CODE and SUB free: its flag and LINE. -/
theorem irqCause_fields (d : Nat) {n : Nat} (hn : n < 32) :
    (BitVec.ofNat 32 (d % 65536 + n * 65536 + 2 ^ 31)).getLsbD 31 = true ∧ fget (BitVec.ofNat 32 (d % 65536 + n * 65536 + 2 ^ 31)) ⟨16, 5⟩ = n := by
  have hd : d % 65536 < 65536 := Nat.mod_lt _ (by decide)
  constructor
  · rw [BitVec.getLsbD_ofNat, Nat.testBit_eq_decide_div_mod_eq]
    simp only [Bool.and_eq_true, decide_eq_true_eq]
    omega
  · simp only [fget, BitVec.toNat_ushiftRight, BitVec.toNat_ofNat, Nat.shiftRight_eq_div_pow]
    omega

/-- The core once it has taken line n, CODE and SUB of its cause being the low bits of d (R158, R161). -/
def Core.tookIrq (x : Core) (d n : Nat) : Core :=
  let y := x.enter (BitVec.ofNat 32 (d % 65536 + n * 65536 + 2 ^ 31)) x.pc 0 false 0x100
  (y.putSrBit srStatus stInwait x.wait.isSome).setSr srThr (fput (y.sr srThr) ⟨8, 4⟩ (x.irqPri n))

section
variable (x : Core) (d : Nat) {n : Nat}

theorem Core.tookIrq_entered : x.entered (x.tookIrq d n) 0 (x.srBit srStatus stExl) 0x100 := by
  have entered := x.enter_entered (BitVec.ofNat 32 (d % 65536 + n * 65536 + 2 ^ 31)) 0 false 0x100
  rw [Bool.false_or] at entered
  exact entered.putInwait_setThr _ _

theorem Core.tookIrq_cause (hn : n < 32) : (x.tookIrq d n).srBit srCause 31 = true ∧ fget ((x.tookIrq d n).sr srCause) ⟨16, 5⟩ = n := by
  have hcause : (x.tookIrq d n).sr srCause = BitVec.ofNat 32 (d % 65536 + n * 65536 + 2 ^ 31) := by
    rw [Core.tookIrq, Core.sr_setSr, if_neg (by decide), Core.putSrBit, Core.sr_setSr, if_neg (by decide), Core.enter_cause]
  rw [Core.srBit, hcause]
  exact irqCause_fields d hn

/-- The priority in service is that of the line, and the threshold stays (R161). -/
theorem Core.tookIrq_thr :
    fget ((x.tookIrq d n).sr srThr) ⟨8, 4⟩ = x.irqPri n ∧ fget ((x.tookIrq d n).sr srThr) ⟨0, 4⟩ = fget (x.sr srThr) ⟨0, 4⟩ := by
  have hpri : x.irqPri n < 2 ^ 4 := Nat.mod_lt _ (Nat.two_pow_pos 4)
  rw [Core.tookIrq, Core.sr_setSr, if_pos rfl, fget_fput _ _ _ (by decide), fget_fput_other _ _ _ _ (by decide) (by decide),
    Core.enter_sr_other _ _ _ _ _ _ (by decide)]
  exact ⟨Nat.mod_eq_of_lt hpri, rfl⟩

theorem Core.tookIrq_inwait : (x.tookIrq d n).srBit srStatus stInwait = x.wait.isSome := by
  rw [Core.tookIrq, Core.srBit_setSr, if_neg (by decide), Core.srBit_putSrBit _ _ _ _ _ _ (by decide), if_pos ⟨rfl, rfl⟩]

end

section
variable (s : State) (c : CoreId) (n : Nat)

/-- Taking a line changes the core and, where the Heel core takes line 1, HCMD_SEEN (R161, R163). -/
theorem State.takeIrq_eq (hbase : (s.core c).srAddr srVbaseLo srVbaseHi ≠ 0) :
    ∃ b, s.takeIrq c n = (s.drawn.setCore c ((s.core c).tookIrq s.draw.toNat n)).withBoot b := by
  unfold State.takeIrq
  dsimp only
  rw [if_neg hbase]
  cases c with
  | heel =>
    by_cases hn : n = 1
    · exact ⟨{ s.boot with cmdSeen := false }, if_pos hn⟩
    · exact ⟨s.boot, if_neg hn⟩
  | sole k => exact ⟨s.boot, rfl⟩
  | keeper d => exact ⟨s.boot, rfl⟩

/-- The core, and nothing else but HCMD_SEEN and the free values, changes as a line is taken. -/
theorem State.takeIrq_core (hbase : (s.core c).srAddr srVbaseLo srVbaseHi ≠ 0) :
    (s.takeIrq c n).core c = (s.core c).tookIrq s.draw.toNat n ∧ CoreOnly c s (s.takeIrq c n) ∧ Only [.cores, .free, .boot] s (s.takeIrq c n) := by
  obtain ⟨b, hb⟩ := s.takeIrq_eq c n hbase
  rw [hb]
  exact ⟨by simp, CoreOnly.setCore s.drawn c _, (((Only.drawn s).mono (by simp)).trans ((Only.setCore _ c _).mono (by simp))).trans
    ((Only.withBoot _ b).mono (by simp))⟩

end

/-! ### When a line is due -/

section
variable {s : State} {c : CoreId} {n : Nat}

theorem State.unlessIrq_due (h : s.irqDue c = some n) (f : State → State) : s.unlessIrq c f = s.takeIrq c n := by
  rw [State.unlessIrq, h]

theorem State.unlessIrq_none (h : s.irqDue c = none) (f : State → State) : s.unlessIrq c f = f s := by
  rw [State.unlessIrq, h]

/-- An instruction whose interrupt is due leaves what taking it leaves. -/
theorem State.issue_due (h : s.irqDue c = some n) (f : State → State) : s.issue c f = s.takeIrq c n :=
  State.unlessIrq_due h _

/-- No line is due where IE is clear, or where there is none to take. -/
theorem State.irqDue_eq_none (h : (s.core c).srBit srStatus stIe = false ∨ s.irqBest c = none) : s.irqDue c = none := by
  unfold State.irqDue
  dsimp only
  rcases h with hie | hbest
  · rw [hie, Bool.and_false, if_neg Bool.false_ne_true]
  · rw [hbest, ite_self]

/-- At a boundary, with IE set and no access in progress, the line to take is due (R161, R162). -/
theorem State.irqDue_eq_best (hat : s.atBoundary c = true) (hie : (s.core c).srBit srStatus stIe = true)
    (haccess : ∀ o, (s.core c).wait ≠ some (.access o)) (hdrain : ∀ o, (s.core c).wait ≠ some (.drain o)) : s.irqDue c = s.irqBest c := by
  unfold State.irqDue
  dsimp only
  split
  · rename_i o hwait
    exact absurd hwait (haccess o)
  · rename_i o hwait
    exact absurd hwait (hdrain o)
  · rw [hat, hie]
    rfl

/-- The command without a line due acts only on a WFI that a line ends. -/
theorem execInterruptEntry_idle (hdue : s.irqDue c = none) (h : (s.core c).wait ≠ some .wfi ∨ s.wfiEnds c = false) :
    exec (.interruptEntry c) s = .next s := by
  change Host.Outcome.next (s.unlessIrq c _) = _
  rw [State.unlessIrq_none hdue, if_neg]
  rcases h with hwait | hends
  · simp [hwait]
  · simp [hends]

/-- The command with a line due takes it. -/
theorem execInterruptEntry_due (h : s.irqDue c = some n) : exec (.interruptEntry c) s = .next (s.takeIrq c n) := by
  change Host.Outcome.next (s.unlessIrq c _) = _
  rw [State.unlessIrq_due h]

end

end Sys2Proof.Machine
end

section
/-! PROOF. Interrupt entry: the line that is taken, what its entry saves, and that it comes before what the core was to do (R161, R162). -/
namespace Sys2Proof.Machine

/-- Settles O23: the choice is the top line of R161; at a boundary its entry comes before the core's instruction or the end of its wait. -/
theorem interruptEntryTakesTheHighestLine : Obligations.InterruptEntryTakesTheHighestLine := by
  unfold Obligations.InterruptEntryTakesTheHighestLine
  refine ⟨fun s c n => ?_, fun s c h => ?_, fun s c n hat _ hbest hie hbase haccess hdrain => ?_, fun s c n hdue => ?_⟩
  · simp only [← State.irqReady_iff]
    rw [State.irqBest_eq_some_iff]
    exact ⟨fun top => ⟨top.lt, top.ready, top.top⟩, fun ⟨hlt, hr, htop⟩ => ⟨hlt, hr, htop⟩⟩
  · have hdue : s.irqDue c = none := State.irqDue_eq_none (h.imp_left And.left)
    exact ⟨s, execInterruptEntry_idle hdue (h.imp And.right (s.wfiEnds_of_irqBest_none c)), rfl⟩
  · have hdue : s.irqDue c = some n := (State.irqDue_eq_best hat hie haccess hdrain).trans hbest
    have hn : n < 32 := ((s.irqBest_eq_some_iff c n).mp hbest).lt
    obtain ⟨hcore, hcores, hparts⟩ := s.takeIrq_core c n hbase
    obtain ⟨hintr, hline⟩ := (s.core c).tookIrq_cause s.draw.toNat hn
    obtain ⟨hpri, hthr⟩ := (s.core c).tookIrq_thr s.draw.toNat (n := n)
    refine ⟨_, execInterruptEntry_due hdue, ?_⟩
    dsimp only
    rw [hcore]
    exact ⟨Core.tookIrq_entered _ _, hintr, hline, hpri, hthr, Core.tookIrq_inwait _ _, hcores, hparts⟩
  · refine ⟨_, execInterruptEntry_due hdue, fun i hi => ?_, fun dl hwait => ?_, fun d h tg dl x hwait => ?_, fun d h tg dl x hwait => ?_⟩
    · simp only [List.mem_cons, List.not_mem_nil, or_false] at hi
      rcases hi with rfl | rfl | rfl <;> exact congrArg Host.Outcome.next (State.issue_due hdue _)
    · change execWaittEnd c s = _
      rw [execWaittEnd, hwait]
      exact congrArg Host.Outcome.next (State.unlessIrq_due hdue _)
    · change execWaitgeMet c s = _
      rw [execWaitgeMet, hwait]
      exact congrArg Host.Outcome.next (State.unlessIrq_due hdue _)
    · change execWaitgeDeadline c s = _
      rw [execWaitgeDeadline, hwait]
      exact congrArg Host.Outcome.next (State.unlessIrq_due hdue _)

end Sys2Proof.Machine
end
